-- ==== Sys2Proof/Word.lean ====
section
/-! DEFINITION. Word types: the 64-bit CSR of R10 and the byte of R13. -/

namespace Sys2Proof

/-- A control and status register: 64 bits (R10). -/
abbrev Word := BitVec 64

/-- A byte of memory (R13). -/
abbrev Byte := BitVec 8

end Sys2Proof
end

