-- ==== Sys2Proof/Syntax.lean ====
section
/-! DEFINITION. The commands of the block: one constructor per row of spec/opcode_table.json, with
the operands a row needs. The rows carry no bit fields, so the operands are the model's choice:
which unit a step happens in, what software writes, and what the outside world (far ends, sensors,
time, the physical lanes) supplies at that step; see notes/assumptions/1.md. -/

namespace Sys2Proof

/-- A queue of a classroom's front end (R56). -/
inductive Queue
  | t | v | m | s
deriving DecidableEq, Repr

/-- What a read of protected storage met: no error, a corrected one, an uncorrectable one (R32, R202, R203). -/
inductive Ecc
  | clean | corrected | uncorrectable
deriving DecidableEq, Repr

/-- The width of a CSR access (R10): 64 bits, or the aligned low or high 32 bits. -/
inductive AccWidth
  | full | low | high
deriving DecidableEq, Repr


/-- Who makes a request to a memory channel (R217 to R219): a classroom's M engine (demand or stream prefetch) or
Satchel, an NI, the tile movers of a die; a die's Proctor cores or tile-entry walks, under MSRs. -/
inductive Requester
  | mDemand (c : Fin 64)
  | mPrefetch (c : Fin 64)
  | satchel (c : Fin 64)
  | ni (k : Fin 32)
  | mig (die : Fin 2)
  | proctor (die : Fin 2)
  | walk (die : Fin 2)
deriving DecidableEq, Repr

/-- Where a request goes (R217, R222): a memory channel, or an SRAM slice. -/
inductive Target
  | channel (ch : Fin 48)
  | slice (sl : Fin 64)
deriving DecidableEq, Repr

/-- What a transfer of a memory channel met on the link (R203): nothing, an error that the link ECC corrected, errors that one or
two retries mended, or one that two retries did not mend. -/
inductive LinkEcc
  | clean | corrected | retried (twice : Bool) | failed
deriving DecidableEq, Repr

/-- The commands, in the order of the table. -/
inductive Instr
  /-- TMUL (R76). Tensor product C = A · B on the arrays, streamed from the OB against a stationary tile, with optional accumulate and stochastic rounding. -/
  | tmul (c : Fin 64)
  /-- TMULT (R73). Tensor product C = A · Bᵀ, with B loaded through the transposer. -/
  | tmult (c : Fin 64)
  /-- TMULTA (R101). Tensor product C = Aᵀ · B, with A streamed column by column through per-row FIFOs. -/
  | tmulta (c : Fin 64)
  /-- TPAIR (R76). Paired-BF16 product run as three BF16 passes in the orientation that ORIENT selects. -/
  | tpair (c : Fin 64)
  /-- TLOADW (R77). Loads a stationary tile, plain or transposed, into the shadow weight bank. -/
  | tloadw (c : Fin 64)
  /-- VADD (R83). Element-wise add or subtract, with optional broadcast, in the V engine. -/
  | vadd (c : Fin 64)
  /-- VFMA (R83). Element-wise fused multiply-add into the destination. -/
  | vfma (c : Fin 64)
  /-- VEXP (R83). Element-wise exponential of a scaled source. -/
  | vexp (c : Fin 64)
  /-- VRSQ (R83). Element-wise inverse square root with epsilon. -/
  | vrsq (c : Fin 64)
  /-- VAMAX (R89). Captures an amax, or in EXPONENT mode sets a scale slot's SEXP from an amax history. -/
  | vamax (c : Fin 64)
  /-- VSMX (R84). One block of online softmax for ring attention, updating the m, l and alpha state. -/
  | vsmx (c : Fin 64)
  /-- VNORM (R83). Row normalisation, LayerNorm or RMS, with gain. -/
  | vnorm (c : Fin 64)
  /-- VQUANT (R85). Quantises into E4M3, E5M2 or INT8 with saturation, block flags and amax capture. -/
  | vquant (c : Fin 64)
  /-- VCVT (R83). Element-wise format conversion. -/
  | vcvt (c : Fin 64)
  /-- VSUMSQ (R86). Adds a tensor's sum of squares into the report card scratch row of its layer. -/
  | vsumsq (c : Fin 64)
  /-- VRNG (R88). Draws Philox random values into a tensor and advances the stream counter. -/
  | vrng (c : Fin 64)
  /-- VQUIZ (R87). Recomputes sampled output tiles in FP32, bins the relative differences and raises alerts. -/
  | vquiz (c : Fin 64)
  /-- MLOAD (R90). Moves a tensor from anywhere in the partition's DVA range into the OB. -/
  | mload (c : Fin 64)
  /-- MSTORE (R90). Moves a tensor from the OB to anywhere in the partition's DVA range. -/
  | mstore (c : Fin 64)
  /-- MCONV (R90). Moves a tensor while converting its format, with scaling on read and on write. -/
  | mconv (c : Fin 64)
  /-- MGATHER (R91). Gathers table rows under an index tensor. -/
  | mgather (c : Fin 64)
  /-- MSCATTER (R91). Scatters rows into a table under an index tensor, optionally adding in FP32. -/
  | mscatter (c : Fin 64)
  /-- MPREF (R92). Requests that a region's tiles be promoted into the SRAM tier; completes without waiting for data. -/
  | mpref (c : Fin 64)
  /-- MUPD (R93). Hands one optimiser update to the classroom's Satchel queue. -/
  | mupd (c : Fin 64)
  /-- SWAIT (R94). Sync instruction that waits on a token or trigger counter condition. -/
  | swait (c : Fin 64)
  /-- SSIG (R94). Adds to, subtracts from or sets a token's COUNT, or sets its TARGET. -/
  | ssig (c : Fin 64)
  /-- SFENCE (R94). Waits until earlier memory accesses of the classroom complete at classroom or device scope. -/
  | sfence (c : Fin 64)
  /-- SBAR (R97). Joins a launch barrier of the LAUNCH; all participants are released when VALUE classrooms arrive. -/
  | sbar (c : Fin 64)
  /-- STRIG (R96). Release-ordered increment of a trigger counter, notifying the Prefect. -/
  | strig (c : Fin 64)
  /-- SLOOP (R46). Opens a zero-overhead loop in the front end's decode cycle. -/
  | sloop (c : Fin 64) (ecc : Ecc)
  /-- SEND (R60). Ends the lesson once the other queues and memory operations drain; the classroom enters ENDED. -/
  | send (c : Fin 64)
  /-- FRONT_END_DISPATCH (R35). Each TCLK the front end decodes one instruction, resolves and checks its descriptors, and places it in its queue, or stalls on a full queue. -/
  | frontEndDispatch (c : Fin 64) (ecc : Ecc)
  /-- INSTRUCTION_COMPLETE (R37). An issued instruction's results are written, and its DONE signal and flags are applied. -/
  | instructionComplete (c : Fin 64) (q : Queue) (n : Nat)
  /-- READ_INC (R40). A token is incremented when an instruction's last source read completes. -/
  | readInc (c : Fin 64) (q : Queue) (n : Nat)
  /-- WAIT_TIMEOUT (R45). A queue head that waits on a token longer than WAIT_TMO × 4,096 TCLK stops the lesson. -/
  | waitTimeout (c : Fin 64) (q : Queue)
  /-- CLASSROOM_FAULTED (R63). After a fault stop drains, the classroom enters FAULTED, writes CLS_FAULT and reports status to its Proctor core. -/
  | classroomFaulted (c : Fin 64)
  /-- CLASSROOM_HALTED (R61). After HALT, the classroom passes from HALTING to HALTED once its last issued instruction completes. -/
  | classroomHalted (c : Fin 64)
  /-- RAMP_SLOT_REQUEST (R114). A gap reaching 65 cycles with HOLD = 0 requests a ramp slot. -/
  | rampSlotRequest (c : Fin 64)
  /-- RAMP_SLOT_GRANT (R115). A ramp slot is granted in request order and the ramp begins. -/
  | rampSlotGrant (c : Fin 64) (waited : Nat)
  /-- RAMP_STEP (R114). Every 50 SCLK a ramp gates or releases 8 more cell rows; the last step reaches IDLE or FILL and frees the slot. -/
  | rampStep (c : Fin 64)
  /-- SATCHEL_TAKE (R178). The Satchel takes the head MUPD, reads and checks its parameter record and begins its fence wait. -/
  | satchelTake (c : Fin 64)
  /-- FENCE_DRAIN (R170). The weight fence drains; the Satchel latches policies, checks the step record and starts the update. -/
  | fenceDrain (c : Fin 64)
  /-- FENCE_TIMEOUT (R173). A MUPD waiting at its fence past FENCE_TMO writes one FENCE_TIMEOUT record and keeps waiting. -/
  | fenceTimeout (c : Fin 64)
  /-- MUPD_COMPLETE (R93). A Satchel update's last write completes; squares and amax are added, MUPD_DONE advances and the token is signalled. -/
  | mupdComplete (c : Fin 64)
  /-- CTX_OPEN (R254). Opens a context, sets its owner port and assigns a Proctor core. -/
  | ctxOpen (x : Fin 65536)
  /-- CTX_BIND (R255). Replaces the context's classroom binding and optionally moves it to another Proctor core. -/
  | ctxBind (x : Fin 65536)
  /-- LESSON_LOAD (R256). Reads a lesson image, checks it, and writes it into instruction-memory segments of the named classrooms. -/
  | lessonLoad (x : Fin 65536)
  /-- LESSON_LOAD_DONE (R30). The image write ends; the CRC is judged and segments are marked valid or empty, and the command completes. -/
  | lessonLoadDone (x : Fin 65536)
  /-- LAUNCH (R257). Starts the lesson in each named classroom with its own descriptor table. -/
  | launch (x : Fin 65536)
  /-- CLASSROOM_START (R33). A classroom reads its descriptor table, initialises tokens, advance entries and flags, and enters RUNNING. -/
  | classroomStart (c : Fin 64)
  /-- LAUNCH_COMPLETE (R257). Once every named classroom has ENDED, FAULTED or HALTED, LAUNCH completes with its status. -/
  | launchComplete (x : Fin 65536)
  /-- HALT (R259). Halts every classroom of the running LAUNCH. -/
  | halt (x : Fin 65536)
  /-- RESUME (R259). Resumes halted classrooms, or in RUNNING those halted under SPOT_QUIZ_ALERT. -/
  | resume (x : Fin 65536)
  /-- DRAIN (R260). Brings the context to rest according to its starting state. -/
  | drain (x : Fin 65536)
  /-- CTX_CLOSE (R261). Frees lessons, clears the binding, leaves groups and closes the context. -/
  | ctxClose (x : Fin 65536)
  /-- GROUP_JOIN (R335). Checks a group record and member table and joins the group. -/
  | groupJoin (x : Fin 65536)
  /-- GROUP_LEAVE (R336). Times out the group's posted operations, discards its early chunks and removes the group. -/
  | groupLeave (x : Fin 65536)
  /-- SNAP_BEGIN (R364). Checks a snapshot list, captures device-held state and write-protects the listed tiles. -/
  | snapBegin (x : Fin 65536)
  /-- SNAP_COMMIT (R372). Seals or aborts the open snapshot and writes its manifest. -/
  | snapCommit (x : Fin 65536)
  /-- RESTORE (R376). Checks a manifest, recomputes shard hashes and applies the snapshot to the partition. -/
  | restore (x : Fin 65536) (far : List (List Byte))
  /-- POLICY_SET (R396). Arms or disarms one policy at device or partition scope and writes POLICY_CHANGED. -/
  | policySet (x : Fin 65536)
  /-- SQ_TAIL_WRITE (R247). The context doorbell: a SQ_TAIL write adds commands, or is ignored and sets Q_ERR. -/
  | sqTailWrite (port : Fin 4) (x : Fin 65536) (w : AccWidth) (v : Word)
  /-- COMMAND_READ (R248). The Proctor core reads the next SQ entry once capacity and WAIT allow, and starts it. -/
  | commandRead (x : Fin 65536)
  /-- CQ_EVENT_TIMER (R265). TIMER µs after the first unannounced completion, a CQ event is sent. -/
  | cqEventTimer (x : Fin 65536)
  /-- CONTEXT_ADOPT (R246). A write of CTX.STATE.PORT adopts a context whose owner port is not UP. -/
  | contextAdopt (port : Fin 4) (x : Fin 65536) (w : AccWidth) (v : Word)
  /-- PARTITION_ENABLE (R241). A write of SYS.PART[p].CFG.EN enables or disables a partition, or is ignored with EN_ERR. -/
  | partitionEnable (port : Fin 4) (p : Fin 8) (w : AccWidth) (v : Word)
  /-- CFG_WR (R242). A host CSR write to a register with no behaviour of its own, applied as access rights and field types allow. -/
  | cfgWr (port : Fin 4) (r : Fin 33554432) (w : AccWidth) (v : Word)
  /-- RC_READ (R8). A read of a register holding RC fields returns the values and clears them. -/
  | rcRead (port : Fin 4) (r : Fin 33554432) (w : AccWidth)
  /-- CHAINED_COUNTER_READ (R403). A read of an even chained counter latches the odd counter of the pair. -/
  | chainedCounterRead (port b : Fin 4) (u : Fin 64) (k : Fin 16) (w : AccWidth)
  /-- MEM_RD (R237). A host read of partition DVA over ZHL, behaving as a demand access. -/
  | memRd (port : Fin 4) (p : Fin 8) (dva : BitVec 48) (n : Nat)
  /-- MEM_WR (R237). A host write of partition DVA over ZHL, behaving as a demand access. -/
  | memWr (port : Fin 4) (p : Fin 8) (dva : BitVec 48) (data : List Byte)
  /-- ZHL_SIGNAL_DETECT (R238). Signal detected on 4 or more lanes moves a ZHL port from DOWN to TRAINING. -/
  | zhlSignalDetect (k : Fin 4) (lanes : BitVec 8)
  /-- ZHL_TRAINED (R238). Training completes at width 8 or 4 and the port enters UP. -/
  | zhlTrained (k : Fin 4) (lanes : BitVec 8)
  /-- ZHL_TRAINING_TIMEOUT (R238). 10 ms in TRAINING without UP returns the port to DOWN. -/
  | zhlTrainingTimeout (k : Fin 4)
  /-- ZHL_LINK_LOSS (R238). Loss of signal or 16 retries of one flit takes the port back to TRAINING with a LINK_DOWN record. -/
  | zhlLinkLoss (k : Fin 4) (lanes : BitVec 8) (fec retries : Nat)
  /-- ZHL_ENABLE (R238). A write of HL.CTRL.EN enables or disables a ZHL port. -/
  | zhlEnable (port k : Fin 4) (w : AccWidth) (v : Word)
  /-- LINK_EVENT_TIMER (R266). At the end of the 10 ms limit, a withheld port change is announced with the port's present state. -/
  | linkEventTimer (port : Fin 36)
  /-- OBJ_CREATE (R206). Creates an object and reserves its home frames or SRAM frames. -/
  | objCreate (p : Fin 8)
  /-- OBJ_DESTROY (R206). Waits for moves to finish, then removes an object and frees its frames. -/
  | objDestroy (p : Fin 8)
  /-- PROMOTE (R206). Moves slow-tier tiles of a range into the SRAM tier. -/
  | promote (p : Fin 8)
  /-- DEMOTE (R206). Moves SRAM-tier tiles of a range back to their home frames. -/
  | demote (p : Fin 8)
  /-- PIN (R206). Sets PIN on the tiles of a range. -/
  | pin (p : Fin 8)
  /-- UNPIN (R206). Clears PIN on the tiles of a range. -/
  | unpin (p : Fin 8)
  /-- RESTORE_TILE (R212). Copies a replica into a fresh frame, clears poison and retires the failed frame. -/
  | restoreTile (p : Fin 8)
  /-- QUERY (R206). Writes the tile entries of a range into a buffer. -/
  | query (p : Fin 8)
  /-- FENCE (R206). A MIG queue entry with no action that marks a point in the queue. -/
  | fence (p : Fin 8)
  /-- MIG_Q_TAIL_WRITE (R205). The MIG doorbell: a Q_TAIL write adds entries or is ignored with Q_ERR. -/
  | migQTailWrite (port : Fin 4) (p : Fin 8) (w : AccWidth) (v : Word)
  /-- MIG_ENTRY_READ (R207). The MIG reads and checks the next command entry and starts it. -/
  | migEntryRead (p : Fin 8)
  /-- MIG_COMPLETION (R205). When every tile of an entry is done, its completion record is written and Q_HEAD advances. -/
  | migCompletion (p : Fin 8)
  /-- MIG_CQ_EVENT_TIMER (R266). 10 µs after the first unannounced DONE completion, a MIG_CQ event is sent. -/
  | migCqEventTimer (p : Fin 8)
  /-- TILE_MOVE_START (R208). A tile mover starts a tile's move with the first read of its source and sets MOVING. -/
  | tileMoveStart (p : Fin 8) (idx t : Nat)
  /-- TILE_ENTRY_SWITCH (R207). After the last byte is written, the tile entry switches to the destination and stalled writes proceed. -/
  | tileEntrySwitch (n : Nat) (corrected : Nat)
  /-- AGING_TICK (R209). Every AGE_TICK × 10 µs, each resident tile's AGE is cleared or raised. -/
  | agingTick
  /-- POISON_TILE (R210). An uncorrectable error poisons a tile, answers its waiters with POISONED and writes one record. -/
  | poisonTile (p : Fin 8) (oi : Fin 1048576) (t : Nat)
  /-- SRAM_DIE_FAILED (R213). An SRAM die fails; clean tiles return home, the others are poisoned and its classrooms become UNAVAILABLE. -/
  | sramDieFailed (h : Fin 8)
  /-- CHANNEL_FAILED (R213). An LPDDR5X channel fails; its slow-tier tiles are poisoned and its frames withdrawn. -/
  | channelFailed (ch : Fin 48)
  /-- SCRUB_READ (R204). Patrol scrub reads a frame, writes back corrections and poisons on an uncorrectable error. -/
  | scrubRead (ch : Fin 48) (frame : Fin 262144) (ecc : Ecc)
  /-- MIG_MODE_WRITE (R209). A write of MIG.PART[p].CFG.MODE changes the tier mode, or is ignored with MODE_IGN while objects exist. -/
  | migModeWrite (port : Fin 4) (p : Fin 8) (w : AccWidth) (v : Word)
  /-- RING_BASE_WRITE (R215). A write of Q_BASE or CQ_BASE is accepted only while the queue is empty, otherwise it sets Q_ERR. -/
  | ringBaseWrite (port : Fin 4) (p : Fin 8) (pft cq : Bool) (w : AccWidth) (v : Word)
  /-- REQUEST_ADMISSION (R225). A tagged or MSR request is admitted at a sorter, or refused and parked at a per-bank limit. -/
  | requestAdmission (dest : Target) (who : Requester) (p : Fin 8) (frame : Fin 262144) (block : Fin 256) (first : Fin 256) (len : Nat) (write : Bool) (ecc : Ecc)
  /-- PARKED_ADMISSION (R225). As bank places free, parked requests are admitted in the order of their first refusal. -/
  | parkedAdmission (ch : Fin 48)
  /-- BANK_COMMAND (R223). When a bank can take a command, the sorter picks an urgent request, a row hit, the oldest read or a write. -/
  | bankCommand (ch : Fin 48) (b : Fin 16) (ecc : Ecc) (link : LinkEcc)
  /-- WRITE_BUFFER_DRAIN (R224). The channel write buffer drains to the banks when full enough, when no read waits, or when a bank is idle. -/
  | writeBufferDrain (ch : Fin 48) (b : Fin 16) (link : LinkEcc)
  /-- REQUEST_URGENT (R226). A request that has waited AGE_LIMIT MCLK cycles becomes urgent. -/
  | requestUrgent (ch : Fin 48) (n : Nat)
  /-- BANK_HOTSPOT (R227). A bank held at its limit for HOT_TMO writes a BANK_HOTSPOT record. -/
  | bankHotspot (ch : Fin 48) (b : Fin 16) (due : Bool)
  /-- MPREF_PROMOTION (R232). The MIG serves an entry of its prefetch queue after command entries, promoting or dropping the tile. -/
  | mprefPromotion (die : Fin 2)
  /-- OPERATION_POST (R342). The device reads and checks a Prefect posting-ring entry and posts or refuses it. -/
  | operationPost (p : Fin 8)
  /-- PFT_Q_TAIL_WRITE (R339). The Prefect posting doorbell: a Q_TAIL write adds entries or is ignored with Q_ERR. -/
  | pftQTailWrite (port : Fin 4) (p : Fin 8) (w : AccWidth) (v : Word)
  /-- PREFECT_SEND (R341). Prefect SEND operation: sends COUNT elements to a peer rank. -/
  | prefectSend
  /-- RECV (R341). Prefect RECV operation: writes the matching SEND's chunks into DST. -/
  | recv
  /-- ALL_REDUCE (R344). Ring or Bell-class all-reduce over the group's axes. -/
  | allReduce
  /-- REDUCE_SCATTER (R344). Ring reduce-scatter that leaves this member's block of the reduction. -/
  | reduceScatter
  /-- ALL_GATHER (R344). Ring all-gather of every member's block. -/
  | allGather
  /-- ALL_TO_ALL (R346). Sends block j to rank j directly over plus or minus trunks. -/
  | allToAll
  /-- BROADCAST (R346). Broadcasts the root's SRC to every member along each axis. -/
  | broadcast
  /-- BARRIER (R348). Bell-class barrier over the group. -/
  | barrier
  /-- NORM (R349). Fused global-norm reduction of report card gradient squares and the loss sum into GN_BASE. -/
  | norm
  /-- CTR_ADD (R341). Adds a value to a trigger counter on a peer rank. -/
  | ctrAdd
  /-- OPERATION_FIRE (R343). A posted operation fires in the cycle after its trigger threshold holds. -/
  | operationFire
  /-- OPERATION_COMPLETE (R343). When all its chunks are accepted or landed, an operation raises DONE_CTR and writes its completion. -/
  | operationComplete
  /-- CHUNK_ARRIVAL (R352). A received chunk is checked for tag and CRC, matched to an operation, reduced or written, or buffered early. -/
  | chunkArrival (k : Fin 32)
  /-- PREFECT_WATCHDOG (R357). A fired operation with no progress for WD_TMO completes with ORDER_MISMATCH or TIMEOUT and sends poisoned chunks. -/
  | prefectWatchdog (n : Nat)
  /-- TRIGGER_COUNTER_WRITE (R338). A host write of PFT.CTR replaces the counter value before the cycle's increments. -/
  | triggerCounterWrite (port : Fin 4) (n : Fin 4096) (w : AccWidth) (v : Word)
  /-- FRAME_SEND (R303). A frame, new or resent, starts on the admitted lane whose next frame starts first. -/
  | frameSend (k : Fin 32) (lane : Fin 8) (dly : BitVec 10)
  /-- FRAME_RECEIVE (R300). A received frame is decoded and checked, delivered or discarded, and answered by ACK or NAK. -/
  | frameReceive (k : Fin 32) (lane : Fin 8) (wire : BitVec 38080) (rtt : BitVec 16)
  /-- RETRY_TIMEOUT (R301). A frame not acknowledged within RETRY_TMO is resent. -/
  | retryTimeout (k : Fin 32) (fseq : BitVec 16)
  /-- PORT_ALIGN (R299). A receive lane locked with TONE_OK moves the port from DOWN to ALIGN and training frames start. -/
  | portAlign (k : Fin 32) (lane : Fin 8)
  /-- NEGOTIATE (R304). Version and epoch exchange that brings the port UP, resuming or starting an epoch. -/
  | negotiate (k : Fin 32) (farMin farMax : BitVec 8) (farEpoch : BitVec 32)
  /-- LINK_VERSION (R299). With no common version, the exchange repeats every 100 ms with a LINK_VERSION record. -/
  | linkVersion (k : Fin 32) (farMin farMax : BitVec 8)
  /-- LINK_RETRAIN (R299). A frame resent 16 times, or 100 µs without decode, returns the port from UP to ALIGN. -/
  | linkRetrain (k : Fin 32) (dark : Bool)
  /-- PORT_ALIGN_TIMEOUT (R299). 10 ms in ALIGN or NEGOTIATE without an admitted lane returns the port to DOWN. -/
  | portAlignTimeout (k : Fin 32)
  /-- RENEG (R304). A write of NI.CTRL.RENEG forces a renegotiation once the retry buffer is acknowledged. -/
  | reneg (port : Fin 4) (k : Fin 32) (w : AccWidth) (v : Word)
  /-- NI_ENABLE (R299). A write of NI.CTRL.EN enables or disables a port; disabling discards its buffers. -/
  | niEnable (port : Fin 4) (k : Fin 32) (w : AccWidth) (v : Word)
  /-- PING (R311). Every 100 µs in UP a PING is sent; its echo gives RTT, FIBRE and LONG. -/
  | ping (k : Fin 32) (id : Fin 255)
  /-- LANE_ERRORS (R312). A lane exceeding 16 uncorrectable codewords in a second writes a LANE_ERRORS record. -/
  | laneErrors (k : Fin 32) (lane : Fin 8) (count : BitVec 32) (due : Bool)
  /-- LANE_READMIT (R303). After lane training the far receiver sets RX_ADMIT and frames are dealt to the lane. -/
  | laneReadmit (k : Fin 32) (lane : Fin 8)
  /-- ROLL_CALL_RECORD (R319). A received roll-call record is compared with the expected neighbour and moves the port's roll-call state. -/
  | rollCallRecord (k : Fin 32)
  /-- ROLL_CALL_RESEND (R318). Every 100 ms while UP and not ENABLED, the port resends its roll-call record. -/
  | rollCallResend (k : Fin 32)
  /-- RC_TMO_EXPIRY (R320). RC_TMO after plan GO with no matching neighbour, a port becomes MISSING. -/
  | rcTmoExpiry (k : Fin 32)
  /-- PLAN_GO (R322). A write of GO checks and starts the partition's plan. -/
  | planGo (port : Fin 4) (p : Fin 8) (w : AccWidth) (v : Word)
  /-- PLAN_UNLOAD (R322). A write of UNLOAD returns the plan to UNLOADED and disables data. -/
  | planUnload (port : Fin 4) (p : Fin 8) (w : AccWidth) (v : Word)
  /-- RECHECK (R320). A write of NI.RC_STATE.RECHECK re-evaluates the last roll-call record. -/
  | recheck (port : Fin 4) (k : Fin 32) (w : AccWidth) (v : Word)
  /-- NODE_WRITE (R314). A write of SYS.NODE.NODE sets the node ID, or is ignored while a port is ENABLED. -/
  | nodeWrite (port : Fin 4) (w : AccWidth) (v : Word)
  /-- MESSAGE_DISPATCH (R325). An arriving TC1–TC3 message is delivered locally, forwarded by a transit route, or dropped. -/
  | messageDispatch (k : Fin 32) (cls : Fin 4) (due : Bool)
  /-- TRANSIT_FORWARD (R327). A forwarded message passes to the out port's transmit NI when that port accepts it. -/
  | transitForward (k : Fin 32) (cls : Fin 4) (due : Bool)
  /-- PORT_QUARANTINE (R398). Each 1 s window of chunk CRC failures reaching PARAM writes PORT_ERRORS and, when armed, quarantines the port. -/
  | portQuarantine (k : Fin 32)
  /-- LANE_LIGHT_DETECT (R282). Power above DARK_FLOOR takes a DARK lane to SWEEP and starts a ring sweep. -/
  | laneLightDetect (g : Fin 16) (tx : Bool) (l : Fin 16) (power : BitVec 16)
  /-- SWEEP_DONE (R291). A full or local sweep ends, locking the ring or repeating with LANE_NO_LOCK. -/
  | sweepDone (g : Fin 16) (tx : Bool) (l : Fin 16) (found : Bool) (code : BitVec 16) (tone : Fin 8)
  /-- LANE_DRIFT (R282). Slope above DRIFT_RATE, or pilot deficit above LOCK_TOL for 20 µs, moves a LOCKED lane to DRIFT. -/
  | laneDrift (g : Fin 16) (tx : Bool) (l : Fin 16) (pilot : BitVec 16) (due : Bool)
  /-- DRIFT_CLEARED (R282). 100 µs within the rate and tolerance return a DRIFT lane to LOCKED. -/
  | driftCleared (g : Fin 16) (tx : Bool) (l : Fin 16) (pilot : BitVec 16)
  /-- LANE_UNLOCKED (R282). A large pilot deficit held 50 µs unlocks the lane and starts a local sweep. -/
  | laneUnlocked (g : Fin 16) (tx : Bool) (l : Fin 16) (pilot : BitVec 16)
  /-- LANE_DARK (R282). Power below DARK_FLOOR returns a lane to DARK. -/
  | laneDark (g : Fin 16) (tx : Bool) (l : Fin 16) (power : BitVec 16)
  /-- LANE_READMITTED (R283). A lane LOCKED for 1 ms after a LANE_RETIRE withdrawal is readmitted. -/
  | laneReadmitted (g : Fin 16) (tx : Bool) (l : Fin 16)
  /-- BOUND_SUSPENSION_END (R284). 1 ms after the last lane condition clears, the Bell bound suspension of a port ends. -/
  | boundSuspensionEnd (k : Fin 32)
  /-- SOFTWARE_RETIRE (R283). A write of GLV.RETIRE withdraws or releases lanes by software. -/
  | softwareRetire (port : Fin 4) (g : Fin 16) (w : AccWidth) (v : Word)
  /-- HEATER_UPDATE (R279). Every 10 µs each ring's heater setpoint is formed from its table, feedforward and lock correction. -/
  | heaterUpdate (g : Fin 16) (r : Fin 32) (corr : BitVec 16)
  /-- GLOVE_TEMP_SAMPLE (R285). Every 10 µs the glove temperature and slope are sampled. -/
  | gloveTempSample (g : Fin 16) (a b : BitVec 12)
  /-- RING_REFINE (R281). Every 60 s the tuning table of each locked ring is refined. -/
  | ringRefine (g : Fin 16) (r : Fin 32)
  /-- MONITOR_EXCHANGE (R277). Every 1 ms the device sends its stage 2 to 5 readings to the far end on TC0. -/
  | monitorExchange (k : Fin 32) (txTap rxTap : BitVec 16) (fresh : Bool)
  /-- CAL_REQ (R291). A write of GLV.CTRL.CAL_REQ withdraws the glove's lanes, runs full sweeps and rebuilds its tables. -/
  | calReq (port : Fin 4) (g : Fin 16) (w : AccWidth) (v : Word)
  /-- COMMISSION (R292). A write of ELS.CTRL.COMMISSION records P0 values and monitor references and saves them to flash. -/
  | commission (port : Fin 4) (w : AccWidth) (v : Word)
  /-- SAVE_TAB (R281). A write of ELS.CTRL.SAVE_TAB writes every glove's ring tables to the boot flash. -/
  | saveTab (port : Fin 4) (w : AccWidth) (v : Word)
  /-- LIGHT_EN_WRITE (R274). A write of ELS.CTRL.LIGHT_EN permits or removes light on a module's interlock. -/
  | lightEnWrite (port : Fin 4) (w : AccWidth) (v : Word)
  /-- INTERLOCK_OPEN (R274). A reset, LIGHT_EN = 0 or an open receptacle drives INTLKmn low and writes INTERLOCK_OPEN. -/
  | interlockOpen (m : Fin 2)
  /-- RECEPTACLE_OPEN (R479). A receptacle presence contact opens, opening the interlock and abandoning any spare switch. -/
  | receptacleOpen (r : Fin 6)
  /-- LASER_FAULT (R275). LSFLTmn falls; a LASER_FAULT record is written and module STATUS read. -/
  | laserFault (m : Fin 2) (status : BitVec 16)
  /-- LASER_POLL (R273). Every 10 ms the device reads each module's STATUS and power readings over I3C. -/
  | laserPoll (m : Fin 2) (ok : Bool) (status : BitVec 16) (ident : BitVec 56) (temp : BitVec 16) (readings : List (BitVec 16))
  /-- FADE_EVALUATION (R286). Every 10 ms each wavelength's fade is evaluated against the thresholds with hysteresis. -/
  | fadeEvaluation (m : Fin 2)
  /-- SRC_CMD (R287). A write of ELS.MOD[m].SRC_CMD.GO starts or queues a commanded source switch. -/
  | srcCmd (port : Fin 4) (m : Fin 2) (w : AccWidth) (v : Word)
  /-- SPARE_SWITCH_START (R288). A spare switch starts and withdraws the wavelength's 16 transmit lanes. -/
  | spareSwitchStart (m : Fin 2)
  /-- SPARE_RETIRING_DONE (R288). All 16 lanes withdrawn; the spare is warmed behind its shutter. -/
  | spareRetiringDone (m : Fin 2)
  /-- SPARE_WARMED (R288). The spare reaches its power and frequency; SEL and RAMP start the crossover. -/
  | spareWarmed (m : Fin 2)
  /-- SPARE_WARM_TIMEOUT (R288). 50 ms without warming marks the new source failed and returns the switch to IDLE. -/
  | spareWarmTimeout (m : Fin 2)
  /-- CROSSOVER_DONE (R288). The 2 ms ramp completes; the active source changes and the modulator rings are swept. -/
  | crossoverDone (m : Fin 2)
  /-- RELOCK_DONE (R288). All 16 rings relock, or 20 ms pass, and the switch moves to READMIT. -/
  | relockDone (m : Fin 2) (timeout : Bool)
  /-- LASER_SPARE_DONE (R288). Locked lanes are readmitted and the switch returns to IDLE, starting any pending switch. -/
  | laserSpareDone (m : Fin 2)
  /-- GLOVE_PLL_RETRY (R422). Every 10 ms a glove whose SerDes PLL lost lock retries lock. -/
  | glovePllRetry (g : Fin 16) (ok : Bool)
  /-- SERDES_UNLOCK (R422). A glove or ZHL SerDes PLL loses lock. -/
  | serdesUnlock (n : Fin 20)
  /-- FIRST_TOUCH_COPY (R367). A write meeting a write-protected tile stalls and the Registrar copies the tile ahead of background order. -/
  | firstTouchCopy (p : Fin 8)
  /-- BACKGROUND_COPY (R368). The background copier takes the next uncopied tile into a copy buffer entry. -/
  | backgroundCopy (p : Fin 8) (die : Fin 2)
  /-- TILE_COPIED (R367). A tile and its digest are held in a buffer entry; WP is cleared and waiting writers are released. -/
  | tileCopied (p : Fin 8) (n : Nat) (ecc : Ecc) (stall : Nat)
  /-- COPY_ENTRY_DRAIN (R368). A buffer entry frees when its LOCAL writes are accepted or its PEER copy is acknowledged. -/
  | copyEntryDrain (p : Fin 8) (n : Nat)
  /-- PEER_COPY_RECEIVE (R370). A peer receives a snapshot copy message, writes it and acknowledges each tile. -/
  | peerCopyReceive (k : Fin 32) (dest job : BitVec 16) (dva : BitVec 48) (data : List Byte) (last due : Bool)
  /-- SNAPSHOT_PROTECTED (R371). Every listed tile has WP; the snapshot becomes OPEN and SNAP_BEGIN completes. -/
  | snapshotProtected (p : Fin 8)
  /-- SNAPSHOT_SEALED (R373). Every tile is copied and drained; shard hashes are formed and the manifest written. -/
  | snapshotSealed (p : Fin 8)
  /-- SNAPSHOT_VERIFY (R375). Shard hashes are compared with replicas by Bell-class exchange and mismatches recorded. -/
  | snapshotVerify (p : Fin 8)
  /-- SNAP_ABORTED (R371). An aborted snapshot clears WP and discards buffer entries, then returns to IDLE. -/
  | snapAborted (p : Fin 8)
  /-- SNAPSHOT_TARGET_FAILURE (R370). A refused, unacknowledged or unwritable copy target aborts the snapshot. -/
  | snapshotTargetFailure (p : Fin 8) (n : Nat)
  /-- CONFIRM (R379). A write of RGS.FW.CONFIRM makes ACTIVE equal to BOOTED. -/
  | confirm (port : Fin 4) (w : AccWidth) (v : Word)
  /-- ARB_RAISE (R380). A write of RGS.ARB.RAISE blows anti-rollback fuses, or is ignored with ARB_IGN. -/
  | arbRaise (port : Fin 4) (w : AccWidth) (v : Word)
  /-- ADVISORY_EVENT_TIMER (R390). ADV_EVT ms after a ring's last event, one ERR_RING event announces withheld ADVISORY records. -/
  | advisoryEventTimer (ring : Fin 9)
  /-- PROCTOR_FAILED (R245). A Proctor core fails; its contexts enter FAULTED and a lowest working core serves them. -/
  | proctorFailed (k : Fin 16)
  /-- PROCTOR_WATCHDOG (R491). A RUNNING core whose heartbeat does not change for WDOG_MS enters FAILED. -/
  | proctorWatchdog (k : Fin 16)
  /-- SENSOR_SAMPLE (R435). Every 10 µs sensors and the power estimate are sampled and the device is judged hot or cool. -/
  | sensorSample (readings : List (BitVec 13)) (due : Bool)
  /-- THROTTLE_STILL_HOT (R436). Still hot 100 µs after KEEP reaches TARGET, TARGET is lowered again. -/
  | throttleStillHot
  /-- THROTTLE_COOL_HELD (R436). Cool held for 1 ms starts recovery and raises TARGET. -/
  | throttleCoolHeld
  /-- THROTTLE_RAISE (R436). 100 µs after each raise while not hot, TARGET rises again, up to 64 and NORMAL. -/
  | throttleRaise
  /-- KEEP_SLEW_STEP (R421). Every 800 SCLK, KEEP moves one unit towards TARGET while holding two ramp slots. -/
  | keepSlewStep
  /-- THERMTRIP (R437). Three consecutive samples at CRIT assert THERMTRIPn and capture THERMTRIP. -/
  | thermtrip
  /-- AVSBUS_POLL (R427). Every 10 µs voltage and current, and every 1 ms temperature and status, are read over AVSBus. -/
  | avsbusPoll (e ok slow warn : Bool) (mv : BitVec 10) (amps : BitVec 12) (temp status : BitVec 16)
  /-- VSET_WRITE (R428). A write of PWR.VSET.MV commands VCORE, or is ignored with VSET_IGN. -/
  | vsetWrite (port : Fin 4) (w : AccWidth) (v : Word)
  /-- CLOCK_OR_SUPPLY (R426). Loss of REFCLK, a PLL lock or a rail while PORn is high is DEVICE_FATAL. -/
  | clockOrSupply (src : BitVec 8)
  /-- PORN (R441). Power-on reset resets the device and starts a boot. -/
  | porn
  /-- WRSTN (R443). Warm reset puts LPDDR5X in self-refresh, keeps slow-tier contents and starts a boot. -/
  | wrstn
  /-- PARTITION_RESET (R444). A write of SYS.PRST.REQ[p] resets one partition's contexts, classrooms, groups and optionally its objects. -/
  | partitionReset (port : Fin 4) (w : AccWidth) (v : Word)
  /-- CONTEXT_RESET (R445). A write of SYS.CRST.GO resets one context. -/
  | contextReset (port : Fin 4) (w : AccWidth) (v : Word)
  /-- BOOT_SLOT_ATTEMPT (R459). The boot ROM reads and verifies one firmware slot, falling back or entering RECOVERY on failure. -/
  | bootSlotAttempt (readErr : Bool)
  /-- BOOT_READY (R448). Firmware has started; SYS.BOOT.STATE reads READY and the mode becomes NORMAL or TEST. -/
  | bootReady (ms : BitVec 16) (proto : BitVec 8)
  /-- ATT_GO (R462). A write of SEC.ATT_CTRL.GO forms a signed attestation report. -/
  | attGo (port : Fin 4) (w : AccWidth) (v : Word)
  /-- FUSE_PROG (R456). A write of SEC.FUSE_PROG.GO blows the staged bits of an owner fuse field. -/
  | fuseProg (port : Fin 4) (w : AccWidth) (v : Word)
  /-- ERASE_64K (R454). Flash operation that erases one 64 KiB sector. -/
  | erase64k (port : Fin 4) (w : AccWidth) (v : Word)
  /-- PROGRAM_4K (R454). Flash operation that programs FLASH_BUF into one page. -/
  | program4k (port : Fin 4) (w : AccWidth) (v : Word)
  /-- READ_4K (R454). Flash operation that reads one page into FLASH_BUF. -/
  | read4k (port : Fin 4) (w : AccWidth) (v : Word)
  /-- FLASH_OPERATION_DONE (R454). A flash operation finishes, clearing GO or setting FAIL. -/
  | flashOperationDone (fail : Bool)
  /-- BYPASS (R464). JTAG instruction selecting the bypass register. -/
  | bypass
  /-- IDCODE (R464). JTAG instruction returning IDCODE 0x1240_014B. -/
  | idcode
  /-- SAMPLE_PRELOAD (R464). JTAG instruction sampling or preloading the boundary register. -/
  | samplePreload (captured shifted : List Bool)
  /-- EXTEST (R465). JTAG boundary test, effective only while PORn or WRSTn is low. -/
  | extest (inReset : Bool) (captured shifted : List Bool)
  /-- CLAMP (R465). JTAG clamp, effective only while in reset. -/
  | clamp (inReset : Bool)
  /-- HIGHZ (R465). JTAG high-impedance, effective only while in reset. -/
  | highz (inReset : Bool)
  /-- DBG_CHAL (R466). JTAG instruction shifting out a fresh debug challenge. -/
  | dbgChal
  /-- DBG_RESP (R467). JTAG instruction taking a signed response that unlocks debug when it verifies. -/
  | dbgResp (resp : List Byte)
  /-- PMU_FREEZE (R406). A write of PMU.CTRL.FREEZE stops or restarts every counter and sampler. -/
  | pmuFreeze (port : Fin 4) (w : AccWidth) (v : Word)
  /-- CLR_ALL (R406). A write of PMU.CTRL.CLR_ALL zeroes every counter and OVF bit. -/
  | clrAll (port : Fin 4) (w : AccWidth) (v : Word)
  /-- COUNTER_WRITE (R402). A write of a performance counter replaces its value before the cycle's increments. -/
  | counterWrite (port b : Fin 4) (u : Fin 64) (k : Fin 16) (w : AccWidth) (v : Word)
  /-- SAMPLE_WRITE (R414). A queued sample is written into the partition's sample ring, or dropped and counted. -/
  | sampleWrite (die : Fin 2)
  /-- AGGREGATE_UPDATE (R411). Each NCLK the partition aggregate counters add the increments of their units. -/
  | aggregateUpdate (p : Fin 8) (ni : Bool) (incs : List (Nat × Nat × Nat × Nat))
  /-- HOLD (R117). A write of CLS.ARR_CTRL.HOLD keeps the arrays in FILL, withdraws a pending ramp request, or starts a ramp up from IDLE or RAMP_DOWN. -/
  | hold (port : Fin 4) (c : Fin 64) (w : AccWidth) (v : Word)
  /-- GLOVE_ENABLE (R282). A write of GLV.CTRL.EN takes a glove out of or into service; disabling sends every lane to DARK with heaters held at table(T). -/
  | gloveEnable (port : Fin 4) (g : Fin 16) (w : AccWidth) (v : Word)
  /-- GLOVE_BRINGUP (R290). A glove's calibration bring-up advances through its timed stages, moving GLV.STATUS.STATE through POWERUP, CAL and READY, or into FAULT. -/
  | gloveBringup (g : Fin 16) (ok : Bool)
  /-- RESERVED_UE (R391). An uncorrectable error in a tile of the reserved area is PARTITION_FATAL or DEVICE_FATAL and stops the partition or device. -/
  | reservedUe (ch : Fin 48) (frame : Fin 262144) (part : Option (Fin 8))
  /-- LASER_FAULT_CLEARED (R274). LSFLTmn rises: ELS.STATUS.FAULT_m clears, the next fall is reported again, and a boot waiting for the line may set LIGHT_EN. -/
  | laserFaultCleared (m : Fin 2)
  /-- RECEPTACLE_PRESENT (R479). A receptacle presence contact closes on reseating, setting its PRES bit and letting a boot that waits on it raise the interlock. -/
  | receptaclePresent (r : Fin 6)
  /-- VAUX_LOSS (R437). VAUX is lost: service logic, ERR.FATAL capture and the THERMTRIPn latch are lost, and INTLKmn goes high-impedance. -/
  | vauxLoss
  /-- PMC_CYCLE (R402). Each clock cycle the performance counters add their per-cycle events and may wrap, saturate or freeze. -/
  | pmcCycle (b : Fin 3) (u : Fin 64) (adv empty : BitVec 4) (amounts : List (Nat × Nat × Nat))
  /-- FUSE_PROGRAMMING_DONE (R456). The staged owner fuse bits have all been blown, and FUSE_PROG.GO reads 0. -/
  | fuseProgrammingDone
  /-- ARB_BLOW_DONE (R380). The anti-rollback fuse bits have been blown, and RGS.ARB.BUSY clears with VALUE raised. -/
  | arbBlowDone
  /-- ATT_REPORT_DONE (R462). The signed attestation report is written into SEC.ATT_REPORT, and ATT_CTRL.GO reads 0. -/
  | attReportDone
deriving DecidableEq, Repr

end Sys2Proof
end

