-- ==== Sys2Proof/Config.lean ====
section
/-! DEFINITION. What an implementation fixes and what the spec leaves open: free values.
Each opaque constant has no body, so nothing can be proved of its value; a statement that
mentions one holds whatever it is. -/

namespace Sys2Proof.Config

/-- For each FP32 input of the exponential unit: does it return the upper of the two FP32 values
adjacent to the exact result? R129 fixes the pair and that the choice depends on the input alone. -/
opaque expUpper : Nat → Bool

/-- The same choice for the inverse square root unit (R129). -/
opaque rsqrtUpper : Nat → Bool

/-- Free choices, by purpose and by a counter of the state: which free frame is granted (R196, R212),
the epoch drawn (R304), nonces and challenges drawn (R466), a value the spec calls unspecified. -/
opaque freeNat : Nat → Nat → Nat

/-- Free choices of yes or no, by counter and position: which bytes a stopped move had already written. -/
opaque freeBool : Nat → Nat → Bool

/-- Bytes of values that the spec leaves unspecified, by counter and position (R71). -/
opaque freeByte : Nat → Nat → Byte

/-- The nonce drawn for a signature: private key and digest (R461, R462). The spec names the algorithm and not how the nonce is
drawn. -/
opaque ecdsaNonce : List Byte → List Byte → Nat

/-- The fixed key derivation of the boot ROM: secret and label give a private key (R460, R461). -/
opaque deriveKey : List Byte → List Byte → List Byte

/-- The message of the monitor exchange (R277), whose layout the spec does not give: byte `i` of the message that carries these
readings, whether a message is one, and the readings that one carries. -/
opaque monitorByte : List Nat → Nat → Byte
opaque isMonitor : List Byte → Bool
opaque monitorReading : List Byte → Nat → BitVec 16

end Sys2Proof.Config
end

