-- ==== Sys2Proof/Machine/Flags.lean ====
section
/-! DEFINITION. The five sticky numeric flags of an engine (R72, R138) and how results gather them. -/

namespace Sys2Proof.Machine

/-- The flags INVALID, OVERFLOW, UNDERFLOW, INEXACT and NONFINITE_IN, in the bit order of CLS.FLAGS (R144). -/
structure NFlags where
  invalid : Bool
  overflow : Bool
  underflow : Bool
  inexact : Bool
  nonfiniteIn : Bool
deriving DecidableEq, Repr

/-- No flag. -/
def noFlags : NFlags := ⟨false, false, false, false, false⟩
/-- INVALID alone. -/
def flInvalid : NFlags := ⟨true, false, false, false, false⟩
/-- OVERFLOW alone. -/
def flOverflow : NFlags := ⟨false, true, false, false, false⟩
/-- A saturation or overflow of a finite value: OVERFLOW and INEXACT (R132). -/
def flSaturate : NFlags := ⟨false, true, false, true, false⟩
/-- INEXACT alone. -/
def flInexact : NFlags := ⟨false, false, false, true, false⟩
/-- NONFINITE_IN alone. -/
def flNonfinite : NFlags := ⟨false, false, false, false, true⟩

/-- Both sets of flags. -/
def orFlags (a b : NFlags) : NFlags :=
  ⟨a.invalid || b.invalid, a.overflow || b.overflow, a.underflow || b.underflow,
   a.inexact || b.inexact, a.nonfiniteIn || b.nonfiniteIn⟩

/-- The flags that an instruction's entry lists (R72): the others are dropped. -/
def maskFlags (listed a : NFlags) : NFlags :=
  ⟨listed.invalid && a.invalid, listed.overflow && a.overflow, listed.underflow && a.underflow,
   listed.inexact && a.inexact, listed.nonfiniteIn && a.nonfiniteIn⟩

/-- The five bits as CLS.FLAGS holds them, INVALID lowest. -/
def flagBits (f : NFlags) : Nat :=
  f.invalid.toNat + 2 * f.overflow.toNat + 4 * f.underflow.toNat + 8 * f.inexact.toNat
    + 16 * f.nonfiniteIn.toNat

/-- The flags that CLS.FLAG_PC captures (R141): INVALID, OVERFLOW, NONFINITE_IN, INVALID lowest. -/
def captureBits (f : NFlags) : Nat :=
  f.invalid.toNat + 2 * f.overflow.toNat + 4 * f.nonfiniteIn.toNat

/-- Flags of the products (R81). -/
def listProduct : NFlags := ⟨true, true, true, false, true⟩
/-- All five flags: VADD, VFMA, VSMX, VNORM, MSCATTER with ADD and MUPD (R83, R91, R93). -/
def listAll : NFlags := ⟨true, true, true, true, true⟩
/-- Flags of VEXP, VQUANT, VCVT and MCONV (R83, R90). -/
def listConvert : NFlags := ⟨false, true, true, true, true⟩
/-- Flags of VRSQ (R83). -/
def listRsq : NFlags := ⟨true, true, false, true, true⟩
/-- Flags of VAMAX (R83). -/
def listAmax : NFlags := ⟨true, false, false, false, true⟩
/-- Flags of VSUMSQ (R83). -/
def listSumsq : NFlags := ⟨false, true, false, false, true⟩
/-- Flags of VQUIZ (R83). -/
def listQuiz : NFlags := ⟨false, false, false, false, true⟩
/-- Flags of MGATHER and MSCATTER without ADD (R91). -/
def listGather : NFlags := ⟨true, false, false, false, false⟩

end Sys2Proof.Machine
end

