-- ==== Sys2Proof/Machine/Num.lean ====
section
/-! DEFINITION. Exact values, rounding, conversion and FP32 arithmetic (R120 to R135), the Philox
generator of R88 and CRC-32C. Every operation computes exactly and rounds once. -/

namespace Sys2Proof.Machine

/-! ## Exact values -/

/-- A decoded element: a NaN (no payload, R122), an infinity, or (-1)^neg * m * 2^e exactly. -/
inductive Num
  | nan
  | inf (neg : Bool)
  | fin (neg : Bool) (m : Nat) (e : Int)
deriving DecidableEq, Repr

/-- +0.0. -/
def numZero : Num := .fin false 0 0
/-- 1.0. -/
def numOne : Num := .fin false 1 0

/-- `m * 2^k`, dropping bits below the point when `k` is negative. -/
def shiftInt (m : Nat) (k : Int) : Nat :=
  match k with
  | .ofNat n => m * 2 ^ n
  | .negSucc n => m / 2 ^ (n + 1)

/-- Multiplication by a power of two, exact. -/
def scaleNum (x : Num) (k : Int) : Num :=
  match x with
  | .fin s m e => .fin s m (e + k)
  | y => y

def isFinite (x : Num) : Bool :=
  match x with
  | .fin _ _ _ => true
  | _ => false

def isNan (x : Num) : Bool :=
  match x with
  | .nan => true
  | _ => false

def isZero (x : Num) : Bool :=
  match x with
  | .fin _ 0 _ => true
  | _ => false

def negNum (x : Num) : Num :=
  match x with
  | .nan => .nan
  | .inf s => .inf (!s)
  | .fin s m e => .fin (!s) m e

def absNum (x : Num) : Num :=
  match x with
  | .nan => .nan
  | .inf _ => .inf false
  | .fin _ m e => .fin false m e

/-- Signed integer of a finite value in units of 2^u, `u` at or below its exponent. -/
def unitsOf (neg : Bool) (m : Nat) (e u : Int) : Int :=
  let v : Int := Int.ofNat (shiftInt m (e - u))
  if neg then -v else v

/-- NONFINITE_IN for an operand (R138). -/
def nonfiniteFlag (x : Num) : NFlags := if isFinite x then noFlags else flNonfinite

/-- The exact sum, with INVALID for a NaN operand and for infinities of opposite sign (R138). -/
def addExact (x y : Num) : Num × NFlags :=
  match x, y with
  | .nan, _ => (.nan, flInvalid)
  | _, .nan => (.nan, flInvalid)
  | .inf a, .inf b => if a = b then (.inf a, noFlags) else (.nan, flInvalid)
  | .inf a, .fin _ _ _ => (.inf a, noFlags)
  | .fin _ _ _, .inf b => (.inf b, noFlags)
  | .fin s m e, .fin s' m' e' =>
    let u := min e e'
    let z := unitsOf s m e u + unitsOf s' m' e' u
    if z = 0 then (.fin (s && s') 0 u, noFlags)
    else (.fin (decide (z < 0)) z.natAbs u, noFlags)

/-- The exact product, with INVALID for a NaN operand and for infinity times zero. -/
def mulExact (x y : Num) : Num × NFlags :=
  match x, y with
  | .nan, _ => (.nan, flInvalid)
  | _, .nan => (.nan, flInvalid)
  | .inf a, .inf b => (.inf (a != b), noFlags)
  | .inf a, .fin s m _ => if m = 0 then (.nan, flInvalid) else (.inf (a != s), noFlags)
  | .fin s m _, .inf b => if m = 0 then (.nan, flInvalid) else (.inf (s != b), noFlags)
  | .fin s m e, .fin s' m' e' => (.fin (s != s') (m * m') (e + e'), noFlags)

/-- Order of values with -0.0 below +0.0 (R123); false when either is a NaN. -/
def ltNum (x y : Num) : Bool :=
  match x, y with
  | .nan, _ => false
  | _, .nan => false
  | .inf a, .inf b => a && !b
  | .inf a, .fin _ _ _ => a
  | .fin _ _ _, .inf b => !b
  | .fin s m e, .fin s' m' e' =>
    let u := min e e'
    let a := unitsOf s m e u
    let b := unitsOf s' m' e' u
    decide (a < b) || (decide (a = b) && decide (m = 0) && s && !s')

/-- The larger value; NaN if either is a NaN. -/
def maxNum (x y : Num) : Num :=
  if isNan x || isNan y then .nan else if ltNum x y then y else x

/-- The smaller value; NaN if either is a NaN. -/
def minNum (x y : Num) : Num :=
  if isNan x || isNan y then .nan else if ltNum y x then y else x

/-! ## Formats (R120, R121) -/

/-- A floating-point format: precision with the hidden bit, exponent bits, bias, exponent of the
smallest subnormal, largest finite value `maxM * 2^maxE`, and whether it has infinities. -/
structure FloatFmt where
  prec : Nat
  ebits : Nat
  bias : Nat
  qmin : Int
  maxM : Nat
  maxE : Int
  hasInf : Bool
deriving DecidableEq, Repr

def fp32 : FloatFmt := ⟨24, 8, 127, -149, 16777215, 104, true⟩
def bf16 : FloatFmt := ⟨8, 8, 127, -133, 255, 120, true⟩
def fp16 : FloatFmt := ⟨11, 5, 15, -24, 2047, 5, true⟩
def e4m3 : FloatFmt := ⟨4, 4, 7, -9, 14, 5, false⟩
def e5m2 : FloatFmt := ⟨3, 5, 15, -16, 7, 13, true⟩

/-- The format of a descriptor's code (R120); INT8, PAIR-BF16 and reserved codes have none. -/
def floatFmt (code : Nat) : Option FloatFmt :=
  match code with
  | 0 => some fp32
  | 1 => some bf16
  | 2 => some fp16
  | 3 => some e4m3
  | 4 => some e5m2
  | _ => none

/-- Element size in bytes by format code (R120); 0 for a reserved code. -/
def esize (code : Nat) : Nat :=
  match code with
  | 0 => 4
  | 1 => 2
  | 2 => 2
  | 3 => 1
  | 4 => 1
  | 5 => 1
  | 6 => 4
  | _ => 0

/-- The largest finite value of a format. -/
def fmaxNum (f : FloatFmt) : Num := .fin false f.maxM f.maxE

/-- Decode an element (R121, R122). -/
def decodeFloat (f : FloatFmt) (b : Nat) : Num :=
  let fr := f.prec - 1
  let frac := b % 2 ^ fr
  let ex := b / 2 ^ fr % 2 ^ f.ebits
  let neg := decide (b / 2 ^ (fr + f.ebits) % 2 = 1)
  if ex = 0 then .fin neg frac f.qmin
  else if ex = 2 ^ f.ebits - 1 ∧ f.hasInf then (if frac = 0 then .inf neg else .nan)
  else if ex = 2 ^ f.ebits - 1 ∧ frac = 2 ^ fr - 1 then .nan
  else .fin neg (frac + 2 ^ fr) (f.qmin + (Int.ofNat ex - 1))

/-- The NaN that the device writes (R122). -/
def canonicalNan (f : FloatFmt) : Nat :=
  if f.hasInf then (2 ^ f.ebits - 1) * 2 ^ (f.prec - 1) + 2 ^ (f.prec - 2)
  else 2 ^ (f.ebits + f.prec - 1) - 1

/-- The sign bit of a format. -/
def signBit (f : FloatFmt) (neg : Bool) : Nat := if neg then 2 ^ (f.ebits + f.prec - 1) else 0

/-- Encode a value that the format represents. -/
def encodeFin (f : FloatFmt) (neg : Bool) (m : Nat) (e : Int) : Nat :=
  if m = 0 then signBit f neg
  else
    let top : Int := e + Int.ofNat m.log2
    let normExp := top - (f.qmin + Int.ofNat (f.prec - 1))
    if normExp < 0 then signBit f neg + shiftInt m (e - f.qmin)
    else signBit f neg + (normExp.toNat + 1) * 2 ^ (f.prec - 1)
      + (shiftInt m (Int.ofNat (f.prec - 1) - Int.ofNat m.log2) - 2 ^ (f.prec - 1))

/-- Encode any value; a format without infinities holds ±∞ as its two NaN encodings (R132). -/
def encodeFloat (f : FloatFmt) (x : Num) : Nat :=
  match x with
  | .nan => canonicalNan f
  | .inf s =>
    if f.hasInf then signBit f s + (2 ^ f.ebits - 1) * 2 ^ (f.prec - 1)
    else signBit f s + canonicalNan f
  | .fin s m e => encodeFin f s m e

/-! ## Rounding (R126, R131) -/

/-- Exponent of the last place kept when `m * 2^e` is rounded to `prec` bits, no lower than `qmin`. -/
def quantum (prec : Nat) (qmin : Int) (m : Nat) (e : Int) : Int :=
  max (e + Int.ofNat m.log2 + 1 - Int.ofNat prec) qmin

/-- Round-to-nearest, ties to even, onto multiples of 2^q. -/
def rneUnits (m : Nat) (e q : Int) : Nat :=
  if q ≤ e then shiftInt m (e - q)
  else
    let s := (q - e).toNat
    let t := m / 2 ^ s
    let r := m % 2 ^ s
    let h := 2 ^ (s - 1)
    if h < r ∨ (r = h ∧ t % 2 = 1) then t + 1 else t

/-- `a * 2^p ≤ b * 2^q`. -/
def leScaled (a : Nat) (p : Int) (b : Nat) (q : Int) : Bool :=
  let u := min p q
  decide (shiftInt a (p - u) ≤ shiftInt b (q - u))

/-- A value and the flags its rounding sets. -/
abbrev NumF := Num × NFlags

/-- Round a value into a floating-point format with RNE: ±∞ on overflow (R131, R132). -/
def roundTo (f : FloatFmt) (x : Num) : NumF :=
  match x with
  | .nan => (.nan, noFlags)
  | .inf s => (.inf s, noFlags)
  | .fin s m e =>
    let q := quantum f.prec f.qmin m e
    let t := rneUnits m e q
    let exact := leScaled m e t q && leScaled t q m e
    if leScaled t q f.maxM f.maxE then
      let tiny := decide (m ≠ 0) && !(leScaled 1 (f.qmin + Int.ofNat (f.prec - 1)) t q)
      (.fin s t q, ⟨false, false, tiny, !exact, false⟩)
    else (.inf s, flSaturate)

/-- Rounding into FP32. -/
def rne32 (x : Num) : NumF := roundTo fp32 x

/-- One FP32 operation: the exact result with its flags, rounded once. -/
def round32 (r : NumF) : NumF :=
  let z := rne32 r.1
  (z.1, orFlags r.2 z.2)

def add32 (x y : Num) : NumF := round32 (addExact x y)
def sub32 (x y : Num) : NumF := round32 (addExact x (negNum y))
def mul32 (x y : Num) : NumF := round32 (mulExact x y)

/-- a * b + c with one rounding (R126). -/
def fma32 (a b c : Num) : NumF :=
  let p := mulExact a b
  let s := addExact p.1 c
  round32 (s.1, orFlags p.2 s.2)

/-- floor(sqrt n), deciding bits `fuel - 1` down to 0 of the root. -/
def isqrtBits (fuel r n : Nat) : Nat :=
  match fuel with
  | 0 => r
  | k + 1 => if (r + 2 ^ k) * (r + 2 ^ k) ≤ n then isqrtBits k (r + 2 ^ k) n else isqrtBits k r n

/-- floor(sqrt n). -/
def isqrt (n : Nat) : Nat := isqrtBits (n.log2 / 2 + 1) 0 n

/-- The FP32 quotient, correctly rounded (R126); a zero divisor gives ±∞, for which R138 names no flag. -/
def div32 (x y : Num) : NumF :=
  match x, y with
  | .nan, _ => (.nan, flInvalid)
  | _, .nan => (.nan, flInvalid)
  | .inf _, .inf _ => (.nan, flInvalid)
  | .inf a, .fin s _ _ => (.inf (a != s), noFlags)
  | .fin s _ _, .inf b => (.fin (s != b) 0 0, noFlags)
  | .fin s m e, .fin s' m' e' =>
    if m' = 0 then (if m = 0 then (.nan, flInvalid) else (.inf (s != s'), noFlags))
    else
      let k := 64 + m'.log2
      let q := m * 2 ^ k / m'
      let st := if m * 2 ^ k % m' = 0 then 0 else 1
      rne32 (.fin (s != s') (2 * q + st) (e - e' - Int.ofNat k - 1))

/-- The correctly rounded FP32 square root. -/
def sqrt32 (x : Num) : NumF :=
  match x with
  | .nan => (.nan, flInvalid)
  | .inf s => if s then (.nan, flInvalid) else (.inf false, noFlags)
  | .fin s m e =>
    if m = 0 then (x, noFlags)
    else if s then (.nan, flInvalid)
    else
      let k := if e % 2 = 0 then 128 else 129
      let n := m * 2 ^ k
      let r := isqrt n
      let st := if r * r = n then 0 else 1
      rne32 (.fin false (2 * r + st) ((e - Int.ofNat k) / 2 - 1))

/-- sign(x) of R179: ±1.0, +0.0 for either zero, NaN for NaN. -/
def signNum (x : Num) : Num :=
  match x with
  | .nan => .nan
  | .inf s => .fin s 1 0
  | .fin s m _ => if m = 0 then numZero else .fin s 1 0

/-! ## Faithfully rounded functions (R129) -/

/-- A positive value truncated onto the FP32 grid, capped at the largest finite value. -/
def trunc32 (m : Nat) (e : Int) : Nat × Int :=
  let q := quantum 24 (-149) m e
  let t := if q ≤ e then shiftInt m (e - q) else m / 2 ^ (q - e).toNat
  if leScaled t q 16777215 104 then (t, q) else (16777215, 104)

/-- One of the two FP32 values adjacent to a positive value that is not itself representable. -/
def adjacent32 (up : Bool) (m : Nat) (e : Int) : Num :=
  let t := trunc32 m e
  if up then
    (if leScaled (t.1 + 1) t.2 16777215 104 then .fin false (t.1 + 1) t.2 else .inf false)
  else .fin false t.1 t.2

/-- Terms of the exponential series of `y * 2^-320`, in units of 2^-320: sum of `term` at index `k`. -/
def expSeries (fuel y term k acc : Nat) : Nat :=
  match fuel with
  | 0 => acc
  | n + 1 => expSeries n y (term * y / 2 ^ 320 / k) (k + 1) (acc + term)

/-- Repeated squaring of a fixed-point value with 320 fraction bits. -/
def squareTimes (n v : Nat) : Nat :=
  match n with
  | 0 => v
  | k + 1 => squareTimes k (v * v / 2 ^ 320)

/-- exp(|x|) for |x| < 128, in units of 2^-320, to at least 256 significant bits. -/
def expPos (m : Nat) (e : Int) : Nat :=
  let y := shiftInt m (e + 304)
  squareTimes 16 (expSeries 40 y (2 ^ 320) 1 0)

/-- exp(x) as the V engine's fixed function returns it: exact at 0 and -∞, +∞ where the result is 2^128 or more (R131,
R132; notes/assumptions/13.md), otherwise one of the two adjacent FP32 values; the choice is `Config.expUpper` of the
input's bits (R129). -/
def exp32 (x : Num) : NumF :=
  match x with
  | .nan => (.nan, flInvalid)
  | .inf s => if s then (numZero, noFlags) else (.inf false, noFlags)
  | .fin s m e =>
    if m = 0 then (numOne, noFlags)
    else
      let up := Config.expUpper (encodeFin fp32 s m e)
      let big := leScaled 128 0 m e
      let r :=
        if s then (if big then adjacent32 up 1 (-400)
                   else adjacent32 up (2 ^ 704 / expPos m e) (-384))
        else (if big || decide (2 ^ 448 ≤ expPos m e) then .inf false else adjacent32 up (expPos m e) (-320))
      let tiny := match r with
        | .fin _ t q => !(leScaled 1 (-126) t q)
        | _ => false
      (r, ⟨false, !(isFinite r), tiny, true, false⟩)

/-- 1 / sqrt(v) as the fixed function returns it: ∞ with OVERFLOW at a zero, positive at +0.0 and of open sign at -0.0,
for which R129 names no result (notes/assumptions/7.md), INVALID below zero, exact where the result is an FP32 value, otherwise one of the two adjacent values (R83, R129). -/
def rsqrt32 (x : Num) : NumF :=
  match x with
  | .nan => (.nan, flInvalid)
  | .inf s => if s then (.nan, flInvalid) else (numZero, noFlags)
  | .fin s m e =>
    if m = 0 then (.inf (s && Config.rsqrtUpper (encodeFin fp32 s m e)), flOverflow)
    else if s then (.nan, flInvalid)
    else
      let k := if e % 2 = 0 then 512 else 513
      let r := isqrt (2 ^ k / m)
      let re : Int := (-(e + Int.ofNat k)) / 2
      let t := trunc32 r re
      let exact := decide (m * t.1 * t.1 = shiftInt 1 (-(e + 2 * t.2)))
      if exact then (.fin false t.1 t.2, noFlags)
      else (adjacent32 (Config.rsqrtUpper (encodeFin fp32 s m e)) r re, flInexact)

/-! ## Conversion (R124, R125, R132) -/

/-- Round into a format with the overflow rule of R132: E4M3 and E5M2 saturate finite values;
±∞ into E4M3 is INVALID; a non-finite source sets NONFINITE_IN. -/
def convertTo (f : FloatFmt) (x : Num) : Nat × NFlags :=
  let small := decide (f.prec ≤ 4)
  match x with
  | .nan => (canonicalNan f, flNonfinite)
  | .inf s => (encodeFloat f (.inf s), if f.hasInf then flNonfinite else orFlags flNonfinite flInvalid)
  | .fin _ _ _ =>
    let r := roundTo f x
    match r.1 with
    | .inf s =>
      if small then (encodeFin f s f.maxM f.maxE, flSaturate) else (encodeFloat f (.inf s), r.2)
    | z => (encodeFloat f z, r.2)

/-- Convert into INT8: ±127 on overflow, NaN to 0 (R124, R132). A nonzero value that rounds to zero sets UNDERFLOW (R138, which R85
names; DEDUCED, notes/assumptions/84.md). -/
def convertInt8 (x : Num) : Nat × NFlags :=
  match x with
  | .nan => (0, orFlags flNonfinite flInvalid)
  | .inf s => (if s then 129 else 127, orFlags flNonfinite flInvalid)
  | .fin s m e =>
    let t := rneUnits m e 0
    if 127 < t then (if s then 129 else 127, flSaturate)
    else ((if s then (256 - t) % 256 else t),
      if leScaled m e t 0 && leScaled t 0 m e then noFlags else { flInexact with underflow := decide (t = 0) })

/-- The exact value of a PAIR-BF16 element: HI + LO (R125). -/
def decodePair (b : Nat) : Num :=
  (addExact (decodeFloat bf16 (b % 65536)) (decodeFloat bf16 (b / 65536 % 65536))).1

/-- Convert into PAIR-BF16: HI = rne(x), LO = rne(x - HI) (R125). -/
def convertPair (x : Num) : Nat × NFlags :=
  let h := roundTo bf16 x
  let hi := encodeFloat bf16 h.1
  match x, h.1 with
  | .fin _ _ _, .fin _ _ _ =>
    let lo := roundTo bf16 (addExact x (negNum h.1)).1
    let d := (addExact (addExact x (negNum h.1)).1 (negNum lo.1)).1
    (hi + 65536 * encodeFloat bf16 lo.1,
      ⟨false, false, h.2.underflow, !(isZero d), false⟩)
  | .fin _ _ _, _ => (hi, flSaturate)
  | _, _ => (hi, flNonfinite)

/-- Convert into the format of a code (R120, R132). -/
def convertCode (code : Nat) (x : Num) : Nat × NFlags :=
  match code with
  | 5 => convertInt8 x
  | 6 => convertPair x
  | c => match floatFmt c with
    | some f => convertTo f x
    | none => (0, noFlags)

/-- Decode an element of the format of a code. -/
def decodeCode (code b : Nat) : Num :=
  match code with
  | 6 => decodePair b
  | c => match floatFmt c with
    | some f => decodeFloat f b
    | none => numZero

/-! ## Philox-4x32-10 (R88) -/

/-- One round of Philox-4x32 on counter words `c` with key words `k0`, `k1`. -/
def philoxRound (k0 k1 : Nat) (c : Nat × Nat × Nat × Nat) : Nat × Nat × Nat × Nat :=
  let p0 := 0xD2511F53 * c.1
  let p1 := 0xCD9E8D57 * c.2.2.1
  ((p1 / 2 ^ 32) ^^^ c.2.1 ^^^ k0, p1 % 2 ^ 32, (p0 / 2 ^ 32) ^^^ c.2.2.2 ^^^ k1, p0 % 2 ^ 32)

/-- `n` rounds, bumping the key by the Weyl constants between rounds. -/
def philoxRounds (n k0 k1 : Nat) (c : Nat × Nat × Nat × Nat) : Nat × Nat × Nat × Nat :=
  match n with
  | 0 => c
  | r + 1 => philoxRounds r ((k0 + 0x9E3779B9) % 2 ^ 32) ((k1 + 0xBB67AE85) % 2 ^ 32) (philoxRound k0 k1 c)

/-- Philox-4x32-10: key words and counter words give four 32-bit words. -/
def philox (k0 k1 c0 c1 c2 c3 : Nat) : Nat × Nat × Nat × Nat :=
  philoxRounds 10 k0 k1 (c0 % 2 ^ 32, c1 % 2 ^ 32, c2 % 2 ^ 32, c3 % 2 ^ 32)

/-- Word `i mod 4` of four. -/
def wordOf4 (w : Nat × Nat × Nat × Nat) (i : Nat) : Nat :=
  match i % 4 with
  | 0 => w.1
  | 1 => w.2.1
  | 2 => w.2.2.1
  | _ => w.2.2.2

/-! ## CRC-32C -/

/-- Eight steps of the reflected Castagnoli polynomial. -/
def crcBits (n c : Nat) : Nat :=
  match n with
  | 0 => c
  | k + 1 => crcBits k (if c % 2 = 1 then (c / 2) ^^^ 0x82F63B78 else c / 2)

def crcBytes (bs : List Byte) (c : Nat) : Nat :=
  match bs with
  | [] => c
  | b :: r => crcBytes r (crcBits 8 (c ^^^ b.toNat))

/-- CRC-32C of a byte string. -/
def crc32c (bs : List Byte) : Nat := crcBytes bs 0xFFFFFFFF ^^^ 0xFFFFFFFF

/-! ## Stochastic rounding (R134) -/

/-- c + v rounded stochastically into FP32 with the random word `w` (R134). -/
def stochAdd (c v : Num) (w : Nat) : NumF :=
  let x := addExact c v
  match x.1 with
  | .fin s m e =>
    let q := quantum 24 (-149) m e
    if q ≤ e then rne32 x.1
    else
      let d := (q - e).toNat
      let t := m / 2 ^ d
      let r := m % 2 ^ d
      if leScaled t q 16777215 104 then
        if r = 0 then (rne32 x.1)
        else
          let f := 2 ^ 24 * r / 2 ^ d
          let pick := if w / 256 < f then t + 1 else t
          if leScaled pick q 16777215 104 then
            (.fin s pick q, ⟨false, false, !(leScaled 1 (-126) pick q), true, false⟩)
          else (.inf s, flOverflow)
      else
        -- beyond the largest finite value: spacing 2^104 (R134 step 5)
        let excess := shiftInt m (e - 104 + 24) - 16777215 * 2 ^ 24
        if w / 256 < excess then (.inf s, flOverflow) else (.fin s 16777215 104, noFlags)
  | y => (y, x.2)

end Sys2Proof.Machine
end

