-- ==== Sys2Proof/Machine/Csr.lean ====
section
/-! DEFINITION. The CSR window: every register of the register index (R489) with its address (R14),
its fields, their types (R8), their reset values and the values a write may store, and the
generic read and write of R8, R10 and R11.
A reset value that the spec gives as "Fuse", "Flash", "Boot", "Range" or "Firmware" is 0 here
and is loaded by the event that the spec names (PORn, WRSTn, the boot); see notes/assumptions/2.md. -/

namespace Sys2Proof.Machine

/-- The place of a field: the register's CSR address, its lowest bit and its width. -/
structure Fld where
  addr : Nat
  lo : Nat
  len : Nat
deriving DecidableEq, Repr

/-- The register types of R8 that the register tables use (no table uses RWL). -/
inductive FType
  | ro | rw | rc | w1c | w1s | wo
deriving DecidableEq, Repr

/-- One line of a register table. `div` is 0 for a constant reset value; otherwise the field
resets to the register's instance number divided by `div` ("Instance", "channel / 6").
A written value outside `vmin` to `vmax` leaves the field unchanged; the lowest `zlow` bits store 0. -/
structure FieldSpec where
  lo : Nat
  len : Nat
  ty : FType
  reset : Nat
  div : Nat
  vmin : Nat
  vmax : Nat
  zlow : Nat
deriving DecidableEq, Repr

/-- One register of the index: its name, the address of its first instance, its index ranges
(count and stride, outermost first) and its fields. Bits of no field are reserved (R11). -/
structure RegSpec where
  name : String
  base : Nat
  dims : List (Nat × Nat)
  fields : List FieldSpec
deriving DecidableEq, Repr

/-- The value of bits `lo` to `lo + len - 1`. -/
def wordGet (w : Word) (lo len : Nat) : Nat := w.toNat / 2 ^ lo % 2 ^ len

/-- The word with bits `lo` to `lo + len - 1` replaced by the low bits of `v`. -/
def wordSet (w : Word) (lo len v : Nat) : Word :=
  BitVec.ofNat 64 (w.toNat % 2 ^ lo + (v % 2 ^ len) * 2 ^ lo + w.toNat / 2 ^ (lo + len) * 2 ^ (lo + len))

namespace Csr

/-- SYS.ID (R468, R469). -/
def sysId : Nat := 0x0
def sysId_STEPPING : Fld := ⟨sysId, 0, 8⟩
def sysId_GRADE : Fld := ⟨sysId, 8, 4⟩
def sysId_PART : Fld := ⟨sysId, 16, 16⟩
/-- SYS.SERIAL (R468, R469). -/
def sysSerial : Nat := 0x8
def sysSerial_SERIAL : Fld := ⟨sysSerial, 0, 64⟩
/-- SYS.BOOT (R468, R469). -/
def sysBoot : Nat := 0x10
def sysBoot_STATE : Fld := ⟨sysBoot, 0, 3⟩
def sysBoot_CAUSE : Fld := ⟨sysBoot, 3, 1⟩
def sysBoot_A_ERR : Fld := ⟨sysBoot, 4, 4⟩
def sysBoot_B_ERR : Fld := ⟨sysBoot, 8, 4⟩
def sysBoot_BOOT_MS : Fld := ⟨sysBoot, 32, 16⟩
/-- SYS.PRST (R468, R469). -/
def sysPrst : Nat := 0x18
def sysPrst_REQ : Fld := ⟨sysPrst, 0, 8⟩
def sysPrst_WIPE : Fld := ⟨sysPrst, 8, 8⟩
/-- SYS.CRST (R468, R469). -/
def sysCrst : Nat := 0x20
def sysCrst_CTX : Fld := ⟨sysCrst, 0, 16⟩
def sysCrst_GO : Fld := ⟨sysCrst, 16, 1⟩
def sysCrst_CRST_IGN : Fld := ⟨sysCrst, 17, 1⟩
/-- SYS.PART_CAP (R267 to R269). -/
def sysPartCap : Nat := 0x100
def sysPartCap_MAX : Fld := ⟨sysPartCap, 0, 4⟩
def sysPartCap_MGMT_PORT : Fld := ⟨sysPartCap, 4, 2⟩
/-- SYS.NODE (R331, R332). -/
def sysNode : Nat := 0x180
def sysNode_NODE : Fld := ⟨sysNode, 0, 16⟩
def sysNode_PROTO : Fld := ⟨sysNode, 16, 8⟩
def sysNode_NODE_IGN : Fld := ⟨sysNode, 24, 1⟩
/-- SYS.PART[p].CFG (R267 to R269). -/
def sysPartCfg (p : Nat) : Nat := 0x200 + 0x20 * p
def sysPartCfg_EN (p : Nat) : Fld := ⟨(sysPartCfg p), 0, 1⟩
def sysPartCfg_EN_ERR (p : Nat) : Fld := ⟨(sysPartCfg p), 1, 1⟩
def sysPartCfg_HOSTMASK (p : Nat) : Fld := ⟨(sysPartCfg p), 4, 4⟩
def sysPartCfg_EVT_PORT (p : Nat) : Fld := ⟨(sysPartCfg p), 8, 2⟩
/-- SYS.PART[p].CLS (R267 to R269). -/
def sysPartCls (p : Nat) : Nat := 0x208 + 0x20 * p
def sysPartCls_MASK (p : Nat) : Fld := ⟨(sysPartCls p), 0, 64⟩
/-- SYS.PART[p].NI (R267 to R269). -/
def sysPartNi (p : Nat) : Nat := 0x210 + 0x20 * p
def sysPartNi_MASK (p : Nat) : Fld := ⟨(sysPartNi p), 0, 32⟩
/-- SYS.PART[p].CTX (R267 to R269). -/
def sysPartCtx (p : Nat) : Nat := 0x218 + 0x20 * p
def sysPartCtx_BASE (p : Nat) : Fld := ⟨(sysPartCtx p), 0, 16⟩
def sysPartCtx_COUNT (p : Nat) : Fld := ⟨(sysPartCtx p), 16, 17⟩
/-- SYS.PLAN[p].CTRL (R331, R332). -/
def sysPlanCtrl (p : Nat) : Nat := 0x300 + 0x10 * p
def sysPlanCtrl_STATE (p : Nat) : Fld := ⟨(sysPlanCtrl p), 0, 2⟩
def sysPlanCtrl_GO (p : Nat) : Fld := ⟨(sysPlanCtrl p), 2, 1⟩
def sysPlanCtrl_UNLOAD (p : Nat) : Fld := ⟨(sysPlanCtrl p), 3, 1⟩
def sysPlanCtrl_BADPLAN (p : Nat) : Fld := ⟨(sysPlanCtrl p), 4, 1⟩
def sysPlanCtrl_WR_IGN (p : Nat) : Fld := ⟨(sysPlanCtrl p), 5, 1⟩
def sysPlanCtrl_RC_TMO (p : Nat) : Fld := ⟨(sysPlanCtrl p), 8, 8⟩
/-- SYS.PLAN[p].PORTS (R331, R332). -/
def sysPlanPorts (p : Nat) : Nat := 0x308 + 0x10 * p
def sysPlanPorts_MISSING (p : Nat) : Fld := ⟨(sysPlanPorts p), 0, 32⟩
def sysPlanPorts_QUAR (p : Nat) : Fld := ⟨(sysPlanPorts p), 32, 32⟩
/-- CLK.STATUS (R439, R440). -/
def clkStatus : Nat := 0x100000
def clkStatus_REF_OK : Fld := ⟨clkStatus, 0, 1⟩
def clkStatus_SPLL_LOCK : Fld := ⟨clkStatus, 1, 1⟩
def clkStatus_TPLL_LOCK : Fld := ⟨clkStatus, 2, 1⟩
def clkStatus_TSRC : Fld := ⟨clkStatus, 3, 1⟩
def clkStatus_OSC_ACTIVE : Fld := ⟨clkStatus, 4, 1⟩
/-- CLK.TCLK (R439, R440). -/
def clkTclk : Nat := 0x100008
def clkTclk_KEEP : Fld := ⟨clkTclk, 0, 7⟩
def clkTclk_TARGET : Fld := ⟨clkTclk, 7, 7⟩
def clkTclk_KEEP_MIN : Fld := ⟨clkTclk, 14, 7⟩
def clkTclk_SLEWING : Fld := ⟨clkTclk, 21, 1⟩
def clkTclk_TSTATE : Fld := ⟨clkTclk, 22, 2⟩
def clkTclk_STEP : Fld := ⟨clkTclk, 24, 6⟩
/-- CLK.TIME (R439, R440). -/
def clkTime : Nat := 0x100010
def clkTime_TIME : Fld := ⟨clkTime, 0, 64⟩
/-- CLK.SERDES (R439, R440). -/
def clkSerdes : Nat := 0x100018
def clkSerdes_GLV_LOCK : Fld := ⟨clkSerdes, 0, 16⟩
def clkSerdes_ZHL_LOCK : Fld := ⟨clkSerdes, 16, 4⟩
def clkSerdes_UNLOCKS : Fld := ⟨clkSerdes, 32, 16⟩
/-- PWR.VSET (R439, R440). -/
def pwrVset : Nat := 0x200000
def pwrVset_MV : Fld := ⟨pwrVset, 0, 10⟩
def pwrVset_FUSE_MV : Fld := ⟨pwrVset, 10, 10⟩
def pwrVset_VSET_IGN : Fld := ⟨pwrVset, 20, 1⟩
/-- PWR.VCORE_W (R439, R440). -/
def pwrVcoreW : Nat := 0x200008
def pwrVcoreW_MV : Fld := ⟨pwrVcoreW, 0, 10⟩
def pwrVcoreW_AMPS : Fld := ⟨pwrVcoreW, 10, 12⟩
def pwrVcoreW_STALE : Fld := ⟨pwrVcoreW, 22, 1⟩
def pwrVcoreW_VR_TEMP : Fld := ⟨pwrVcoreW, 32, 16⟩
def pwrVcoreW_VR_STATUS : Fld := ⟨pwrVcoreW, 48, 16⟩
/-- PWR.VCORE_E (R439, R440). -/
def pwrVcoreE : Nat := 0x200010
def pwrVcoreE_MV : Fld := ⟨pwrVcoreE, 0, 10⟩
def pwrVcoreE_AMPS : Fld := ⟨pwrVcoreE, 10, 12⟩
def pwrVcoreE_STALE : Fld := ⟨pwrVcoreE, 22, 1⟩
def pwrVcoreE_VR_TEMP : Fld := ⟨pwrVcoreE, 32, 16⟩
def pwrVcoreE_VR_STATUS : Fld := ⟨pwrVcoreE, 48, 16⟩
/-- PWR.POWER (R439, R440). -/
def pwrPower : Nat := 0x200018
def pwrPower_AVG_W : Fld := ⟨pwrPower, 0, 12⟩
def pwrPower_LIMIT : Fld := ⟨pwrPower, 12, 12⟩
def pwrPower_OTHER_W : Fld := ⟨pwrPower, 24, 12⟩
/-- PWR.THERM_CTRL (R439, R440). -/
def pwrThermCtrl : Nat := 0x200020
def pwrThermCtrl_THR_HIGH : Fld := ⟨pwrThermCtrl, 0, 12⟩
def pwrThermCtrl_THR_REL : Fld := ⟨pwrThermCtrl, 12, 12⟩
def pwrThermCtrl_THR_MEM : Fld := ⟨pwrThermCtrl, 24, 12⟩
def pwrThermCtrl_CRIT : Fld := ⟨pwrThermCtrl, 36, 12⟩
/-- PWR.THERM_STAT (R439, R440). -/
def pwrThermStat : Nat := 0x200028
def pwrThermStat_HOT_SENSOR : Fld := ⟨pwrThermStat, 0, 6⟩
def pwrThermStat_HOT_TEMP : Fld := ⟨pwrThermStat, 8, 12⟩
def pwrThermStat_HOT : Fld := ⟨pwrThermStat, 20, 1⟩
def pwrThermStat_MEM_HOT : Fld := ⟨pwrThermStat, 21, 1⟩
def pwrThermStat_TRIP : Fld := ⟨pwrThermStat, 22, 1⟩
def pwrThermStat_EPISODES : Fld := ⟨pwrThermStat, 32, 16⟩
/-- PWR.RAILS (R439, R440). -/
def pwrRails : Nat := 0x200030
def pwrRails_GOOD : Fld := ⟨pwrRails, 0, 10⟩
/-- PWR.ALERT (R439, R440). -/
def pwrAlert : Nat := 0x200038
def pwrAlert_AVS_FAIL : Fld := ⟨pwrAlert, 0, 1⟩
def pwrAlert_VR_WARN : Fld := ⟨pwrAlert, 1, 1⟩
def pwrAlert_HOT : Fld := ⟨pwrAlert, 2, 1⟩
def pwrAlert_THROTTLED : Fld := ⟨pwrAlert, 3, 1⟩
def pwrAlert_MEM_HOT : Fld := ⟨pwrAlert, 4, 1⟩
def pwrAlert_EN : Fld := ⟨pwrAlert, 8, 5⟩
/-- PWR.SENSOR[s] (R439, R440). -/
def pwrSensor (s : Nat) : Nat := 0x200100 + 0x8 * s
def pwrSensor_TEMP (s : Nat) : Fld := ⟨(pwrSensor s), 0, 12⟩
def pwrSensor_VALID (s : Nat) : Fld := ⟨(pwrSensor s), 12, 1⟩
def pwrSensor_MAX (s : Nat) : Fld := ⟨(pwrSensor s), 16, 12⟩
/-- SEC.STATUS (R468, R469). -/
def secStatus : Nat := 0x300000
def secStatus_MODE : Fld := ⟨secStatus, 0, 2⟩
def secStatus_DEBUG : Fld := ⟨secStatus, 2, 1⟩
def secStatus_VLOCK : Fld := ⟨secStatus, 3, 1⟩
def secStatus_OLOCK : Fld := ⟨secStatus, 4, 1⟩
def secStatus_DBG_OFF : Fld := ⟨secStatus, 5, 1⟩
def secStatus_RMA_OK : Fld := ⟨secStatus, 6, 1⟩
def secStatus_OKEY_SET : Fld := ⟨secStatus, 7, 1⟩
def secStatus_AK_VALID : Fld := ⟨secStatus, 8, 1⟩
/-- SEC.FUSE_PROG (R468, R469). -/
def secFuseProg : Nat := 0x300008
def secFuseProg_FIELD : Fld := ⟨secFuseProg, 0, 4⟩
def secFuseProg_GO : Fld := ⟨secFuseProg, 4, 1⟩
def secFuseProg_PROG_IGN : Fld := ⟨secFuseProg, 5, 1⟩
def secFuseProg_BITS_LEFT : Fld := ⟨secFuseProg, 8, 9⟩
/-- SEC.ATT_CTRL (R468, R469). -/
def secAttCtrl : Nat := 0x300010
def secAttCtrl_GO : Fld := ⟨secAttCtrl, 0, 1⟩
def secAttCtrl_ATT_IGN : Fld := ⟨secAttCtrl, 1, 1⟩
def secAttCtrl_NOKEY : Fld := ⟨secAttCtrl, 2, 1⟩
/-- SEC.FLASH_CMD (R468, R469). -/
def secFlashCmd : Nat := 0x300018
def secFlashCmd_OP : Fld := ⟨secFlashCmd, 0, 2⟩
def secFlashCmd_GO : Fld := ⟨secFlashCmd, 2, 1⟩
def secFlashCmd_FLASH_IGN : Fld := ⟨secFlashCmd, 3, 1⟩
def secFlashCmd_FAIL : Fld := ⟨secFlashCmd, 4, 1⟩
def secFlashCmd_ADDR : Fld := ⟨secFlashCmd, 32, 26⟩
/-- SEC.VKEY_HASH[i] (R468, R469). -/
def secVkeyHash (i : Nat) : Nat := 0x300100 + 0x8 * i
def secVkeyHash_VKEY_HASH (i : Nat) : Fld := ⟨(secVkeyHash i), 0, 64⟩
/-- SEC.OKEY_HASH[i] (R468, R469). -/
def secOkeyHash (i : Nat) : Nat := 0x300120 + 0x8 * i
def secOkeyHash_OKEY_HASH (i : Nat) : Fld := ⟨(secOkeyHash i), 0, 64⟩
/-- SEC.FUSE_STAGE[i] (R468, R469). -/
def secFuseStage (i : Nat) : Nat := 0x300140 + 0x8 * i
def secFuseStage_FUSE_STAGE (i : Nat) : Fld := ⟨(secFuseStage i), 0, 64⟩
/-- SEC.IDKEY[i] (R468, R469). -/
def secIdkey (i : Nat) : Nat := 0x300200 + 0x8 * i
def secIdkey_IDKEY (i : Nat) : Fld := ⟨(secIdkey i), 0, 64⟩
/-- SEC.ENDORSE[i] (R468, R469). -/
def secEndorse (i : Nat) : Nat := 0x300240 + 0x8 * i
def secEndorse_ENDORSE (i : Nat) : Fld := ⟨(secEndorse i), 0, 64⟩
/-- SEC.AKCERT[i] (R468, R469). -/
def secAkcert (i : Nat) : Nat := 0x300280 + 0x8 * i
def secAkcert_AKCERT (i : Nat) : Fld := ⟨(secAkcert i), 0, 64⟩
/-- SEC.ATT_NONCE[i] (R468, R469). -/
def secAttNonce (i : Nat) : Nat := 0x300340 + 0x8 * i
def secAttNonce_ATT_NONCE (i : Nat) : Fld := ⟨(secAttNonce i), 0, 64⟩
/-- SEC.ATT_REPORT[i] (R468, R469). -/
def secAttReport (i : Nat) : Nat := 0x300400 + 0x8 * i
def secAttReport_ATT_REPORT (i : Nat) : Fld := ⟨(secAttReport i), 0, 64⟩
/-- SEC.FLASH_BUF[i] (R468, R469). -/
def secFlashBuf (i : Nat) : Nat := 0x301000 + 0x8 * i
def secFlashBuf_FLASH_BUF (i : Nat) : Fld := ⟨(secFlashBuf i), 0, 64⟩
/-- ERR.CTRL (R400). -/
def errCtrl : Nat := 0x400000
def errCtrl_ALERT_MIN : Fld := ⟨errCtrl, 0, 3⟩
def errCtrl_ADV_EVT : Fld := ⟨errCtrl, 8, 8⟩
/-- ERR.STATUS (R400). -/
def errStatus : Nat := 0x400008
def errStatus_ALERT : Fld := ⟨errStatus, 0, 1⟩
/-- ERR.DEV_WR (R400). -/
def errDevWr : Nat := 0x400010
def errDevWr_WR : Fld := ⟨errDevWr, 0, 32⟩
/-- ERR.SEV_COUNT (R400). -/
def errSevCount : Nat := 0x400018
def errSevCount_COUNT (n : Nat) : Fld := ⟨errSevCount, 0 + 10 * n, 10⟩
/-- ERR.FATAL (R400). -/
def errFatal : Nat := 0x400020
def errFatal_TYPE : Fld := ⟨errFatal, 0, 16⟩
def errFatal_UNIT_KIND : Fld := ⟨errFatal, 16, 8⟩
def errFatal_UNIT : Fld := ⟨errFatal, 24, 16⟩
def errFatal_VALID : Fld := ⟨errFatal, 40, 1⟩
/-- ERR.POLICY (R400). -/
def errPolicy : Nat := 0x400028
def errPolicy_ARMED : Fld := ⟨errPolicy, 0, 7⟩
/-- ERR.PART[p].WR (R400). -/
def errPartWr (p : Nat) : Nat := 0x400100 + 0x20 * p
def errPartWr_WR (p : Nat) : Fld := ⟨(errPartWr p), 0, 32⟩
/-- ERR.PART[p].POLICY (R400). -/
def errPartPolicy (p : Nat) : Nat := 0x400108 + 0x20 * p
def errPartPolicy_ARMED (p : Nat) : Fld := ⟨(errPartPolicy p), 0, 7⟩
def errPartPolicy_PQ_PARAM (p : Nat) : Fld := ⟨(errPartPolicy p), 16, 16⟩
/-- ERR.DREC[i].W[w] (R400). -/
def errDrecW (i w : Nat) : Nat := 0x440000 + 0x40 * i + 0x8 * w
def errDrecW_W (i w : Nat) : Fld := ⟨(errDrecW i w), 0, 64⟩
/-- ERR.PREC[p][i].W[w] (R400). -/
def errPrecW (p i w : Nat) : Nat := 0x480000 + 0x10000 * p + 0x40 * i + 0x8 * w
def errPrecW_W (p i w : Nat) : Fld := ⟨(errPrecW p i w), 0, 64⟩
/-- PMU.CTRL (R416, R417). -/
def pmuCtrl : Nat := 0x500000
def pmuCtrl_FREEZE : Fld := ⟨pmuCtrl, 0, 1⟩
def pmuCtrl_FRZ_ON_OVF : Fld := ⟨pmuCtrl, 1, 1⟩
def pmuCtrl_CLR_ALL : Fld := ⟨pmuCtrl, 2, 1⟩
/-- PMU.STATUS (R416, R417). -/
def pmuStatus : Nat := 0x500008
def pmuStatus_MODE : Fld := ⟨pmuStatus, 0, 2⟩
def pmuStatus_OVF_ANY : Fld := ⟨pmuStatus, 2, 1⟩
/-- PMU.PART[p].SBUF_BASE (R416, R417). -/
def pmuPartSbufBase (p : Nat) : Nat := 0x501000 + 0x100 * p
def pmuPartSbufBase_DVA (p : Nat) : Fld := ⟨(pmuPartSbufBase p), 0, 48⟩
def pmuPartSbufBase_LOG2 (p : Nat) : Fld := ⟨(pmuPartSbufBase p), 48, 5⟩
/-- PMU.PART[p].SBUF_WR (R416, R417). -/
def pmuPartSbufWr (p : Nat) : Nat := 0x501008 + 0x100 * p
def pmuPartSbufWr_INDEX (p : Nat) : Fld := ⟨(pmuPartSbufWr p), 0, 32⟩
/-- PMU.PART[p].SBUF_RD (R416, R417). -/
def pmuPartSbufRd (p : Nat) : Nat := 0x501010 + 0x100 * p
def pmuPartSbufRd_INDEX (p : Nat) : Fld := ⟨(pmuPartSbufRd p), 0, 32⟩
/-- PMU.PART[p].SBUF_STAT (R416, R417). -/
def pmuPartSbufStat (p : Nat) : Nat := 0x501018 + 0x100 * p
def pmuPartSbufStat_LOST (p : Nat) : Fld := ⟨(pmuPartSbufStat p), 0, 32⟩
def pmuPartSbufStat_ERR (p : Nat) : Fld := ⟨(pmuPartSbufStat p), 32, 1⟩
/-- PMU.PART[p].AGG_OVF (R416, R417). -/
def pmuPartAggOvf (p : Nat) : Nat := 0x501020 + 0x100 * p
def pmuPartAggOvf_OVF (p : Nat) : Fld := ⟨(pmuPartAggOvf p), 0, 8⟩
/-- PMU.PART[p].AGG_SEL[k] (R416, R417). -/
def pmuPartAggSel (p k : Nat) : Nat := 0x501040 + 0x100 * p + 0x8 * k
def pmuPartAggSel_EVENT (p k : Nat) : Fld := ⟨(pmuPartAggSel p k), 0, 8⟩
def pmuPartAggSel_QUEUE (p k : Nat) : Fld := ⟨(pmuPartAggSel p k), 8, 2⟩
def pmuPartAggSel_EN (p k : Nat) : Fld := ⟨(pmuPartAggSel p k), 10, 1⟩
def pmuPartAggSel_SRC (p k : Nat) : Fld := ⟨(pmuPartAggSel p k), 11, 1⟩
def pmuPartAggSel_CHAIN (p k : Nat) : Fld := ⟨(pmuPartAggSel p k), 12, 1⟩
/-- PMU.PART[p].AGG[k] (R416, R417). -/
def pmuPartAgg (p k : Nat) : Nat := 0x501080 + 0x100 * p + 0x8 * k
def pmuPartAgg_VALUE (p k : Nat) : Fld := ⟨(pmuPartAgg p k), 0, 48⟩
/-- HL.ID (R267 to R269). -/
def hlId (h : Nat) : Nat := 0x1000000 + 0x40000 * h
def hlId_PORT (h : Nat) : Fld := ⟨(hlId h), 0, 2⟩
def hlId_MGMT (h : Nat) : Fld := ⟨(hlId h), 2, 1⟩
def hlId_VER (h : Nat) : Fld := ⟨(hlId h), 8, 8⟩
/-- HL.CTRL (R267 to R269). -/
def hlCtrl (h : Nat) : Nat := 0x1000008 + 0x40000 * h
def hlCtrl_EN (h : Nat) : Fld := ⟨(hlCtrl h), 0, 1⟩
def hlCtrl_X4_ALLOW (h : Nat) : Fld := ⟨(hlCtrl h), 1, 1⟩
/-- HL.STATUS (R267 to R269). -/
def hlStatus (h : Nat) : Nat := 0x1000010 + 0x40000 * h
def hlStatus_STATE (h : Nat) : Fld := ⟨(hlStatus h), 0, 2⟩
def hlStatus_WIDTH (h : Nat) : Fld := ⟨(hlStatus h), 2, 4⟩
def hlStatus_CABLE (h : Nat) : Fld := ⟨(hlStatus h), 6, 1⟩
def hlStatus_LANE_OK (h : Nat) : Fld := ⟨(hlStatus h), 8, 8⟩
/-- HL.ERR (R267 to R269). -/
def hlErr (h : Nat) : Nat := 0x1000018 + 0x40000 * h
def hlErr_FEC_CE (h : Nat) : Fld := ⟨(hlErr h), 0, 32⟩
def hlErr_RETRY (h : Nat) : Fld := ⟨(hlErr h), 32, 16⟩
def hlErr_DOWN_COUNT (h : Nat) : Fld := ⟨(hlErr h), 48, 16⟩
/-- HL.ACC_DENY (R267 to R269). -/
def hlAccDeny (h : Nat) : Nat := 0x1000020 + 0x40000 * h
def hlAccDeny_COUNT (h : Nat) : Fld := ⟨(hlAccDeny h), 0, 32⟩
def hlAccDeny_LAST (h : Nat) : Fld := ⟨(hlAccDeny h), 32, 28⟩
/-- HL.EVT_DROP (R267 to R269). -/
def hlEvtDrop (h : Nat) : Nat := 0x1000028 + 0x40000 * h
def hlEvtDrop_COUNT (h : Nat) : Fld := ⟨(hlEvtDrop h), 0, 32⟩
/-- HL.PARTS (R267 to R269). -/
def hlParts (h : Nat) : Nat := 0x1000030 + 0x40000 * h
def hlParts_MASK (h : Nat) : Fld := ⟨(hlParts h), 0, 8⟩
/-- CTX.SQ_BASE (R267 to R269). -/
def ctxSqBase (x : Nat) : Nat := 0x2000000 + 0x40 * x
def ctxSqBase_DVA (x : Nat) : Fld := ⟨(ctxSqBase x), 0, 48⟩
def ctxSqBase_LOG2 (x : Nat) : Fld := ⟨(ctxSqBase x), 48, 4⟩
/-- CTX.SQ_TAIL (R267 to R269). -/
def ctxSqTail (x : Nat) : Nat := 0x2000008 + 0x40 * x
def ctxSqTail_TAIL (x : Nat) : Fld := ⟨(ctxSqTail x), 0, 16⟩
/-- CTX.SQ_HEAD (R267 to R269). -/
def ctxSqHead (x : Nat) : Nat := 0x2000010 + 0x40 * x
def ctxSqHead_HEAD (x : Nat) : Fld := ⟨(ctxSqHead x), 0, 16⟩
def ctxSqHead_Q_ERR (x : Nat) : Fld := ⟨(ctxSqHead x), 16, 1⟩
/-- CTX.CQ_BASE (R267 to R269). -/
def ctxCqBase (x : Nat) : Nat := 0x2000018 + 0x40 * x
def ctxCqBase_DVA (x : Nat) : Fld := ⟨(ctxCqBase x), 0, 48⟩
/-- CTX.CQ_TAIL (R267 to R269). -/
def ctxCqTail (x : Nat) : Nat := 0x2000020 + 0x40 * x
def ctxCqTail_TAIL (x : Nat) : Fld := ⟨(ctxCqTail x), 0, 16⟩
def ctxCqTail_PHASE (x : Nat) : Fld := ⟨(ctxCqTail x), 16, 1⟩
/-- CTX.CQ_HEAD (R267 to R269). -/
def ctxCqHead (x : Nat) : Nat := 0x2000028 + 0x40 * x
def ctxCqHead_HEAD (x : Nat) : Fld := ⟨(ctxCqHead x), 0, 16⟩
/-- CTX.STATE (R267 to R269). -/
def ctxState (x : Nat) : Nat := 0x2000030 + 0x40 * x
def ctxState_STATE (x : Nat) : Fld := ⟨(ctxState x), 0, 3⟩
def ctxState_WR_IGN (x : Nat) : Fld := ⟨(ctxState x), 3, 1⟩
def ctxState_PORT (x : Nat) : Fld := ⟨(ctxState x), 4, 2⟩
def ctxState_PRC (x : Nat) : Fld := ⟨(ctxState x), 8, 4⟩
def ctxState_PART (x : Nat) : Fld := ⟨(ctxState x), 16, 3⟩
def ctxState_OUTSTANDING (x : Nat) : Fld := ⟨(ctxState x), 19, 5⟩
def ctxState_REFUSED (x : Nat) : Fld := ⟨(ctxState x), 32, 16⟩
/-- CTX.EVT (R267 to R269). -/
def ctxEvt (x : Nat) : Nat := 0x2000038 + 0x40 * x
def ctxEvt_EN (x : Nat) : Fld := ⟨(ctxEvt x), 0, 1⟩
def ctxEvt_ALL (x : Nat) : Fld := ⟨(ctxEvt x), 1, 1⟩
def ctxEvt_THRESH (x : Nat) : Fld := ⟨(ctxEvt x), 8, 8⟩
def ctxEvt_TIMER (x : Nat) : Fld := ⟨(ctxEvt x), 16, 16⟩
/-- CLS.CTRL (R66). -/
def clsCtrl (c : Nat) : Nat := 0x4000000 + 0x100000 * c
def clsCtrl_WAIT_TMO (c : Nat) : Fld := ⟨(clsCtrl c), 0, 16⟩
def clsCtrl_TMO_EN (c : Nat) : Fld := ⟨(clsCtrl c), 16, 1⟩
/-- CLS.STATUS (R66). -/
def clsStatus (c : Nat) : Nat := 0x4000008 + 0x100000 * c
def clsStatus_STATE (c : Nat) : Fld := ⟨(clsStatus c), 0, 3⟩
def clsStatus_WR_IGN (c : Nat) : Fld := ⟨(clsStatus c), 3, 1⟩
def clsStatus_LOOP_DEPTH (c : Nat) : Fld := ⟨(clsStatus c), 8, 3⟩
def clsStatus_CTX (c : Nat) : Fld := ⟨(clsStatus c), 16, 16⟩
def clsStatus_PART (c : Nat) : Fld := ⟨(clsStatus c), 32, 3⟩
/-- CLS.PC (R66). -/
def clsPc (c : Nat) : Nat := 0x4000010 + 0x100000 * c
def clsPc_PC (c : Nat) : Fld := ⟨(clsPc c), 0, 15⟩
/-- CLS.LESSON (R66). -/
def clsLesson (c : Nat) : Nat := 0x4000018 + 0x100000 * c
def clsLesson_FIRST_SEG (c : Nat) : Fld := ⟨(clsLesson c), 0, 6⟩
def clsLesson_SEG_COUNT (c : Nat) : Fld := ⟨(clsLesson c), 6, 7⟩
def clsLesson_INSN_COUNT (c : Nat) : Fld := ⟨(clsLesson c), 16, 16⟩
def clsLesson_MB_DECL (c : Nat) : Fld := ⟨(clsLesson c), 32, 16⟩
/-- CLS.DTAB (R66). -/
def clsDtab (c : Nat) : Nat := 0x4000020 + 0x100000 * c
def clsDtab_DVA (c : Nat) : Fld := ⟨(clsDtab c), 0, 48⟩
/-- CLS.FAULT0 (R66). -/
def clsFault0 (c : Nat) : Nat := 0x4000028 + 0x100000 * c
def clsFault0_CAUSE (c : Nat) : Fld := ⟨(clsFault0 c), 0, 8⟩
def clsFault0_QUEUE (c : Nat) : Fld := ⟨(clsFault0 c), 8, 3⟩
def clsFault0_MULTI (c : Nat) : Fld := ⟨(clsFault0 c), 11, 1⟩
def clsFault0_PC (c : Nat) : Fld := ⟨(clsFault0 c), 12, 15⟩
def clsFault0_STATUS (c : Nat) : Fld := ⟨(clsFault0 c), 32, 8⟩
def clsFault0_DESC (c : Nat) : Fld := ⟨(clsFault0 c), 40, 8⟩
/-- CLS.FAULT1 (R66). -/
def clsFault1 (c : Nat) : Nat := 0x4000030 + 0x100000 * c
def clsFault1_ENCODING (c : Nat) : Fld := ⟨(clsFault1 c), 0, 64⟩
/-- CLS.FAULT2 (R66). -/
def clsFault2 (c : Nat) : Nat := 0x4000038 + 0x100000 * c
def clsFault2_DVA (c : Nat) : Fld := ⟨(clsFault2 c), 0, 48⟩
def clsFault2_TOKEN (c : Nat) : Fld := ⟨(clsFault2 c), 48, 6⟩
/-- CLS.LOOP[l] (R66). -/
def clsLoop (c l : Nat) : Nat := 0x4000040 + 0x100000 * c + 0x8 * l
def clsLoop_INDEX (c l : Nat) : Fld := ⟨(clsLoop c l), 0, 24⟩
def clsLoop_COUNT (c l : Nat) : Fld := ⟨(clsLoop c l), 24, 24⟩
def clsLoop_ACTIVE (c l : Nat) : Fld := ⟨(clsLoop c l), 48, 1⟩
/-- CLS.QSTAT (R66). -/
def clsQstat (c : Nat) : Nat := 0x4000060 + 0x100000 * c
def clsQstat_T_OCC (c : Nat) : Fld := ⟨(clsQstat c), 0, 7⟩
def clsQstat_V_OCC (c : Nat) : Fld := ⟨(clsQstat c), 8, 7⟩
def clsQstat_M_OCC (c : Nat) : Fld := ⟨(clsQstat c), 16, 7⟩
def clsQstat_S_OCC (c : Nat) : Fld := ⟨(clsQstat c), 24, 7⟩
/-- CLS.IMEM_ECC (R66). -/
def clsImemEcc (c : Nat) : Nat := 0x4000068 + 0x100000 * c
def clsImemEcc_CE_COUNT (c : Nat) : Fld := ⟨(clsImemEcc c), 0, 32⟩
def clsImemEcc_LAST_SLOT (c : Nat) : Fld := ⟨(clsImemEcc c), 32, 15⟩
/-- CLS.SEGMAP (R66). -/
def clsSegmap (c : Nat) : Nat := 0x4000070 + 0x100000 * c
def clsSegmap_VALID (c : Nat) : Fld := ⟨(clsSegmap c), 0, 64⟩
/-- CLS.ARR_CTRL (R119). -/
def clsArrCtrl (c : Nat) : Nat := 0x4000078 + 0x100000 * c
def clsArrCtrl_HOLD (c : Nat) : Fld := ⟨(clsArrCtrl c), 0, 1⟩
/-- CLS.ARR_STAT (R119). -/
def clsArrStat (c : Nat) : Nat := 0x4000080 + 0x100000 * c
def clsArrStat_PSTATE (c : Nat) : Fld := ⟨(clsArrStat c), 0, 3⟩
def clsArrStat_RAMP_STEP (c : Nat) : Fld := ⟨(clsArrStat c), 4, 5⟩
def clsArrStat_LOAD_BUSY (c : Nat) : Fld := ⟨(clsArrStat c), 16, 1⟩
def clsArrStat_SHADOW_VALID (c : Nat) : Fld := ⟨(clsArrStat c), 17, 1⟩
def clsArrStat_SHADOW_TR (c : Nat) : Fld := ⟨(clsArrStat c), 18, 1⟩
/-- CLS.ARR_FILL (R119). -/
def clsArrFill (c : Nat) : Nat := 0x4000088 + 0x100000 * c
def clsArrFill_FILL_CYCLES (c : Nat) : Fld := ⟨(clsArrFill c), 0, 48⟩
/-- CLS.ARR_RAMP (R119). -/
def clsArrRamp (c : Nat) : Nat := 0x4000090 + 0x100000 * c
def clsArrRamp_DOWN_COUNT (c : Nat) : Fld := ⟨(clsArrRamp c), 0, 24⟩
def clsArrRamp_UP_COUNT (c : Nat) : Fld := ⟨(clsArrRamp c), 24, 24⟩
def clsArrRamp_SLOT_WAIT (c : Nat) : Fld := ⟨(clsArrRamp c), 48, 16⟩
/-- CLS.OB_CONFLICT (R119). -/
def clsObConflict (c : Nat) : Nat := 0x4000098 + 0x100000 * c
def clsObConflict_T_STALL (c : Nat) : Fld := ⟨(clsObConflict c), 0, 32⟩
def clsObConflict_OTHER_DENY (c : Nat) : Fld := ⟨(clsObConflict c), 32, 32⟩
/-- CLS.FLAGS (R144). -/
def clsFlags (c : Nat) : Nat := 0x40000a0 + 0x100000 * c
def clsFlags_T_INVALID (c : Nat) : Fld := ⟨(clsFlags c), 0, 1⟩
def clsFlags_T_OVERFLOW (c : Nat) : Fld := ⟨(clsFlags c), 1, 1⟩
def clsFlags_T_UNDERFLOW (c : Nat) : Fld := ⟨(clsFlags c), 2, 1⟩
def clsFlags_T_INEXACT (c : Nat) : Fld := ⟨(clsFlags c), 3, 1⟩
def clsFlags_T_NONFINITE_IN (c : Nat) : Fld := ⟨(clsFlags c), 4, 1⟩
def clsFlags_V_FLAGS (c : Nat) : Fld := ⟨(clsFlags c), 8, 5⟩
def clsFlags_M_FLAGS (c : Nat) : Fld := ⟨(clsFlags c), 16, 5⟩
def clsFlags_SAT_FLAGS (c : Nat) : Fld := ⟨(clsFlags c), 24, 5⟩
/-- CLS.FLAGS_PREV (R144). -/
def clsFlagsPrev (c : Nat) : Nat := 0x40000a8 + 0x100000 * c
def clsFlagsPrev_FLAGS (c : Nat) : Fld := ⟨(clsFlagsPrev c), 0, 29⟩
/-- CLS.FLAG_PC (R144). -/
def clsFlagPc (c : Nat) : Nat := 0x40000b0 + 0x100000 * c
def clsFlagPc_PC (c : Nat) : Fld := ⟨(clsFlagPc c), 0, 15⟩
def clsFlagPc_ENGINE (c : Nat) : Fld := ⟨(clsFlagPc c), 16, 2⟩
def clsFlagPc_FLAGS (c : Nat) : Fld := ⟨(clsFlagPc c), 18, 3⟩
def clsFlagPc_VALID (c : Nat) : Fld := ⟨(clsFlagPc c), 21, 1⟩
/-- CLS.SR_KEY (R144). -/
def clsSrKey (c : Nat) : Nat := 0x40000b8 + 0x100000 * c
def clsSrKey_KEY0 (c : Nat) : Fld := ⟨(clsSrKey c), 0, 32⟩
def clsSrKey_KEY1 (c : Nat) : Fld := ⟨(clsSrKey c), 32, 32⟩
/-- CLS.SR_SEQ (R144). -/
def clsSrSeq (c : Nat) : Nat := 0x40000c0 + 0x100000 * c
def clsSrSeq_SEQ (c : Nat) : Fld := ⟨(clsSrSeq c), 0, 30⟩
/-- CLS.TOK[n] (R66). -/
def clsTok (c n : Nat) : Nat := 0x4000100 + 0x100000 * c + 0x8 * n
def clsTok_COUNT (c n : Nat) : Fld := ⟨(clsTok c n), 0, 16⟩
def clsTok_TARGET (c n : Nat) : Fld := ⟨(clsTok c n), 16, 16⟩
/-- CLS.ADV[m] (R66). -/
def clsAdv (c j : Nat) : Nat := 0x4000400 + 0x100000 * c + 0x8 * j
def clsAdv_DESC (c j : Nat) : Fld := ⟨(clsAdv c j), 0, 8⟩
def clsAdv_VALID (c j : Nat) : Fld := ⟨(clsAdv c j), 8, 1⟩
def clsAdv_DELTA (c j : Nat) : Fld := ⟨(clsAdv c j), 16, 32⟩
/-- CLS.SCALE[n] (R66). -/
def clsScale (c n : Nat) : Nat := 0x4000800 + 0x100000 * c + 0x8 * n
def clsScale_SEXP (c n : Nat) : Fld := ⟨(clsScale c n), 0, 8⟩
def clsScale_BOFS_VALID (c n : Nat) : Fld := ⟨(clsScale c n), 8, 1⟩
def clsScale_BOFS_BASE (c n : Nat) : Fld := ⟨(clsScale c n), 16, 36⟩
/-- CLS.PMC_OVF (R416, R417). -/
def clsPmcOvf (c : Nat) : Nat := 0x4000a00 + 0x100000 * c
def clsPmcOvf_OVF (c : Nat) : Fld := ⟨(clsPmcOvf c), 0, 16⟩
/-- CLS.PSAMP_CTRL (R416, R417). -/
def clsPsampCtrl (c : Nat) : Nat := 0x4000a10 + 0x100000 * c
def clsPsampCtrl_EN (c : Nat) : Fld := ⟨(clsPsampCtrl c), 0, 1⟩
def clsPsampCtrl_SEL (c : Nat) : Fld := ⟨(clsPsampCtrl c), 1, 2⟩
def clsPsampCtrl_QMASK (c : Nat) : Fld := ⟨(clsPsampCtrl c), 4, 4⟩
def clsPsampCtrl_PERIOD_LOG2 (c : Nat) : Fld := ⟨(clsPsampCtrl c), 8, 5⟩
def clsPsampCtrl_LAT_MIN (c : Nat) : Fld := ⟨(clsPsampCtrl c), 16, 24⟩
/-- CLS.PSAMP_STAT (R416, R417). -/
def clsPsampStat (c : Nat) : Nat := 0x4000a18 + 0x100000 * c
def clsPsampStat_WRITTEN (c : Nat) : Fld := ⟨(clsPsampStat c), 0, 32⟩
def clsPsampStat_DROPPED (c : Nat) : Fld := ⟨(clsPsampStat c), 32, 32⟩
/-- CLS.QUIZ_CTRL (R164). -/
def clsQuizCtrl (c : Nat) : Nat := 0x4000c00 + 0x100000 * c
def clsQuizCtrl_K (c : Nat) : Fld := ⟨(clsQuizCtrl c), 0, 5⟩
def clsQuizCtrl_ALERT_BIN (c : Nat) : Fld := ⟨(clsQuizCtrl c), 8, 4⟩
def clsQuizCtrl_SEQ (c : Nat) : Fld := ⟨(clsQuizCtrl c), 32, 32⟩
/-- CLS.QUIZ_KEY (R164). -/
def clsQuizKey (c : Nat) : Nat := 0x4000c08 + 0x100000 * c
def clsQuizKey_KEY0 (c : Nat) : Fld := ⟨(clsQuizKey c), 0, 32⟩
def clsQuizKey_KEY1 (c : Nat) : Fld := ⟨(clsQuizKey c), 32, 32⟩
/-- CLS.QUIZ_STAT (R164). -/
def clsQuizStat (c : Nat) : Nat := 0x4000c10 + 0x100000 * c
def clsQuizStat_SAMPLED (c : Nat) : Fld := ⟨(clsQuizStat c), 0, 24⟩
def clsQuizStat_ALERTS (c : Nat) : Fld := ⟨(clsQuizStat c), 24, 24⟩
/-- CLS.QUIZ_LAST (R164). -/
def clsQuizLast (c : Nat) : Nat := 0x4000c18 + 0x100000 * c
def clsQuizLast_LAYER (c : Nat) : Fld := ⟨(clsQuizLast c), 0, 12⟩
def clsQuizLast_BIN (c : Nat) : Fld := ⟨(clsQuizLast c), 12, 4⟩
def clsQuizLast_TILE (c : Nat) : Fld := ⟨(clsQuizLast c), 16, 20⟩
def clsQuizLast_PC (c : Nat) : Fld := ⟨(clsQuizLast c), 36, 15⟩
def clsQuizLast_VALID (c : Nat) : Fld := ⟨(clsQuizLast c), 51, 1⟩
/-- CLS.QUIZ_HIST[b] (R164). -/
def clsQuizHist (c b : Nat) : Nat := 0x4000c40 + 0x100000 * c + 0x8 * b
def clsQuizHist_COUNT (c b : Nat) : Fld := ⟨(clsQuizHist c b), 0, 48⟩
/-- CLS.SAT_CTRL (R191). -/
def clsSatCtrl (c : Nat) : Nat := 0x4000d00 + 0x100000 * c
def clsSatCtrl_FENCE_TMO (c : Nat) : Fld := ⟨(clsSatCtrl c), 0, 16⟩
def clsSatCtrl_FT_EN (c : Nat) : Fld := ⟨(clsSatCtrl c), 16, 1⟩
/-- CLS.SAT_STAT (R191). -/
def clsSatStat (c : Nat) : Nat := 0x4000d08 + 0x100000 * c
def clsSatStat_Q_OCC (c : Nat) : Fld := ⟨(clsSatStat c), 0, 3⟩
def clsSatStat_FENCE_WAIT (c : Nat) : Fld := ⟨(clsSatStat c), 3, 1⟩
def clsSatStat_WAIT_LAYER (c : Nat) : Fld := ⟨(clsSatStat c), 4, 12⟩
def clsSatStat_CLOSING (c : Nat) : Fld := ⟨(clsSatStat c), 16, 1⟩
def clsSatStat_FT_COUNT (c : Nat) : Fld := ⟨(clsSatStat c), 24, 16⟩
/-- CLS.SAT_UPD (R191). -/
def clsSatUpd (c : Nat) : Nat := 0x4000d10 + 0x100000 * c
def clsSatUpd_UPDATED (c : Nat) : Fld := ⟨(clsSatUpd c), 0, 48⟩
/-- CLS.SAT_FRZ (R191). -/
def clsSatFrz (c : Nat) : Nat := 0x4000d18 + 0x100000 * c
def clsSatFrz_FROZEN (c : Nat) : Fld := ⟨(clsSatFrz c), 0, 48⟩
/-- CLS.RC_BASE (R191). -/
def clsRcBase (c : Nat) : Nat := 0x4000d20 + 0x100000 * c
def clsRcBase_DVA (c : Nat) : Fld := ⟨(clsRcBase c), 0, 48⟩
def clsRcBase_ROWS (c : Nat) : Fld := ⟨(clsRcBase c), 48, 12⟩
/-- CLS.SAT_UC[i] (R191). -/
def clsSatUc (c i : Nat) : Nat := 0x4000d40 + 0x100000 * c + 0x8 * i
def clsSatUc_OP_LO (c i : Nat) : Fld := ⟨(clsSatUc c i), 0, 32⟩
def clsSatUc_OP_HI (c i : Nat) : Fld := ⟨(clsSatUc c i), 32, 32⟩
/-- CLS.PF_CTRL (R234, R235). -/
def clsPfCtrl (c : Nat) : Nat := 0x4000e00 + 0x100000 * c
def clsPfCtrl_EN (c : Nat) : Fld := ⟨(clsPfCtrl c), 0, 1⟩
def clsPfCtrl_DEPTH (c : Nat) : Fld := ⟨(clsPfCtrl c), 8, 6⟩
/-- CLS.PF_STAT (R234, R235). -/
def clsPfStat (c : Nat) : Nat := 0x4000e08 + 0x100000 * c
def clsPfStat_ISSUED (c : Nat) : Fld := ⟨(clsPfStat c), 0, 32⟩
def clsPfStat_USED (c : Nat) : Fld := ⟨(clsPfStat c), 32, 32⟩
/-- CLS.PF_MISS (R234, R235). -/
def clsPfMiss (c : Nat) : Nat := 0x4000e10 + 0x100000 * c
def clsPfMiss_LATE (c : Nat) : Fld := ⟨(clsPfMiss c), 0, 32⟩
def clsPfMiss_UNUSED (c : Nat) : Fld := ⟨(clsPfMiss c), 32, 32⟩
/-- CLS.PF_DROP (R234, R235). -/
def clsPfDrop (c : Nat) : Nat := 0x4000e18 + 0x100000 * c
def clsPfDrop_DROPPED (c : Nat) : Fld := ⟨(clsPfDrop c), 0, 32⟩
/-- CLS.MPREF_STAT (R234, R235). -/
def clsMprefStat (c : Nat) : Nat := 0x4000e20 + 0x100000 * c
def clsMprefStat_REQUESTED (c : Nat) : Fld := ⟨(clsMprefStat c), 0, 32⟩
def clsMprefStat_PROMOTED (c : Nat) : Fld := ⟨(clsMprefStat c), 32, 32⟩
/-- CLS.MPREF_DROP (R234, R235). -/
def clsMprefDrop (c : Nat) : Nat := 0x4000e28 + 0x100000 * c
def clsMprefDrop_DROPPED (c : Nat) : Fld := ⟨(clsMprefDrop c), 0, 32⟩
def clsMprefDrop_RESIDENT (c : Nat) : Fld := ⟨(clsMprefDrop c), 32, 32⟩
/-- CLS.MTAGS (R234, R235). -/
def clsMtags (c : Nat) : Nat := 0x4000e30 + 0x100000 * c
def clsMtags_DEMAND (c : Nat) : Fld := ⟨(clsMtags c), 0, 7⟩
def clsMtags_PREFETCH (c : Nat) : Fld := ⟨(clsMtags c), 8, 6⟩
def clsMtags_PARKED (c : Nat) : Fld := ⟨(clsMtags c), 16, 4⟩
/-- CLS.PMC[k] (R416, R417). -/
def clsPmc (c k : Nat) : Nat := 0x4000f00 + 0x100000 * c + 0x8 * k
def clsPmc_VALUE (c k : Nat) : Fld := ⟨(clsPmc c k), 0, 48⟩
/-- CLS.PMC_SEL[k] (R416, R417). -/
def clsPmcSel (c k : Nat) : Nat := 0x4000f80 + 0x100000 * c + 0x8 * k
def clsPmcSel_EVENT (c k : Nat) : Fld := ⟨(clsPmcSel c k), 0, 8⟩
def clsPmcSel_QUEUE (c k : Nat) : Fld := ⟨(clsPmcSel c k), 8, 2⟩
def clsPmcSel_EN (c k : Nat) : Fld := ⟨(clsPmcSel c k), 10, 1⟩
def clsPmcSel_CHAIN (c k : Nat) : Fld := ⟨(clsPmcSel c k), 11, 1⟩
/-- CLS.DESC[d].W[w] (R66). -/
def clsDescW (c d w : Nat) : Nat := 0x4010000 + 0x100000 * c + 0x20 * d + 0x8 * w
def clsDescW_W (c d w : Nat) : Fld := ⟨(clsDescW c d w), 0, 64⟩
/-- CLS.IMEM[i] (R66). -/
def clsImem (c i : Nat) : Nat := 0x4080000 + 0x100000 * c + 0x8 * i
def clsImem_W (c i : Nat) : Fld := ⟨(clsImem c i), 0, 64⟩
/-- MEM.STATUS (R215, R216). -/
def memStatus (m : Nat) : Nat := 0x8000000 + 0x10000 * m
def memStatus_STATE (m : Nat) : Fld := ⟨(memStatus m), 0, 2⟩
def memStatus_STACK (m : Nat) : Fld := ⟨(memStatus m), 8, 3⟩
/-- MEM.CE (R215, R216). -/
def memCe (m : Nat) : Nat := 0x8000008 + 0x10000 * m
def memCe_ONDIE (m : Nat) : Fld := ⟨(memCe m), 0, 32⟩
def memCe_LINK (m : Nat) : Fld := ⟨(memCe m), 32, 32⟩
/-- MEM.UE (R215, R216). -/
def memUe (m : Nat) : Nat := 0x8000010 + 0x10000 * m
def memUe_COUNT (m : Nat) : Fld := ⟨(memUe m), 0, 16⟩
def memUe_RETRIES (m : Nat) : Fld := ⟨(memUe m), 16, 32⟩
/-- MEM.LAST_UE (R215, R216). -/
def memLastUe (m : Nat) : Nat := 0x8000018 + 0x10000 * m
def memLastUe_FRAME (m : Nat) : Fld := ⟨(memLastUe m), 0, 18⟩
def memLastUe_PART (m : Nat) : Fld := ⟨(memLastUe m), 18, 3⟩
def memLastUe_SCRUB (m : Nat) : Fld := ⟨(memLastUe m), 21, 1⟩
def memLastUe_VALID (m : Nat) : Fld := ⟨(memLastUe m), 22, 1⟩
/-- MEM.SCRUB (R215, R216). -/
def memScrub (m : Nat) : Nat := 0x8000020 + 0x10000 * m
def memScrub_PERIOD (m : Nat) : Fld := ⟨(memScrub m), 0, 16⟩
def memScrub_EN (m : Nat) : Fld := ⟨(memScrub m), 16, 1⟩
/-- MEM.RETIRED (R215, R216). -/
def memRetired (m : Nat) : Nat := 0x8000028 + 0x10000 * m
def memRetired_FRAMES (m : Nat) : Fld := ⟨(memRetired m), 0, 18⟩
/-- MEM.SORT_CTRL (R234, R235). -/
def memSortCtrl (m : Nat) : Nat := 0x8000030 + 0x10000 * m
def memSortCtrl_BANK_TAGS (m : Nat) : Fld := ⟨(memSortCtrl m), 0, 10⟩
def memSortCtrl_BANK_MSR (m : Nat) : Fld := ⟨(memSortCtrl m), 10, 9⟩
def memSortCtrl_AGE_LIMIT (m : Nat) : Fld := ⟨(memSortCtrl m), 32, 16⟩
def memSortCtrl_HOT_TMO (m : Nat) : Fld := ⟨(memSortCtrl m), 48, 16⟩
/-- MEM.SORT_STAT (R234, R235). -/
def memSortStat (m : Nat) : Nat := 0x8000038 + 0x10000 * m
def memSortStat_TAGS_WAIT (m : Nat) : Fld := ⟨(memSortStat m), 0, 13⟩
def memSortStat_MSR_WAIT (m : Nat) : Fld := ⟨(memSortStat m), 16, 12⟩
def memSortStat_WBUF (m : Nat) : Fld := ⟨(memSortStat m), 32, 7⟩
/-- MEM.SORT_CNT (R234, R235). -/
def memSortCnt (m : Nat) : Nat := 0x8000040 + 0x10000 * m
def memSortCnt_AGED (m : Nat) : Fld := ⟨(memSortCnt m), 0, 32⟩
def memSortCnt_ROW_HITS (m : Nat) : Fld := ⟨(memSortCnt m), 32, 32⟩
/-- MEM.HOT (R234, R235). -/
def memHot (m : Nat) : Nat := 0x8000048 + 0x10000 * m
def memHot_COUNT (m : Nat) : Fld := ⟨(memHot m), 0, 32⟩
def memHot_RECORDS (m : Nat) : Fld := ⟨(memHot m), 32, 16⟩
def memHot_LAST_BANK (m : Nat) : Fld := ⟨(memHot m), 48, 4⟩
/-- MEM.PMC[k] (R416, R417). -/
def memPmc (m k : Nat) : Nat := 0x8000100 + 0x10000 * m + 0x8 * k
def memPmc_VALUE (m k : Nat) : Fld := ⟨(memPmc m k), 0, 48⟩
/-- MEM.PMC_SEL[k] (R416, R417). -/
def memPmcSel (m k : Nat) : Nat := 0x8000140 + 0x10000 * m + 0x8 * k
def memPmcSel_EVENT (m k : Nat) : Fld := ⟨(memPmcSel m k), 0, 8⟩
def memPmcSel_PFILT (m k : Nat) : Fld := ⟨(memPmcSel m k), 8, 1⟩
def memPmcSel_PART (m k : Nat) : Fld := ⟨(memPmcSel m k), 9, 3⟩
def memPmcSel_EN (m k : Nat) : Fld := ⟨(memPmcSel m k), 12, 1⟩
def memPmcSel_CHAIN (m k : Nat) : Fld := ⟨(memPmcSel m k), 13, 1⟩
/-- MEM.PMC_OVF (R416, R417). -/
def memPmcOvf (m : Nat) : Nat := 0x8000180 + 0x10000 * m
def memPmcOvf_OVF (m : Nat) : Fld := ⟨(memPmcOvf m), 0, 16⟩
/-- MIG.CTRL (R215, R216). -/
def migCtrl : Nat := 0x8800000
def migCtrl_AGE_TICK : Fld := ⟨migCtrl, 0, 16⟩
def migCtrl_PREF_AGE : Fld := ⟨migCtrl, 16, 8⟩
/-- MIG.POOL (R215, R216). -/
def migPool : Nat := 0x8800008
def migPool_FRAMES : Fld := ⟨migPool, 0, 19⟩
def migPool_HELD : Fld := ⟨migPool, 24, 19⟩
/-- MIG.STAT (R215, R216). -/
def migStat : Nat := 0x8800010
def migStat_MOVERS_BUSY : Fld := ⟨migStat, 0, 7⟩
def migStat_WSTALL : Fld := ⟨migStat, 16, 32⟩
/-- MIG.POISON (R215, R216). -/
def migPoison : Nat := 0x8800018
def migPoison_TILES : Fld := ⟨migPoison, 0, 24⟩
def migPoison_HITS : Fld := ⟨migPoison, 24, 32⟩
/-- MIG.SRAM_ECC (R215, R216). -/
def migSramEcc : Nat := 0x8800020
def migSramEcc_CE : Fld := ⟨migSramEcc, 0, 32⟩
def migSramEcc_UE : Fld := ⟨migSramEcc, 32, 16⟩
def migSramEcc_RETIRED : Fld := ⟨migSramEcc, 48, 16⟩
/-- MIG.PART[p].CFG (R215, R216). -/
def migPartCfg (p : Nat) : Nat := 0x8801000 + 0x100 * p
def migPartCfg_MODE (p : Nat) : Fld := ⟨(migPartCfg p), 0, 1⟩
def migPartCfg_MODE_IGN (p : Nat) : Fld := ⟨(migPartCfg p), 1, 1⟩
def migPartCfg_POOL_FLOOR (p : Nat) : Fld := ⟨(migPartCfg p), 8, 19⟩
/-- MIG.PART[p].SLICES (R215, R216). -/
def migPartSlices (p : Nat) : Nat := 0x8801008 + 0x100 * p
def migPartSlices_MASK (p : Nat) : Fld := ⟨(migPartSlices p), 0, 64⟩
/-- MIG.PART[p].QUOTA (R215, R216). -/
def migPartQuota (p : Nat) : Nat := 0x8801010 + 0x100 * p
def migPartQuota_SRAM (p : Nat) : Fld := ⟨(migPartQuota p), 0, 19⟩
def migPartQuota_LP (p : Nat) : Fld := ⟨(migPartQuota p), 24, 24⟩
/-- MIG.PART[p].USAGE (R215, R216). -/
def migPartUsage (p : Nat) : Nat := 0x8801018 + 0x100 * p
def migPartUsage_SRAM (p : Nat) : Fld := ⟨(migPartUsage p), 0, 19⟩
def migPartUsage_LP (p : Nat) : Fld := ⟨(migPartUsage p), 24, 24⟩
/-- MIG.PART[p].Q_BASE (R215, R216). -/
def migPartQBase (p : Nat) : Nat := 0x8801020 + 0x100 * p
def migPartQBase_DVA (p : Nat) : Fld := ⟨(migPartQBase p), 0, 48⟩
def migPartQBase_LOG2 (p : Nat) : Fld := ⟨(migPartQBase p), 48, 4⟩
/-- MIG.PART[p].Q_TAIL (R215, R216). -/
def migPartQTail (p : Nat) : Nat := 0x8801028 + 0x100 * p
def migPartQTail_TAIL (p : Nat) : Fld := ⟨(migPartQTail p), 0, 16⟩
/-- MIG.PART[p].Q_HEAD (R215, R216). -/
def migPartQHead (p : Nat) : Nat := 0x8801030 + 0x100 * p
def migPartQHead_HEAD (p : Nat) : Fld := ⟨(migPartQHead p), 0, 16⟩
def migPartQHead_Q_ERR (p : Nat) : Fld := ⟨(migPartQHead p), 16, 1⟩
/-- MIG.PART[p].CQ_BASE (R215, R216). -/
def migPartCqBase (p : Nat) : Nat := 0x8801038 + 0x100 * p
def migPartCqBase_DVA (p : Nat) : Fld := ⟨(migPartCqBase p), 0, 48⟩
/-- MIG.PART[p].EVICT (R215, R216). -/
def migPartEvict (p : Nat) : Nat := 0x8801040 + 0x100 * p
def migPartEvict_EVICTED (p : Nat) : Fld := ⟨(migPartEvict p), 0, 32⟩
def migPartEvict_BY_OTHER (p : Nat) : Fld := ⟨(migPartEvict p), 32, 32⟩
/-- NI.CTRL (R313). -/
def niCtrl (k : Nat) : Nat := 0x9000000 + 0x20000 * k
def niCtrl_EN (k : Nat) : Fld := ⟨(niCtrl k), 0, 1⟩
def niCtrl_RENEG (k : Nat) : Fld := ⟨(niCtrl k), 1, 1⟩
def niCtrl_RETRY_TMO (k : Nat) : Fld := ⟨(niCtrl k), 8, 8⟩
def niCtrl_BELL_BURST (k : Nat) : Fld := ⟨(niCtrl k), 16, 5⟩
/-- NI.STATUS (R313). -/
def niStatus (k : Nat) : Nat := 0x9000008 + 0x20000 * k
def niStatus_STATE (k : Nat) : Fld := ⟨(niStatus k), 0, 3⟩
def niStatus_BOUND (k : Nat) : Fld := ⟨(niStatus k), 3, 1⟩
def niStatus_LONG (k : Nat) : Fld := ⟨(niStatus k), 4, 1⟩
def niStatus_TX_ADMIT (k : Nat) : Fld := ⟨(niStatus k), 8, 8⟩
def niStatus_RX_ADMIT (k : Nat) : Fld := ⟨(niStatus k), 16, 8⟩
/-- NI.VER (R313). -/
def niVer (k : Nat) : Nat := 0x9000010 + 0x20000 * k
def niVer_MIN (k : Nat) : Fld := ⟨(niVer k), 0, 8⟩
def niVer_MAX (k : Nat) : Fld := ⟨(niVer k), 8, 8⟩
def niVer_HW_MAX (k : Nat) : Fld := ⟨(niVer k), 16, 8⟩
def niVer_NEG (k : Nat) : Fld := ⟨(niVer k), 24, 8⟩
def niVer_FAR_MAX (k : Nat) : Fld := ⟨(niVer k), 32, 8⟩
/-- NI.ARB (R313). -/
def niArb (k : Nat) : Nat := 0x9000018 + 0x20000 * k
def niArb_W_TC2 (k : Nat) : Fld := ⟨(niArb k), 0, 8⟩
def niArb_W_TC1 (k : Nat) : Fld := ⟨(niArb k), 8, 8⟩
def niArb_W_TC0 (k : Nat) : Fld := ⟨(niArb k), 16, 8⟩
/-- NI.LINK (R313). -/
def niLink (k : Nat) : Nat := 0x9000020 + 0x20000 * k
def niLink_RTT (k : Nat) : Fld := ⟨(niLink k), 0, 16⟩
def niLink_ECHO_DLY (k : Nat) : Fld := ⟨(niLink k), 16, 10⟩
def niLink_FIBRE (k : Nat) : Fld := ⟨(niLink k), 32, 16⟩
/-- NI.RETRY (R313). -/
def niRetry (k : Nat) : Nat := 0x9000028 + 0x20000 * k
def niRetry_NAK_SENT (k : Nat) : Fld := ⟨(niRetry k), 0, 16⟩
def niRetry_RESENT (k : Nat) : Fld := ⟨(niRetry k), 16, 16⟩
def niRetry_FULL (k : Nat) : Fld := ⟨(niRetry k), 32, 16⟩
def niRetry_RETRAIN (k : Nat) : Fld := ⟨(niRetry k), 48, 16⟩
/-- NI.BELL (R313). -/
def niBell (k : Nat) : Nat := 0x9000030 + 0x20000 * k
def niBell_SENT (k : Nat) : Fld := ⟨(niBell k), 0, 32⟩
def niBell_LATE_SHARE (k : Nat) : Fld := ⟨(niBell k), 32, 16⟩
def niBell_LATE_RETRY (k : Nat) : Fld := ⟨(niBell k), 48, 16⟩
/-- NI.CRED_STAT (R313). -/
def niCredStat (k : Nat) : Nat := 0x9000038 + 0x20000 * k
def niCredStat_TC0 (k : Nat) : Fld := ⟨(niCredStat k), 0, 8⟩
def niCredStat_TC1 (k : Nat) : Fld := ⟨(niCredStat k), 8, 12⟩
def niCredStat_TC2 (k : Nat) : Fld := ⟨(niCredStat k), 20, 12⟩
def niCredStat_TC3 (k : Nat) : Fld := ⟨(niCredStat k), 32, 7⟩
/-- NI.DROP (R313). -/
def niDrop (k : Nat) : Nat := 0x9000040 + 0x20000 * k
def niDrop_DUP (k : Nat) : Fld := ⟨(niDrop k), 0, 16⟩
def niDrop_BAD_FLIT (k : Nat) : Fld := ⟨(niDrop k), 16, 16⟩
def niDrop_BAD_FRAME (k : Nat) : Fld := ⟨(niDrop k), 32, 16⟩
def niDrop_DISCARD (k : Nat) : Fld := ⟨(niDrop k), 48, 16⟩
/-- NI.LANE_ERR[k] (R313). -/
def niLaneErr (k l : Nat) : Nat := 0x9000100 + 0x20000 * k + 0x8 * l
def niLaneErr_SYM_CE (k l : Nat) : Fld := ⟨(niLaneErr k l), 0, 32⟩
def niLaneErr_UCW (k l : Nat) : Fld := ⟨(niLaneErr k l), 32, 16⟩
/-- NI.PMAP (R331, R332). -/
def niPmap (k : Nat) : Nat := 0x9000200 + 0x20000 * k
def niPmap_AXIS (k : Nat) : Fld := ⟨(niPmap k), 0, 3⟩
def niPmap_DIR (k : Nat) : Fld := ⟨(niPmap k), 3, 1⟩
def niPmap_ASSIGNED (k : Nat) : Fld := ⟨(niPmap k), 4, 1⟩
def niPmap_WRAP (k : Nat) : Fld := ⟨(niPmap k), 5, 1⟩
def niPmap_JOB (k : Nat) : Fld := ⟨(niPmap k), 8, 16⟩
/-- NI.EXP_SERIAL (R331, R332). -/
def niExpSerial (k : Nat) : Nat := 0x9000208 + 0x20000 * k
def niExpSerial_SERIAL (k : Nat) : Fld := ⟨(niExpSerial k), 0, 64⟩
/-- NI.EXP_ID (R331, R332). -/
def niExpId (k : Nat) : Nat := 0x9000210 + 0x20000 * k
def niExpId_VALID (k : Nat) : Fld := ⟨(niExpId k), 0, 1⟩
def niExpId_MIN_PROTO (k : Nat) : Fld := ⟨(niExpId k), 8, 8⟩
def niExpId_NODE (k : Nat) : Fld := ⟨(niExpId k), 16, 16⟩
def niExpId_PORT (k : Nat) : Fld := ⟨(niExpId k), 32, 5⟩
def niExpId_JOB (k : Nat) : Fld := ⟨(niExpId k), 40, 16⟩
/-- NI.RC_STATE (R331, R332). -/
def niRcState (k : Nat) : Nat := 0x9000218 + 0x20000 * k
def niRcState_STATE (k : Nat) : Fld := ⟨(niRcState k), 0, 3⟩
def niRcState_MISMATCH (k : Nat) : Fld := ⟨(niRcState k), 8, 8⟩
def niRcState_RECHECK (k : Nat) : Fld := ⟨(niRcState k), 16, 1⟩
/-- NI.FAR_SERIAL (R331, R332). -/
def niFarSerial (k : Nat) : Nat := 0x9000220 + 0x20000 * k
def niFarSerial_SERIAL (k : Nat) : Fld := ⟨(niFarSerial k), 0, 64⟩
/-- NI.FAR_ID (R331, R332). -/
def niFarId (k : Nat) : Nat := 0x9000228 + 0x20000 * k
def niFarId_PROTO (k : Nat) : Fld := ⟨(niFarId k), 0, 8⟩
def niFarId_PORT (k : Nat) : Fld := ⟨(niFarId k), 8, 5⟩
def niFarId_NODE (k : Nat) : Fld := ⟨(niFarId k), 16, 16⟩
def niFarId_JOB (k : Nat) : Fld := ⟨(niFarId k), 32, 16⟩
def niFarId_AXIS (k : Nat) : Fld := ⟨(niFarId k), 48, 8⟩
def niFarId_MATCHED (k : Nat) : Fld := ⟨(niFarId k), 56, 1⟩
def niFarId_VALID (k : Nat) : Fld := ⟨(niFarId k), 57, 1⟩
/-- NI.RC_STAT (R331, R332). -/
def niRcStat (k : Nat) : Nat := 0x9000230 + 0x20000 * k
def niRcStat_RECORDS (k : Nat) : Fld := ⟨(niRcStat k), 0, 16⟩
def niRcStat_QUAR (k : Nat) : Fld := ⟨(niRcStat k), 16, 16⟩
def niRcStat_TAG_DROP (k : Nat) : Fld := ⟨(niRcStat k), 32, 16⟩
def niRcStat_XDROP (k : Nat) : Fld := ⟨(niRcStat k), 48, 16⟩
/-- NI.XCAP (R331, R332). -/
def niXcap (k : Nat) : Nat := 0x9000238 + 0x20000 * k
def niXcap_CAP (k : Nat) : Fld := ⟨(niXcap k), 0, 7⟩
def niXcap_FWD (k : Nat) : Fld := ⟨(niXcap k), 32, 32⟩
/-- NI.XR[j] (R331, R332). -/
def niXr (k j : Nat) : Nat := 0x9000240 + 0x20000 * k + 0x8 * j
def niXr_VALID (k j : Nat) : Fld := ⟨(niXr k j), 0, 1⟩
def niXr_OUT_PORT (k j : Nat) : Fld := ⟨(niXr k j), 1, 5⟩
def niXr_DEST (k j : Nat) : Fld := ⟨(niXr k j), 16, 16⟩
def niXr_JOB (k j : Nat) : Fld := ⟨(niXr k j), 32, 16⟩
/-- NI.PFT_OCC (R359, R360). -/
def niPftOcc (k : Nat) : Nat := 0x9000300 + 0x20000 * k
def niPftOcc_POSTED (k : Nat) : Fld := ⟨(niPftOcc k), 0, 9⟩
def niPftOcc_EARLY (k : Nat) : Fld := ⟨(niPftOcc k), 16, 7⟩
/-- NI.PFT_CHUNKS (R359, R360). -/
def niPftChunks (k : Nat) : Nat := 0x9000308 + 0x20000 * k
def niPftChunks_SENT (k : Nat) : Fld := ⟨(niPftChunks k), 0, 32⟩
def niPftChunks_RECEIVED (k : Nat) : Fld := ⟨(niPftChunks k), 32, 32⟩
/-- NI.EARLY_OLD (R359, R360). -/
def niEarlyOld (k : Nat) : Nat := 0x9000310 + 0x20000 * k
def niEarlyOld_GID (k : Nat) : Fld := ⟨(niEarlyOld k), 0, 12⟩
def niEarlyOld_SEQ (k : Nat) : Fld := ⟨(niEarlyOld k), 16, 16⟩
def niEarlyOld_SRCNODE (k : Nat) : Fld := ⟨(niEarlyOld k), 32, 16⟩
def niEarlyOld_VALID (k : Nat) : Fld := ⟨(niEarlyOld k), 48, 1⟩
/-- NI.PMC[k] (R416, R417). -/
def niPmc (k i : Nat) : Nat := 0x9000400 + 0x20000 * k + 0x8 * i
def niPmc_VALUE (k i : Nat) : Fld := ⟨(niPmc k i), 0, 48⟩
/-- NI.PMC_SEL[k] (R416, R417). -/
def niPmcSel (k i : Nat) : Nat := 0x9000440 + 0x20000 * k + 0x8 * i
def niPmcSel_EVENT (k i : Nat) : Fld := ⟨(niPmcSel k i), 0, 8⟩
def niPmcSel_CLASS (k i : Nat) : Fld := ⟨(niPmcSel k i), 8, 2⟩
def niPmcSel_EN (k i : Nat) : Fld := ⟨(niPmcSel k i), 10, 1⟩
def niPmcSel_CHAIN (k i : Nat) : Fld := ⟨(niPmcSel k i), 11, 1⟩
/-- NI.PMC_OVF (R416, R417). -/
def niPmcOvf (k : Nat) : Nat := 0x9000480 + 0x20000 * k
def niPmcOvf_OVF (k : Nat) : Fld := ⟨(niPmcOvf k), 0, 16⟩
/-- PFT.CTRL (R359, R360). -/
def pftCtrl : Nat := 0x9400000
def pftCtrl_WD_TMO : Fld := ⟨pftCtrl, 0, 16⟩
/-- PFT.STAT (R359, R360). -/
def pftStat : Nat := 0x9400008
def pftStat_POSTED : Fld := ⟨pftStat, 0, 14⟩
def pftStat_EARLY : Fld := ⟨pftStat, 16, 12⟩
/-- PFT.ERR (R359, R360). -/
def pftErr : Nat := 0x9400010
def pftErr_CRC : Fld := ⟨pftErr, 0, 16⟩
def pftErr_STALE : Fld := ⟨pftErr, 16, 16⟩
def pftErr_VER : Fld := ⟨pftErr, 32, 16⟩
def pftErr_ORDER : Fld := ⟨pftErr, 48, 16⟩
/-- PFT.PART[p].CTRS (R359, R360). -/
def pftPartCtrs (p : Nat) : Nat := 0x9401000 + 0x100 * p
def pftPartCtrs_BASE (p : Nat) : Fld := ⟨(pftPartCtrs p), 0, 12⟩
def pftPartCtrs_COUNT (p : Nat) : Fld := ⟨(pftPartCtrs p), 16, 13⟩
/-- PFT.PART[p].Q_BASE (R359, R360). -/
def pftPartQBase (p : Nat) : Nat := 0x9401008 + 0x100 * p
def pftPartQBase_DVA (p : Nat) : Fld := ⟨(pftPartQBase p), 0, 48⟩
def pftPartQBase_LOG2 (p : Nat) : Fld := ⟨(pftPartQBase p), 48, 4⟩
/-- PFT.PART[p].Q_TAIL (R359, R360). -/
def pftPartQTail (p : Nat) : Nat := 0x9401010 + 0x100 * p
def pftPartQTail_TAIL (p : Nat) : Fld := ⟨(pftPartQTail p), 0, 16⟩
/-- PFT.PART[p].Q_HEAD (R359, R360). -/
def pftPartQHead (p : Nat) : Nat := 0x9401018 + 0x100 * p
def pftPartQHead_HEAD (p : Nat) : Fld := ⟨(pftPartQHead p), 0, 16⟩
def pftPartQHead_Q_ERR (p : Nat) : Fld := ⟨(pftPartQHead p), 16, 1⟩
/-- PFT.PART[p].CQ_BASE (R359, R360). -/
def pftPartCqBase (p : Nat) : Nat := 0x9401020 + 0x100 * p
def pftPartCqBase_DVA (p : Nat) : Fld := ⟨(pftPartCqBase p), 0, 48⟩
/-- PFT.PART[p].CQ_TAIL (R359, R360). -/
def pftPartCqTail (p : Nat) : Nat := 0x9401028 + 0x100 * p
def pftPartCqTail_TAIL (p : Nat) : Fld := ⟨(pftPartCqTail p), 0, 16⟩
def pftPartCqTail_PHASE (p : Nat) : Fld := ⟨(pftPartCqTail p), 16, 1⟩
/-- PFT.PART[p].GROUPS (R359, R360). -/
def pftPartGroups (p : Nat) : Nat := 0x9401030 + 0x100 * p
def pftPartGroups_JOINED (p : Nat) : Fld := ⟨(pftPartGroups p), 0, 13⟩
/-- PFT.CTR[n] (R359, R360). -/
def pftCtr (n : Nat) : Nat := 0x9410000 + 0x8 * n
def pftCtr_VALUE (n : Nat) : Fld := ⟨(pftCtr n), 0, 32⟩
/-- GLV.CTRL (R293, R294). -/
def glvCtrl (g : Nat) : Nat := 0xa000000 + 0x40000 * g
def glvCtrl_EN (g : Nat) : Fld := ⟨(glvCtrl g), 0, 1⟩
def glvCtrl_CAL_REQ (g : Nat) : Fld := ⟨(glvCtrl g), 1, 1⟩
def glvCtrl_TONE_EN (g : Nat) : Fld := ⟨(glvCtrl g), 2, 1⟩
def glvCtrl_DRIFT_RATE (g : Nat) : Fld := ⟨(glvCtrl g), 4, 8⟩
def glvCtrl_LOCK_TOL (g : Nat) : Fld := ⟨(glvCtrl g), 12, 8⟩
def glvCtrl_DARK_FLOOR (g : Nat) : Fld := ⟨(glvCtrl g), 20, 16⟩
def glvCtrl_LOC_STEP (g : Nat) : Fld := ⟨(glvCtrl g), 36, 8⟩
/-- GLV.STATUS (R293, R294). -/
def glvStatus (g : Nat) : Nat := 0xa000008 + 0x40000 * g
def glvStatus_STATE (g : Nat) : Fld := ⟨(glvStatus g), 0, 3⟩
def glvStatus_TEMP (g : Nat) : Fld := ⟨(glvStatus g), 4, 12⟩
def glvStatus_SLOPE (g : Nat) : Fld := ⟨(glvStatus g), 16, 16⟩
/-- GLV.TX_LANES (R293, R294). -/
def glvTxLanes (g : Nat) : Nat := 0xa000010 + 0x40000 * g
def glvTxLanes_STATE (g n : Nat) : Fld := ⟨(glvTxLanes g), 0 + 4 * n, 3⟩
def glvTxLanes_ADMIT (g n : Nat) : Fld := ⟨(glvTxLanes g), 3 + 4 * n, 1⟩
/-- GLV.RX_LANES (R293, R294). -/
def glvRxLanes (g : Nat) : Nat := 0xa000018 + 0x40000 * g
def glvRxLanes_STATE (g n : Nat) : Fld := ⟨(glvRxLanes g), 0 + 4 * n, 3⟩
def glvRxLanes_ADMIT (g n : Nat) : Fld := ⟨(glvRxLanes g), 3 + 4 * n, 1⟩
/-- GLV.RETIRE (R293, R294). -/
def glvRetire (g : Nat) : Nat := 0xa000020 + 0x40000 * g
def glvRetire_TX (g : Nat) : Fld := ⟨(glvRetire g), 0, 16⟩
def glvRetire_RX (g : Nat) : Fld := ⟨(glvRetire g), 16, 16⟩
/-- GLV.RCAUSE (R293, R294). -/
def glvRcause (g : Nat) : Nat := 0xa000028 + 0x40000 * g
def glvRcause_TX (g n : Nat) : Fld := ⟨(glvRcause g), 0 + 2 * n, 2⟩
def glvRcause_RX (g n : Nat) : Fld := ⟨(glvRcause g), 32 + 2 * n, 2⟩
/-- GLV.PORT (R293, R294). -/
def glvPort (g : Nat) : Nat := 0xa000030 + 0x40000 * g
def glvPort_SUSP_A (g : Nat) : Fld := ⟨(glvPort g), 0, 1⟩
def glvPort_SUSP_B (g : Nat) : Fld := ⟨(glvPort g), 1, 1⟩
def glvPort_TX_A (g : Nat) : Fld := ⟨(glvPort g), 8, 4⟩
def glvPort_RX_A (g : Nat) : Fld := ⟨(glvPort g), 12, 4⟩
def glvPort_TX_B (g : Nat) : Fld := ⟨(glvPort g), 16, 4⟩
def glvPort_RX_B (g : Nat) : Fld := ⟨(glvPort g), 20, 4⟩
/-- GLV.LOSS (R293, R294). -/
def glvLoss (g : Nat) : Nat := 0xa000038 + 0x40000 * g
def glvLoss_STAGE (g : Nat) : Fld := ⟨(glvLoss g), 0, 3⟩
def glvLoss_DIR (g : Nat) : Fld := ⟨(glvLoss g), 3, 1⟩
def glvLoss_FIBRE (g : Nat) : Fld := ⟨(glvLoss g), 4, 1⟩
def glvLoss_WL (g : Nat) : Fld := ⟨(glvLoss g), 5, 3⟩
def glvLoss_ALL_WL (g : Nat) : Fld := ⟨(glvLoss g), 8, 1⟩
def glvLoss_DEFICIT (g : Nat) : Fld := ⟨(glvLoss g), 16, 8⟩
def glvLoss_VALID (g : Nat) : Fld := ⟨(glvLoss g), 24, 1⟩
/-- GLV.CNT (R293, R294). -/
def glvCnt (g : Nat) : Nat := 0xa000040 + 0x40000 * g
def glvCnt_DRIFT (g : Nat) : Fld := ⟨(glvCnt g), 0, 16⟩
def glvCnt_UNLOCK (g : Nat) : Fld := ⟨(glvCnt g), 16, 16⟩
def glvCnt_WITHDRAWN (g : Nat) : Fld := ⟨(glvCnt g), 32, 16⟩
def glvCnt_READMITTED (g : Nat) : Fld := ⟨(glvCnt g), 48, 16⟩
/-- GLV.TX_MON[l] (R293, R294). -/
def glvTxMon (g l : Nat) : Nat := 0xa000100 + 0x40000 * g + 0x8 * l
def glvTxMon_POWER (g l : Nat) : Fld := ⟨(glvTxMon g l), 0, 16⟩
def glvTxMon_PILOT (g l : Nat) : Fld := ⟨(glvTxMon g l), 16, 16⟩
def glvTxMon_HEATER (g l : Nat) : Fld := ⟨(glvTxMon g l), 32, 16⟩
def glvTxMon_TONE_WL (g l : Nat) : Fld := ⟨(glvTxMon g l), 48, 3⟩
def glvTxMon_TONE_OK (g l : Nat) : Fld := ⟨(glvTxMon g l), 51, 1⟩
/-- GLV.RX_MON[l] (R293, R294). -/
def glvRxMon (g l : Nat) : Nat := 0xa000180 + 0x40000 * g + 0x8 * l
def glvRxMon_POWER (g l : Nat) : Fld := ⟨(glvRxMon g l), 0, 16⟩
def glvRxMon_PILOT (g l : Nat) : Fld := ⟨(glvRxMon g l), 16, 16⟩
def glvRxMon_HEATER (g l : Nat) : Fld := ⟨(glvRxMon g l), 32, 16⟩
def glvRxMon_TONE_WL (g l : Nat) : Fld := ⟨(glvRxMon g l), 48, 3⟩
def glvRxMon_TONE_OK (g l : Nat) : Fld := ⟨(glvRxMon g l), 51, 1⟩
/-- GLV.FIB_MON[i] (R293, R294). -/
def glvFibMon (g i : Nat) : Nat := 0xa000200 + 0x40000 * g + 0x8 * i
def glvFibMon_POWER (g i : Nat) : Fld := ⟨(glvFibMon g i), 0, 16⟩
def glvFibMon_REF (g i : Nat) : Fld := ⟨(glvFibMon g i), 16, 16⟩
/-- GLV.RTAB[r].W[w] (R293, R294). -/
def glvRtabW (g r w : Nat) : Nat := 0xa010000 + 0x40000 * g + 0x40 * r + 0x8 * w
def glvRtabW_DATA (g r w : Nat) : Fld := ⟨(glvRtabW g r w), 0, 64⟩
/-- ELS.CTRL (R293, R294). -/
def elsCtrl : Nat := 0xa400000
def elsCtrl_LIGHT_EN : Fld := ⟨elsCtrl, 0, 2⟩
def elsCtrl_COMMISSION : Fld := ⟨elsCtrl, 2, 2⟩
def elsCtrl_SAVE_TAB : Fld := ⟨elsCtrl, 4, 1⟩
def elsCtrl_THR_ADVISE : Fld := ⟨elsCtrl, 8, 8⟩
def elsCtrl_THR_PROPOSE : Fld := ⟨elsCtrl, 16, 8⟩
def elsCtrl_THR_MARGIN : Fld := ⟨elsCtrl, 24, 8⟩
def elsCtrl_HYST : Fld := ⟨elsCtrl, 32, 4⟩
/-- ELS.STATUS (R293, R294). -/
def elsStatus : Nat := 0xa400008
def elsStatus_PRESENT (n : Nat) : Fld := ⟨elsStatus, 0 + 8 * n, 1⟩
def elsStatus_FAULT (n : Nat) : Fld := ⟨elsStatus, 1 + 8 * n, 1⟩
def elsStatus_LIGHT (n : Nat) : Fld := ⟨elsStatus, 2 + 8 * n, 1⟩
def elsStatus_READY (n : Nat) : Fld := ⟨elsStatus, 3 + 8 * n, 1⟩
def elsStatus_OPEN_CAUSE (n : Nat) : Fld := ⟨elsStatus, 4 + 8 * n, 3⟩
def elsStatus_PRES : Fld := ⟨elsStatus, 16, 6⟩
def elsStatus_CMD_IGN : Fld := ⟨elsStatus, 22, 1⟩
/-- ELS.MOD[m].ID (R293, R294). -/
def elsModId (m : Nat) : Nat := 0xa400100 + 0x100 * m
def elsModId_SERIAL (m : Nat) : Fld := ⟨(elsModId m), 0, 48⟩
def elsModId_FW_VER (m : Nat) : Fld := ⟨(elsModId m), 48, 8⟩
/-- ELS.MOD[m].SRC_CMD (R293, R294). -/
def elsModSrcCmd (m : Nat) : Nat := 0xa400108 + 0x100 * m
def elsModSrcCmd_WL (m : Nat) : Fld := ⟨(elsModSrcCmd m), 0, 3⟩
def elsModSrcCmd_TO_SPARE (m : Nat) : Fld := ⟨(elsModSrcCmd m), 3, 1⟩
def elsModSrcCmd_GO (m : Nat) : Fld := ⟨(elsModSrcCmd m), 4, 1⟩
/-- ELS.MOD[m].WL[w] (R293, R294). -/
def elsModWl (m w : Nat) : Nat := 0xa400110 + 0x100 * m + 0x8 * w
def elsModWl_ACTIVE (m w : Nat) : Fld := ⟨(elsModWl m w), 0, 1⟩
def elsModWl_PRIMARY_FAILED (m w : Nat) : Fld := ⟨(elsModWl m w), 1, 1⟩
def elsModWl_SPARE_FAILED (m w : Nat) : Fld := ⟨(elsModWl m w), 2, 1⟩
def elsModWl_FADE (m w : Nat) : Fld := ⟨(elsModWl m w), 3, 3⟩
def elsModWl_POWER (m w : Nat) : Fld := ⟨(elsModWl m w), 16, 16⟩
def elsModWl_P0 (m w : Nat) : Fld := ⟨(elsModWl m w), 32, 16⟩
def elsModWl_FADE_DB (m w : Nat) : Fld := ⟨(elsModWl m w), 48, 16⟩
/-- ELS.MOD[m].OUT[f] (R293, R294). -/
def elsModOut (m f : Nat) : Nat := 0xa400150 + 0x100 * m + 0x8 * f
def elsModOut_POWER (m f : Nat) : Fld := ⟨(elsModOut m f), 0, 16⟩
def elsModOut_REF (m f : Nat) : Fld := ⟨(elsModOut m f), 16, 16⟩
/-- ELS.MOD[m].SW (R293, R294). -/
def elsModSw (m : Nat) : Nat := 0xa4001d0 + 0x100 * m
def elsModSw_STATE (m : Nat) : Fld := ⟨(elsModSw m), 0, 3⟩
def elsModSw_WL (m : Nat) : Fld := ⟨(elsModSw m), 3, 3⟩
def elsModSw_PENDING (m : Nat) : Fld := ⟨(elsModSw m), 8, 8⟩
def elsModSw_ELAPSED (m : Nat) : Fld := ⟨(elsModSw m), 16, 16⟩
def elsModSw_DONE (m : Nat) : Fld := ⟨(elsModSw m), 32, 16⟩
def elsModSw_ABANDONED (m : Nat) : Fld := ⟨(elsModSw m), 48, 16⟩
/-- ELS.MOD[m].TEMP (R293, R294). -/
def elsModTemp (m : Nat) : Nat := 0xa4001d8 + 0x100 * m
def elsModTemp_TEMP (m : Nat) : Fld := ⟨(elsModTemp m), 0, 16⟩
/-- RGS.ID (R381). -/
def rgsId : Nat := 0xc000000
def rgsId_MAN_VER : Fld := ⟨rgsId, 0, 8⟩
def rgsId_MAN_MIN : Fld := ⟨rgsId, 8, 8⟩
/-- RGS.CTRL (R381). -/
def rgsCtrl : Nat := 0xc000008
def rgsCtrl_BG_ENTRIES : Fld := ⟨rgsCtrl, 0, 7⟩
/-- RGS.BUF (R381). -/
def rgsBuf : Nat := 0xc000010
def rgsBuf_USED_W : Fld := ⟨rgsBuf, 0, 7⟩
def rgsBuf_USED_E : Fld := ⟨rgsBuf, 8, 7⟩
/-- RGS.FW (R381). -/
def rgsFw : Nat := 0xc000018
def rgsFw_ACTIVE : Fld := ⟨rgsFw, 0, 1⟩
def rgsFw_BOOTED : Fld := ⟨rgsFw, 1, 1⟩
def rgsFw_NEXT : Fld := ⟨rgsFw, 2, 1⟩
def rgsFw_TRY : Fld := ⟨rgsFw, 3, 1⟩
def rgsFw_CONFIRM : Fld := ⟨rgsFw, 4, 1⟩
def rgsFw_FALLBACK : Fld := ⟨rgsFw, 5, 1⟩
/-- RGS.FW_A (R381). -/
def rgsFwA : Nat := 0xc000020
def rgsFwA_VER : Fld := ⟨rgsFwA, 0, 32⟩
def rgsFwA_SVN : Fld := ⟨rgsFwA, 32, 7⟩
def rgsFwA_VALID : Fld := ⟨rgsFwA, 39, 1⟩
/-- RGS.FW_B (R381). -/
def rgsFwB : Nat := 0xc000028
def rgsFwB_VER : Fld := ⟨rgsFwB, 0, 32⟩
def rgsFwB_SVN : Fld := ⟨rgsFwB, 32, 7⟩
def rgsFwB_VALID : Fld := ⟨rgsFwB, 39, 1⟩
/-- RGS.ARB (R381). -/
def rgsArb : Nat := 0xc000030
def rgsArb_VALUE : Fld := ⟨rgsArb, 0, 7⟩
def rgsArb_RAISE : Fld := ⟨rgsArb, 8, 7⟩
def rgsArb_ARB_IGN : Fld := ⟨rgsArb, 16, 1⟩
def rgsArb_BUSY : Fld := ⟨rgsArb, 17, 1⟩
/-- RGS.PART[p].STATE (R381). -/
def rgsPartState (p : Nat) : Nat := 0xc000100 + 0x20 * p
def rgsPartState_STATE (p : Nat) : Fld := ⟨(rgsPartState p), 0, 3⟩
def rgsPartState_ABORTED (p : Nat) : Fld := ⟨(rgsPartState p), 3, 1⟩
def rgsPartState_CTX (p : Nat) : Fld := ⟨(rgsPartState p), 16, 16⟩
def rgsPartState_SNAP_ID (p : Nat) : Fld := ⟨(rgsPartState p), 32, 32⟩
/-- RGS.PART[p].PROGRESS (R381). -/
def rgsPartProgress (p : Nat) : Nat := 0xc000108 + 0x20 * p
def rgsPartProgress_LEFT (p : Nat) : Fld := ⟨(rgsPartProgress p), 0, 32⟩
def rgsPartProgress_TOTAL (p : Nat) : Fld := ⟨(rgsPartProgress p), 32, 32⟩
/-- RGS.PART[p].STALL (R381). -/
def rgsPartStall (p : Nat) : Nat := 0xc000110 + 0x20 * p
def rgsPartStall_COUNT (p : Nat) : Fld := ⟨(rgsPartStall p), 0, 32⟩
def rgsPartStall_TIME (p : Nat) : Fld := ⟨(rgsPartStall p), 32, 32⟩
/-- RGS.PART[p].RESULT (R381). -/
def rgsPartResult (p : Nat) : Nat := 0xc000118 + 0x20 * p
def rgsPartResult_POISONED (p : Nat) : Fld := ⟨(rgsPartResult p), 0, 32⟩
def rgsPartResult_MISMATCH (p : Nat) : Fld := ⟨(rgsPartResult p), 32, 16⟩
/-- PRC.CORE[i].STATUS (R491). -/
def prcCoreStatus (i : Nat) : Nat := 0xb000000 + 0x20 * i
def prcCoreStatus_STATE (i : Nat) : Fld := ⟨(prcCoreStatus i), 0, 2⟩
def prcCoreStatus_WDOG (i : Nat) : Fld := ⟨(prcCoreStatus i), 2, 1⟩
def prcCoreStatus_CACHE_UE (i : Nat) : Fld := ⟨(prcCoreStatus i), 3, 1⟩
def prcCoreStatus_DIE (i : Nat) : Fld := ⟨(prcCoreStatus i), 4, 1⟩
def prcCoreStatus_CTXS (i : Nat) : Fld := ⟨(prcCoreStatus i), 16, 16⟩
/-- PRC.CORE[i].ECC (R491). -/
def prcCoreEcc (i : Nat) : Nat := 0xb000008 + 0x20 * i
def prcCoreEcc_CE (i : Nat) : Fld := ⟨(prcCoreEcc i), 0, 32⟩
def prcCoreEcc_UE (i : Nat) : Fld := ⟨(prcCoreEcc i), 32, 16⟩
/-- PRC.CORE[i].HEART (R491). -/
def prcCoreHeart (i : Nat) : Nat := 0xb000010 + 0x20 * i
def prcCoreHeart_COUNT (i : Nat) : Fld := ⟨(prcCoreHeart i), 0, 32⟩
/-- PRC.CTRL (R491). -/
def prcCtrl : Nat := 0xb000400
def prcCtrl_WDOG_MS : Fld := ⟨prcCtrl, 0, 16⟩
end Csr

/-- The index values of `off` in the nested ranges, outermost first; `none` where no instance starts there. -/
def dimIndex (dims : List (Nat × Nat)) (off : Nat) : Option (List Nat) :=
  match dims with
  | [] => if off = 0 then some [] else none
  | (n, stride) :: r =>
    if off / stride < n then (dimIndex r (off % stride)).map (fun l => off / stride :: l) else none

/-- Does an instance of the register lie at address `a`; with which indices? -/
def RegSpec.at? (r : RegSpec) (a : Nat) : Option (List Nat) :=
  if r.base ≤ a then dimIndex r.dims (a - r.base) else none

/-- The first register of the list that has an instance at `a`. -/
def findReg (rows : List RegSpec) (a : Nat) : Option (RegSpec × List Nat) :=
  match rows with
  | [] => none
  | r :: rs => match r.at? a with
    | some ix => some (r, ix)
    | none => findReg rs a

/-- The registers of block SYS. -/
def rowsSys : List RegSpec := [
  ⟨"SYS.ID", 0x0, [],
    [⟨0, 8, .ro, 0xb0, 0, 0, 0xff, 0⟩, ⟨8, 4, .ro, 0, 0, 0, 15, 0⟩, ⟨16, 16, .ro, 0x2400, 0, 0, 0xffff, 0⟩]⟩,
  ⟨"SYS.SERIAL", 0x8, [],
    [⟨0, 64, .ro, 0, 0, 0, 0xffffffffffffffff, 0⟩]⟩,
  ⟨"SYS.BOOT", 0x10, [],
    [⟨0, 3, .ro, 0, 0, 0, 7, 0⟩, ⟨3, 1, .ro, 0, 0, 0, 1, 0⟩, ⟨4, 4, .ro, 1, 0, 0, 15, 0⟩, ⟨8, 4, .ro, 1, 0, 0, 15, 0⟩, ⟨32, 16, .ro, 0, 0, 0, 0xffff, 0⟩]⟩,
  ⟨"SYS.PRST", 0x18, [],
    [⟨0, 8, .w1s, 0, 0, 0, 0xff, 0⟩, ⟨8, 8, .rw, 0, 0, 0, 0xff, 0⟩]⟩,
  ⟨"SYS.CRST", 0x20, [],
    [⟨0, 16, .rw, 0, 0, 0, 0xffff, 0⟩, ⟨16, 1, .w1s, 0, 0, 0, 1, 0⟩, ⟨17, 1, .w1c, 0, 0, 0, 1, 0⟩]⟩,
  ⟨"SYS.PART_CAP", 0x100, [],
    [⟨0, 4, .ro, 0, 0, 0, 15, 0⟩, ⟨4, 2, .ro, 0, 0, 0, 3, 0⟩]⟩,
  ⟨"SYS.NODE", 0x180, [],
    [⟨0, 16, .rw, 0xffff, 0, 0, 0xffff, 0⟩, ⟨16, 8, .ro, 0, 0, 0, 0xff, 0⟩, ⟨24, 1, .w1c, 0, 0, 0, 1, 0⟩]⟩,
  ⟨"SYS.PART[p].CFG", 0x200, [(8, 0x20)],
    [⟨0, 1, .rw, 0, 0, 0, 1, 0⟩, ⟨1, 1, .w1c, 0, 0, 0, 1, 0⟩, ⟨4, 4, .rw, 0, 0, 0, 15, 0⟩, ⟨8, 2, .rw, 0, 0, 0, 3, 0⟩]⟩,
  ⟨"SYS.PART[p].CLS", 0x208, [(8, 0x20)],
    [⟨0, 64, .rw, 0, 0, 0, 0xffffffffffffffff, 0⟩]⟩,
  ⟨"SYS.PART[p].NI", 0x210, [(8, 0x20)],
    [⟨0, 32, .rw, 0, 0, 0, 0xffffffff, 0⟩]⟩,
  ⟨"SYS.PART[p].CTX", 0x218, [(8, 0x20)],
    [⟨0, 16, .rw, 0, 0, 0, 0xffff, 0⟩, ⟨16, 17, .rw, 0, 0, 0, 0x1ffff, 0⟩]⟩,
  ⟨"SYS.PLAN[p].CTRL", 0x300, [(8, 0x10)],
    [⟨0, 2, .ro, 0, 0, 0, 3, 0⟩, ⟨2, 1, .w1s, 0, 0, 0, 1, 0⟩, ⟨3, 1, .w1s, 0, 0, 0, 1, 0⟩, ⟨4, 1, .w1c, 0, 0, 0, 1, 0⟩, ⟨5, 1, .w1c, 0, 0, 0, 1, 0⟩, ⟨8, 8, .rw, 0x64, 0, 0, 0xff, 0⟩]⟩,
  ⟨"SYS.PLAN[p].PORTS", 0x308, [(8, 0x10)],
    [⟨0, 32, .ro, 0, 0, 0, 0xffffffff, 0⟩, ⟨32, 32, .ro, 0, 0, 0, 0xffffffff, 0⟩]⟩]

/-- The registers of block CLK. -/
def rowsClk : List RegSpec := [
  ⟨"CLK.STATUS", 0x100000, [],
    [⟨0, 1, .ro, 0, 0, 0, 1, 0⟩, ⟨1, 1, .ro, 0, 0, 0, 1, 0⟩, ⟨2, 1, .ro, 0, 0, 0, 1, 0⟩, ⟨3, 1, .ro, 0, 0, 0, 1, 0⟩, ⟨4, 1, .ro, 1, 0, 0, 1, 0⟩]⟩,
  ⟨"CLK.TCLK", 0x100008, [],
    [⟨0, 7, .ro, 0x40, 0, 0, 0x7f, 0⟩, ⟨7, 7, .ro, 0x40, 0, 0, 0x7f, 0⟩, ⟨14, 7, .rw, 0x20, 0, 32, 64, 0⟩, ⟨21, 1, .ro, 0, 0, 0, 1, 0⟩, ⟨22, 2, .ro, 0, 0, 0, 3, 0⟩, ⟨24, 6, .rw, 8, 0, 1, 32, 0⟩]⟩,
  ⟨"CLK.TIME", 0x100010, [],
    [⟨0, 64, .rw, 0, 0, 0, 0xffffffffffffffff, 0⟩]⟩,
  ⟨"CLK.SERDES", 0x100018, [],
    [⟨0, 16, .ro, 0, 0, 0, 0xffff, 0⟩, ⟨16, 4, .ro, 0, 0, 0, 15, 0⟩, ⟨32, 16, .rc, 0, 0, 0, 0xffff, 0⟩]⟩]

/-- The registers of block PWR. -/
def rowsPwr : List RegSpec := [
  ⟨"PWR.VSET", 0x200000, [],
    [⟨0, 10, .rw, 0x2a8, 0, 0, 0x3ff, 0⟩, ⟨10, 10, .ro, 0, 0, 0, 0x3ff, 0⟩, ⟨20, 1, .w1c, 0, 0, 0, 1, 0⟩]⟩,
  ⟨"PWR.VCORE_W", 0x200008, [],
    [⟨0, 10, .ro, 0, 0, 0, 0x3ff, 0⟩, ⟨10, 12, .ro, 0, 0, 0, 0xfff, 0⟩, ⟨22, 1, .ro, 0, 0, 0, 1, 0⟩, ⟨32, 16, .ro, 0, 0, 0, 0xffff, 0⟩, ⟨48, 16, .ro, 0, 0, 0, 0xffff, 0⟩]⟩,
  ⟨"PWR.VCORE_E", 0x200010, [],
    [⟨0, 10, .ro, 0, 0, 0, 0x3ff, 0⟩, ⟨10, 12, .ro, 0, 0, 0, 0xfff, 0⟩, ⟨22, 1, .ro, 0, 0, 0, 1, 0⟩, ⟨32, 16, .ro, 0, 0, 0, 0xffff, 0⟩, ⟨48, 16, .ro, 0, 0, 0, 0xffff, 0⟩]⟩,
  ⟨"PWR.POWER", 0x200018, [],
    [⟨0, 12, .ro, 0, 0, 0, 0xfff, 0⟩, ⟨12, 12, .rw, 0x640, 0, 0, 0xfff, 0⟩, ⟨24, 12, .rw, 0xfa, 0, 0, 0xfff, 0⟩]⟩,
  ⟨"PWR.THERM_CTRL", 0x200020, [],
    [⟨0, 12, .rw, 0x640, 0, 0, 0xfff, 0⟩, ⟨12, 12, .rw, 0x5f0, 0, 0, 0xfff, 0⟩, ⟨24, 12, .rw, 0x5a0, 0, 0, 0xfff, 0⟩, ⟨36, 12, .ro, 0x7d0, 0, 0, 0xfff, 0⟩]⟩,
  ⟨"PWR.THERM_STAT", 0x200028, [],
    [⟨0, 6, .ro, 0, 0, 0, 63, 0⟩, ⟨8, 12, .ro, 0, 0, 0, 0xfff, 0⟩, ⟨20, 1, .ro, 0, 0, 0, 1, 0⟩, ⟨21, 1, .ro, 0, 0, 0, 1, 0⟩, ⟨22, 1, .ro, 0, 0, 0, 1, 0⟩, ⟨32, 16, .rc, 0, 0, 0, 0xffff, 0⟩]⟩,
  ⟨"PWR.RAILS", 0x200030, [],
    [⟨0, 10, .ro, 0, 0, 0, 0x3ff, 0⟩]⟩,
  ⟨"PWR.ALERT", 0x200038, [],
    [⟨0, 1, .w1c, 0, 0, 0, 1, 0⟩, ⟨1, 1, .w1c, 0, 0, 0, 1, 0⟩, ⟨2, 1, .w1c, 0, 0, 0, 1, 0⟩, ⟨3, 1, .w1c, 0, 0, 0, 1, 0⟩, ⟨4, 1, .w1c, 0, 0, 0, 1, 0⟩, ⟨8, 5, .rw, 0x1f, 0, 0, 31, 0⟩]⟩,
  ⟨"PWR.SENSOR[s]", 0x200100, [(48, 0x8)],
    [⟨0, 12, .ro, 0, 0, 0, 0xfff, 0⟩, ⟨12, 1, .ro, 0, 0, 0, 1, 0⟩, ⟨16, 12, .rc, 0, 0, 0, 0xfff, 0⟩]⟩]

/-- The registers of block SEC. -/
def rowsSec : List RegSpec := [
  ⟨"SEC.STATUS", 0x300000, [],
    [⟨0, 2, .ro, 1, 0, 0, 3, 0⟩, ⟨2, 1, .ro, 0, 0, 0, 1, 0⟩, ⟨3, 1, .ro, 0, 0, 0, 1, 0⟩, ⟨4, 1, .ro, 0, 0, 0, 1, 0⟩, ⟨5, 1, .ro, 0, 0, 0, 1, 0⟩, ⟨6, 1, .ro, 0, 0, 0, 1, 0⟩, ⟨7, 1, .ro, 0, 0, 0, 1, 0⟩, ⟨8, 1, .ro, 0, 0, 0, 1, 0⟩]⟩,
  ⟨"SEC.FUSE_PROG", 0x300008, [],
    [⟨0, 4, .rw, 0, 0, 1, 6, 0⟩, ⟨4, 1, .w1s, 0, 0, 0, 1, 0⟩, ⟨5, 1, .w1c, 0, 0, 0, 1, 0⟩, ⟨8, 9, .ro, 0, 0, 0, 0x1ff, 0⟩]⟩,
  ⟨"SEC.ATT_CTRL", 0x300010, [],
    [⟨0, 1, .w1s, 0, 0, 0, 1, 0⟩, ⟨1, 1, .w1c, 0, 0, 0, 1, 0⟩, ⟨2, 1, .w1c, 0, 0, 0, 1, 0⟩]⟩,
  ⟨"SEC.FLASH_CMD", 0x300018, [],
    [⟨0, 2, .rw, 0, 0, 0, 3, 0⟩, ⟨2, 1, .w1s, 0, 0, 0, 1, 0⟩, ⟨3, 1, .w1c, 0, 0, 0, 1, 0⟩, ⟨4, 1, .w1c, 0, 0, 0, 1, 0⟩, ⟨32, 26, .rw, 0, 0, 0, 0x3ffffff, 0⟩]⟩,
  ⟨"SEC.VKEY_HASH[i]", 0x300100, [(4, 0x8)],
    [⟨0, 64, .ro, 0, 0, 0, 0xffffffffffffffff, 0⟩]⟩,
  ⟨"SEC.OKEY_HASH[i]", 0x300120, [(4, 0x8)],
    [⟨0, 64, .ro, 0, 0, 0, 0xffffffffffffffff, 0⟩]⟩,
  ⟨"SEC.FUSE_STAGE[i]", 0x300140, [(4, 0x8)],
    [⟨0, 64, .rw, 0, 0, 0, 0xffffffffffffffff, 0⟩]⟩,
  ⟨"SEC.IDKEY[i]", 0x300200, [(8, 0x8)],
    [⟨0, 64, .ro, 0, 0, 0, 0xffffffffffffffff, 0⟩]⟩,
  ⟨"SEC.ENDORSE[i]", 0x300240, [(8, 0x8)],
    [⟨0, 64, .ro, 0, 0, 0, 0xffffffffffffffff, 0⟩]⟩,
  ⟨"SEC.AKCERT[i]", 0x300280, [(24, 0x8)],
    [⟨0, 64, .ro, 0, 0, 0, 0xffffffffffffffff, 0⟩]⟩,
  ⟨"SEC.ATT_NONCE[i]", 0x300340, [(4, 0x8)],
    [⟨0, 64, .rw, 0, 0, 0, 0xffffffffffffffff, 0⟩]⟩,
  ⟨"SEC.ATT_REPORT[i]", 0x300400, [(32, 0x8)],
    [⟨0, 64, .ro, 0, 0, 0, 0xffffffffffffffff, 0⟩]⟩,
  ⟨"SEC.FLASH_BUF[i]", 0x301000, [(512, 0x8)],
    [⟨0, 64, .rw, 0, 0, 0, 0xffffffffffffffff, 0⟩]⟩]

/-- The registers of block ERR. -/
def rowsErr : List RegSpec := [
  ⟨"ERR.CTRL", 0x400000, [],
    [⟨0, 3, .rw, 1, 0, 0, 7, 0⟩, ⟨8, 8, .rw, 0xa, 0, 0, 0xff, 0⟩]⟩,
  ⟨"ERR.STATUS", 0x400008, [],
    [⟨0, 1, .w1c, 0, 0, 0, 1, 0⟩]⟩,
  ⟨"ERR.DEV_WR", 0x400010, [],
    [⟨0, 32, .ro, 0, 0, 0, 0xffffffff, 0⟩]⟩,
  ⟨"ERR.SEV_COUNT", 0x400018, [],
    [⟨0, 10, .rc, 0, 0, 0, 0x3ff, 0⟩, ⟨10, 10, .rc, 0, 0, 0, 0x3ff, 0⟩, ⟨20, 10, .rc, 0, 0, 0, 0x3ff, 0⟩, ⟨30, 10, .rc, 0, 0, 0, 0x3ff, 0⟩, ⟨40, 10, .rc, 0, 0, 0, 0x3ff, 0⟩, ⟨50, 10, .rc, 0, 0, 0, 0x3ff, 0⟩]⟩,
  ⟨"ERR.FATAL", 0x400020, [],
    [⟨0, 16, .ro, 0, 0, 0, 0xffff, 0⟩, ⟨16, 8, .ro, 0, 0, 0, 0xff, 0⟩, ⟨24, 16, .ro, 0, 0, 0, 0xffff, 0⟩, ⟨40, 1, .w1c, 0, 0, 0, 1, 0⟩]⟩,
  ⟨"ERR.POLICY", 0x400028, [],
    [⟨0, 7, .ro, 0, 0, 0, 0x7f, 0⟩]⟩,
  ⟨"ERR.PART[p].WR", 0x400100, [(8, 0x20)],
    [⟨0, 32, .ro, 0, 0, 0, 0xffffffff, 0⟩]⟩,
  ⟨"ERR.PART[p].POLICY", 0x400108, [(8, 0x20)],
    [⟨0, 7, .ro, 0, 0, 0, 0x7f, 0⟩, ⟨16, 16, .ro, 0x10, 0, 0, 0xffff, 0⟩]⟩,
  ⟨"ERR.DREC[i].W[w]", 0x440000, [(4096, 0x40), (8, 0x8)],
    [⟨0, 64, .ro, 0, 0, 0, 0xffffffffffffffff, 0⟩]⟩,
  ⟨"ERR.PREC[p][i].W[w]", 0x480000, [(8, 0x10000), (1024, 0x40), (8, 0x8)],
    [⟨0, 64, .ro, 0, 0, 0, 0xffffffffffffffff, 0⟩]⟩]

/-- The registers of block PMU. -/
def rowsPmu : List RegSpec := [
  ⟨"PMU.CTRL", 0x500000, [],
    [⟨0, 1, .rw, 0, 0, 0, 1, 0⟩, ⟨1, 1, .rw, 0, 0, 0, 1, 0⟩, ⟨2, 1, .w1s, 0, 0, 0, 1, 0⟩]⟩,
  ⟨"PMU.STATUS", 0x500008, [],
    [⟨0, 2, .ro, 1, 0, 0, 3, 0⟩, ⟨2, 1, .ro, 0, 0, 0, 1, 0⟩]⟩,
  ⟨"PMU.PART[p].SBUF_BASE", 0x501000, [(8, 0x100)],
    [⟨0, 48, .rw, 0, 0, 0, 0xffffffffffff, 5⟩, ⟨48, 5, .rw, 6, 0, 6, 16, 0⟩]⟩,
  ⟨"PMU.PART[p].SBUF_WR", 0x501008, [(8, 0x100)],
    [⟨0, 32, .ro, 0, 0, 0, 0xffffffff, 0⟩]⟩,
  ⟨"PMU.PART[p].SBUF_RD", 0x501010, [(8, 0x100)],
    [⟨0, 32, .rw, 0, 0, 0, 0xffffffff, 0⟩]⟩,
  ⟨"PMU.PART[p].SBUF_STAT", 0x501018, [(8, 0x100)],
    [⟨0, 32, .rc, 0, 0, 0, 0xffffffff, 0⟩, ⟨32, 1, .w1c, 0, 0, 0, 1, 0⟩]⟩,
  ⟨"PMU.PART[p].AGG_OVF", 0x501020, [(8, 0x100)],
    [⟨0, 8, .w1c, 0, 0, 0, 0xff, 0⟩]⟩,
  ⟨"PMU.PART[p].AGG_SEL[k]", 0x501040, [(8, 0x100), (8, 0x8)],
    [⟨0, 8, .rw, 0, 0, 0, 0xff, 0⟩, ⟨8, 2, .rw, 0, 0, 0, 3, 0⟩, ⟨10, 1, .rw, 0, 0, 0, 1, 0⟩, ⟨11, 1, .rw, 0, 0, 0, 1, 0⟩, ⟨12, 1, .rw, 0, 0, 0, 1, 0⟩]⟩,
  ⟨"PMU.PART[p].AGG[k]", 0x501080, [(8, 0x100), (8, 0x8)],
    [⟨0, 48, .rw, 0, 0, 0, 0xffffffffffff, 0⟩]⟩]

/-- The registers of block HL. -/
def rowsHl : List RegSpec := [
  ⟨"HL.ID", 0x1000000, [(4, 0x40000)],
    [⟨0, 2, .ro, 0, 1, 0, 3, 0⟩, ⟨2, 1, .ro, 0, 0, 0, 1, 0⟩, ⟨8, 8, .ro, 1, 0, 0, 0xff, 0⟩]⟩,
  ⟨"HL.CTRL", 0x1000008, [(4, 0x40000)],
    [⟨0, 1, .rw, 1, 0, 0, 1, 0⟩, ⟨1, 1, .rw, 1, 0, 0, 1, 0⟩]⟩,
  ⟨"HL.STATUS", 0x1000010, [(4, 0x40000)],
    [⟨0, 2, .ro, 1, 0, 0, 3, 0⟩, ⟨2, 4, .ro, 0, 0, 0, 15, 0⟩, ⟨6, 1, .ro, 0, 0, 0, 1, 0⟩, ⟨8, 8, .ro, 0, 0, 0, 0xff, 0⟩]⟩,
  ⟨"HL.ERR", 0x1000018, [(4, 0x40000)],
    [⟨0, 32, .rc, 0, 0, 0, 0xffffffff, 0⟩, ⟨32, 16, .rc, 0, 0, 0, 0xffff, 0⟩, ⟨48, 16, .rc, 0, 0, 0, 0xffff, 0⟩]⟩,
  ⟨"HL.ACC_DENY", 0x1000020, [(4, 0x40000)],
    [⟨0, 32, .rc, 0, 0, 0, 0xffffffff, 0⟩, ⟨32, 28, .ro, 0, 0, 0, 0xfffffff, 0⟩]⟩,
  ⟨"HL.EVT_DROP", 0x1000028, [(4, 0x40000)],
    [⟨0, 32, .rc, 0, 0, 0, 0xffffffff, 0⟩]⟩,
  ⟨"HL.PARTS", 0x1000030, [(4, 0x40000)],
    [⟨0, 8, .ro, 0, 0, 0, 0xff, 0⟩]⟩]

/-- The registers of block CTX. -/
def rowsCtx : List RegSpec := [
  ⟨"CTX.SQ_BASE", 0x2000000, [(65536, 0x40)],
    [⟨0, 48, .rw, 0, 0, 0, 0xffffffffffff, 6⟩, ⟨48, 4, .rw, 4, 0, 4, 12, 0⟩]⟩,
  ⟨"CTX.SQ_TAIL", 0x2000008, [(65536, 0x40)],
    [⟨0, 16, .rw, 0, 0, 0, 0xffff, 0⟩]⟩,
  ⟨"CTX.SQ_HEAD", 0x2000010, [(65536, 0x40)],
    [⟨0, 16, .ro, 0, 0, 0, 0xffff, 0⟩, ⟨16, 1, .w1c, 0, 0, 0, 1, 0⟩]⟩,
  ⟨"CTX.CQ_BASE", 0x2000018, [(65536, 0x40)],
    [⟨0, 48, .rw, 0, 0, 0, 0xffffffffffff, 5⟩]⟩,
  ⟨"CTX.CQ_TAIL", 0x2000020, [(65536, 0x40)],
    [⟨0, 16, .ro, 0, 0, 0, 0xffff, 0⟩, ⟨16, 1, .ro, 0, 0, 0, 1, 0⟩]⟩,
  ⟨"CTX.CQ_HEAD", 0x2000028, [(65536, 0x40)],
    [⟨0, 16, .rw, 0, 0, 0, 0xffff, 0⟩]⟩,
  ⟨"CTX.STATE", 0x2000030, [(65536, 0x40)],
    [⟨0, 3, .ro, 0, 0, 0, 7, 0⟩, ⟨3, 1, .w1c, 0, 0, 0, 1, 0⟩, ⟨4, 2, .rw, 0, 0, 0, 3, 0⟩, ⟨8, 4, .ro, 0, 0, 0, 15, 0⟩, ⟨16, 3, .ro, 0, 0, 0, 7, 0⟩, ⟨19, 5, .ro, 0, 0, 0, 31, 0⟩, ⟨32, 16, .rc, 0, 0, 0, 0xffff, 0⟩]⟩,
  ⟨"CTX.EVT", 0x2000038, [(65536, 0x40)],
    [⟨0, 1, .rw, 0, 0, 0, 1, 0⟩, ⟨1, 1, .rw, 0, 0, 0, 1, 0⟩, ⟨8, 8, .rw, 1, 0, 0, 0xff, 0⟩, ⟨16, 16, .rw, 0, 0, 0, 0xffff, 0⟩]⟩]

/-- The registers of block CLS. -/
def rowsCls : List RegSpec := [
  ⟨"CLS.CTRL", 0x4000000, [(64, 0x100000)],
    [⟨0, 16, .rw, 0x4c4b, 0, 0, 0xffff, 0⟩, ⟨16, 1, .rw, 1, 0, 0, 1, 0⟩]⟩,
  ⟨"CLS.STATUS", 0x4000008, [(64, 0x100000)],
    [⟨0, 3, .ro, 0, 0, 0, 7, 0⟩, ⟨3, 1, .w1c, 0, 0, 0, 1, 0⟩, ⟨8, 3, .ro, 0, 0, 0, 7, 0⟩, ⟨16, 16, .ro, 0, 0, 0, 0xffff, 0⟩, ⟨32, 3, .ro, 0, 0, 0, 7, 0⟩]⟩,
  ⟨"CLS.PC", 0x4000010, [(64, 0x100000)],
    [⟨0, 15, .ro, 0, 0, 0, 0x7fff, 0⟩]⟩,
  ⟨"CLS.LESSON", 0x4000018, [(64, 0x100000)],
    [⟨0, 6, .ro, 0, 0, 0, 63, 0⟩, ⟨6, 7, .ro, 0, 0, 0, 0x7f, 0⟩, ⟨16, 16, .ro, 0, 0, 0, 0xffff, 0⟩, ⟨32, 16, .ro, 0, 0, 0, 0xffff, 0⟩]⟩,
  ⟨"CLS.DTAB", 0x4000020, [(64, 0x100000)],
    [⟨0, 48, .ro, 0, 0, 0, 0xffffffffffff, 0⟩]⟩,
  ⟨"CLS.FAULT0", 0x4000028, [(64, 0x100000)],
    [⟨0, 8, .ro, 0, 0, 0, 0xff, 0⟩, ⟨8, 3, .ro, 0, 0, 0, 7, 0⟩, ⟨11, 1, .ro, 0, 0, 0, 1, 0⟩, ⟨12, 15, .ro, 0, 0, 0, 0x7fff, 0⟩, ⟨32, 8, .ro, 0, 0, 0, 0xff, 0⟩, ⟨40, 8, .ro, 0, 0, 0, 0xff, 0⟩]⟩,
  ⟨"CLS.FAULT1", 0x4000030, [(64, 0x100000)],
    [⟨0, 64, .ro, 0, 0, 0, 0xffffffffffffffff, 0⟩]⟩,
  ⟨"CLS.FAULT2", 0x4000038, [(64, 0x100000)],
    [⟨0, 48, .ro, 0, 0, 0, 0xffffffffffff, 0⟩, ⟨48, 6, .ro, 0, 0, 0, 63, 0⟩]⟩,
  ⟨"CLS.LOOP[l]", 0x4000040, [(64, 0x100000), (4, 0x8)],
    [⟨0, 24, .ro, 0, 0, 0, 0xffffff, 0⟩, ⟨24, 24, .ro, 0, 0, 0, 0xffffff, 0⟩, ⟨48, 1, .ro, 0, 0, 0, 1, 0⟩]⟩,
  ⟨"CLS.QSTAT", 0x4000060, [(64, 0x100000)],
    [⟨0, 7, .ro, 0, 0, 0, 0x7f, 0⟩, ⟨8, 7, .ro, 0, 0, 0, 0x7f, 0⟩, ⟨16, 7, .ro, 0, 0, 0, 0x7f, 0⟩, ⟨24, 7, .ro, 0, 0, 0, 0x7f, 0⟩]⟩,
  ⟨"CLS.IMEM_ECC", 0x4000068, [(64, 0x100000)],
    [⟨0, 32, .rc, 0, 0, 0, 0xffffffff, 0⟩, ⟨32, 15, .ro, 0, 0, 0, 0x7fff, 0⟩]⟩,
  ⟨"CLS.SEGMAP", 0x4000070, [(64, 0x100000)],
    [⟨0, 64, .ro, 0, 0, 0, 0xffffffffffffffff, 0⟩]⟩,
  ⟨"CLS.ARR_CTRL", 0x4000078, [(64, 0x100000)],
    [⟨0, 1, .rw, 0, 0, 0, 1, 0⟩]⟩,
  ⟨"CLS.ARR_STAT", 0x4000080, [(64, 0x100000)],
    [⟨0, 3, .ro, 0, 0, 0, 7, 0⟩, ⟨4, 5, .ro, 0, 0, 0, 31, 0⟩, ⟨16, 1, .ro, 0, 0, 0, 1, 0⟩, ⟨17, 1, .ro, 0, 0, 0, 1, 0⟩, ⟨18, 1, .ro, 0, 0, 0, 1, 0⟩]⟩,
  ⟨"CLS.ARR_FILL", 0x4000088, [(64, 0x100000)],
    [⟨0, 48, .rc, 0, 0, 0, 0xffffffffffff, 0⟩]⟩,
  ⟨"CLS.ARR_RAMP", 0x4000090, [(64, 0x100000)],
    [⟨0, 24, .rc, 0, 0, 0, 0xffffff, 0⟩, ⟨24, 24, .rc, 0, 0, 0, 0xffffff, 0⟩, ⟨48, 16, .rc, 0, 0, 0, 0xffff, 0⟩]⟩,
  ⟨"CLS.OB_CONFLICT", 0x4000098, [(64, 0x100000)],
    [⟨0, 32, .rc, 0, 0, 0, 0xffffffff, 0⟩, ⟨32, 32, .rc, 0, 0, 0, 0xffffffff, 0⟩]⟩,
  ⟨"CLS.FLAGS", 0x40000a0, [(64, 0x100000)],
    [⟨0, 1, .w1c, 0, 0, 0, 1, 0⟩, ⟨1, 1, .w1c, 0, 0, 0, 1, 0⟩, ⟨2, 1, .w1c, 0, 0, 0, 1, 0⟩, ⟨3, 1, .w1c, 0, 0, 0, 1, 0⟩, ⟨4, 1, .w1c, 0, 0, 0, 1, 0⟩, ⟨8, 5, .w1c, 0, 0, 0, 31, 0⟩, ⟨16, 5, .w1c, 0, 0, 0, 31, 0⟩, ⟨24, 5, .w1c, 0, 0, 0, 31, 0⟩]⟩,
  ⟨"CLS.FLAGS_PREV", 0x40000a8, [(64, 0x100000)],
    [⟨0, 29, .ro, 0, 0, 0, 0x1fffffff, 0⟩]⟩,
  ⟨"CLS.FLAG_PC", 0x40000b0, [(64, 0x100000)],
    [⟨0, 15, .ro, 0, 0, 0, 0x7fff, 0⟩, ⟨16, 2, .ro, 0, 0, 0, 3, 0⟩, ⟨18, 3, .ro, 0, 0, 0, 7, 0⟩, ⟨21, 1, .w1c, 0, 0, 0, 1, 0⟩]⟩,
  ⟨"CLS.SR_KEY", 0x40000b8, [(64, 0x100000)],
    [⟨0, 32, .rw, 0, 0, 0, 0xffffffff, 0⟩, ⟨32, 32, .rw, 0, 0, 0, 0xffffffff, 0⟩]⟩,
  ⟨"CLS.SR_SEQ", 0x40000c0, [(64, 0x100000)],
    [⟨0, 30, .rw, 0, 0, 0, 0x3fffffff, 0⟩]⟩,
  ⟨"CLS.TOK[n]", 0x4000100, [(64, 0x100000), (64, 0x8)],
    [⟨0, 16, .rw, 0, 0, 0, 0xffff, 0⟩, ⟨16, 16, .rw, 0, 0, 0, 0xffff, 0⟩]⟩,
  ⟨"CLS.ADV[m]", 0x4000400, [(64, 0x100000), (32, 0x8)],
    [⟨0, 8, .rw, 0, 0, 0, 0xff, 0⟩, ⟨8, 1, .rw, 0, 0, 0, 1, 0⟩, ⟨16, 32, .rw, 0, 0, 0, 0xffffffff, 0⟩]⟩,
  ⟨"CLS.SCALE[n]", 0x4000800, [(64, 0x100000), (64, 0x8)],
    [⟨0, 8, .rw, 0, 0, 0, 0xff, 0⟩, ⟨8, 1, .rw, 0, 0, 0, 1, 0⟩, ⟨16, 36, .rw, 0, 0, 0, 0xfffffffff, 0⟩]⟩,
  ⟨"CLS.PMC_OVF", 0x4000a00, [(64, 0x100000)],
    [⟨0, 16, .w1c, 0, 0, 0, 0xffff, 0⟩]⟩,
  ⟨"CLS.PSAMP_CTRL", 0x4000a10, [(64, 0x100000)],
    [⟨0, 1, .rw, 0, 0, 0, 1, 0⟩, ⟨1, 2, .rw, 0, 0, 0, 2, 0⟩, ⟨4, 4, .rw, 0, 0, 0, 15, 0⟩, ⟨8, 5, .rw, 0xa, 0, 0, 20, 0⟩, ⟨16, 24, .rw, 0, 0, 0, 0xffffff, 0⟩]⟩,
  ⟨"CLS.PSAMP_STAT", 0x4000a18, [(64, 0x100000)],
    [⟨0, 32, .rc, 0, 0, 0, 0xffffffff, 0⟩, ⟨32, 32, .rc, 0, 0, 0, 0xffffffff, 0⟩]⟩,
  ⟨"CLS.QUIZ_CTRL", 0x4000c00, [(64, 0x100000)],
    [⟨0, 5, .rw, 0xc, 0, 6, 20, 0⟩, ⟨8, 4, .rw, 0xe, 0, 0, 15, 0⟩, ⟨32, 32, .rw, 0, 0, 0, 0xffffffff, 0⟩]⟩,
  ⟨"CLS.QUIZ_KEY", 0x4000c08, [(64, 0x100000)],
    [⟨0, 32, .rw, 0, 0, 0, 0xffffffff, 0⟩, ⟨32, 32, .rw, 0, 0, 0, 0xffffffff, 0⟩]⟩,
  ⟨"CLS.QUIZ_STAT", 0x4000c10, [(64, 0x100000)],
    [⟨0, 24, .rc, 0, 0, 0, 0xffffff, 0⟩, ⟨24, 24, .rc, 0, 0, 0, 0xffffff, 0⟩]⟩,
  ⟨"CLS.QUIZ_LAST", 0x4000c18, [(64, 0x100000)],
    [⟨0, 12, .ro, 0, 0, 0, 0xfff, 0⟩, ⟨12, 4, .ro, 0, 0, 0, 15, 0⟩, ⟨16, 20, .ro, 0, 0, 0, 0xfffff, 0⟩, ⟨36, 15, .ro, 0, 0, 0, 0x7fff, 0⟩, ⟨51, 1, .w1c, 0, 0, 0, 1, 0⟩]⟩,
  ⟨"CLS.QUIZ_HIST[b]", 0x4000c40, [(64, 0x100000), (16, 0x8)],
    [⟨0, 48, .rc, 0, 0, 0, 0xffffffffffff, 0⟩]⟩,
  ⟨"CLS.SAT_CTRL", 0x4000d00, [(64, 0x100000)],
    [⟨0, 16, .rw, 0xf42, 0, 0, 0xffff, 0⟩, ⟨16, 1, .rw, 1, 0, 0, 1, 0⟩]⟩,
  ⟨"CLS.SAT_STAT", 0x4000d08, [(64, 0x100000)],
    [⟨0, 3, .ro, 0, 0, 0, 7, 0⟩, ⟨3, 1, .ro, 0, 0, 0, 1, 0⟩, ⟨4, 12, .ro, 0, 0, 0, 0xfff, 0⟩, ⟨16, 1, .ro, 0, 0, 0, 1, 0⟩, ⟨24, 16, .rc, 0, 0, 0, 0xffff, 0⟩]⟩,
  ⟨"CLS.SAT_UPD", 0x4000d10, [(64, 0x100000)],
    [⟨0, 48, .rc, 0, 0, 0, 0xffffffffffff, 0⟩]⟩,
  ⟨"CLS.SAT_FRZ", 0x4000d18, [(64, 0x100000)],
    [⟨0, 48, .rc, 0, 0, 0, 0xffffffffffff, 0⟩]⟩,
  ⟨"CLS.RC_BASE", 0x4000d20, [(64, 0x100000)],
    [⟨0, 48, .rw, 0, 0, 0, 0xffffffffffff, 6⟩, ⟨48, 12, .rw, 0, 0, 0, 0xfff, 0⟩]⟩,
  ⟨"CLS.SAT_UC[i]", 0x4000d40, [(64, 0x100000), (8, 0x8)],
    [⟨0, 32, .rw, 0, 0, 0, 0xffffffff, 0⟩, ⟨32, 32, .rw, 0, 0, 0, 0xffffffff, 0⟩]⟩,
  ⟨"CLS.PF_CTRL", 0x4000e00, [(64, 0x100000)],
    [⟨0, 1, .rw, 1, 0, 0, 1, 0⟩, ⟨8, 6, .rw, 0x10, 0, 1, 32, 0⟩]⟩,
  ⟨"CLS.PF_STAT", 0x4000e08, [(64, 0x100000)],
    [⟨0, 32, .rc, 0, 0, 0, 0xffffffff, 0⟩, ⟨32, 32, .rc, 0, 0, 0, 0xffffffff, 0⟩]⟩,
  ⟨"CLS.PF_MISS", 0x4000e10, [(64, 0x100000)],
    [⟨0, 32, .rc, 0, 0, 0, 0xffffffff, 0⟩, ⟨32, 32, .rc, 0, 0, 0, 0xffffffff, 0⟩]⟩,
  ⟨"CLS.PF_DROP", 0x4000e18, [(64, 0x100000)],
    [⟨0, 32, .rc, 0, 0, 0, 0xffffffff, 0⟩]⟩,
  ⟨"CLS.MPREF_STAT", 0x4000e20, [(64, 0x100000)],
    [⟨0, 32, .rc, 0, 0, 0, 0xffffffff, 0⟩, ⟨32, 32, .rc, 0, 0, 0, 0xffffffff, 0⟩]⟩,
  ⟨"CLS.MPREF_DROP", 0x4000e28, [(64, 0x100000)],
    [⟨0, 32, .rc, 0, 0, 0, 0xffffffff, 0⟩, ⟨32, 32, .rc, 0, 0, 0, 0xffffffff, 0⟩]⟩,
  ⟨"CLS.MTAGS", 0x4000e30, [(64, 0x100000)],
    [⟨0, 7, .ro, 0, 0, 0, 0x7f, 0⟩, ⟨8, 6, .ro, 0, 0, 0, 63, 0⟩, ⟨16, 4, .ro, 0, 0, 0, 15, 0⟩]⟩,
  ⟨"CLS.PMC[k]", 0x4000f00, [(64, 0x100000), (16, 0x8)],
    [⟨0, 48, .rw, 0, 0, 0, 0xffffffffffff, 0⟩]⟩,
  ⟨"CLS.PMC_SEL[k]", 0x4000f80, [(64, 0x100000), (16, 0x8)],
    [⟨0, 8, .rw, 0, 0, 0, 0xff, 0⟩, ⟨8, 2, .rw, 0, 0, 0, 3, 0⟩, ⟨10, 1, .rw, 0, 0, 0, 1, 0⟩, ⟨11, 1, .rw, 0, 0, 0, 1, 0⟩]⟩,
  ⟨"CLS.DESC[d].W[w]", 0x4010000, [(64, 0x100000), (256, 0x20), (4, 0x8)],
    [⟨0, 64, .rw, 0, 0, 0, 0xffffffffffffffff, 0⟩]⟩,
  ⟨"CLS.IMEM[i]", 0x4080000, [(64, 0x100000), (32768, 0x8)],
    [⟨0, 64, .ro, 0, 0, 0, 0xffffffffffffffff, 0⟩]⟩]

/-- The registers of block MEM. -/
def rowsMem : List RegSpec := [
  ⟨"MEM.STATUS", 0x8000000, [(48, 0x10000)],
    [⟨0, 2, .ro, 0, 0, 0, 3, 0⟩, ⟨8, 3, .ro, 0, 6, 0, 7, 0⟩]⟩,
  ⟨"MEM.CE", 0x8000008, [(48, 0x10000)],
    [⟨0, 32, .rc, 0, 0, 0, 0xffffffff, 0⟩, ⟨32, 32, .rc, 0, 0, 0, 0xffffffff, 0⟩]⟩,
  ⟨"MEM.UE", 0x8000010, [(48, 0x10000)],
    [⟨0, 16, .rc, 0, 0, 0, 0xffff, 0⟩, ⟨16, 32, .rc, 0, 0, 0, 0xffffffff, 0⟩]⟩,
  ⟨"MEM.LAST_UE", 0x8000018, [(48, 0x10000)],
    [⟨0, 18, .ro, 0, 0, 0, 0x3ffff, 0⟩, ⟨18, 3, .ro, 0, 0, 0, 7, 0⟩, ⟨21, 1, .ro, 0, 0, 0, 1, 0⟩, ⟨22, 1, .w1c, 0, 0, 0, 1, 0⟩]⟩,
  ⟨"MEM.SCRUB", 0x8000020, [(48, 0x10000)],
    [⟨0, 16, .rw, 0x18, 0, 0, 0xffff, 0⟩, ⟨16, 1, .rw, 1, 0, 0, 1, 0⟩]⟩,
  ⟨"MEM.RETIRED", 0x8000028, [(48, 0x10000)],
    [⟨0, 18, .ro, 0, 0, 0, 0x3ffff, 0⟩]⟩,
  ⟨"MEM.SORT_CTRL", 0x8000030, [(48, 0x10000)],
    [⟨0, 10, .rw, 0x200, 0, 16, 0x200, 0⟩, ⟨10, 9, .rw, 0x100, 0, 8, 0x100, 0⟩, ⟨32, 16, .rw, 0x960, 0, 0, 0xffff, 0⟩, ⟨48, 16, .rw, 0x64, 0, 0, 0xffff, 0⟩]⟩,
  ⟨"MEM.SORT_STAT", 0x8000038, [(48, 0x10000)],
    [⟨0, 13, .ro, 0, 0, 0, 0x1fff, 0⟩, ⟨16, 12, .ro, 0, 0, 0, 0xfff, 0⟩, ⟨32, 7, .ro, 0, 0, 0, 0x7f, 0⟩]⟩,
  ⟨"MEM.SORT_CNT", 0x8000040, [(48, 0x10000)],
    [⟨0, 32, .rc, 0, 0, 0, 0xffffffff, 0⟩, ⟨32, 32, .rc, 0, 0, 0, 0xffffffff, 0⟩]⟩,
  ⟨"MEM.HOT", 0x8000048, [(48, 0x10000)],
    [⟨0, 32, .rc, 0, 0, 0, 0xffffffff, 0⟩, ⟨32, 16, .rc, 0, 0, 0, 0xffff, 0⟩, ⟨48, 4, .ro, 0, 0, 0, 15, 0⟩]⟩,
  ⟨"MEM.PMC[k]", 0x8000100, [(48, 0x10000), (8, 0x8)],
    [⟨0, 48, .rw, 0, 0, 0, 0xffffffffffff, 0⟩]⟩,
  ⟨"MEM.PMC_SEL[k]", 0x8000140, [(48, 0x10000), (8, 0x8)],
    [⟨0, 8, .rw, 0, 0, 0, 0xff, 0⟩, ⟨8, 1, .rw, 0, 0, 0, 1, 0⟩, ⟨9, 3, .rw, 0, 0, 0, 7, 0⟩, ⟨12, 1, .rw, 0, 0, 0, 1, 0⟩, ⟨13, 1, .rw, 0, 0, 0, 1, 0⟩]⟩,
  ⟨"MEM.PMC_OVF", 0x8000180, [(48, 0x10000)],
    [⟨0, 16, .w1c, 0, 0, 0, 0xffff, 0⟩]⟩]

/-- The registers of block MIG. -/
def rowsMig : List RegSpec := [
  ⟨"MIG.CTRL", 0x8800000, [],
    [⟨0, 16, .rw, 0x64, 0, 0, 0xffff, 0⟩, ⟨16, 8, .rw, 8, 0, 0, 0xff, 0⟩]⟩,
  ⟨"MIG.POOL", 0x8800008, [],
    [⟨0, 19, .rw, 0, 0, 0, 0x7ffff, 0⟩, ⟨24, 19, .ro, 0, 0, 0, 0x7ffff, 0⟩]⟩,
  ⟨"MIG.STAT", 0x8800010, [],
    [⟨0, 7, .ro, 0, 0, 0, 0x7f, 0⟩, ⟨16, 32, .rc, 0, 0, 0, 0xffffffff, 0⟩]⟩,
  ⟨"MIG.POISON", 0x8800018, [],
    [⟨0, 24, .rc, 0, 0, 0, 0xffffff, 0⟩, ⟨24, 32, .rc, 0, 0, 0, 0xffffffff, 0⟩]⟩,
  ⟨"MIG.SRAM_ECC", 0x8800020, [],
    [⟨0, 32, .rc, 0, 0, 0, 0xffffffff, 0⟩, ⟨32, 16, .rc, 0, 0, 0, 0xffff, 0⟩, ⟨48, 16, .ro, 0, 0, 0, 0xffff, 0⟩]⟩,
  ⟨"MIG.PART[p].CFG", 0x8801000, [(8, 0x100)],
    [⟨0, 1, .rw, 0, 0, 0, 1, 0⟩, ⟨1, 1, .w1c, 0, 0, 0, 1, 0⟩, ⟨8, 19, .rw, 0, 0, 0, 0x7ffff, 0⟩]⟩,
  ⟨"MIG.PART[p].SLICES", 0x8801008, [(8, 0x100)],
    [⟨0, 64, .rw, 0xffffffffffffffff, 0, 0, 0xffffffffffffffff, 0⟩]⟩,
  ⟨"MIG.PART[p].QUOTA", 0x8801010, [(8, 0x100)],
    [⟨0, 19, .rw, 0, 0, 0, 0x7ffff, 0⟩, ⟨24, 24, .rw, 0, 0, 0, 0xffffff, 0⟩]⟩,
  ⟨"MIG.PART[p].USAGE", 0x8801018, [(8, 0x100)],
    [⟨0, 19, .ro, 0, 0, 0, 0x7ffff, 0⟩, ⟨24, 24, .ro, 0, 0, 0, 0xffffff, 0⟩]⟩,
  ⟨"MIG.PART[p].Q_BASE", 0x8801020, [(8, 0x100)],
    [⟨0, 48, .rw, 0, 0, 0, 0xffffffffffff, 6⟩, ⟨48, 4, .rw, 4, 0, 4, 12, 0⟩]⟩,
  ⟨"MIG.PART[p].Q_TAIL", 0x8801028, [(8, 0x100)],
    [⟨0, 16, .rw, 0, 0, 0, 0xffff, 0⟩]⟩,
  ⟨"MIG.PART[p].Q_HEAD", 0x8801030, [(8, 0x100)],
    [⟨0, 16, .ro, 0, 0, 0, 0xffff, 0⟩, ⟨16, 1, .w1c, 0, 0, 0, 1, 0⟩]⟩,
  ⟨"MIG.PART[p].CQ_BASE", 0x8801038, [(8, 0x100)],
    [⟨0, 48, .rw, 0, 0, 0, 0xffffffffffff, 4⟩]⟩,
  ⟨"MIG.PART[p].EVICT", 0x8801040, [(8, 0x100)],
    [⟨0, 32, .rc, 0, 0, 0, 0xffffffff, 0⟩, ⟨32, 32, .rc, 0, 0, 0, 0xffffffff, 0⟩]⟩]

/-- The registers of block NI. -/
def rowsNi : List RegSpec := [
  ⟨"NI.CTRL", 0x9000000, [(32, 0x20000)],
    [⟨0, 1, .rw, 1, 0, 0, 1, 0⟩, ⟨1, 1, .w1s, 0, 0, 0, 1, 0⟩, ⟨8, 8, .rw, 0x40, 0, 0, 0xff, 0⟩, ⟨16, 5, .rw, 0x10, 0, 1, 16, 0⟩]⟩,
  ⟨"NI.STATUS", 0x9000008, [(32, 0x20000)],
    [⟨0, 3, .ro, 1, 0, 0, 7, 0⟩, ⟨3, 1, .ro, 0, 0, 0, 1, 0⟩, ⟨4, 1, .ro, 0, 0, 0, 1, 0⟩, ⟨8, 8, .ro, 0, 0, 0, 0xff, 0⟩, ⟨16, 8, .ro, 0, 0, 0, 0xff, 0⟩]⟩,
  ⟨"NI.VER", 0x9000010, [(32, 0x20000)],
    [⟨0, 8, .ro, 1, 0, 0, 0xff, 0⟩, ⟨8, 8, .rw, 3, 0, 0, 0xff, 0⟩, ⟨16, 8, .ro, 3, 0, 0, 0xff, 0⟩, ⟨24, 8, .ro, 0, 0, 0, 0xff, 0⟩, ⟨32, 8, .ro, 0, 0, 0, 0xff, 0⟩]⟩,
  ⟨"NI.ARB", 0x9000018, [(32, 0x20000)],
    [⟨0, 8, .rw, 0xc, 0, 0, 0xff, 0⟩, ⟨8, 8, .rw, 3, 0, 0, 0xff, 0⟩, ⟨16, 8, .rw, 1, 0, 0, 0xff, 0⟩]⟩,
  ⟨"NI.LINK", 0x9000020, [(32, 0x20000)],
    [⟨0, 16, .ro, 0, 0, 0, 0xffff, 0⟩, ⟨16, 10, .ro, 0, 0, 0, 0x3ff, 0⟩, ⟨32, 16, .ro, 0, 0, 0, 0xffff, 0⟩]⟩,
  ⟨"NI.RETRY", 0x9000028, [(32, 0x20000)],
    [⟨0, 16, .rc, 0, 0, 0, 0xffff, 0⟩, ⟨16, 16, .rc, 0, 0, 0, 0xffff, 0⟩, ⟨32, 16, .rc, 0, 0, 0, 0xffff, 0⟩, ⟨48, 16, .rc, 0, 0, 0, 0xffff, 0⟩]⟩,
  ⟨"NI.BELL", 0x9000030, [(32, 0x20000)],
    [⟨0, 32, .rc, 0, 0, 0, 0xffffffff, 0⟩, ⟨32, 16, .rc, 0, 0, 0, 0xffff, 0⟩, ⟨48, 16, .rc, 0, 0, 0, 0xffff, 0⟩]⟩,
  ⟨"NI.CRED_STAT", 0x9000038, [(32, 0x20000)],
    [⟨0, 8, .ro, 0, 0, 0, 0xff, 0⟩, ⟨8, 12, .ro, 0, 0, 0, 0xfff, 0⟩, ⟨20, 12, .ro, 0, 0, 0, 0xfff, 0⟩, ⟨32, 7, .ro, 0, 0, 0, 0x7f, 0⟩]⟩,
  ⟨"NI.DROP", 0x9000040, [(32, 0x20000)],
    [⟨0, 16, .rc, 0, 0, 0, 0xffff, 0⟩, ⟨16, 16, .rc, 0, 0, 0, 0xffff, 0⟩, ⟨32, 16, .rc, 0, 0, 0, 0xffff, 0⟩, ⟨48, 16, .rc, 0, 0, 0, 0xffff, 0⟩]⟩,
  ⟨"NI.LANE_ERR[k]", 0x9000100, [(32, 0x20000), (8, 0x8)],
    [⟨0, 32, .rc, 0, 0, 0, 0xffffffff, 0⟩, ⟨32, 16, .rc, 0, 0, 0, 0xffff, 0⟩]⟩,
  ⟨"NI.PMAP", 0x9000200, [(32, 0x20000)],
    [⟨0, 3, .rw, 0, 0, 0, 7, 0⟩, ⟨3, 1, .rw, 0, 0, 0, 1, 0⟩, ⟨4, 1, .rw, 0, 0, 0, 1, 0⟩, ⟨5, 1, .rw, 0, 0, 0, 1, 0⟩, ⟨8, 16, .rw, 0, 0, 0, 0xffff, 0⟩]⟩,
  ⟨"NI.EXP_SERIAL", 0x9000208, [(32, 0x20000)],
    [⟨0, 64, .rw, 0, 0, 0, 0xffffffffffffffff, 0⟩]⟩,
  ⟨"NI.EXP_ID", 0x9000210, [(32, 0x20000)],
    [⟨0, 1, .rw, 0, 0, 0, 1, 0⟩, ⟨8, 8, .rw, 0, 0, 0, 0xff, 0⟩, ⟨16, 16, .rw, 0, 0, 0, 0xffff, 0⟩, ⟨32, 5, .rw, 0, 0, 0, 31, 0⟩, ⟨40, 16, .rw, 0, 0, 0, 0xffff, 0⟩]⟩,
  ⟨"NI.RC_STATE", 0x9000218, [(32, 0x20000)],
    [⟨0, 3, .ro, 0, 0, 0, 7, 0⟩, ⟨8, 8, .ro, 0, 0, 0, 0xff, 0⟩, ⟨16, 1, .w1s, 0, 0, 0, 1, 0⟩]⟩,
  ⟨"NI.FAR_SERIAL", 0x9000220, [(32, 0x20000)],
    [⟨0, 64, .ro, 0, 0, 0, 0xffffffffffffffff, 0⟩]⟩,
  ⟨"NI.FAR_ID", 0x9000228, [(32, 0x20000)],
    [⟨0, 8, .ro, 0, 0, 0, 0xff, 0⟩, ⟨8, 5, .ro, 0, 0, 0, 31, 0⟩, ⟨16, 16, .ro, 0, 0, 0, 0xffff, 0⟩, ⟨32, 16, .ro, 0, 0, 0, 0xffff, 0⟩, ⟨48, 8, .ro, 0, 0, 0, 0xff, 0⟩, ⟨56, 1, .ro, 0, 0, 0, 1, 0⟩, ⟨57, 1, .ro, 0, 0, 0, 1, 0⟩]⟩,
  ⟨"NI.RC_STAT", 0x9000230, [(32, 0x20000)],
    [⟨0, 16, .rc, 0, 0, 0, 0xffff, 0⟩, ⟨16, 16, .rc, 0, 0, 0, 0xffff, 0⟩, ⟨32, 16, .rc, 0, 0, 0, 0xffff, 0⟩, ⟨48, 16, .rc, 0, 0, 0, 0xffff, 0⟩]⟩,
  ⟨"NI.XCAP", 0x9000238, [(32, 0x20000)],
    [⟨0, 7, .rw, 0, 0, 0, 64, 0⟩, ⟨32, 32, .rc, 0, 0, 0, 0xffffffff, 0⟩]⟩,
  ⟨"NI.XR[j]", 0x9000240, [(32, 0x20000), (8, 0x8)],
    [⟨0, 1, .rw, 0, 0, 0, 1, 0⟩, ⟨1, 5, .rw, 0, 0, 0, 31, 0⟩, ⟨16, 16, .rw, 0, 0, 0, 0xffff, 0⟩, ⟨32, 16, .rw, 0, 0, 0, 0xffff, 0⟩]⟩,
  ⟨"NI.PFT_OCC", 0x9000300, [(32, 0x20000)],
    [⟨0, 9, .ro, 0, 0, 0, 0x1ff, 0⟩, ⟨16, 7, .ro, 0, 0, 0, 0x7f, 0⟩]⟩,
  ⟨"NI.PFT_CHUNKS", 0x9000308, [(32, 0x20000)],
    [⟨0, 32, .rc, 0, 0, 0, 0xffffffff, 0⟩, ⟨32, 32, .rc, 0, 0, 0, 0xffffffff, 0⟩]⟩,
  ⟨"NI.EARLY_OLD", 0x9000310, [(32, 0x20000)],
    [⟨0, 12, .ro, 0, 0, 0, 0xfff, 0⟩, ⟨16, 16, .ro, 0, 0, 0, 0xffff, 0⟩, ⟨32, 16, .ro, 0, 0, 0, 0xffff, 0⟩, ⟨48, 1, .ro, 0, 0, 0, 1, 0⟩]⟩,
  ⟨"NI.PMC[k]", 0x9000400, [(32, 0x20000), (8, 0x8)],
    [⟨0, 48, .rw, 0, 0, 0, 0xffffffffffff, 0⟩]⟩,
  ⟨"NI.PMC_SEL[k]", 0x9000440, [(32, 0x20000), (8, 0x8)],
    [⟨0, 8, .rw, 0, 0, 0, 0xff, 0⟩, ⟨8, 2, .rw, 0, 0, 0, 3, 0⟩, ⟨10, 1, .rw, 0, 0, 0, 1, 0⟩, ⟨11, 1, .rw, 0, 0, 0, 1, 0⟩]⟩,
  ⟨"NI.PMC_OVF", 0x9000480, [(32, 0x20000)],
    [⟨0, 16, .w1c, 0, 0, 0, 0xffff, 0⟩]⟩]

/-- The registers of block PFT. -/
def rowsPft : List RegSpec := [
  ⟨"PFT.CTRL", 0x9400000, [],
    [⟨0, 16, .rw, 0x32, 0, 0, 0xffff, 0⟩]⟩,
  ⟨"PFT.STAT", 0x9400008, [],
    [⟨0, 14, .ro, 0, 0, 0, 0x3fff, 0⟩, ⟨16, 12, .ro, 0, 0, 0, 0xfff, 0⟩]⟩,
  ⟨"PFT.ERR", 0x9400010, [],
    [⟨0, 16, .rc, 0, 0, 0, 0xffff, 0⟩, ⟨16, 16, .rc, 0, 0, 0, 0xffff, 0⟩, ⟨32, 16, .rc, 0, 0, 0, 0xffff, 0⟩, ⟨48, 16, .rc, 0, 0, 0, 0xffff, 0⟩]⟩,
  ⟨"PFT.PART[p].CTRS", 0x9401000, [(8, 0x100)],
    [⟨0, 12, .rw, 0, 0, 0, 0xfff, 0⟩, ⟨16, 13, .rw, 0, 0, 0, 0x1fff, 0⟩]⟩,
  ⟨"PFT.PART[p].Q_BASE", 0x9401008, [(8, 0x100)],
    [⟨0, 48, .rw, 0, 0, 0, 0xffffffffffff, 6⟩, ⟨48, 4, .rw, 4, 0, 4, 12, 0⟩]⟩,
  ⟨"PFT.PART[p].Q_TAIL", 0x9401010, [(8, 0x100)],
    [⟨0, 16, .rw, 0, 0, 0, 0xffff, 0⟩]⟩,
  ⟨"PFT.PART[p].Q_HEAD", 0x9401018, [(8, 0x100)],
    [⟨0, 16, .ro, 0, 0, 0, 0xffff, 0⟩, ⟨16, 1, .w1c, 0, 0, 0, 1, 0⟩]⟩,
  ⟨"PFT.PART[p].CQ_BASE", 0x9401020, [(8, 0x100)],
    [⟨0, 48, .rw, 0, 0, 0, 0xffffffffffff, 4⟩]⟩,
  ⟨"PFT.PART[p].CQ_TAIL", 0x9401028, [(8, 0x100)],
    [⟨0, 16, .ro, 0, 0, 0, 0xffff, 0⟩, ⟨16, 1, .ro, 0, 0, 0, 1, 0⟩]⟩,
  ⟨"PFT.PART[p].GROUPS", 0x9401030, [(8, 0x100)],
    [⟨0, 13, .ro, 0, 0, 0, 0x1fff, 0⟩]⟩,
  ⟨"PFT.CTR[n]", 0x9410000, [(4096, 0x8)],
    [⟨0, 32, .rw, 0, 0, 0, 0xffffffff, 0⟩]⟩]

/-- The registers of block GLV. -/
def rowsGlv : List RegSpec := [
  ⟨"GLV.CTRL", 0xa000000, [(16, 0x40000)],
    [⟨0, 1, .rw, 1, 0, 0, 1, 0⟩, ⟨1, 1, .w1s, 0, 0, 0, 1, 0⟩, ⟨2, 1, .rw, 1, 0, 0, 1, 0⟩, ⟨4, 8, .rw, 0x80, 0, 0, 0x80, 0⟩, ⟨12, 8, .rw, 0x32, 0, 0, 0xff, 0⟩, ⟨20, 16, .rw, 0xfc18, 0, 0, 0xffff, 0⟩, ⟨36, 8, .rw, 0xa, 0, 0, 0xff, 0⟩]⟩,
  ⟨"GLV.STATUS", 0xa000008, [(16, 0x40000)],
    [⟨0, 3, .ro, 0, 0, 0, 7, 0⟩, ⟨4, 12, .ro, 0, 0, 0, 0xfff, 0⟩, ⟨16, 16, .ro, 0, 0, 0, 0xffff, 0⟩]⟩,
  ⟨"GLV.TX_LANES", 0xa000010, [(16, 0x40000)],
    [⟨0, 3, .ro, 0, 0, 0, 7, 0⟩, ⟨4, 3, .ro, 0, 0, 0, 7, 0⟩, ⟨8, 3, .ro, 0, 0, 0, 7, 0⟩, ⟨12, 3, .ro, 0, 0, 0, 7, 0⟩, ⟨16, 3, .ro, 0, 0, 0, 7, 0⟩, ⟨20, 3, .ro, 0, 0, 0, 7, 0⟩, ⟨24, 3, .ro, 0, 0, 0, 7, 0⟩, ⟨28, 3, .ro, 0, 0, 0, 7, 0⟩, ⟨32, 3, .ro, 0, 0, 0, 7, 0⟩, ⟨36, 3, .ro, 0, 0, 0, 7, 0⟩, ⟨40, 3, .ro, 0, 0, 0, 7, 0⟩, ⟨44, 3, .ro, 0, 0, 0, 7, 0⟩, ⟨48, 3, .ro, 0, 0, 0, 7, 0⟩, ⟨52, 3, .ro, 0, 0, 0, 7, 0⟩, ⟨56, 3, .ro, 0, 0, 0, 7, 0⟩, ⟨60, 3, .ro, 0, 0, 0, 7, 0⟩, ⟨3, 1, .ro, 0, 0, 0, 1, 0⟩, ⟨7, 1, .ro, 0, 0, 0, 1, 0⟩, ⟨11, 1, .ro, 0, 0, 0, 1, 0⟩, ⟨15, 1, .ro, 0, 0, 0, 1, 0⟩, ⟨19, 1, .ro, 0, 0, 0, 1, 0⟩, ⟨23, 1, .ro, 0, 0, 0, 1, 0⟩, ⟨27, 1, .ro, 0, 0, 0, 1, 0⟩, ⟨31, 1, .ro, 0, 0, 0, 1, 0⟩, ⟨35, 1, .ro, 0, 0, 0, 1, 0⟩, ⟨39, 1, .ro, 0, 0, 0, 1, 0⟩, ⟨43, 1, .ro, 0, 0, 0, 1, 0⟩, ⟨47, 1, .ro, 0, 0, 0, 1, 0⟩, ⟨51, 1, .ro, 0, 0, 0, 1, 0⟩, ⟨55, 1, .ro, 0, 0, 0, 1, 0⟩, ⟨59, 1, .ro, 0, 0, 0, 1, 0⟩, ⟨63, 1, .ro, 0, 0, 0, 1, 0⟩]⟩,
  ⟨"GLV.RX_LANES", 0xa000018, [(16, 0x40000)],
    [⟨0, 3, .ro, 0, 0, 0, 7, 0⟩, ⟨4, 3, .ro, 0, 0, 0, 7, 0⟩, ⟨8, 3, .ro, 0, 0, 0, 7, 0⟩, ⟨12, 3, .ro, 0, 0, 0, 7, 0⟩, ⟨16, 3, .ro, 0, 0, 0, 7, 0⟩, ⟨20, 3, .ro, 0, 0, 0, 7, 0⟩, ⟨24, 3, .ro, 0, 0, 0, 7, 0⟩, ⟨28, 3, .ro, 0, 0, 0, 7, 0⟩, ⟨32, 3, .ro, 0, 0, 0, 7, 0⟩, ⟨36, 3, .ro, 0, 0, 0, 7, 0⟩, ⟨40, 3, .ro, 0, 0, 0, 7, 0⟩, ⟨44, 3, .ro, 0, 0, 0, 7, 0⟩, ⟨48, 3, .ro, 0, 0, 0, 7, 0⟩, ⟨52, 3, .ro, 0, 0, 0, 7, 0⟩, ⟨56, 3, .ro, 0, 0, 0, 7, 0⟩, ⟨60, 3, .ro, 0, 0, 0, 7, 0⟩, ⟨3, 1, .ro, 0, 0, 0, 1, 0⟩, ⟨7, 1, .ro, 0, 0, 0, 1, 0⟩, ⟨11, 1, .ro, 0, 0, 0, 1, 0⟩, ⟨15, 1, .ro, 0, 0, 0, 1, 0⟩, ⟨19, 1, .ro, 0, 0, 0, 1, 0⟩, ⟨23, 1, .ro, 0, 0, 0, 1, 0⟩, ⟨27, 1, .ro, 0, 0, 0, 1, 0⟩, ⟨31, 1, .ro, 0, 0, 0, 1, 0⟩, ⟨35, 1, .ro, 0, 0, 0, 1, 0⟩, ⟨39, 1, .ro, 0, 0, 0, 1, 0⟩, ⟨43, 1, .ro, 0, 0, 0, 1, 0⟩, ⟨47, 1, .ro, 0, 0, 0, 1, 0⟩, ⟨51, 1, .ro, 0, 0, 0, 1, 0⟩, ⟨55, 1, .ro, 0, 0, 0, 1, 0⟩, ⟨59, 1, .ro, 0, 0, 0, 1, 0⟩, ⟨63, 1, .ro, 0, 0, 0, 1, 0⟩]⟩,
  ⟨"GLV.RETIRE", 0xa000020, [(16, 0x40000)],
    [⟨0, 16, .rw, 0, 0, 0, 0xffff, 0⟩, ⟨16, 16, .rw, 0, 0, 0, 0xffff, 0⟩]⟩,
  ⟨"GLV.RCAUSE", 0xa000028, [(16, 0x40000)],
    [⟨0, 2, .ro, 0, 0, 0, 3, 0⟩, ⟨2, 2, .ro, 0, 0, 0, 3, 0⟩, ⟨4, 2, .ro, 0, 0, 0, 3, 0⟩, ⟨6, 2, .ro, 0, 0, 0, 3, 0⟩, ⟨8, 2, .ro, 0, 0, 0, 3, 0⟩, ⟨10, 2, .ro, 0, 0, 0, 3, 0⟩, ⟨12, 2, .ro, 0, 0, 0, 3, 0⟩, ⟨14, 2, .ro, 0, 0, 0, 3, 0⟩, ⟨16, 2, .ro, 0, 0, 0, 3, 0⟩, ⟨18, 2, .ro, 0, 0, 0, 3, 0⟩, ⟨20, 2, .ro, 0, 0, 0, 3, 0⟩, ⟨22, 2, .ro, 0, 0, 0, 3, 0⟩, ⟨24, 2, .ro, 0, 0, 0, 3, 0⟩, ⟨26, 2, .ro, 0, 0, 0, 3, 0⟩, ⟨28, 2, .ro, 0, 0, 0, 3, 0⟩, ⟨30, 2, .ro, 0, 0, 0, 3, 0⟩, ⟨32, 2, .ro, 0, 0, 0, 3, 0⟩, ⟨34, 2, .ro, 0, 0, 0, 3, 0⟩, ⟨36, 2, .ro, 0, 0, 0, 3, 0⟩, ⟨38, 2, .ro, 0, 0, 0, 3, 0⟩, ⟨40, 2, .ro, 0, 0, 0, 3, 0⟩, ⟨42, 2, .ro, 0, 0, 0, 3, 0⟩, ⟨44, 2, .ro, 0, 0, 0, 3, 0⟩, ⟨46, 2, .ro, 0, 0, 0, 3, 0⟩, ⟨48, 2, .ro, 0, 0, 0, 3, 0⟩, ⟨50, 2, .ro, 0, 0, 0, 3, 0⟩, ⟨52, 2, .ro, 0, 0, 0, 3, 0⟩, ⟨54, 2, .ro, 0, 0, 0, 3, 0⟩, ⟨56, 2, .ro, 0, 0, 0, 3, 0⟩, ⟨58, 2, .ro, 0, 0, 0, 3, 0⟩, ⟨60, 2, .ro, 0, 0, 0, 3, 0⟩, ⟨62, 2, .ro, 0, 0, 0, 3, 0⟩]⟩,
  ⟨"GLV.PORT", 0xa000030, [(16, 0x40000)],
    [⟨0, 1, .ro, 0, 0, 0, 1, 0⟩, ⟨1, 1, .ro, 0, 0, 0, 1, 0⟩, ⟨8, 4, .ro, 0, 0, 0, 15, 0⟩, ⟨12, 4, .ro, 0, 0, 0, 15, 0⟩, ⟨16, 4, .ro, 0, 0, 0, 15, 0⟩, ⟨20, 4, .ro, 0, 0, 0, 15, 0⟩]⟩,
  ⟨"GLV.LOSS", 0xa000038, [(16, 0x40000)],
    [⟨0, 3, .ro, 0, 0, 0, 7, 0⟩, ⟨3, 1, .ro, 0, 0, 0, 1, 0⟩, ⟨4, 1, .ro, 0, 0, 0, 1, 0⟩, ⟨5, 3, .ro, 0, 0, 0, 7, 0⟩, ⟨8, 1, .ro, 0, 0, 0, 1, 0⟩, ⟨16, 8, .ro, 0, 0, 0, 0xff, 0⟩, ⟨24, 1, .w1c, 0, 0, 0, 1, 0⟩]⟩,
  ⟨"GLV.CNT", 0xa000040, [(16, 0x40000)],
    [⟨0, 16, .rc, 0, 0, 0, 0xffff, 0⟩, ⟨16, 16, .rc, 0, 0, 0, 0xffff, 0⟩, ⟨32, 16, .rc, 0, 0, 0, 0xffff, 0⟩, ⟨48, 16, .rc, 0, 0, 0, 0xffff, 0⟩]⟩,
  ⟨"GLV.TX_MON[l]", 0xa000100, [(16, 0x40000), (16, 0x8)],
    [⟨0, 16, .ro, 0x8000, 0, 0, 0xffff, 0⟩, ⟨16, 16, .ro, 0x8000, 0, 0, 0xffff, 0⟩, ⟨32, 16, .ro, 0, 0, 0, 0xffff, 0⟩, ⟨48, 3, .ro, 0, 0, 0, 7, 0⟩, ⟨51, 1, .ro, 0, 0, 0, 1, 0⟩]⟩,
  ⟨"GLV.RX_MON[l]", 0xa000180, [(16, 0x40000), (16, 0x8)],
    [⟨0, 16, .ro, 0x8000, 0, 0, 0xffff, 0⟩, ⟨16, 16, .ro, 0x8000, 0, 0, 0xffff, 0⟩, ⟨32, 16, .ro, 0, 0, 0, 0xffff, 0⟩, ⟨48, 3, .ro, 0, 0, 0, 7, 0⟩, ⟨51, 1, .ro, 0, 0, 0, 1, 0⟩]⟩,
  ⟨"GLV.FIB_MON[i]", 0xa000200, [(16, 0x40000), (4, 0x8)],
    [⟨0, 16, .ro, 0x8000, 0, 0, 0xffff, 0⟩, ⟨16, 16, .ro, 0x8000, 0, 0, 0xffff, 0⟩]⟩,
  ⟨"GLV.RTAB[r].W[w]", 0xa010000, [(16, 0x40000), (32, 0x40), (8, 0x8)],
    [⟨0, 64, .rw, 0, 0, 0, 0xffffffffffffffff, 0⟩]⟩]

/-- The registers of block ELS. -/
def rowsEls : List RegSpec := [
  ⟨"ELS.CTRL", 0xa400000, [],
    [⟨0, 2, .rw, 0, 0, 0, 3, 0⟩, ⟨2, 2, .wo, 0, 0, 0, 3, 0⟩, ⟨4, 1, .wo, 0, 0, 0, 1, 0⟩, ⟨8, 8, .rw, 0xa, 0, 0, 0xff, 0⟩, ⟨16, 8, .rw, 0x14, 0, 0, 0xff, 0⟩, ⟨24, 8, .rw, 0x28, 0, 0, 0xff, 0⟩, ⟨32, 4, .rw, 3, 0, 0, 15, 0⟩]⟩,
  ⟨"ELS.STATUS", 0xa400008, [],
    [⟨0, 1, .ro, 0, 0, 0, 1, 0⟩, ⟨8, 1, .ro, 0, 0, 0, 1, 0⟩, ⟨1, 1, .ro, 0, 0, 0, 1, 0⟩, ⟨9, 1, .ro, 0, 0, 0, 1, 0⟩, ⟨2, 1, .ro, 0, 0, 0, 1, 0⟩, ⟨10, 1, .ro, 0, 0, 0, 1, 0⟩, ⟨3, 1, .ro, 0, 0, 0, 1, 0⟩, ⟨11, 1, .ro, 0, 0, 0, 1, 0⟩, ⟨4, 3, .ro, 1, 0, 0, 7, 0⟩, ⟨12, 3, .ro, 1, 0, 0, 7, 0⟩, ⟨16, 6, .ro, 0, 0, 0, 63, 0⟩, ⟨22, 1, .w1c, 0, 0, 0, 1, 0⟩]⟩,
  ⟨"ELS.MOD[m].ID", 0xa400100, [(2, 0x100)],
    [⟨0, 48, .ro, 0, 0, 0, 0xffffffffffff, 0⟩, ⟨48, 8, .ro, 0, 0, 0, 0xff, 0⟩]⟩,
  ⟨"ELS.MOD[m].SRC_CMD", 0xa400108, [(2, 0x100)],
    [⟨0, 3, .rw, 0, 0, 0, 7, 0⟩, ⟨3, 1, .rw, 0, 0, 0, 1, 0⟩, ⟨4, 1, .wo, 0, 0, 0, 1, 0⟩]⟩,
  ⟨"ELS.MOD[m].WL[w]", 0xa400110, [(2, 0x100), (8, 0x8)],
    [⟨0, 1, .ro, 0, 0, 0, 1, 0⟩, ⟨1, 1, .ro, 0, 0, 0, 1, 0⟩, ⟨2, 1, .ro, 0, 0, 0, 1, 0⟩, ⟨3, 3, .ro, 0, 0, 0, 7, 0⟩, ⟨16, 16, .ro, 0x8000, 0, 0, 0xffff, 0⟩, ⟨32, 16, .ro, 0x8000, 0, 0, 0xffff, 0⟩, ⟨48, 16, .ro, 0, 0, 0, 0xffff, 0⟩]⟩,
  ⟨"ELS.MOD[m].OUT[f]", 0xa400150, [(2, 0x100), (16, 0x8)],
    [⟨0, 16, .ro, 0x8000, 0, 0, 0xffff, 0⟩, ⟨16, 16, .ro, 0x8000, 0, 0, 0xffff, 0⟩]⟩,
  ⟨"ELS.MOD[m].SW", 0xa4001d0, [(2, 0x100)],
    [⟨0, 3, .ro, 0, 0, 0, 7, 0⟩, ⟨3, 3, .ro, 0, 0, 0, 7, 0⟩, ⟨8, 8, .ro, 0, 0, 0, 0xff, 0⟩, ⟨16, 16, .ro, 0, 0, 0, 0xffff, 0⟩, ⟨32, 16, .rc, 0, 0, 0, 0xffff, 0⟩, ⟨48, 16, .rc, 0, 0, 0, 0xffff, 0⟩]⟩,
  ⟨"ELS.MOD[m].TEMP", 0xa4001d8, [(2, 0x100)],
    [⟨0, 16, .ro, 0, 0, 0, 0xffff, 0⟩]⟩]

/-- The registers of block PRC. -/
def rowsPrc : List RegSpec := [
  ⟨"PRC.CORE[i].STATUS", 0xb000000, [(16, 0x20)],
    [⟨0, 2, .ro, 0, 0, 0, 3, 0⟩, ⟨2, 1, .ro, 0, 0, 0, 1, 0⟩, ⟨3, 1, .ro, 0, 0, 0, 1, 0⟩, ⟨4, 1, .ro, 0, 8, 0, 1, 0⟩, ⟨16, 16, .ro, 0, 0, 0, 0xffff, 0⟩]⟩,
  ⟨"PRC.CORE[i].ECC", 0xb000008, [(16, 0x20)],
    [⟨0, 32, .rc, 0, 0, 0, 0xffffffff, 0⟩, ⟨32, 16, .rc, 0, 0, 0, 0xffff, 0⟩]⟩,
  ⟨"PRC.CORE[i].HEART", 0xb000010, [(16, 0x20)],
    [⟨0, 32, .ro, 0, 0, 0, 0xffffffff, 0⟩]⟩,
  ⟨"PRC.CTRL", 0xb000400, [],
    [⟨0, 16, .rw, 0x64, 0, 20, 0xffff, 0⟩]⟩]

/-- The registers of block RGS. -/
def rowsRgs : List RegSpec := [
  ⟨"RGS.ID", 0xc000000, [],
    [⟨0, 8, .ro, 2, 0, 0, 0xff, 0⟩, ⟨8, 8, .ro, 1, 0, 0, 0xff, 0⟩]⟩,
  ⟨"RGS.CTRL", 0xc000008, [],
    [⟨0, 7, .rw, 0x30, 0, 1, 56, 0⟩]⟩,
  ⟨"RGS.BUF", 0xc000010, [],
    [⟨0, 7, .ro, 0, 0, 0, 0x7f, 0⟩, ⟨8, 7, .ro, 0, 0, 0, 0x7f, 0⟩]⟩,
  ⟨"RGS.FW", 0xc000018, [],
    [⟨0, 1, .ro, 0, 0, 0, 1, 0⟩, ⟨1, 1, .ro, 0, 0, 0, 1, 0⟩, ⟨2, 1, .rw, 0, 0, 0, 1, 0⟩, ⟨3, 1, .rw, 0, 0, 0, 1, 0⟩, ⟨4, 1, .w1s, 0, 0, 0, 1, 0⟩, ⟨5, 1, .w1c, 0, 0, 0, 1, 0⟩]⟩,
  ⟨"RGS.FW_A", 0xc000020, [],
    [⟨0, 32, .ro, 0, 0, 0, 0xffffffff, 0⟩, ⟨32, 7, .ro, 0, 0, 0, 0x7f, 0⟩, ⟨39, 1, .ro, 0, 0, 0, 1, 0⟩]⟩,
  ⟨"RGS.FW_B", 0xc000028, [],
    [⟨0, 32, .ro, 0, 0, 0, 0xffffffff, 0⟩, ⟨32, 7, .ro, 0, 0, 0, 0x7f, 0⟩, ⟨39, 1, .ro, 0, 0, 0, 1, 0⟩]⟩,
  ⟨"RGS.ARB", 0xc000030, [],
    [⟨0, 7, .ro, 0, 0, 0, 0x7f, 0⟩, ⟨8, 7, .wo, 0, 0, 0, 0x7f, 0⟩, ⟨16, 1, .w1c, 0, 0, 0, 1, 0⟩, ⟨17, 1, .ro, 0, 0, 0, 1, 0⟩]⟩,
  ⟨"RGS.PART[p].STATE", 0xc000100, [(8, 0x20)],
    [⟨0, 3, .ro, 0, 0, 0, 7, 0⟩, ⟨3, 1, .ro, 0, 0, 0, 1, 0⟩, ⟨16, 16, .ro, 0, 0, 0, 0xffff, 0⟩, ⟨32, 32, .ro, 0, 0, 0, 0xffffffff, 0⟩]⟩,
  ⟨"RGS.PART[p].PROGRESS", 0xc000108, [(8, 0x20)],
    [⟨0, 32, .ro, 0, 0, 0, 0xffffffff, 0⟩, ⟨32, 32, .ro, 0, 0, 0, 0xffffffff, 0⟩]⟩,
  ⟨"RGS.PART[p].STALL", 0xc000110, [(8, 0x20)],
    [⟨0, 32, .rc, 0, 0, 0, 0xffffffff, 0⟩, ⟨32, 32, .rc, 0, 0, 0, 0xffffffff, 0⟩]⟩,
  ⟨"RGS.PART[p].RESULT", 0xc000118, [(8, 0x20)],
    [⟨0, 32, .ro, 0, 0, 0, 0xffffffff, 0⟩, ⟨32, 16, .ro, 0, 0, 0, 0xffff, 0⟩]⟩]

/-- The blocks of R489: window start, window end (exclusive) and registers. A block of several
instances ends after its last instance; a single-instance block has a window of 1 MiB. -/
def blocks : List (Nat × Nat × List RegSpec) := [
  (0x0, 0x100000, rowsSys),
  (0x100000, 0x200000, rowsClk),
  (0x200000, 0x300000, rowsPwr),
  (0x300000, 0x400000, rowsSec),
  (0x400000, 0x500000, rowsErr),
  (0x500000, 0x600000, rowsPmu),
  (0x1000000, 0x1100000, rowsHl),
  (0x2000000, 0x2400000, rowsCtx),
  (0x4000000, 0x8000000, rowsCls),
  (0x8000000, 0x8300000, rowsMem),
  (0x8800000, 0x8900000, rowsMig),
  (0x9000000, 0x9400000, rowsNi),
  (0x9400000, 0x9500000, rowsPft),
  (0xa000000, 0xa400000, rowsGlv),
  (0xa400000, 0xa500000, rowsEls),
  (0xb000000, 0xb100000, rowsPrc),
  (0xc000000, 0xc100000, rowsRgs)]

/-- The block whose window holds address `a`. -/
def blockOf (bs : List (Nat × Nat × List RegSpec)) (a : Nat) : Option (List RegSpec) :=
  match bs with
  | [] => none
  | (lo, hi, rows) :: r => if lo ≤ a ∧ a < hi then some rows else blockOf r a

/-- The register at address `a`, or `none` for a reserved offset (R490). -/
def regAt (a : Nat) : Option (RegSpec × List Nat) :=
  match blockOf blocks a with
  | some rows => findReg rows a
  | none => none

/-- The reset value of one field in the instance with indices `ix`. -/
def FieldSpec.resetIn (f : FieldSpec) (ix : List Nat) : Nat :=
  match f.div with
  | 0 => f.reset
  | d => (ix.headD 0) / d

/-- The word that the fields' reset values form. -/
def resetFields (fs : List FieldSpec) (ix : List Nat) : Word :=
  match fs with
  | [] => 0
  | f :: r => wordSet (resetFields r ix) f.lo f.len (f.resetIn ix)

/-- The reset value of the register at address `a`; a reserved offset reads 0 (R490). -/
def Csr.reset (a : Nat) : Word :=
  match regAt a with
  | some (r, ix) => resetFields r.fields ix
  | none => 0

/-- The value a software read of the fields returns: a WO field reads 0 (R8), reserved bits read 0 (R11). -/
def readFields (fs : List FieldSpec) (w : Word) : Word :=
  match fs with
  | [] => 0
  | f :: r =>
    match f.ty with
    | .wo => readFields r w
    | _ => wordSet (readFields r w) f.lo f.len (wordGet w f.lo f.len)

/-- The word after a read that clears the RC bits within `mask` (R8, R10). -/
def clearRcFields (fs : List FieldSpec) (mask : Nat) (w : Word) : Word :=
  match fs with
  | [] => w
  | f :: r =>
    match f.ty with
    | .rc =>
      let keep := wordGet w f.lo f.len - (wordGet w f.lo f.len &&& (mask / 2 ^ f.lo % 2 ^ f.len))
      clearRcFields r mask (wordSet w f.lo f.len keep)
    | _ => clearRcFields r mask w

/-- The value a field stores when software writes `v` into the bits of `m` (all ones for a whole-field
write) over the stored value `o`, by the field's type (R8) and its legal values. -/
def FieldSpec.written (f : FieldSpec) (o v m : Nat) : Nat :=
  let merged := (v &&& m) ||| (o - (o &&& m))
  match f.ty with
  | .rw => if m = 0 then o else
      let z := merged / 2 ^ f.zlow * 2 ^ f.zlow
      if f.vmin ≤ z ∧ z ≤ f.vmax then z else o
  | .w1c => o - (o &&& (v &&& m))
  | .w1s => o ||| (v &&& m)
  | _ => o

/-- The word after a software write of the bits of `mask`: each field by its type; reserved bits ignore it (R11). -/
def writeFields (fs : List FieldSpec) (mask v w : Word) : Word :=
  match fs with
  | [] => w
  | f :: r =>
    writeFields r mask v
      (wordSet w f.lo f.len
        (f.written (wordGet w f.lo f.len) (wordGet v f.lo f.len) (wordGet mask f.lo f.len)))

end Sys2Proof.Machine
end

