-- ==== Sys2Proof/Machine/Map.lean ====
section
/-! DEFINITION. Sparse data by key: one list of (key, value) pairs in one canonical form.
Keys rise strictly and no entry equals what an unlisted key reads as, so equal contents are equal lists. -/

namespace Sys2Proof.Machine

/-- A sparse table from Nat keys. What an unlisted key reads as is an argument of every operation. -/
abbrev SMap (V : Type) := List (Nat × V)

/-- The value at key `k`; `d k` where the table lists none. -/
def SMap.get {V : Type} (d : Nat → V) (m : SMap V) (k : Nat) : V :=
  match m with
  | [] => d k
  | (k', v) :: r => if k' = k then v else SMap.get d r k

/-- The table without `k`. -/
def SMap.erase {V : Type} (m : SMap V) (k : Nat) : SMap V :=
  match m with
  | [] => []
  | (k', v) :: r => if k' = k then SMap.erase r k else (k', v) :: SMap.erase r k

/-- The table with `v` listed at `k`, in key order. -/
def SMap.insert {V : Type} (m : SMap V) (k : Nat) (v : V) : SMap V :=
  match m with
  | [] => [(k, v)]
  | (k', v') :: r =>
    if k < k' then (k, v) :: (k', v') :: r
    else if k' = k then (k, v) :: r
    else (k', v') :: SMap.insert r k v

/-- Write `v` at `k`, keeping the canonical form: the default value is not listed. -/
def SMap.put {V : Type} [DecidableEq V] (d : Nat → V) (m : SMap V) (k : Nat) (v : V) : SMap V :=
  if v = d k then SMap.erase m k else SMap.insert m k v

/-- Every listed key is above `b`, keys rise strictly, and no entry equals its default. -/
def SMap.wfFrom {V : Type} [DecidableEq V] (d : Nat → V) (b : Nat) (m : SMap V) : Bool :=
  match m with
  | [] => true
  | (k, v) :: r => decide (b ≤ k) && decide (v ≠ d k) && SMap.wfFrom d (k + 1) r

/-- The canonical form. -/
def SMap.wf {V : Type} [DecidableEq V] (d : Nat → V) (m : SMap V) : Bool := SMap.wfFrom d 0 m

end Sys2Proof.Machine
end

