-- ==== Sys2Proof/Machine/State.lean ====
section
/-! DEFINITION. The state of the block: all the spec gives the MZ-2400, as plain data. -/

namespace Sys2Proof.Machine

/-! ## Classrooms (chapters 02 to 07) -/

/-- A tensor descriptor as the front end resolves it (R35, R49): its table index, effective base,
fields, extents 1 and up, and strides in bytes. -/
structure RDesc where
  idx : Nat
  base : Nat
  fmt : Nat
  scale : Nat
  ndim : Nat
  layer : Nat
  write : Bool
  empty : Bool
  bofs : Bool
  nopref : Bool
  persist : Bool
  e0 : Nat
  e1 : Nat
  e2 : Nat
  e3 : Nat
  s1 : Nat
  s2 : Nat
  s3 : Nat
deriving DecidableEq, Repr

/-- A dispatched instruction in its queue: slot, encoding, resolved descriptors (R35). -/
structure QEntry where
  pc : Nat
  enc : Nat
  dst : Option RDesc
  a : Option RDesc
  b : Option RDesc
deriving DecidableEq, Repr

/-- What names a stationary tile (R78): effective base, format, extents, and TR. -/
structure TileId where
  base : Nat
  fmt : Nat
  e0 : Nat
  e1 : Nat
  empty : Bool
  tr : Bool
deriving DecidableEq, Repr

/-- A weight bank (R77, R102): the tile it holds, its elements as stored, and whether it is still loading. -/
structure Bank where
  id : TileId
  data : List Nat
  loading : Bool
deriving DecidableEq, Repr

/-- What an instruction does at its completion besides its writes. -/
inductive Effect
  /-- sets a bit of a block flag bitmap by an atomic OR (R150): byte address, bit -/
  | orBit (dva bit : Nat)
  /-- sets such a bit for the Satchel, in the step of the step record at `rec` (R150) -/
  | satBit (rec dva bit : Nat)
  /-- one atomic FP32 addition into memory (R86): address, bits added -/
  | addF32 (dva bits : Nat)
  /-- CLS.SCALE[slot].SEXP, as 8 bits (R89) -/
  | setSexp (slot v : Nat)
  /-- a sampled tile of VQUIZ (R160): layer, tile, bin -/
  | quiz (layer tile bin : Nat)
  /-- OB lines that receive the zero tag (R80, R112) -/
  | zeroTags (lines : List Nat)
  /-- an increment of a trigger counter (R96) -/
  | trig (ctr v : Nat)
deriving DecidableEq, Repr

/-- An issued instruction that has not completed (R36, R37). -/
structure InFlight where
  entry : QEntry
  /-- bytes written at completion, by DVA -/
  writes : List (Nat × Byte)
  flags : NFlags
  effects : List Effect
  /-- its READ_INC has been applied (R40) -/
  readDone : Bool
  /-- an issued SBAR that waits for its barrier (R97) -/
  barWait : Bool
  /-- an issued SFENCE: how many of the oldest T, V, M and Satchel entries it still waits for (R94) -/
  fence : Nat × Nat × Nat × Nat
  /-- chosen for a precise sample, and TCLK cycles from dispatch to issue (R412, R413) -/
  sampled : Bool
  wait : Nat
  /-- its operands are read once the MUPDs before it in its queue have written what it touches (R37) -/
  deferred : Bool
deriving DecidableEq, Repr

/-- The stage of a MUPD in the Satchel (R178). -/
inductive SatStage
  | queued | fence | updating
deriving DecidableEq, Repr

/-- A MUPD in the Satchel's queue (R93): its instruction, its stage, the fence entry and step as read,
and the results that its completion applies. -/
structure SatEntry where
  entry : QEntry
  stage : SatStage
  fenceCtr : Nat
  fenceTarget : Nat
  fenceValid : Bool
  step : Nat
  /-- FENCE_TIMEOUT has been reported for it (R173) -/
  reported : Bool
  writes : List (Nat × Byte)
  flags : NFlags
  effects : List Effect
  amaxDva : Nat
  amaxBits : Nat
  amaxEn : Bool
  updated : Nat
  frozen : Nat
  skipped : Bool
  stepRec : Nat
  sampled : Bool
  wait : Nat
  /-- the parameter record's 64 bytes, as step 1 read them (R178) -/
  record : List Byte
  /-- the classroom's scale slots, as they stood when the MUPD issued (R54) -/
  slots : List Word
deriving DecidableEq, Repr

/-- A MUPD as it enters the Satchel's queue. -/
def SatEntry.fresh (e : QEntry) : SatEntry :=
  ⟨e, .queued, 0, 0, false, 0, false, [], noFlags, [], 0, 0, false, 0, 0, false, 0, false, 0, [], []⟩

/-- A resident lesson (R27, R244): the context it belongs to, first segment and segment count. -/
structure Resident where
  ctx : Nat
  firstSeg : Nat
  segs : Nat
deriving DecidableEq, Repr

/-- An entry of a precise-sample queue: the 32 bytes of R413 and the partition it goes to. -/
structure Sample where
  part : Nat
  cls : Nat
  bytes : List Byte
deriving DecidableEq, Repr

/-- An entry of the stream prefetch buffer (R230): the target of its reads, frame and 2 KiB piece of the frame, and whether a
demand read has found it. -/
structure PfEntry where
  target : Target
  frame : Nat
  piece : Nat
  read : Bool
deriving DecidableEq, Repr

/-- The stream prefetcher while an MLOAD or MCONV runs (R230, R231): the source, the key of the object that holds the demand
position, the entries of the buffer, oldest first. -/
structure Prefetch where
  src : RDesc
  object : Option Nat
  entries : List PfEntry
deriving DecidableEq, Repr

/-- What a classroom holds beside its CLS registers. -/
structure Classroom where
  tq : List QEntry
  vq : List QEntry
  mq : List QEntry
  sq : List QEntry
  tf : List InFlight
  vf : List InFlight
  mf : List InFlight
  sf : List InFlight
  /-- SEND has been dispatched: nothing after it is (R59) -/
  ended : Bool
  /-- a fault stop is under way (R63) -/
  stopping : Bool
  /-- first slot and body length of each open loop, outermost first -/
  loops : List (Nat × Nat)
  /-- the tile of the last TLOADW dispatched and not consumed (R78) -/
  lastTlw : Option TileId
  active : Option Bank
  shadow : Option Bank
  sat : List SatEntry
  resident : List Resident
  /-- OB lines of 64 bytes that carry the zero tag (R112) -/
  zeroTags : List Nat
  /-- a product waits for the arrays to reach FILL (R116) -/
  waitArrays : Bool
  /-- steps that the current ramp still has to make (R114, R116) -/
  rampLeft : Nat
  /-- qualifying instructions counted for precise sampling (R412) -/
  sampleCount : Nat
  /-- halted, or halting, under SPOT_QUIZ_ALERT (R161) -/
  quizHalt : Bool
  /-- SCLK cycles in WAIT_SLOT below a unit of ARR_RAMP.SLOT_WAIT (R119) -/
  slotRest : Nat
  /-- the stream prefetcher, while it runs ahead (R230) -/
  prefetch : Option Prefetch
deriving DecidableEq, Repr

/-- A classroom with nothing dispatched, loaded or tagged. -/
def Classroom.idle : Classroom :=
  ⟨[], [], [], [], [], [], [], [], false, false, [], none, none, none, [], [], [], false, 0, 0, false, 0, none⟩

/-- A launch barrier of a LAUNCH (R97): VALUE fixed by the first arrival (0 with none) and the classrooms
that have arrived in the generation. -/
structure Barrier where
  value : Nat
  arrived : List Nat
deriving DecidableEq, Repr

/-- A barrier with no arrival. -/
def Barrier.empty : Barrier := ⟨0, []⟩

/-! ## Memory (chapters 08, 09) -/

/-- An object (R194 to R196). -/
structure Obj where
  base : Nat
  tiles : Nat
  rdonly : Bool
  sramOnly : Bool
  chmask : Nat
  /-- an OBJ_DESTROY of it waits for moves to finish (R206, R231) -/
  dying : Bool
deriving DecidableEq, Repr

/-- A tile entry (R197), with the aging mark of R198. -/
structure TileEntry where
  valid : Bool
  sram : Bool
  moving : Bool
  poison : Bool
  wp : Bool
  dirty : Bool
  pin : Bool
  zero : Bool
  age : Nat
  homeCh : Nat
  homeFrame : Nat
  slice : Nat
  sframe : Nat
  noHome : Bool
  accessed : Bool
  /-- the frame in which the error that poisoned the tile lies (R212), by physical address -/
  bad : Option Nat
deriving DecidableEq, Repr

/-- The entry of a tile that belongs to no object. -/
def TileEntry.absent : TileEntry :=
  ⟨false, false, false, false, false, false, false, false, 0, 0, 0, 0, 0, false, false, none⟩

/-- Who waits for a held write: a ZHL port, a Prefect operation (partition, index of its posting), nobody that reports; or a writer
that keeps its bytes itself and goes on only when no tile holds them: an engine of a classroom (QUEUE code; 5 the Satchel), the writer
of a partition's completion records (0 the MIG, 2 the Prefect), the QUERY of a partition's MIG (3), a port that writes a peer's
snapshot copy (4). -/
inductive HoldSrc
  | engine
  | port (k : Nat)
  | prefect (p idx : Nat)
  | insn (c code : Nat)
  | record (kind n : Nat)
deriving DecidableEq, Repr

/-- A MEM_RD or, with `data`, a MEM_WR that a host's port has received and not yet begun (R237). -/
structure HostAcc where
  dva : Nat
  len : Nat
  data : Option (List Byte)
deriving DecidableEq, Repr

/-- A demand write held at a moving or write-protected tile (R208, R367): partition, bytes by DVA, who waits. With
`later`, an access of a port that waits behind such a write of the same port (R237). -/
structure HeldWrite where
  part : Nat
  writes : List (Nat × Byte)
  src : HoldSrc
  later : Option HostAcc
deriving DecidableEq, Repr

/-- A command entry that the MIG has read and not completed (R205, R207): its fields, whether its operation has
still to be carried out, the tiles it has still to judge, the tiles it moves, its counts, its status when done. -/
structure MigEntry where
  idx : Nat
  op : Nat
  tag : Nat
  obj : Nat
  first : Nat
  count : Nat
  oflags : Nat
  dva : Nat
  chmask : Nat
  slicemask : Nat
  fresh : Bool
  todo : List Nat
  moving : Nat
  done : Nat
  skipped : Nat
  status : Option Nat
deriving DecidableEq, Repr

/-- What the MIG holds of a partition's queue: entries read and not completed, oldest first, and the status of
the last completion not yet announced (R266). -/
structure MigQueue where
  started : List MigEntry
  unannounced : Option Nat
deriving DecidableEq, Repr

/-- A queue with nothing started. -/
def MigQueue.empty : MigQueue := ⟨[], none⟩

/-- A tile on its way (R208): its key, the entry it serves (partition and index) or the classroom whose MPREF
asked for it, its direction, and the SRAM frame it goes to. -/
structure Move where
  key : Nat
  entry : Option (Nat × Nat)
  cls : Option Nat
  toSram : Bool
  slice : Nat
  frame : Nat
deriving DecidableEq, Repr

/-- A tile in the MIG's prefetch queue (R232): requesting classroom and tile key. -/
structure PrefReq where
  cls : Nat
  tile : Nat
deriving DecidableEq, Repr

/-- A request under a tag or an MSR (R217, R219, R220, R222): requester, partition, frame, 256-byte block within it, first byte
and length within the block, and the requesters whose reads were merged into it. -/
structure SortReq where
  who : Requester
  part : Nat
  frame : Nat
  block : Nat
  first : Nat
  len : Nat
  write : Bool
  urgent : Bool
  merged : List Requester
deriving DecidableEq, Repr

/-- A channel's request sorter (R222 to R227): admitted requests oldest first, refused ones in the order of their
first refusal, the write buffer, the open row and the run of row hits of each bank, the partition served last,
and whether a BANK_HOTSPOT record has been written. -/
structure Sorter where
  waiting : List SortReq
  parked : List SortReq
  wbuf : List SortReq
  rows : List (Nat × Nat)
  streaks : List (Nat × Nat)
  lastPart : Nat
  hot : Bool
deriving DecidableEq, Repr

/-- A sorter with no request. -/
def Sorter.empty : Sorter := ⟨[], [], [], [], [], 7, false⟩

/-! ## Contexts (chapter 10) -/

/-- A started command of a context (R248, R249): its SQ index, fields, the context state when it was checked,
its 64 bytes, and whether its own step has still to be made; of a LESSON_LOAD that has begun also the classrooms that it has still
to write and the INSN_COUNT that it has checked (R30, R256). -/
structure Cmd where
  sqIdx : Nat
  op : Nat
  flags : Nat
  tag : Nat
  st : Nat
  bytes : List Byte
  fresh : Bool
  todo : Nat
  count : Nat
deriving DecidableEq, Repr

/-- A LAUNCH under way (R257): its command, classrooms, those that faulted, the first fault (status, classroom,
cause), and whether R173 has reported. -/
structure Launch where
  cmd : Cmd
  mask : Nat
  faulted : Nat
  first : Option (Nat × Nat × Nat)
  fence : Bool
deriving DecidableEq, Repr

/-- What a context holds beside its registers. -/
structure Ctx where
  /-- bound classrooms (R244) -/
  bound : Nat
  /-- commands started and not complete, oldest first (R248) -/
  started : List Cmd
  launch : Option Launch
  /-- classrooms of the last LAUNCH (R260) -/
  lastMask : Nat
  /-- doorbell writes whose commands are not all read: TAIL before, TAIL after, port (R244) -/
  rings : List (Nat × Nat × Nat)
  /-- completions counted towards THRESH (R265) -/
  evtCount : Nat
  /-- STATUS of the first completion that no event has announced (R265) -/
  evtFirst : Option Nat
deriving DecidableEq, Repr

/-- A closed context. -/
def Ctx.closed : Ctx := ⟨0, [], none, 0, [], 0, none⟩

/-! ## Links, roll call and the Prefect (chapters 12 to 14) -/

/-- A valid flit (R298): class, first and last of its message, class sequence, the data bytes used. -/
structure Flit where
  cls : Nat
  som : Bool
  eom : Bool
  cseq : Nat
  data : List Byte
deriving DecidableEq, Repr

/-- A message that waits in a transmit NI: class, bytes not yet sent, whether its first flit has been sent, whether
it is forwarded (R327), the Prefect operation it belongs to, whether it has waited for a Bell token. -/
structure TxMsg where
  cls : Nat
  data : List Byte
  started : Bool
  fwd : Bool
  op : Option Nat
  late : Bool
deriving DecidableEq, Repr

/-- A frame in the retry buffer (R300): FSEQ, its 17 flits, times resent, due to be resent, and the operations
whose chunks end in it. -/
structure TxFrame where
  fseq : Nat
  flits : List (Option Flit)
  resends : Nat
  due : Bool
  ops : List Nat
deriving DecidableEq, Repr

/-- A message in a class's receive buffer: class, bytes, flits held, whether the port was enabled for data when its
first flit was delivered (R321), whether it is whole, and where it goes once dispatched (R325): the out port. -/
structure InMsg where
  cls : Nat
  data : List Byte
  flits : Nat
  enabled : Bool
  whole : Bool
  out : Option Nat
deriving DecidableEq, Repr

/-- A chunk in an early-arrival buffer (R356): its NI, the partition, the whole chunk. -/
structure EarlyChunk where
  ni : Nat
  part : Nat
  bytes : List Byte
deriving DecidableEq, Repr

/-- What an NI holds beside its registers. Maps by class hold counts modulo the width of their field. -/
structure NiPort where
  epoch : Nat
  /-- both epochs of the last UP (R304) -/
  held : Option (Nat × Nat)
  /-- FSEQ of the next new frame, and the retry buffer, oldest first -/
  fseq : Nat
  retry : List TxFrame
  /-- frame starts withheld, below 64 (R301) -/
  full : Nat
  cseq : SMap Nat
  sent : SMap Nat
  /-- the far end's CREDIT (R307) -/
  credit : SMap Nat
  txq : List TxMsg
  /-- Bell bucket and position, transit bucket and position, the class whose turn it is and its positions left -/
  bell : Nat
  bellPos : Nat
  transit : Nat
  transitPos : Nat
  turn : Nat
  left : Nat
  /-- RX_ADMIT as the far end last sent it, and those of its bits that stand for lanes from before they left (R303) -/
  farAdmit : Nat
  stale : Nat
  /-- last FSEQ up to which all frames are received, later ones received, NAKs to send -/
  ack : Nat
  got : List Nat
  naks : List Nat
  /-- a frame without readable FSEQ: the FSEQ each lane has delivered since (R300) -/
  blind : Option (SMap Nat)
  /-- consecutive good frames by receive lane (R299, R303) -/
  runs : SMap Nat
  rnext : SMap Nat
  rbuf : List Flit
  /-- messages in assembly and whole ones not yet dispatched -/
  msgs : List InMsg
  /-- chunks delivered to the Prefect, in order -/
  inbox : List InMsg
  /-- flits freed by class -/
  freed : SMap Nat
  /-- the last PING sent, to be sent now, the last one received (R311) -/
  ping : Nat
  pingDue : Bool
  echo : Nat
  rcSeq : Nat
  /-- a change of the record that waits for UP (R318), and the last record received, whole (R319, R323) -/
  rcOwed : Bool
  farRec : List Byte
  /-- MIN, MAX and epoch as sent in NEGOTIATE, oldest first (R304) -/
  offers : List (Nat × Nat × Nat)
  /-- chunk CRC failures in the 1 s window (R398) -/
  crcFails : Nat
  /-- LINK_VERSION has been written in this stay in NEGOTIATE -/
  versionSaid : Bool
  /-- a BELL_BOUND_LOST record has been written -/
  boundSaid : Bool
deriving DecidableEq, Repr

/-- An NI right after reset. -/
def NiPort.down : NiPort :=
  { epoch := 0, held := none, fseq := 0, retry := [], full := 0, cseq := [], sent := [], credit := [], txq := [],
    bell := 0, bellPos := 0, transit := 0, transitPos := 0, turn := 2, left := 0, farAdmit := 0, stale := 0, ack := 65535,
    got := [], naks := [], blind := none, runs := [], rnext := [], rbuf := [], msgs := [], inbox := [],
    freed := [], ping := 0, pingDue := false, echo := 0, rcSeq := 0, rcOwed := false, farRec := [],
    offers := [], crcFails := 0, versionSaid := false, boundSaid := false }

/-- A frame on its way out of a lane: its 38,080 bits on the wire (R295). -/
structure WireFrame where
  port : Nat
  lane : Nat
  bits : BitVec 38080
deriving DecidableEq, Repr

/-- A joined group (R333, R335): the context that joined it, its record, the node IDs in rank order, the sequence
number of the next operation. -/
structure Group where
  ctx : Nat
  record : List Byte
  table : List Nat
  nextSeq : Nat
deriving DecidableEq, Repr

/-- A chunk that an operation has received and not used: half, step (for ALL_TO_ALL the sender's rank), byte offset,
no valid data in it, of another wire version (R352), POS, payload. -/
structure Arrived where
  half : Nat
  step : Nat
  off : Nat
  poison : Bool
  wrong : Bool
  pos : Nat
  data : List Byte
deriving DecidableEq, Repr

/-- A chunk that waits for a port (R347): trunk axis and direction, whether the step is a wrap step where that matters,
its number within the step, class, bytes. -/
structure OutChunk where
  axis : Nat
  minus : Bool
  wrap : Option Bool
  idx : Nat
  cls : Nat
  bytes : List Byte
deriving DecidableEq, Repr

/-- How far one half of a collective is: its phase, its input elements (none: poisoned or not there yet), and the
result it forms. -/
structure HalfRun where
  phase : Nat
  vec : List (Option Nat)
  res : List (Option Nat)
  ended : Bool
deriving DecidableEq, Repr

/-- A posted operation (R339, R340). `gone` marks one that has completed and still sends its poisoned chunks. -/
structure PftOp where
  stamp : Nat
  part : Nat
  bytes : List Byte
  seq : Nat
  home : Nat
  fired : Bool
  running : Bool
  halves : List HalfRun
  arrived : List Arrived
  got : List (Nat × Nat × Nat)
  emitted : List (Nat × Nat × Nat)
  out : List OutChunk
  /-- ports of the chunks not yet acknowledged -/
  flight : List Nat
  poisons : Nat
  /-- met a poisoned tile, a refused access, a chunk of another wire version -/
  hit : Bool
  refused : Bool
  version : Bool
  /-- CHUNK_CTR increments that wait for held writes -/
  owed : Nat
  pos : Nat
  gone : Bool
deriving DecidableEq, Repr

/-! ## Optics (chapter 11) -/

/-- What the device sends to a module on its I3C bus beside reads (R273): SETDASA with the static and the dynamic address, a
private write of one register by its offset. -/
inductive BusOp where
  | setdasa (m static dynamic : Nat)
  | write (m offset value : Nat)
deriving DecidableEq, Repr

/-- What the optical service holds beside the GLV and ELS registers. Keys: a monitor of port k, direction d (0 transmit),
stage i and lane l is ((k * 2 + d) * 8 + i) * 8 + l, where 6, 7 and 0 stand for the second monitors of stages 1, 3 and 5; a lane of glove g, direction d is (g * 2 + d) * 16 + l; a source of
module m, wavelength w is m * 16 + 2 w, plus 1 for the spare. Readings are the 16 bits of R276, 0x8000 none. -/
structure Optics where
  /-- references of the commissioning record, the far end's last readings, deficits (16 bits, signed) at the last location -/
  refs : SMap Nat
  far : SMap Nat
  last : SMap Nat
  /-- readings sent to the far ends: port and readings, oldest first (R277) -/
  sent : List (Nat × List Nat)
  /-- sweeps without resonance by lane (R282) -/
  sweeps : SMap Nat
  /-- the last samples of each glove's temperature, newest first (R285) -/
  temps : SMap (List Nat)
  /-- lanes of a glove that CAL_REQ has retired (R291): transmit mask, receive mask shifted by 16 -/
  calSet : SMap Nat
  /-- last reading of each source, readings of the active source by m * 8 + w, newest first -/
  src : SMap Nat
  hist : SMap (List Nat)
  /-- failed transfers in a row, by module (R273) -/
  fails : SMap Nat
  /-- wavelengths whose pending switch was commanded, by module (R287) -/
  commanded : SMap Nat
  /-- P0 of each source (R292) -/
  p0 : SMap Nat
  /-- lanes withdrawn under LANE_RETIRE since their last admission: 1, and 2 once LOCKED for 1 ms (R283) -/
  retired : SMap Nat
  /-- the source that a pending switch is to light, by module: bit w 1 the spare (R287) -/
  targets : SMap Nat
  /-- CLK.TIME at the start of the switch, by module (R294) -/
  started : SMap Nat
  /-- the modules' SEL and WARM as last written, and what the device has sent on the I3C buses, oldest first (R273) -/
  sel : SMap Nat
  warm : SMap Nat
  bus : List BusOp
  /-- ring tables in the boot flash, by RTAB address (R280, R281) -/
  saved : SMap Word
deriving DecidableEq, Repr

/-- Nothing measured, nothing commissioned. -/
def Optics.dark : Optics := ⟨[], [], [], [], [], [], [], [], [], [], [], [], [], [], [], [], [], [], []⟩

/-! ## Snapshots (chapter 15) -/

/-- A shard entry of an open snapshot (R362), with what the seal writes of it (R374). -/
structure Shard where
  obj : Nat
  first : Nat
  count : Nat
  peer : Bool
  verify : Bool
  vgid : Nat
  tdva : Nat
  tnode : Nat
  poisoned : Nat
  hash : List Byte
  verified : Bool
  mismatch : Bool
deriving DecidableEq, Repr

/-- How far the copy of a listed tile is (R367, R368); a PEER copy that has been sent waits for its acknowledgement. -/
inductive CopyStage
  | todo | reading | held | sent | drained
deriving DecidableEq, Repr

/-- A listed tile: shard, tile number, its key, the stage of its copy, its digest, the 64 KiB that its copy
buffer entry holds (none for a ZERO or poisoned tile), whether it waits as a first touch, the die of the entry. -/
structure SnapTile where
  shard : Nat
  tile : Nat
  key : Nat
  stage : CopyStage
  digest : List Byte
  copy : List Byte
  zero : Bool
  poison : Bool
  touched : Bool
  die : Nat
deriving DecidableEq, Repr

/-- The open snapshot of a partition (R364 to R372). The sections are CLS, POLICY, GROUP, NET and TRANSIT of the
captured state (R366), as the manifest holds them. -/
structure Snap where
  ctx : Nat
  job : Nat
  stepRec : Nat
  dpr : Nat
  step : Nat
  rcTmo : Nat
  node : Nat
  sections : List (List Byte)
  shards : List Shard
  tiles : List SnapTile
  /-- manifest area of the SNAP_COMMIT that waits: DVA and bytes -/
  area : Option (Nat × Nat)
  /-- the shard that a target failure names -/
  failed : Option Nat
  /-- verification exchanges under way: group and stamp of its operation -/
  exchange : List (Nat × Nat)
deriving DecidableEq, Repr

/-- What a device sends for snapshot copies to peers (R370): a tile to a node, its answer to a tile written from port `port`, and bytes
of a copy for another node that a route takes on by port `out` (R325). The layout of these messages on the wire is not given. -/
inductive PeerMsg
  | tile (node job dva : Nat) (data : List Byte)
  | pass (out node job dva : Nat) (data : List Byte)
  | answer (port dva : Nat) (ok : Bool)
deriving DecidableEq, Repr

/-- No snapshot. -/
def Snap.none : Snap := ⟨0, 0, 0, 0, 0, 0, 0, [], [], [], Option.none, Option.none, []⟩

/-! ## Power, fuses, boot and debug (chapters 18, 19) -/

/-- What the power service holds beside its registers: the power estimates of the last 1 ms in mW, newest first (R434),
failed AVSBus transfers in a row by rail (R429), samples at CRIT in a row by sensor (R437). -/
structure Power where
  estimates : List Nat
  fails : SMap Nat
  crit : SMap Nat
deriving DecidableEq, Repr

/-- The owner fuses but for ARB (R455); multi-bit fields as numbers. -/
structure OwnerFuses where
  partMax : Nat
  mgmtPort : Nat
  okeyHash : Nat
  dbgOff : Nat
  rmaOk : Nat
  olock : Nat
deriving DecidableEq, Repr

/-- The vendor fuses (R455); `vkeyHash`, `secret` and `endorse` as strings of bytes, first byte at the lowest offset. -/
structure VendorFuses where
  serial : Nat
  grade : Nat
  fuseMv : Nat
  crit : Nat
  vkeyHash : List Byte
  secret : List Byte
  endorse : List Byte
  vlock : Nat
deriving DecidableEq, Repr

/-- Slot control in force (R453), with the sequence number of its record. -/
structure SlotCtl where
  seq : Nat
  active : Nat
  next : Nat
  tryNext : Bool
deriving DecidableEq, Repr

/-- Boot, security and the flash: the fuses as blown, the owner fuses in effect (R457), bits of the anti-rollback
counter blown, slot control, the slot that the present boot tried first, the private attestation key (R461), the latest
debug challenge (R466), the flash operation under way (operation and address, R454), the fuse field and bits being blown
(R456). -/
structure Security where
  vendor : VendorFuses
  owner : OwnerFuses
  live : OwnerFuses
  arb : Nat
  slots : SlotCtl
  first : Option Nat
  ak : Option (List Byte)
  challenge : Option (List Byte)
  flash : Option (Nat × Nat)
  prog : Option (Nat × Nat)
deriving DecidableEq, Repr

/-- An unprovisioned device as shipped (R428, R437, R455), with blank slot control; the identity fuses are 0 (DESIGN CHOICE,
notes/assumptions/35.md). -/
def Security.shipped : Security :=
  { vendor := ⟨0, 0, 680, 0x7D0, List.replicate 32 0, List.replicate 32 0, List.replicate 64 0, 1⟩
    owner := ⟨0, 0, 0, 0, 0, 0⟩, live := ⟨0, 0, 0, 0, 0, 0⟩, arb := 0
    slots := ⟨0, 0, 0, false⟩, first := none, ak := none, challenge := none, flash := none, prog := none }

/-- JTAG instructions (R464). -/
inductive JtagInstr
  | bypass | idcode | samplePreload | extest | clamp | highz | dbgChal | dbgResp
deriving DecidableEq, Repr

/-- What drives the device's lands (R465): their function, the boundary register, or nothing. -/
inductive Lands
  | function | boundary | released
deriving DecidableEq, Repr

/-- The JTAG port: its instruction, the boundary register by land, the bytes last shifted out. -/
structure Jtag where
  instr : JtagInstr
  boundary : List Bool
  lands : Lands
  out : List Byte
deriving DecidableEq, Repr

/-! ## The whole -/

/-- An event message (R264) and the ZHL port it is sent to. -/
structure Event where
  port : Nat
  type : Nat
  part : Nat
  source : Nat
  index : Nat
  status : Nat
deriving DecidableEq, Repr

/-- How a host read or write ended (R237): with its data, with an error completion, with a poisoned one. -/
inductive ReplyStatus
  | ok | error | poisoned
deriving DecidableEq, Repr

/-- An answer to a host transaction, with the bytes read. -/
structure Reply where
  port : Nat
  status : ReplyStatus
  data : List Byte
deriving DecidableEq, Repr

/-- A block flag that a Satchel has set in a step not yet closed (R150): partition, step record, byte address and bit of
the flag, and whether another writer has set it as well. -/
structure SatFlag where
  part : Nat
  stepRec : Nat
  dva : Nat
  bit : Nat
  other : Bool
deriving DecidableEq, Repr

/-- Rate limits of an error ring (R390): an ERR_RING event was sent within the last ADV_EVT ms, and
an ADVISORY record waits to be announced. -/
structure RingTimer where
  recent : Bool
  waiting : Bool
deriving DecidableEq, Repr

/-- A ring whose last event is long past. -/
def RingTimer.quiet : RingTimer := ⟨false, false⟩

/-- The state. -/
structure State where
  /-- every CSR, by address -/
  csr : SMap Word
  /-- every byte of both tiers, the operand buffers and the boot flash, by physical address -/
  mem : List Host.Cell
  cls : SMap Classroom
  ctxs : SMap Ctx
  bars : SMap Barrier
  /-- open snapshots, by partition -/
  snaps : SMap Snap
  /-- snapshot numbers, by partition -/
  snapNums : SMap Nat
  objs : SMap (Option Obj)
  tiles : SMap TileEntry
  /-- retired frames, by physical frame address (R212) -/
  retired : List Nat
  held : List HeldWrite
  /-- the MIG's command queues, by partition -/
  migs : SMap MigQueue
  /-- tiles on their way, oldest first; at most 64 (R207) -/
  moves : List Move
  /-- MPREF tiles that wait for promotion, oldest first; at most 256 per die (R232) -/
  prefq : List PrefReq
  /-- request sorters, by channel -/
  sorters : SMap Sorter
  /-- requests under tags at SRAM slices: slice and request (R217) -/
  sliceReqs : List (Nat × SortReq)
  /-- classrooms that wait for a ramp slot, in the order of the grants, with CLK.TIME of the request (R115) -/
  rampReq : List (Nat × Nat)
  /-- classrooms that hold a ramp slot, at most 16 (R115) -/
  rampHold : List Nat
  /-- samples formed and not yet written (R413) -/
  samples : List Sample
  /-- latches of chained counter pairs, by the odd counter's address (R403) -/
  latches : SMap Nat
  /-- events sent to the hosts, oldest first (R264) -/
  events : List Event
  /-- answers to host reads and writes, oldest first (R236) -/
  replies : List Reply
  /-- key 0 the device ring, 1 + p the ring of partition p -/
  ringTimer : SMap RingTimer
  /-- messages of snapshot copies sent to other devices, oldest first (R370) -/
  peer : List PeerMsg
  power : Power
  security : Security
  jtag : Jtag
  /-- the INTLKmn pins are high-impedance: VAUX is lost (R437) -/
  noVaux : Bool
  optics : Optics
  /-- optical ports -/
  nis : SMap NiPort
  /-- frames sent, oldest first -/
  wire : List WireFrame
  /-- joined groups, key 4096 p + GID -/
  groups : SMap (Option Group)
  /-- early-arrival buffers, oldest chunk first; at most 64 per NI (R356) -/
  early : List EarlyChunk
  /-- posted operations in posting order, and how many have been posted -/
  ops : List PftOp
  posted : Nat
  /-- rate limit of LINK events by SOURCE (R266) -/
  linkTimer : SMap RingTimer
  /-- occurrences withheld by a rate limit, by record type and unit (R389) -/
  withheld : SMap Nat
  /-- a DEVICE_FATAL record has stopped the device (R392) -/
  fatal : Bool
  /-- partitions under PARTITION_FATAL (R383) -/
  partFatal : List Nat
  /-- houses whose SRAM die has failed (R213, R492) -/
  deadDies : List Nat
  /-- block flags that Satchels have set in steps not yet closed (R150) -/
  satFlags : List SatFlag
  /-- the model's own counter of free values drawn -/
  drawn : Nat
  pending : List Instr
deriving DecidableEq, Repr

/-- Why the block stops with a fault. -/
inductive Fault
  /-- a host transaction that R236 does not describe; raised by MEM_RD and MEM_WR; safe: the model
  stops where no such transaction exists -/
  | noSuchTransaction
deriving DecidableEq, Repr

/-- Why the block refuses a command. -/
inductive Refusal
  /-- a command without a meaning in this model; safe -/
  | notModelled (mnemonic : String)
deriving DecidableEq, Repr

/-- First physical address of the slow tier; SRAM slices lie below it. -/
def slowBase : Nat := 0x10000000000
/-- First physical address of the operand buffers. -/
def obBase : Nat := 0x100000000000
/-- First physical address of the boot flash. -/
def flashBase : Nat := 0x200000000000

/-- What a byte of memory reads as where nothing is listed: 0 in both tiers and the operand buffers,
0xFF in the erased flash (DESIGN CHOICE, notes/assumptions/3.md). -/
def memDefault (a : Nat) : Byte := if flashBase ≤ a then 0xFF else 0

/-- The canonical form of memory. -/
def Memory.wf (m : List Host.Cell) : Bool := SMap.wf memDefault m

/-- The state right after power-on reset. -/
def State.reset : State :=
  { csr := [], mem := [], cls := [], ctxs := [], bars := [], snaps := [], snapNums := [], objs := [], tiles := [], retired := [], held := [], migs := [], moves := [], prefq := [], sorters := [], sliceReqs := [],
    rampReq := [], rampHold := [], samples := [], latches := [], events := [], replies := [], ringTimer := [],
    peer := [], power := ⟨[], [], []⟩, security := Security.shipped, jtag := ⟨.idcode, [], .function, []⟩, noVaux := false, optics := Optics.dark, nis := [], wire := [], groups := [], early := [], ops := [], posted := 0, linkTimer := [], withheld := [], fatal := false, partFatal := [], deadDies := [], satFlags := [], drawn := 0, pending := [] }

end Sys2Proof.Machine
end

