-- ==== Sys2Proof/Machine/Ops.lean ====
section
/-! DEFINITION. The named operations on the state: CSR fields, memory behind a partition's DVA range,
tile entries, error records and events. -/

namespace Sys2Proof.Machine

/-! ## Byte strings (R13) -/

/-- The low `n` bytes of `v`, byte 0 holding bits [7:0]. -/
def leBytes (n v : Nat) : List Byte :=
  match n with
  | 0 => []
  | k + 1 => BitVec.ofNat 8 v :: leBytes k (v / 256)

/-- The number that bytes hold, byte 0 lowest. -/
def leNat (bs : List Byte) : Nat :=
  match bs with
  | [] => 0
  | b :: r => b.toNat + 256 * leNat r

/-- The `n`-byte field at offset `o` of a record. -/
def fieldAt (bs : List Byte) (o n : Nat) : Nat := leNat ((bs.drop o).take n)

/-- Bit `i` of a number. -/
def bitOf (v i : Nat) : Bool := decide (v / 2 ^ i % 2 = 1)

/-- `v` with bit `i` set. -/
def setBit (v i : Nat) : Nat := if bitOf v i then v else v + 2 ^ i

/-- `v` with bit `i` cleared. -/
def clearBit (v i : Nat) : Nat := if bitOf v i then v - 2 ^ i else v

/-- The positions below `n` of the set bits of `v`, ascending. -/
def setBits (v n : Nat) : List Nat := (List.range n).filter (fun i => bitOf v i)

/-- The value of `n` bits read as two's complement. -/
def signed (n v : Nat) : Int := if v < 2 ^ (n - 1) then Int.ofNat v else Int.ofNat v - Int.ofNat (2 ^ n)

/-- An integer as `n` bits of two's complement. -/
def toSigned (n : Nat) (v : Int) : Nat := (v % Int.ofNat (2 ^ n)).toNat

/-- ceil(a / b). -/
def ceilDiv (a b : Nat) : Nat := (a + b - 1) / b

/-! ## CSR fields -/

/-- The register at a CSR address. -/
def State.rd (s : State) (a : Nat) : Word := s.csr.get Csr.reset a

/-- The state with the register at `a` holding `w`. -/
def State.wr (s : State) (a : Nat) (w : Word) : State := { s with csr := s.csr.put Csr.reset a w }

/-- A field's value. -/
def State.getF (s : State) (f : Fld) : Nat := wordGet (s.rd f.addr) f.lo f.len

/-- The state with a field holding `v`. -/
def State.setF (s : State) (f : Fld) (v : Nat) : State := s.wr f.addr (wordSet (s.rd f.addr) f.lo f.len v)

/-- A counter field raised by `n`, saturating at all ones. -/
def State.addF (s : State) (f : Fld) (n : Nat) : State := s.setF f (min (s.getF f + n) (2 ^ f.len - 1))

/-- A counter field lowered by `n`, not below 0. -/
def State.subF (s : State) (f : Fld) (n : Nat) : State := s.setF f (s.getF f - n)

/-- A one-bit field as a Bool. -/
def State.flag (s : State) (f : Fld) : Bool := decide (s.getF f = 1)

/-- Set several fields in turn. -/
def State.setFs (s : State) (l : List (Fld × Nat)) : State := l.foldl (fun t p => t.setF p.1 p.2) s

/-! ## Classrooms -/

/-- What classroom `c` holds beside its registers. -/
def State.room (s : State) (c : Nat) : Classroom := s.cls.get (fun _ => Classroom.idle) c

/-- The state with classroom `c` holding `r`. -/
def State.setRoom (s : State) (c : Nat) (r : Classroom) : State :=
  { s with cls := s.cls.put (fun _ => Classroom.idle) c r }

/-- A free value for a purpose, and the state with the counter advanced. Purposes: 0 times, 2 to 5 the
prefetcher's counts, 6 frames, 7 epochs, 8 challenges and nonces, 9 analogue measurements. -/
def State.draw (s : State) (purpose : Nat) : Nat × State := (Config.freeNat purpose s.drawn, { s with drawn := s.drawn + 1 })

/-! ## Partitions (R241, R242) -/

/-- The partition is enabled. -/
def State.partOn (s : State) (p : Nat) : Bool := s.flag (Csr.sysPartCfg_EN p)

/-- The management owner's port (R240). -/
def State.mgmtPort (s : State) : Nat := s.getF Csr.sysPartCap_MGMT_PORT

/-- The enabled partition whose mask register (`f p`) has bit `i`, lowest first. -/
def State.ownerBy (s : State) (f : Nat → Fld) (i : Nat) : Option Nat :=
  (List.range 8).find? (fun p => s.partOn p && bitOf (s.getF (f p)) i)

/-- The partition that owns classroom `c`. -/
def State.clsPart (s : State) (c : Nat) : Option Nat := s.ownerBy Csr.sysPartCls_MASK c

/-- The partition that owns NI `k`. -/
def State.niPart (s : State) (k : Nat) : Option Nat := s.ownerBy Csr.sysPartNi_MASK k

/-- The partition whose context range holds context `x`. -/
def State.ctxPart (s : State) (x : Nat) : Option Nat :=
  (List.range 8).find? (fun p => s.partOn p && decide (s.getF (Csr.sysPartCtx_BASE p) ≤ x)
    && decide (x < s.getF (Csr.sysPartCtx_BASE p) + s.getF (Csr.sysPartCtx_COUNT p)))

/-! ## Contexts -/

/-- What context `x` holds beside its registers. -/
def State.ctx (s : State) (x : Nat) : Ctx := s.ctxs.get (fun _ => Ctx.closed) x

/-- The state with context `x` holding `r`. -/
def State.setCtx (s : State) (x : Nat) (r : Ctx) : State := { s with ctxs := s.ctxs.put (fun _ => Ctx.closed) x r }

/-- CTX.STATE.STATE: 0 CLOSED, 1 OPEN, 2 LOADED, 3 RUNNING, 4 HALTED, 5 DRAINING, 6 FAULTED. -/
def State.ctxSt (s : State) (x : Nat) : Nat := s.getF (Csr.ctxState_STATE x)

/-- The state with context `x` in state `v`. -/
def State.setCtxSt (s : State) (x v : Nat) : State := s.setF (Csr.ctxState_STATE x) v

/-! ## Snapshots -/

/-- The open snapshot of partition `p`. -/
def State.snap (s : State) (p : Nat) : Snap := s.snaps.get (fun _ => Snap.none) p

/-- The state with the snapshot of partition `p` replaced. -/
def State.setSnap (s : State) (p : Nat) (x : Snap) : State := { s with snaps := s.snaps.put (fun _ => Snap.none) p x }

/-- RGS.PART[p].STATE.STATE: 0 IDLE, 1 PROTECTING, 2 OPEN, 3 SEALING, 4 VERIFYING, 5 ABORTING (R371). -/
def State.snapSt (s : State) (p : Nat) : Nat := s.getF (Csr.rgsPartState_STATE p)

/-! ## Physical memory -/

/-- Physical address of byte `off` of SRAM slice frame `f` of slice `sl`. -/
def sramAddr (sl f off : Nat) : Nat := (sl * 4096 + f) * 65536 + off

/-- Physical address of byte `off` of frame `f` of LPDDR5X channel `ch`. -/
def slowAddr (ch f off : Nat) : Nat := slowBase + (ch * 262144 + f) * 65536 + off

/-- Physical address of byte `off` of classroom `c`'s operand buffer. -/
def obAddr (c off : Nat) : Nat := obBase + c * 0x200000 + off

/-- One physical byte. -/
def State.peek (s : State) (a : Nat) : Byte := SMap.get memDefault s.mem a

/-- The state with one physical byte written. -/
def State.poke (s : State) (a : Nat) (b : Byte) : State := { s with mem := SMap.put memDefault s.mem a b }

/-- `n` physical bytes from `a`. -/
def State.peekN (s : State) (a n : Nat) : List Byte := (List.range n).map (fun i => s.peek (a + i))

/-- Physical bytes written in turn from `a`. -/
def State.pokeN (s : State) (a : Nat) (bs : List Byte) : State :=
  match bs with
  | [] => s
  | b :: r => (s.poke a b).pokeN (a + 1) r

/-- A frame filled with zeros (R199, R214): its entries are dropped, since it then reads as 0. -/
def State.zeroFrame (s : State) (a : Nat) : State :=
  { s with mem := s.mem.filter (fun c => !(decide (a ≤ c.1) && decide (c.1 < a + 65536))) }

/-- A frame's bytes copied to another frame. -/
def State.copyFrame (s : State) (src dst : Nat) : State :=
  let cells := s.mem.filter (fun c => decide (src ≤ c.1) && decide (c.1 < src + 65536))
  cells.foldl (fun t c => t.poke (dst + (c.1 - src)) c.2) (s.zeroFrame dst)

/-! ## Objects and tiles (R194 to R200) -/

/-- Key of object `i` of partition `p`. -/
def objKey (p i : Nat) : Nat := p * 1048576 + i

/-- Key of tile `t` of an object's key. -/
def tileKey (ok t : Nat) : Nat := ok * 16777216 + t

/-- The object with the key, if it is in use. -/
def State.obj (s : State) (ok : Nat) : Option Obj := s.objs.get (fun _ => none) ok

/-- The state with the object of a key replaced or removed. -/
def State.setObj (s : State) (ok : Nat) (o : Option Obj) : State := { s with objs := s.objs.put (fun _ => none) ok o }

/-- The tile entry with the key. -/
def State.tile (s : State) (tk : Nat) : TileEntry := s.tiles.get (fun _ => TileEntry.absent) tk

/-- The state with a tile entry replaced. -/
def State.setTile (s : State) (tk : Nat) (e : TileEntry) : State :=
  { s with tiles := s.tiles.put (fun _ => TileEntry.absent) tk e }

/-- Among listed objects, the key and object of partition `p` that holds `dva`. -/
def findObj (m : SMap (Option Obj)) (p dva : Nat) : Option (Nat × Obj) :=
  match m with
  | [] => none
  | (k, some o) :: r =>
    if k / 1048576 = p ∧ o.base ≤ dva ∧ dva < o.base + o.tiles * 65536 then some (k, o)
    else findObj r p dva
  | (_, none) :: r => findObj r p dva

/-- First address of the OB window area (R192). -/
def obWindow : Nat := 0xFFFFF8000000

/-- Where a DVA of a partition leads. -/
inductive Place
  /-- outside every object, or an OB window the partition may not use -/
  | nowhere
  | ob (c off : Nat)
  | tile (tk off : Nat) (rdonly : Bool)
deriving DecidableEq, Repr

/-- Where `dva` of partition `p` leads (R192, R193). -/
def State.place (s : State) (p dva : Nat) : Place :=
  if 2 ^ 48 ≤ dva then .nowhere
  else if obWindow ≤ dva then
    let c := (dva - obWindow) / 0x200000
    if bitOf (s.getF (Csr.sysPartCls_MASK p)) c then .ob c ((dva - obWindow) % 0x200000) else .nowhere
  else match findObj s.objs p dva with
    | some (ok, o) => .tile (tileKey ok ((dva - o.base) / 65536)) ((dva - o.base) % 65536) o.rdonly
    | none => .nowhere

/-- The physical address of byte `off` of a tile, in the tier where it lies. -/
def tileAddr (e : TileEntry) (off : Nat) : Nat :=
  if e.sram then sramAddr e.slice e.sframe off else slowAddr e.homeCh e.homeFrame off

/-- Why a demand access fails: unmapped or not permitted (ACCESS), or poisoned (POISON) (R64). -/
inductive AccErr
  | access (dva : Nat)
  | poison (dva : Nat)
deriving DecidableEq, Repr

/-- One byte of a partition's DVA range. A ZERO tile reads as zero (R199). -/
def State.readByte (s : State) (p dva : Nat) : Except AccErr Byte :=
  match s.place p dva with
  | .nowhere => .error (.access dva)
  | .ob c off => .ok (s.peek (obAddr c off))
  | .tile tk off _ =>
    let e := s.tile tk
    if e.poison then .error (.poison dva)
    else if e.zero then .ok 0
    else .ok (s.peek (tileAddr e off))

/-- May a byte be written: mapped, not in a read-only object, not poisoned (R195, R211). -/
def State.writable (s : State) (p dva : Nat) : Except AccErr Unit :=
  match s.place p dva with
  | .nowhere => .error (.access dva)
  | .ob _ _ => .ok ()
  | .tile tk _ ro =>
    if ro then .error (.access dva)
    else if (s.tile tk).poison then .error (.poison dva)
    else .ok ()

/-- A demand write to the byte must wait: its tile is moving or write-protected (R208, R367). -/
def State.writeWaits (s : State) (p dva : Nat) : Bool :=
  match s.place p dva with
  | .tile tk _ _ => (s.tile tk).moving || (s.tile tk).wp
  | _ => false

/-- The OB line tags with the line of `off` in classroom `c` cleared (R112). -/
def State.clearTag (s : State) (c off : Nat) : State :=
  let r := s.room c
  if off / 64 ∈ r.zeroTags then s.setRoom c { r with zeroTags := r.zeroTags.erase (off / 64) } else s

/-- One byte written by a demand write that R195 and R211 allow: a ZERO tile's frame is filled first
(R199), an SRAM-tier tile becomes DIRTY (R198), an OB line loses its zero tag (R112). -/
def State.writeByte (s : State) (p dva : Nat) (b : Byte) : State :=
  match s.place p dva with
  | .nowhere => s
  | .ob c off => (s.clearTag c off).poke (obAddr c off) b
  | .tile tk off _ =>
    let e := s.tile tk
    let s1 := if e.zero then s.zeroFrame (tileAddr e 0) else s
    (s1.setTile tk { e with zero := false, dirty := e.dirty || e.sram, accessed := true }).poke
      (tileAddr e off) b

/-- Bytes written in turn. -/
def State.writeAll (s : State) (p : Nat) (ws : List (Nat × Byte)) : State :=
  ws.foldl (fun t w => t.writeByte p w.1 w.2) s

/-- Bytes at consecutive addresses from `dva`. -/
def bytesAt (dva : Nat) (bs : List Byte) : List (Nat × Byte) :=
  match bs with
  | [] => []
  | b :: r => (dva, b) :: bytesAt (dva + 1) r

/-- `n` bytes of a partition's DVA range, or the first error. -/
def State.readBytes (s : State) (p dva n : Nat) : Except AccErr (List Byte) :=
  match n with
  | 0 => .ok []
  | k + 1 => do
    let b ← s.readByte p dva
    let r ← s.readBytes p (dva + 1) k
    return b :: r

/-- `n` bytes of the objects of a partition: an OB window lies outside every object (R193). Rings, lesson images and
descriptor tables are read so (R30, R33, R205, R248). -/
def State.readObjs (s : State) (p dva n : Nat) : Except AccErr (List Byte) :=
  if dva + n ≤ obWindow then s.readBytes p dva n
  else do
    let _ ← s.readBytes p dva (obWindow - dva)
    .error (.access (max dva obWindow))

/-- May all the bytes be written. -/
def State.writableAll (s : State) (p : Nat) (ws : List (Nat × Byte)) : Except AccErr Unit :=
  match ws with
  | [] => .ok ()
  | w :: r => do
    s.writable p w.1
    s.writableAll p r

/-- The byte lies in a tile that moves, and in a tile that is write-protected. -/
def State.movingAt (s : State) (p dva : Nat) : Bool :=
  match s.place p dva with
  | .tile tk _ _ => (s.tile tk).moving
  | _ => false
def State.wpAt (s : State) (p dva : Nat) : Bool :=
  match s.place p dva with
  | .tile tk _ _ => (s.tile tk).wp
  | _ => false

/-- A writer that keeps its bytes itself waits: its writes reach the tiles at `as`, of which some move or are write-protected. The
stall is counted once (R215, R367), and shows the Registrar which tile to copy first. -/
def State.stall (s : State) (src : HoldSrc) (p : Nat) (as : List Nat) : State :=
  if s.held.any (fun h => decide (h.src = src)) then s
  else
    let s0 := if as.any (fun a => s.movingAt p a) then s.addF Csr.migStat_WSTALL 1 else s
    let s1 := if as.any (fun a => s.wpAt p a) then s0.addF (Csr.rgsPartStall_COUNT p) 1 else s0
    { s1 with held := s1.held ++ [⟨p, (as.filter (fun a => s.writeWaits p a)).map (fun a => (a, 0)), src, none⟩] }

/-- Writes to tiles that are free to take them land now; the others are held until the tile's switch
or its copy, for `src` (R208, R367). A write stalled by MOVING or a ZERO fill is counted (R215), one stalled by WP
in the partition's STALL register (R367). -/
def State.writeFrom (s : State) (src : HoldSrc) (p : Nat) (ws : List (Nat × Byte)) : State :=
  let wait := ws.filter (fun w => s.writeWaits p w.1)
  let stalls := ws.any (fun w => s.movingAt p w.1 || (match s.place p w.1 with
    | .tile tk _ _ => (s.tile tk).zero
    | _ => false))
  let touch := ws.any (fun w => s.wpAt p w.1)
  let s0 := if stalls then s.addF Csr.migStat_WSTALL 1 else s
  let s0 := if touch then s0.addF (Csr.rgsPartStall_COUNT p) 1 else s0
  let s1 := s0.writeAll p (ws.filter (fun w => !(s.writeWaits p w.1)))
  if wait.isEmpty then s1 else { s1 with held := s1.held ++ [⟨p, wait, src, none⟩] }

/-- A demand write that nobody waits for by name. -/
def State.demandWrite (s : State) (p : Nat) (ws : List (Nat × Byte)) : State := s.writeFrom .engine p ws

/-- Mark every tile of the addresses accessed, for aging (R198). -/
def State.touch (s : State) (p : Nat) (as : List Nat) : State :=
  as.foldl (fun t a => match t.place p a with
    | .tile tk _ _ => t.setTile tk { t.tile tk with accessed := true }
    | _ => t) s

/-- One address in every tile that holds some of `n` bytes from `a`. -/
def tileSpan (a n : Nat) : List Nat :=
  (List.range ((a % 65536 + n + 65535) / 65536)).map (fun i => (a / 65536 + i) * 65536)

/-- A later access to a poisoned tile is counted (R210). -/
def State.countHit (s : State) (e : AccErr) : State :=
  match e with
  | .poison _ => s.addF Csr.migPoison_HITS 1
  | .access _ => s

/-! ## Events (R264) -/

/-- Send an event; it is dropped and counted when the port is not UP (R239). -/
def State.sendEvent (s : State) (e : Event) : State :=
  if s.getF (Csr.hlStatus_STATE e.port) = 3 then { s with events := s.events ++ [e] }
  else s.addF (Csr.hlEvtDrop_COUNT e.port) 1

/-! ## Error records (R384 to R390) -/

/-- The content of an error record. -/
structure Rec where
  type : Nat
  sev : Nat
  part : Nat
  kind : Nat
  unit : Nat
  ctx : Nat
  addr : Nat
  detail : List (Nat × Nat)
deriving DecidableEq, Repr

/-- DETAIL (R387): each field (size, value) aligned to its own size. -/
def packDetail (pos : Nat) (fs : List (Nat × Nat)) : List Byte :=
  match fs with
  | [] => []
  | (n, v) :: r =>
    let al := if n ≤ 8 then n else 1
    let pad := (al - pos % al) % al
    List.replicate pad 0 ++ leBytes n v ++ packDetail (pos + pad + n) r

/-- Key of the withheld count of a record type and unit. -/
def withheldKey (r : Rec) : Nat := (r.type * 256 + r.kind) * 65536 + r.unit

/-- The 64 bytes of a record (R386). -/
def recBytes (r : Rec) (flags seq time count : Nat) : List Byte :=
  leBytes 2 r.type ++ leBytes 1 r.sev ++ leBytes 1 flags ++ leBytes 4 seq ++ leBytes 8 time ++
  leBytes 1 r.part ++ leBytes 1 r.kind ++ leBytes 2 r.unit ++ leBytes 2 r.ctx ++ leBytes 2 count ++
  leBytes 8 r.addr ++ (packDetail 0 r.detail ++ List.replicate 32 0).take 32

/-- The eight words of 64 bytes written at register addresses `f 0` to `f 7`. -/
def State.writeRecWords (s : State) (f : Nat → Nat) (bs : List Byte) : State :=
  (List.range 8).foldl (fun t w => t.wr (f w) (BitVec.ofNat 64 (fieldAt bs (8 * w) 8))) s

/-- An ERR_RING event of ring `ring` (0 device, 1 + p partition), announcing its WR (R390). -/
def State.ringEvent (s : State) (ring : Nat) : State :=
  match ring with
  | 0 => s.sendEvent ⟨s.mgmtPort, 4, 255, 0, s.getF Csr.errDevWr_WR, 0⟩
  | p + 1 => s.sendEvent ⟨s.getF (Csr.sysPartCfg_EVT_PORT p), 4, p, 0, s.getF (Csr.errPartWr_WR p), 0⟩

/-- The timer state of a ring. -/
def State.ring (s : State) (ring : Nat) : RingTimer := s.ringTimer.get (fun _ => RingTimer.quiet) ring

/-- The state with a ring's timer replaced. -/
def State.setRing (s : State) (ring : Nat) (t : RingTimer) : State :=
  { s with ringTimer := s.ringTimer.put (fun _ => RingTimer.quiet) ring t }

/-- Notify of a record just written to a ring (R390). -/
def State.notifyRing (s : State) (ring sev : Nat) : State :=
  if 1 ≤ sev then (s.ringEvent ring).setRing ring ⟨true, false⟩
  else if (s.ring ring).recent then s.setRing ring ⟨true, true⟩
  else (s.ringEvent ring).setRing ring ⟨true, false⟩

/-- Write a record into the device ring (R384). -/
def State.devRecord (s : State) (r : Rec) (flags count : Nat) : State :=
  let n := s.getF Csr.errDevWr_WR
  let s1 := s.writeRecWords (Csr.errDrecW (n % 4096))
    (recBytes r flags n (s.rd Csr.clkTime).toNat count)
  let s2 := s1.setF Csr.errDevWr_WR (n + 1)
  let s3 := if s.getF Csr.errCtrl_ALERT_MIN ≤ r.sev then s2.setF Csr.errStatus_ALERT 1 else s2
  s3.notifyRing 0 r.sev

/-- Write a record into the ring of partition `p` (R384). -/
def State.partRecord (s : State) (p : Nat) (r : Rec) (flags count : Nat) : State :=
  let n := s.getF (Csr.errPartWr_WR p)
  let s1 := s.writeRecWords (Csr.errPrecW p (n % 1024))
    (recBytes r flags n (s.rd Csr.clkTime).toNat count)
  (s1.setF (Csr.errPartWr_WR p) (n + 1)).notifyRing (p + 1) r.sev

/-- The capture of the first DEVICE_FATAL record (R392, R400). -/
def State.captureFatal (s : State) (r : Rec) : State :=
  if s.flag Csr.errFatal_VALID then s
  else s.setFs [(Csr.errFatal_TYPE, r.type), (Csr.errFatal_UNIT_KIND, r.kind), (Csr.errFatal_UNIT, r.unit),
    (Csr.errFatal_VALID, 1)]

/-- Write one occurrence of a record into the device ring (`dev`) and a partition's ring (`part`),
device ring first; withheld occurrences of the type and unit are added to COUNT (R385, R389). Each copy of a pair
says that the other exists, a single record says nothing (DEDUCED from R385, R213 and the example of R400,
notes/assumptions/34.md). -/
def State.record (s : State) (dev : Bool) (part : Option Nat) (r : Rec) : State :=
  let held := s.withheld.get (fun _ => 0) (withheldKey r)
  let s0 := { s with withheld := s.withheld.put (fun _ => 0) (withheldKey r) 0 }
  let s1 := s0.addF (Csr.errSevCount_COUNT r.sev) 1
  let count := min (held + 1) 65535
  let sup := if held = 0 then 0 else 4
  let target := part.filter (fun p => s.partOn p)
  let toDev := dev || (part.isSome && target.isNone) || (part.isNone && !dev)
  let both := toDev && target.isSome
  let s2 := if toDev then s1.devRecord r (2 * both.toNat + sup) count else s1
  match target with
  | some p => s2.partRecord p r (both.toNat + sup) count
  | none => s2

/-- An occurrence that a rate limit withholds (R389). -/
def State.withhold (s : State) (r : Rec) : State :=
  let n := s.withheld.get (fun _ => 0) (withheldKey r)
  { s with withheld := s.withheld.put (fun _ => 0) (withheldKey r) (n + 1) }

/-- A record of type D: the device ring only. -/
def State.recordD (s : State) (type sev kind unit : Nat) (detail : List (Nat × Nat)) : State :=
  s.record true none ⟨type, sev, 255, kind, unit, 0xFFFF, 0, detail⟩

/-- A record of type P: the ring of the partition, or the device ring for a unit of no enabled partition. -/
def State.recordP (s : State) (p : Option Nat) (type sev kind unit ctx addr : Nat)
    (detail : List (Nat × Nat)) : State :=
  s.record false p ⟨type, sev, p.getD 255, kind, unit, ctx, addr, detail⟩

/-- A record of type D+P: both rings. -/
def State.recordDP (s : State) (p : Option Nat) (type sev kind unit : Nat) (detail : List (Nat × Nat)) : State :=
  s.record true p ⟨type, sev, p.getD 255, kind, unit, 0xFFFF, 0, detail⟩

/-- Is a device-scope policy armed (R395); `id` from 1. -/
def State.devArmed (s : State) (id : Nat) : Bool := bitOf (s.getF Csr.errPolicy_ARMED) (id - 1)

/-- Is a partition-scope policy armed in partition `p`. -/
def State.partArmed (s : State) (p id : Nat) : Bool := bitOf (s.getF (Csr.errPartPolicy_ARMED p)) (id - 1)

/-- Poison a tile and write its record (R210); `waiters` requests were waiting on it. -/
def State.poisonTile (s : State) (tk waiters : Nat) : State :=
  let e := s.tile tk
  let p := tk / 16777216 / 1048576
  let oi := tk / 16777216 % 1048576
  let t := tk % 16777216
  let base := match s.obj (objKey p oi) with
    | some o => o.base
    | none => 0
  let s1 := s.setTile tk { e with poison := true }
  let s2 := s1.addF Csr.migPoison_TILES 1
  let unit := if e.sram then e.slice else e.homeCh
  let frame := if e.sram then e.sframe else e.homeFrame
  s2.recordP (some p) 0x0201 2 (if e.sram then 12 else 2) unit 0xFFFF (base + t * 65536)
    [(4, oi), (4, t), (1, e.sram.toNat), (1, unit), (4, frame), (2, waiters)]

end Sys2Proof.Machine
end

