-- ==== Sys2Proof/Machine/Operands.lean ====
section
/-! DEFINITION. Operand forms: instruction fields (R56, R57, R67), descriptors (R49 to R52), element
addresses (R50), scale slots and block offsets (R53, R70, R148), and reads as a queue's next
instruction sees them (R37). -/

namespace Sys2Proof.Machine

/-! ## Instruction words (R56, R57, R67) -/

/-- The classroom instructions. -/
inductive Op
  | tmul | tmult | tmulta | tpair | tloadw
  | vadd | vfma | vexp | vrsq | vamax | vsmx | vnorm | vquant | vcvt | vsumsq | vrng | vquiz
  | mload | mstore | mgather | mscatter | mconv | mpref | mupd
  | swait | ssig | sfence | sbar | strig | sloop | send
deriving DecidableEq, Repr

/-- The opcode map (R67). -/
def opOf (code : Nat) : Option Op :=
  match code with
  | 0x00 => some .tmul
  | 0x01 => some .tmult
  | 0x02 => some .tmulta
  | 0x03 => some .tpair
  | 0x08 => some .tloadw
  | 0x40 => some .vadd
  | 0x41 => some .vfma
  | 0x42 => some .vexp
  | 0x43 => some .vrsq
  | 0x44 => some .vamax
  | 0x45 => some .vsmx
  | 0x46 => some .vnorm
  | 0x47 => some .vquant
  | 0x48 => some .vcvt
  | 0x49 => some .vsumsq
  | 0x4A => some .vrng
  | 0x4B => some .vquiz
  | 0x80 => some .mload
  | 0x81 => some .mstore
  | 0x82 => some .mgather
  | 0x83 => some .mscatter
  | 0x84 => some .mconv
  | 0x85 => some .mpref
  | 0x86 => some .mupd
  | 0xC0 => some .swait
  | 0xC1 => some .ssig
  | 0xC2 => some .sfence
  | 0xC3 => some .sbar
  | 0xC4 => some .strig
  | 0xC5 => some .sloop
  | 0xC6 => some .send
  | _ => none

/-- Bits `lo` to `lo + n - 1` of an instruction. -/
def insnBits (e lo n : Nat) : Nat := e / 2 ^ lo % 2 ^ n

def insnOp (e : Nat) : Option Op := opOf (insnBits e 56 8)
def insnWtok (e : Nat) : Nat := insnBits e 50 6
def insnWmode (e : Nat) : Nat := insnBits e 48 2
def insnStok (e : Nat) : Nat := insnBits e 42 6
def insnSmode (e : Nat) : Nat := insnBits e 40 2
/-- Form TRI. -/
def triDst (e : Nat) : Nat := insnBits e 32 8
def triA (e : Nat) : Nat := insnBits e 24 8
def triB (e : Nat) : Nat := insnBits e 16 8
def triMod (e : Nat) : Nat := insnBits e 0 16
/-- Form DUO (its DST and SRC stand where TRI has DST and SRCA). -/
def duoImm (e : Nat) : Nat := insnBits e 8 16
def duoMod (e : Nat) : Nat := insnBits e 0 8
/-- Form SYN. -/
def synTgt (e : Nat) : Nat := insnBits e 28 12
def synValue (e : Nat) : Nat := insnBits e 12 16
def synMod (e : Nat) : Nat := insnBits e 0 12
/-- Form LOOP. -/
def loopLevel (e : Nat) : Nat := insnBits e 38 2
def loopCount (e : Nat) : Nat := insnBits e 14 24
def loopBody (e : Nat) : Nat := insnBits e 0 14

/-- The queue of an instruction: bits [63:62] (R56). -/
def insnQueue (e : Nat) : Queue :=
  match insnBits e 62 2 with
  | 0 => .t
  | 1 => .v
  | 2 => .m
  | _ => .s

/-- The queue's code in CLS.FAULT0 and the order of R42: T, V, M, S. -/
def queueCode (q : Queue) : Nat :=
  match q with
  | .t => 0
  | .v => 1
  | .m => 2
  | .s => 3

/-! ## Queues of a classroom -/

def Classroom.queue (r : Classroom) (q : Queue) : List QEntry :=
  match q with
  | .t => r.tq
  | .v => r.vq
  | .m => r.mq
  | .s => r.sq

def Classroom.setQueue (r : Classroom) (q : Queue) (l : List QEntry) : Classroom :=
  match q with
  | .t => { r with tq := l }
  | .v => { r with vq := l }
  | .m => { r with mq := l }
  | .s => { r with sq := l }

def Classroom.flight (r : Classroom) (q : Queue) : List InFlight :=
  match q with
  | .t => r.tf
  | .v => r.vf
  | .m => r.mf
  | .s => r.sf

def Classroom.setFlight (r : Classroom) (q : Queue) (l : List InFlight) : Classroom :=
  match q with
  | .t => { r with tf := l }
  | .v => { r with vf := l }
  | .m => { r with mf := l }
  | .s => { r with sf := l }

/-- The QSTAT field of a queue (R66). -/
def occField (c : Nat) (q : Queue) : Fld :=
  match q with
  | .t => Csr.clsQstat_T_OCC c
  | .v => Csr.clsQstat_V_OCC c
  | .m => Csr.clsQstat_M_OCC c
  | .s => Csr.clsQstat_S_OCC c

/-! ## Descriptors (R49 to R52) -/

/-- The 256 bits of descriptor `d` of classroom `c`. -/
def State.descBits (s : State) (c d : Nat) : Nat :=
  (s.rd (Csr.clsDescW c d 0)).toNat + 2 ^ 64 * (s.rd (Csr.clsDescW c d 1)).toNat
    + 2 ^ 128 * (s.rd (Csr.clsDescW c d 2)).toNat + 2 ^ 192 * (s.rd (Csr.clsDescW c d 3)).toNat

/-- The stride unit of SUNIT. -/
def strideUnit (u : Nat) : Nat :=
  match u with
  | 0 => 64
  | 1 => 4096
  | 2 => 65536
  | _ => 1048576

/-- The descriptor of 256 bits with its effective base. -/
def parseDesc (idx b base : Nat) : RDesc :=
  let u := strideUnit (insnBits b 60 2)
  { idx := idx, base := base, fmt := insnBits b 48 4, scale := insnBits b 52 6, ndim := insnBits b 58 2,
    layer := insnBits b 64 12, write := bitOf b 77, empty := bitOf b 78, bofs := bitOf b 79,
    nopref := bitOf b 80, persist := bitOf b 81,
    e0 := insnBits b 84 24 + 1, e1 := insnBits b 108 24 + 1, e2 := insnBits b 132 24 + 1,
    e3 := insnBits b 156 24 + 1, s1 := insnBits b 180 25 * u, s2 := insnBits b 205 25 * u,
    s3 := insnBits b 230 25 * u }

/-- Loop advance of descriptor `d`: 64 × Σ LI × DELTA over the valid entries at open levels (R48). -/
def State.advance (s : State) (c d depth : Nat) : Int :=
  (List.range (8 * depth)).foldl (fun acc m =>
    if s.flag (Csr.clsAdv_VALID c m) && decide (s.getF (Csr.clsAdv_DESC c m) = d) then
      acc + 64 * Int.ofNat (s.getF (Csr.clsLoop_INDEX c (m / 8))) * signed 32 (s.getF (Csr.clsAdv_DELTA c m))
    else acc) 0

/-- The checks of R52 that use the raw bits: VALID, FMT, BASE, reserved bits, EXT and STRIDE above NDIM. -/
def descBitsOk (b : Nat) : Bool :=
  let n := insnBits b 58 2
  bitOf b 76 && decide (insnBits b 48 4 ≤ 6) && decide (insnBits b 0 6 = 0)
    && decide (insnBits b 62 2 = 0) && decide (insnBits b 82 2 = 0) && !bitOf b 255
    && (bitOf b 78 ||
      ((decide (1 ≤ n) || (decide (insnBits b 108 24 = 0) && decide (insnBits b 180 25 = 0)))
        && (decide (2 ≤ n) || (decide (insnBits b 132 24 = 0) && decide (insnBits b 205 25 = 0)))
        && (decide (3 ≤ n) || (decide (insnBits b 156 24 = 0) && decide (insnBits b 230 25 = 0)))))

/-- The number of elements; 0 for an EMPTY tensor (R51). -/
def RDesc.count (d : RDesc) : Nat := if d.empty then 0 else d.e0 * d.e1 * d.e2 * d.e3

/-- Element size in bytes. -/
def RDesc.esz (d : RDesc) : Nat := esize d.fmt

/-- The address of element `n` in dimension order (R50). -/
def RDesc.addr (d : RDesc) (n : Nat) : Nat :=
  d.base + n % d.e0 * d.esz + n / d.e0 % d.e1 * d.s1 + n / (d.e0 * d.e1) % d.e2 * d.s2
    + n / (d.e0 * d.e1 * d.e2) * d.s3

/-- The first address past the last element. -/
def RDesc.top (d : RDesc) : Nat :=
  d.base + d.e0 * d.esz + (d.e1 - 1) * d.s1 + (d.e2 - 1) * d.s2 + (d.e3 - 1) * d.s3

/-- Bytes of the footprint's elements. -/
def RDesc.bytes (d : RDesc) : Nat := d.count * d.esz

/-- Does the footprint hold address `a`? -/
def RDesc.covers (d : RDesc) (a : Nat) : Bool :=
  !d.empty && (List.range (d.e1 * d.e2 * d.e3)).any (fun r =>
    let b := d.addr (r * d.e0)
    decide (b ≤ a) && decide (a < b + d.e0 * d.esz))

/-- One address in every tile that holds an element of the footprint, in order. -/
def RDesc.tileAddrs (d : RDesc) : List Nat :=
  if d.empty then []
  else ((List.range (d.e1 * d.e2 * d.e3)).flatMap (fun r =>
    let b := d.addr (r * d.e0)
    (List.range ((b + d.e0 * d.esz - 1) / 65536 - b / 65536 + 1)).map (fun i => (b / 65536 + i) * 65536))).eraseDups

/-- The identical footprint of R71: base, format, extents and strides. -/
def sameFootprint (d e : RDesc) : Bool :=
  decide (d.base = e.base) && decide (d.fmt = e.fmt) && decide (d.e0 = e.e0) && decide (d.e1 = e.e1)
    && decide (d.e2 = e.e2) && decide (d.e3 = e.e3) && decide (d.s1 = e.s1) && decide (d.s2 = e.s2)
    && decide (d.s3 = e.s3)

/-- Equal extents in every dimension (R82, R90); not checked against an EMPTY operand (R51). -/
def sameExtents (d e : RDesc) : Bool :=
  d.empty || e.empty || (decide (d.e0 = e.e0) && decide (d.e1 = e.e1) && decide (d.e2 = e.e2) && decide (d.e3 = e.e3))

/-- The checks of R52 that follow resolution: no INT8 source or reserved format is judged here, only
the DVA range; `eff` is the effective base in full precision (R48). -/
def descRangeOk (d : RDesc) (eff : Int) : Bool :=
  decide (0 ≤ eff) && decide (eff < Int.ofNat (2 ^ 48)) && (d.empty || decide (d.top ≤ 2 ^ 48))

/-- The checks of R52 for a destination. -/
def destOk (d : RDesc) (mupd : Bool) : Bool :=
  d.write && (mupd || !d.persist) && (d.empty || decide (d.ndim = 0) || decide (d.e0 * d.esz ≤ d.s1))

/-- The footprint lies in classroom `c`'s OB window (R69). -/
def inOb (c : Nat) (d : RDesc) : Bool :=
  d.empty || (decide (obWindow + c * 0x200000 ≤ d.base) && decide (d.top ≤ obWindow + (c + 1) * 0x200000))

/-- The footprint lies in classroom `c`'s own SRAM slice, as its tiles lie now. -/
def State.inSlice (s : State) (c p : Nat) (d : RDesc) : Bool :=
  d.tileAddrs.all (fun a => match s.place p (max a d.base) with
    | .tile tk _ _ => (s.tile tk).sram && decide ((s.tile tk).slice = c)
    | _ => false)

/-- OB or own slice (R74, R178). -/
def State.near (s : State) (c p : Nat) (d : RDesc) : Bool := inOb c d || s.inSlice c p d

/-! ## Reads as the queue's next instruction sees them (R37) -/

/-- The state, the partition, and the bytes that earlier instructions of the queue will have written. -/
structure View where
  s : State
  part : Nat
  overlaid : List (Nat × Byte)

/-- The last listed byte of an address. -/
def overlay (l : List (Nat × Byte)) (a : Nat) (found : Option Byte) : Option Byte :=
  match l with
  | [] => found
  | (k, b) :: r => overlay r a (if k = a then some b else found)

/-- The view of queue `q` of classroom `c`. -/
def State.view (s : State) (c : Nat) (q : Queue) : View :=
  ⟨s, s.getF (Csr.clsStatus_PART c), ((s.room c).flight q).flatMap (fun f => f.writes)⟩

/-- One byte. -/
def View.byte (v : View) (a : Nat) : Except AccErr Byte :=
  match v.s.readByte v.part a with
  | .error e => .error e
  | .ok b => .ok ((overlay v.overlaid a none).getD b)

/-- `n` bytes. -/
def View.bytes (v : View) (a n : Nat) : Except AccErr (List Byte) :=
  match n with
  | 0 => .ok []
  | k + 1 => do
    let b ← v.byte a
    let r ← v.bytes (a + 1) k
    return b :: r

/-- The stored bits of element `n`. -/
def View.raw (v : View) (d : RDesc) (n : Nat) : Except AccErr Nat := do
  let bs ← v.bytes (d.addr n) d.esz
  return leNat bs

/-- The stored bits of every element, in dimension order. -/
def View.raws (v : View) (d : RDesc) : Except AccErr (List Nat) :=
  (List.range d.count).mapM (fun n => v.raw d n)

/-! ## Scales and block offsets (R53, R70, R148) -/

/-- SEXP of the descriptor's slot; slot 0 holds 0 (R53). -/
def State.sexp (s : State) (c : Nat) (d : RDesc) : Int :=
  if d.scale = 0 then 0 else signed 8 (s.getF (Csr.clsScale_SEXP c d.scale))

/-- Block offsets apply to the descriptor (R70). -/
def State.hasOffsets (s : State) (c : Nat) (d : RDesc) : Bool :=
  d.bofs && decide (d.scale ≠ 0) && s.flag (Csr.clsScale_BOFS_VALID c d.scale)

/-- The base of the slot's block scale area. -/
def State.bofsBase (s : State) (c : Nat) (d : RDesc) : Nat := s.getF (Csr.clsScale_BOFS_BASE c d.scale) * 4096

/-- The block of element `n` in the 2-D view (R148). -/
def RDesc.block (d : RDesc) (n : Nat) : Nat :=
  n / d.e0 / 128 * ceilDiv d.e0 128 + n % d.e0 / 128

/-- The number of blocks of the tensor (R148). -/
def RDesc.blocks (d : RDesc) : Nat := ceilDiv (d.e1 * d.e2 * d.e3) 128 * ceilDiv d.e0 128

/-- Byte and bit of a block's flag in an area with `nb` blocks (R148). -/
def flagPlace (base nb n : Nat) : Nat × Nat := (base + 4096 * ceilDiv nb 8192 + n / 8, n % 8)

/-- The offset of block `n` of an area. -/
def View.offsetAt (v : View) (base n : Nat) : Except AccErr Nat := do
  let b ← v.byte (base + n / 2)
  return (if n % 2 = 0 then b.toNat % 16 else b.toNat / 16)

/-- SEXP + o of element `n` of a descriptor (R70). -/
def View.expo (v : View) (c : Nat) (d : RDesc) (n : Nat) : Except AccErr Int :=
  if v.s.hasOffsets c d then do
    let o ← v.offsetAt (v.s.bofsBase c d) (d.block n)
    return v.s.sexp c d + Int.ofNat o
  else .ok (v.s.sexp c d)

/-- The value of element `n`, scaled exactly: decode(x) × 2^(SEXP + o) (R70). -/
def View.exact (v : View) (c : Nat) (d : RDesc) (n : Nat) : Except AccErr Num := do
  let b ← v.raw d n
  let k ← v.expo c d n
  return scaleNum (decodeCode d.fmt b) k

/-- The value of element `n` in FP32, with the scaling's flags and NONFINITE_IN (R128, R138); a
PAIR-BF16 source is scaled exactly (R125). -/
def View.value (v : View) (c : Nat) (d : RDesc) (n : Nat) : Except AccErr NumF := do
  let x ← v.exact c d n
  let nf := nonfiniteFlag x
  if d.fmt = 6 then return (x, nf)
  else
    let r := rne32 x
    return (r.1, orFlags nf ⟨false, r.2.overflow, r.2.underflow, r.2.inexact, false⟩)

/-- Every value of a tensor in FP32 and the flags of reading it. -/
def View.values (v : View) (c : Nat) (d : RDesc) : Except AccErr (List NumF) :=
  (List.range d.count).mapM (fun n => v.value c d n)

/-- The bytes of one element as stored. -/
def elemBytes (d : RDesc) (n bits : Nat) : List (Nat × Byte) := bytesAt (d.addr n) (leBytes d.esz bits)

/-- Encode one result through a descriptor: x × 2^-(SEXP + o), rounded once into the format (R70, R128). -/
def View.encode (v : View) (c : Nat) (d : RDesc) (n : Nat) (x : Num) : Except AccErr (Nat × NFlags) := do
  let k ← v.expo c d n
  return convertCode d.fmt (scaleNum x (-k))

/-! ## Aliasing (R71) -/

/-- The element of a destination that holds address `a` lies, wholly or in part, in the operand `o`. -/
def overlaps (d o : RDesc) (a : Nat) : Bool :=
  (List.range d.esz).any (fun i => o.covers (a / d.esz * d.esz + i))

/-- Values that R71 leaves unspecified: the elements of a destination `d` that lie in another operand, unless
the instruction is element-wise and the footprints are identical. -/
def spoil (drawn : Nat) (d : RDesc) (ops : List RDesc) (ws : List (Nat × Byte)) : List (Nat × Byte) :=
  ws.mapIdx (fun i w => if ops.any (fun o => overlaps d o w.1) then (w.1, Config.freeByte drawn i) else w)

/-- The operands whose overlap with the destination leaves its bytes unspecified. -/
def clashing (elementwise : Bool) (dst : RDesc) (ops : List RDesc) : List RDesc :=
  ops.filter (fun d => !(elementwise && sameFootprint d dst))

end Sys2Proof.Machine
end

