-- ==== Sys2Proof/Machine/Issue.lean ====
section
/-! DEFINITION. Issue from a queue (R36, R39, R42), fault stops (R63 to R65), token updates (R41, R43),
and what an instruction does as it completes (R37, R40, R138 to R141). -/

namespace Sys2Proof.Machine

/-! ## Faults (R64, R65) -/

/-- The fault causes of R64. -/
inductive Cause
  | illegalInsn | badDesc | tokenRange | loopNest | pcOverrun | access | poison | waitTimeout | imemUe
deriving DecidableEq, Repr

/-- CAUSE code. -/
def causeCode (c : Cause) : Nat :=
  match c with
  | .illegalInsn => 1
  | .badDesc => 2
  | .tokenRange => 3
  | .loopNest => 4
  | .pcOverrun => 5
  | .access => 6
  | .poison => 7
  | .waitTimeout => 8
  | .imemUe => 9

/-- The LAUNCH status that a cause yields (R64). -/
def causeStatus (c : Cause) : Nat :=
  match c with
  | .access => 0x0D
  | .poison => 0x10
  | .waitTimeout => 0x13
  | .imemUe => 0x10
  | _ => 0x0E

/-- What a fault records: cause, descriptor index, address, token. -/
structure FaultInfo where
  cause : Cause
  desc : Nat
  dva : Nat
  token : Nat
deriving DecidableEq, Repr

/-- A fault that involves no descriptor, address or token. -/
def plainFault (c : Cause) : FaultInfo := ⟨c, 0, 0, 0⟩

/-- The fault of a failed access through descriptor `d`. -/
def accFault (d : Nat) (e : AccErr) : FaultInfo :=
  match e with
  | .access a => ⟨.access, d, a, 0⟩
  | .poison a => ⟨.poison, d, a, 0⟩

/-- Record a fault and begin the fault stop (R63, R65); a later fault sets MULTI alone. `q` is the
QUEUE code: 0 T, 1 V, 2 M, 3 S, 4 front end. -/
def State.recordStop (s : State) (c q pc enc : Nat) (f : FaultInfo) : State :=
  if s.getF (Csr.clsFault0_CAUSE c) ≠ 0 then s.setF (Csr.clsFault0_MULTI c) 1
  else
    let s1 := s.setFs [(Csr.clsFault0_CAUSE c, causeCode f.cause), (Csr.clsFault0_QUEUE c, q),
      (Csr.clsFault0_PC c, pc), (Csr.clsFault0_STATUS c, causeStatus f.cause),
      (Csr.clsFault0_DESC c, f.desc), (Csr.clsFault1_ENCODING c, enc),
      (Csr.clsFault2_DVA c, f.dva), (Csr.clsFault2_TOKEN c, f.token)]
    s1.setRoom c { s1.room c with stopping := true }

/-- The same for a fault met by an instruction; an access to a poisoned tile is counted (R210). -/
def State.faultCls (s : State) (c q pc enc : Nat) (f : FaultInfo) : State :=
  (if f.cause = .poison then s.addF Csr.migPoison_HITS 1 else s).recordStop c q pc enc f

/-- A front-end fault with no instruction behind it: FAULT0.PC, FAULT1 and `desc` where none is given are open (free
values; notes/assumptions/40.md). -/
def State.faultStart (s : State) (c : Nat) (f : FaultInfo) : State :=
  let a := s.draw 10
  let b := a.2.draw 10
  let d := b.2.draw 10
  d.2.faultCls c 4 a.1 b.1 { f with desc := d.1 }

/-! ## Tokens (R39 to R43) -/

/-- COUNT of token `t` plus `d`, unless that leaves 0 to 65,535: then COUNT stays and the lesson stops
with TOKEN_RANGE (R43). -/
def State.tokenAdd (s : State) (c t : Nat) (d : Int) (q pc enc : Nat) : State :=
  let n := Int.ofNat (s.getF (Csr.clsTok_COUNT c t)) + d
  if 0 ≤ n ∧ n ≤ 65535 then s.setF (Csr.clsTok_COUNT c t) n.toNat
  else s.faultCls c q pc enc ⟨.tokenRange, 0, 0, t⟩

/-- The wait condition of R39. -/
def State.waitHolds (s : State) (c enc : Nat) : Bool :=
  let n := s.getF (Csr.clsTok_COUNT c (insnWtok enc))
  match insnWmode enc with
  | 0 => true
  | 1 => decide (1 ≤ n)
  | 2 => decide (s.getF (Csr.clsTok_TARGET c (insnWtok enc)) ≤ n)
  | _ => decide (n = 0)

/-- The head of a queue waits with TAKE on token `t`. -/
def headTakes (r : Classroom) (t : Nat) (q : Queue) : Bool :=
  match r.queue q with
  | e :: _ => decide (insnWmode e.enc = 1) && decide (insnWtok e.enc = t)
  | [] => false

/-- The queues before `q` in the order T, V, M, S. -/
def queuesBefore (q : Queue) : List Queue :=
  match q with
  | .t => []
  | .v => [.t]
  | .m => [.t, .v]
  | .s => [.t, .v, .m]

/-- The T engine accepts a product: no product waits for the arrays, and the active bank is loaded (R36, R79, R104). -/
def acceptsProduct (r : Classroom) : Bool :=
  !r.waitArrays && !(match r.active with
    | some k => k.loading
    | none => false)

/-- The engine of queue `q` accepts instruction `enc` now (R36, R68, R93, R104). -/
def State.engineTakes (s : State) (c : Nat) (q : Queue) (enc : Nat) : Bool :=
  let r := s.room c
  match q with
  | .t => if insnOp enc = some .tloadw then !s.flag (Csr.clsArrStat_LOAD_BUSY c) else acceptsProduct r
  | .v => r.vf.isEmpty
  | .m => r.mf.isEmpty && (decide (insnOp enc ≠ some .mupd) || decide (r.sat.length < 4))
  | .s => r.sf.isEmpty

/-- The head of queue `q` waits with TAKE on token `t` for nothing but COUNT: its engine would accept it. -/
def State.contends (s : State) (c t : Nat) (q : Queue) : Bool :=
  match (s.room c).queue q with
  | e :: _ => headTakes (s.room c) t q && s.engineTakes c q e.enc
  | [] => false

/-- COUNT suffices for the TAKE of queue `q` after the earlier queues' waiters on the token (R42). A head whose engine
does not accept it does not issue in this cycle (R36) and takes nothing from the others. -/
def State.takeTurn (s : State) (c : Nat) (q : Queue) (enc : Nat) : Bool :=
  decide (insnWmode enc ≠ 1) ||
  decide (((queuesBefore q).filter (s.contends c (insnWtok enc))).length
    < s.getF (Csr.clsTok_COUNT c (insnWtok enc)))

/-! ## Issue (R36) -/

/-- The classroom runs: RUNNING, no fault stop under way, the device not stopped (R36, R61, R63, R392). -/
def State.running (s : State) (c : Nat) : Bool :=
  decide (s.getF (Csr.clsStatus_STATE c) = 2) && !(s.room c).stopping && !s.fatal

/-- The head of queue `q` of classroom `c`, when it is instruction `op`, the classroom runs, its wait
condition holds and COUNT suffices for its TAKE. The V, M and S engines accept their next instruction
once the last one has completed (R68, R98). -/
def State.ready (s : State) (c : Nat) (q : Queue) (op : Op) : Option QEntry :=
  match (s.room c).queue q with
  | [] => none
  | e :: _ =>
    if s.running c && decide (insnOp e.enc = some op) && s.waitHolds c e.enc && s.takeTurn c q e.enc
      && (decide (q = .t) || ((s.room c).flight q).isEmpty)
    then some e else none

/-- Take the head out of its queue: QSTAT falls, and TAKE lowers COUNT (R39). -/
def State.popHead (s : State) (c : Nat) (q : Queue) (e : QEntry) : State :=
  let r := s.room c
  let s1 := s.setRoom c (r.setQueue q (r.queue q).tail)
  let s2 := s1.setF (occField c q) (s1.room c |>.queue q).length
  if insnWmode e.enc = 1 then s2.tokenAdd c (insnWtok e.enc) (-1) (queueCode q) e.pc e.enc else s2

/-- What an engine forms from its operands at issue: the writes, flags and effects that completion applies. -/
structure Result where
  writes : List (Nat × Byte)
  flags : NFlags
  effects : List Effect
deriving DecidableEq, Repr

/-- No result. -/
def Result.none : Result := ⟨[], noFlags, []⟩

/-! ## Precise samples (R412, R413) -/

/-- The effective base of the first descriptor that an instruction names, or TGT (R413). -/
def sampleAddr (e : QEntry) : Nat × Bool :=
  match e.dst, e.a, e.b with
  | some d, _, _ => (d.base, true)
  | none, some d, _ => (d.base, true)
  | none, none, some d => (d.base, true)
  | none, none, none => (synTgt e.enc, false)

/-- A sample of an instruction, formed at its completion or its stop; a full 16-entry queue of the die
drops it (R413, R414). -/
def State.formSample (s : State) (c : Nat) (q : Queue) (e : QEntry) (wait lat : Nat) (stopped : Bool) : State :=
  match s.clsPart c with
  | none => s
  | some p =>
    let a := sampleAddr e
    let bs := leBytes 8 e.enc ++ leBytes 8 (s.rd Csr.clkTime).toNat ++ leBytes 6 a.1 ++
      leBytes 2 (e.pc + a.2.toNat * 32768) ++ leBytes 4 (min lat 0xFFFFFFFF) ++ leBytes 2 (min wait 0xFFFF) ++
      leBytes 1 (queueCode q + 4 * stopped.toNat + 16 * s.getF (Csr.clsPsampCtrl_SEL c)) ++ leBytes 1 c
    if 16 ≤ (s.samples.filter (fun x => decide (x.cls / 32 = c / 32))).length then
      (s.addF (Csr.pmuPartSbufStat_LOST p) 1).addF (Csr.clsPsampStat_DROPPED c) 1
    else { s with samples := s.samples ++ [⟨p, c, bs⟩] }

/-- Sampling looks at queue `q` of classroom `c` with selection `sel` (R412). -/
def State.sampling (s : State) (c : Nat) (q : Queue) (sel : Nat) : Bool :=
  s.flag (Csr.clsPsampCtrl_EN c) && decide (s.getF Csr.pmuStatus_MODE = 0) && !s.flag Csr.pmuCtrl_FREEZE
    && decide (s.getF (Csr.clsPsampCtrl_SEL c) = sel) && bitOf (s.getF (Csr.clsPsampCtrl_QMASK c)) (queueCode q)

/-- Count one qualifying instruction: every 2^PERIOD_LOG2-th is chosen. -/
def State.countSample (s : State) (c : Nat) : Bool × State :=
  let r := s.room c
  let n := (r.sampleCount + 1) % 2 ^ s.getF (Csr.clsPsampCtrl_PERIOD_LOG2 c)
  (decide (n = 0), s.setRoom c { r with sampleCount := n })

/-- At issue: is the instruction chosen, and how long did it wait. The model keeps no cycle count, so the
wait is free. -/
def State.sampleIssue (s : State) (c : Nat) (q : Queue) : (Bool × Nat) × State :=
  let d := s.draw 0
  let ok := s.sampling c q 0 ||
    (s.sampling c q 2 && decide (s.getF (Csr.clsPsampCtrl_LAT_MIN c) ≤ d.1))
  if ok then
    let r := d.2.countSample c
    ((r.1, d.1), r.2)
  else ((false, d.1), d.2)

/-- At completion or stop: form the sample of a chosen instruction; under LATENCY it is counted now. The
latency is free. -/
def State.sampleEnd (s : State) (c : Nat) (q : Queue) (e : QEntry) (chosen : Bool) (wait : Nat) (stopped : Bool) : State :=
  let d := s.draw 0
  let r := if s.sampling c q 1 && decide (s.getF (Csr.clsPsampCtrl_LAT_MIN c) ≤ d.1) && !stopped then d.2.countSample c
    else (chosen, d.2)
  if r.1 then r.2.formSample c q e wait d.1 stopped else r.2

/-- Put an issued instruction into flight. -/
def State.launchInsn (s : State) (c : Nat) (q : Queue) (e : QEntry) (x : Result) : State :=
  let t := s.sampleIssue c q
  let r := t.2.room c
  t.2.setRoom c (r.setFlight q (r.flight q ++
    [⟨e, x.writes, x.flags, x.effects, false, false, (0, 0, 0, 0), t.1.1, t.1.2, false⟩]))

/-- An instruction that issued and faulted at once: its sample, and the fault stop. -/
def State.issueFault (s : State) (c : Nat) (q : Queue) (e : QEntry) (f : FaultInfo) : State :=
  let t := s.sampleIssue c q
  (t.2.sampleEnd c q e t.1.1 t.1.2 true).faultCls c (queueCode q) e.pc e.enc f

/-- The tiles of an instruction's sources count as accessed (R198). -/
def State.touchSources (s : State) (c : Nat) (e : QEntry) : State :=
  let p := s.getF (Csr.clsStatus_PART c)
  let go (t : State) (o : Option RDesc) : State :=
    match o with
    | some d => t.touch p d.tileAddrs
    | none => t
  go (go s e.a) e.b

/-- Issue the head of queue `q` if it is `op` and ready, with the engine's result or its fault. -/
def State.issue (s : State) (c : Nat) (q : Queue) (op : Op) (run : QEntry → Except FaultInfo Result) : State :=
  match s.ready c q op with
  | none => s
  | some e =>
    let s1 := s.popHead c q e
    match run e with
    | .error f => s1.issueFault c q e f
    | .ok r =>
      let s2 := if op = .vquiz && r.effects.isEmpty then s1 else s1.touchSources c e
      s2.launchInsn c q e r

/-- A failed read through descriptor `d` as the instruction's fault. -/
def viaDesc {α : Type} (d : RDesc) (x : Except AccErr α) : Except FaultInfo α :=
  match x with
  | .ok a => .ok a
  | .error e => .error (accFault d.idx e)

/-- Check that all bytes of the writes through `d` may be written. -/
def State.checkWrites (s : State) (p : Nat) (d : RDesc) (ws : List (Nat × Byte)) : Except FaultInfo Unit :=
  viaDesc d (s.writableAll p ws)

/-! ## Completion (R37, R40, R138) -/

/-- One count of an SFENCE lowered when entry `n` of the list it counts completes. -/
def fenceLess (k n : Nat) : Nat := if n < k then k - 1 else k

/-- Every waiting SFENCE of the classroom sees entry `n` of queue `q` complete (R94). -/
def Classroom.fenceSees (r : Classroom) (q : Queue) (n : Nat) : Classroom :=
  { r with sf := r.sf.map (fun f => match q with
    | .t => { f with fence := (fenceLess f.fence.1 n, f.fence.2) }
    | .v => { f with fence := (f.fence.1, fenceLess f.fence.2.1 n, f.fence.2.2) }
    | .m => { f with fence := (f.fence.1, f.fence.2.1, fenceLess f.fence.2.2.1 n, f.fence.2.2.2) }
    | .s => f) }

/-- The same for the Satchel's head. -/
def Classroom.fenceSeesSat (r : Classroom) : Classroom :=
  { r with sf := r.sf.map (fun f =>
    { f with fence := (f.fence.1, f.fence.2.1, f.fence.2.2.1, fenceLess f.fence.2.2.2 0) }) }

/-- The signal of SMODE at completion: DONE_INC, READ_INC unless it was applied, DONE_CLR (R40). -/
def State.signal (s : State) (c : Nat) (q : Queue) (f : InFlight) : State :=
  match insnSmode f.entry.enc with
  | 1 => s.tokenAdd c (insnStok f.entry.enc) 1 (queueCode q) f.entry.pc f.entry.enc
  | 2 => if f.readDone then s
         else s.tokenAdd c (insnStok f.entry.enc) 1 (queueCode q) f.entry.pc f.entry.enc
  | 3 => s.setF (Csr.clsTok_COUNT c (insnStok f.entry.enc)) 0
  | _ => s

/-- CLS.FLAGS gains an engine's flags (engine 0 T, 1 V, 2 M, 3 Satchel) (R138, R144), and CLS.FLAG_PC
captures the first instruction that sets INVALID, OVERFLOW or NONFINITE_IN (R141). -/
def State.raiseFlags (s : State) (c eng pc : Nat) (f : NFlags) : State :=
  let fl : Fld := ⟨Csr.clsFlags c, 8 * eng, 5⟩
  let s1 := s.setF fl (s.getF fl ||| flagBits f)
  if captureBits f = 0 || s.flag (Csr.clsFlagPc_VALID c) then s1
  else s1.setFs [(Csr.clsFlagPc_PC c, pc), (Csr.clsFlagPc_ENGINE c, eng),
    (Csr.clsFlagPc_FLAGS c, captureBits f), (Csr.clsFlagPc_VALID c, 1)]

/-- One FP32 value in a partition's memory; +0.0 where it cannot be read. -/
def State.readF32 (s : State) (p dva : Nat) : Nat :=
  match s.readBytes p dva 4 with
  | .ok bs => leNat bs
  | .error _ => 0

/-- Write bytes where the partition may write them; elsewhere nothing is written. -/
def State.writeIfOk (s : State) (p dva : Nat) (bs : List Byte) : State :=
  match s.writableAll p (bytesAt dva bs) with
  | .ok _ => s.demandWrite p (bytesAt dva bs)
  | .error e => s.countHit e

/-- A completion record written into its ring; discarded where an entry could not be read (R205, R253). -/
def State.writeRing (s : State) (p dva : Nat) (bs : List Byte) : State :=
  if dva + bs.length ≤ obWindow then s.writeIfOk p dva bs else s

/-- An atomic FP32 addition into memory with RNE, and the flags it sets (R86, R182). -/
def State.addF32 (s : State) (p dva bits : Nat) : State × NFlags :=
  let r := add32 (decodeFloat fp32 (s.readF32 p dva)) (decodeFloat fp32 bits)
  (s.writeIfOk p dva (leBytes 4 (encodeFloat fp32 r.1)), ⟨false, r.2.overflow, false, false, false⟩)

/-- An atomic maximum of FP32 values in memory (R181). -/
def State.maxF32 (s : State) (p dva bits : Nat) : State :=
  let r := maxNum (decodeFloat fp32 (s.readF32 p dva)) (decodeFloat fp32 bits)
  s.writeIfOk p dva (leBytes 4 (encodeFloat fp32 r))

/-- The low bit set at a trigger counter's full value plus `v`, wrapping at 32 bits (R337). -/
def State.trigger (s : State) (ctr v : Nat) : State :=
  s.setF (Csr.pftCtr_VALUE ctr) (s.getF (Csr.pftCtr_VALUE ctr) + v)

/-- A sampled tile of VQUIZ: histogram, counts, and an alert's capture (R160, R161). -/
def State.quizTile (s : State) (c pc layer tile bin : Nat) : State :=
  let s1 := (s.addF (Csr.clsQuizHist_COUNT c bin) 1).addF (Csr.clsQuizStat_SAMPLED c) 1
  if bin < s.getF (Csr.clsQuizCtrl_ALERT_BIN c) then s1
  else
    let s2 := s1.addF (Csr.clsQuizStat_ALERTS c) 1
    if s.flag (Csr.clsQuizLast_VALID c) then s2
    else s2.setFs [(Csr.clsQuizLast_LAYER c, layer), (Csr.clsQuizLast_BIN c, bin),
      (Csr.clsQuizLast_TILE c, tile), (Csr.clsQuizLast_PC c, pc), (Csr.clsQuizLast_VALID c, 1)]

/-- Set a bit of a block flag bitmap (R150); whether it was set. -/
def State.setFlagBit (s : State) (p a b : Nat) : State × Bool :=
  let old := match s.readByte p a with
    | .ok x => x.toNat
    | .error _ => 0
  (s.writeIfOk p a [BitVec.ofNat 8 (setBit old b)], bitOf old b)

/-- Is `x` the flag bit `b` at `a` of partition `p`? -/
def SatFlag.names (x : SatFlag) (p a b : Nat) : Bool := decide (x.part = p) && decide (x.dva = a) && decide (x.bit = b)

/-- A writer sets a flag that Satchels may have set too: `own` tells the entries of its own step, left as they are. -/
def State.markOther (s : State) (p a b : Nat) (own : SatFlag → Bool) : State :=
  { s with satFlags := s.satFlags.map (fun x => if x.names p a b && !own x then { x with other := true } else x) }

/-- A Satchel sets a flag in the step of the step record at `rec`; `before` says that it was set. -/
def State.noteSatFlag (s : State) (p rec a b : Nat) (before : Bool) : State :=
  let own (x : SatFlag) : Bool := decide (x.stepRec = rec)
  let t := s.markOther p a b own
  if t.satFlags.any (fun x => x.names p a b && own x) then t
  else { t with satFlags := t.satFlags ++ [⟨p, rec, a, b, before⟩] }

/-- Apply one effect of a completing instruction; the flags it sets. -/
def State.applyEffect (s : State) (c p pc : Nat) (e : Effect) : State × NFlags :=
  match e with
  | .orBit a b => ((s.setFlagBit p a b).1.markOther p a b (fun _ => false), noFlags)
  | .satBit rec a b =>
    let y := s.setFlagBit p a b
    (y.1.noteSatFlag p rec a b y.2, noFlags)
  | .addF32 a bits => s.addF32 p a bits
  | .setSexp slot v => (s.setF (Csr.clsScale_SEXP c slot) v, noFlags)
  | .quiz layer tile bin => (s.quizTile c pc layer tile bin, noFlags)
  | .zeroTags ls =>
    let r := s.room c
    (s.setRoom c { r with zeroTags := ls ++ r.zeroTags.filter (fun l => !(decide (l ∈ ls))) }, noFlags)
  | .trig ctr v => (s.trigger ctr v, noFlags)

/-- Apply effects in order. -/
def State.applyEffects (s : State) (c p pc : Nat) (es : List Effect) (f : NFlags) : State × NFlags :=
  match es with
  | [] => (s, f)
  | e :: r =>
    let x := s.applyEffect c p pc e
    x.1.applyEffects c p pc r (orFlags f x.2)

/-! ## Shapes of products (R73) -/

/-- Orientation of a product (R73, R75): 0 as TMUL, 1 as TMULT, 2 as TMULTA. -/
def orientOf (op : Op) (e : Nat) : Nat :=
  match op with
  | .tmult => 1
  | .tmulta => 2
  | .tpair => insnBits e 8 2
  | _ => 0

/-- M of a product, by its orientation and A as stored (R73). -/
def prodM (orient : Nat) (a : RDesc) : Nat := if orient = 2 then a.e0 else a.e1
/-- K as A gives it. -/
def prodK (orient : Nat) (a : RDesc) : Nat := if orient = 2 then a.e1 else a.e0
/-- N as B gives it. -/
def prodN (orient : Nat) (b : RDesc) : Nat := if orient = 1 then b.e1 else b.e0
/-- The K of the stationary operand as stored. -/
def prodKb (orient : Nat) (b : RDesc) : Nat := if orient = 1 then b.e0 else b.e1

end Sys2Proof.Machine
end

