-- ==== Sys2Proof/Machine/Params.lean ====
section
/-! DEFINITION. The parameter record of a MUPD, the step record's accesses at the close, and the bytes that a MUPD in the
Satchel's queue has still to write (R37, R169 to R178, R188). -/

namespace Sys2Proof.Machine

/-! ## Records in memory (R169, R174, R177) -/

/-- `n` bytes of memory as a number; 0 where they cannot be read. -/
def State.memNat (s : State) (p dva n : Nat) : Nat :=
  match s.readBytes p dva n with
  | .ok bs => leNat bs
  | .error _ => 0

/-- Write `n` bytes where the partition may. -/
def State.memPut (s : State) (p dva n v : Nat) : State := s.writeIfOk p dva (leBytes n v)

/-- The FP32 value of a number of 32 bits. -/
def f32 (b : Nat) : Num := decodeFloat fp32 b

/-- The parameter record as read (R177). -/
structure Params where
  algo : Nat
  flags : Nat
  m1 : Nat
  m2 : Nat
  w8f : Nat
  w8b : Nat
  w16 : Nat
  amax : Nat
  stepRec : Nat
  /-- LR, BETA1, BETA2, EPS, WD, BC1, BC2 -/
  coef : List Nat
  n1 : Nat
  n2 : Nat
  frzBase : Nat
  step : Nat
  reserved : Bool
deriving DecidableEq, Repr

/-- Read a parameter record from its 64 bytes; `reserved` says that a reserved bit is set. -/
def parseParams (b : List Byte) : Params :=
  { algo := fieldAt b 0 1, flags := fieldAt b 1 1, m1 := fieldAt b 2 1, m2 := fieldAt b 3 1, w8f := fieldAt b 4 1,
    w8b := fieldAt b 5 1, w16 := fieldAt b 6 1, amax := fieldAt b 7 1 + 256 * (fieldAt b 0x2E 1 % 4),
    stepRec := fieldAt b 8 6, coef := (List.range 7).map (fun i => fieldAt b (0x10 + 4 * i) 4),
    n1 := fieldAt b 0x2C 1, n2 := fieldAt b 0x2D 1, frzBase := fieldAt b 0x30 6, step := fieldAt b 0x38 8,
    reserved := decide (128 ≤ fieldAt b 1 1) || decide (4 ≤ fieldAt b 0x2E 1) || decide (fieldAt b 0x2F 1 ≠ 0)
      || decide (fieldAt b 0x0E 2 ≠ 0) || decide (fieldAt b 0x36 2 ≠ 0) }

/-- Uses the first and the second moment (R177). -/
def Params.usesM1 (_ : Params) : Bool := true
def Params.usesM2 (q : Params) : Bool := decide (q.algo = 1) || decide (q.algo = 3) || decide (q.algo = 15)
def Params.w8fEn (q : Params) : Bool := bitOf q.flags 1
def Params.w8bEn (q : Params) : Bool := bitOf q.flags 2
def Params.w16En (q : Params) : Bool := bitOf q.flags 3
def Params.frzAll (q : Params) : Bool := bitOf q.flags 4
def Params.frzMap (q : Params) : Bool := bitOf q.flags 5
def Params.amaxEn (q : Params) : Bool := bitOf q.flags 6

/-- A descriptor of the table with its BASE as it stands, no loop advance (R177). -/
def State.tableDesc (s : State) (c i : Nat) : RDesc := parseDesc i (s.descBits c i) (insnBits (s.descBits c i) 0 48)

/-- The destinations that the update writes besides the master: table index and format. -/
def Params.dests (q : Params) : List (Nat × Nat) :=
  (if q.usesM1 then [(q.m1, 0)] else []) ++ (if q.usesM2 then [(q.m2, 0)] else [])
    ++ (if q.w8fEn then [(q.w8f, 3)] else []) ++ (if q.w8bEn then [(q.w8b, 4)] else [])
    ++ (if q.w16En then [(q.w16, 1)] else [])

/-! ## The close (R188) -/

/-- The classrooms of a step record's CLS_MASK, ascending. -/
def maskClassrooms (m : Nat) : List Nat := setBits m 64

/-- The step is closed as skipped (R157). -/
def State.stepSkipped (s : State) (p rec : Nat) : Bool :=
  bitOf (s.memNat p (rec + 0x0C) 1) 0 && bitOf (s.memNat p (rec + 0x0D) 1) 0

/-- What the close reads and writes, in the order of R188: each table entry before what it names. -/
def State.closeAccesses (s : State) (p rec : Nat) : List (Nat × Nat × Bool) :=
  let rows := s.memNat p (rec + 0x38) 2
  let skipped := s.stepSkipped p rec
  let amaxTab := s.memNat p (rec + 0x40) 6
  let areaTab := s.memNat p (rec + 0x48) 6
  let step := s.memNat p rec 8
  let bump := bitOf (s.memNat p (rec + 0x0D) 1) 1
  (List.range (s.memNat p (rec + 0x3A) 2)).flatMap (fun i =>
    let a := amaxTab + 16 * i
    let d := s.memNat p (a + 14) 1 % 64 + 1
    [(a, 16, false), (s.memNat p a 6, 4, true)]
      ++ (if skipped then [] else [(s.memNat p (a + 8) 6 + 4 * (step % d), 4, true)]))
  ++ (if skipped then [] else [(s.memNat p (rec + 0x28) 6, 4 * (rows + 1), false), (s.memNat p (rec + 0x30) 6, 32 + 16 * rows, true)])
  ++ (maskClassrooms (s.memNat p (rec + 0x20) 8)).map (fun k => (s.getF (Csr.clsRcBase_DVA k), 16 * rows, true))
  ++ (List.range (s.memNat p (rec + 0x3C) 2)).flatMap (fun i =>
    let a := areaTab + 16 * i
    let base := s.memNat p a 6
    let nb := s.memNat p (a + 8) 4
    [(a, 16, false), (base + 4096 * ceilDiv nb 8192, 64 * ceilDiv nb 512, bump)]
      ++ (if bump then [(base, ceilDiv nb 2, true)] else []))

/-! ## What a MUPD has still to write (R37) -/

/-- The rows of a footprint, as first address and length. -/
def RDesc.spans (d : RDesc) : List (Nat × Nat) :=
  if d.empty then [] else (List.range (d.e1 * d.e2 * d.e3)).map (fun r => (d.addr (r * d.e0), d.e0 * d.esz))

/-- Two lists of spans share a byte. -/
def spansMeet (l m : List (Nat × Nat)) : Bool :=
  l.any (fun x => m.any (fun y => decide (x.1 < y.1 + y.2) && decide (y.1 < x.1 + x.2)))

/-- The parameter record of a MUPD, as read, or as it stands before it has been. -/
def State.recordOf (s : State) (p : Nat) (x : SatEntry) : Params :=
  parseParams (if x.record.isEmpty then
    (match x.entry.b with
      | some r => (match s.readBytes p r.base 64 with
        | .ok bs => bs
        | .error _ => [])
      | none => [])
    else x.record)

/-- The flags of a working copy's block scale area. -/
def State.flagSpan (s : State) (c : Nat) (d : RDesc) : List (Nat × Nat) :=
  if decide (3 ≤ d.fmt) && s.hasOffsets c d then [(s.bofsBase c d + 4096 * ceilDiv d.blocks 8192, ceilDiv d.blocks 8)] else []

/-- What the `i`-th MUPD of the Satchel's queue writes: master, moments and copies with their flags, its report card row, its amax
scratch, the step record, and what the close writes where it may be the step's last. -/
def State.satSpans (s : State) (c i : Nat) (x : SatEntry) : List (Nat × Nat) :=
  let p := s.getF (Csr.clsStatus_PART c)
  let q := s.recordOf p x
  let ds := q.dests.map (fun d => s.tableDesc c d.1)
  let last := decide (s.memNat p (q.stepRec + 0x14) 4 ≤ s.memNat p (q.stepRec + 0x18) 4 + i + 1)
  (match x.entry.dst with
    | some m => m.spans ++ [(s.getF (Csr.clsRcBase_DVA c) + 16 * m.layer + 8, 4)]
    | none => [])
  ++ ds.flatMap RDesc.spans ++ ds.flatMap (s.flagSpan c)
  ++ (if q.amaxEn then [(s.memNat p (s.memNat p (q.stepRec + 0x40) 6 + 16 * q.amax) 6, 4)] else [])
  ++ [(q.stepRec, 128)]
  ++ (if last then (s.closeAccesses p q.stepRec).filterMap (fun y => if y.2.2 then some (y.1, y.2.1) else none) else [])

/-- An instruction of the M queue touches bytes that a MUPD before it has not yet written (R37). -/
def State.satClash (s : State) (c : Nat) (e : QEntry) : Bool :=
  let own := [e.dst, e.a, e.b].flatMap (fun o => match o with
    | some d => d.spans
    | none => [])
  ((s.room c).sat.mapIdx (fun i x => s.satSpans c i x)).any (fun l => spansMeet own l)

end Sys2Proof.Machine
end

