-- ==== Sys2Proof/Machine/Sorter.lean ====
section
/-! DEFINITION. The request sorters of the memory channels (R217 to R227): tags, per-bank limits, parking, the order
of service, the write buffer, urgency and hotspot records; and the stream prefetchers (R230 to R233). The data that the
requests carry moves with the commands that make the accesses. -/

namespace Sys2Proof.Machine

/-- The sorter of channel `ch`. -/
def State.sorter (s : State) (ch : Nat) : Sorter := s.sorters.get (fun _ => Sorter.empty) ch

/-! ## Tags (R217 to R219) -/

/-- The die of a requester. -/
def reqDie (r : Requester) : Nat :=
  match r with
  | .mDemand c => c.val / 32
  | .mPrefetch c => c.val / 32
  | .satchel c => c.val / 32
  | .ni k => k.val / 16
  | .mig d => d.val
  | .proctor d => d.val
  | .walk d => d.val

/-- The request goes under an MSR and not under a DMA tag. -/
def reqMsr (r : Requester) : Bool :=
  match r with
  | .proctor _ => true
  | .walk _ => true
  | _ => false

/-- The tags that a requester may hold at most (R218, R219). -/
def reqCap (r : Requester) : Nat :=
  match r with
  | .mDemand _ => 64
  | .mPrefetch _ => 32
  | .satchel _ => 32
  | .ni _ => 128
  | .mig _ => 256 + 1472
  | .proctor _ => 896
  | .walk _ => 128

/-- The tags always available to it. An M engine's demand and prefetch share one floor. -/
def reqFloor (r : Requester) : Nat :=
  match r with
  | .mig _ => 256
  | .proctor _ => 896
  | .walk _ => 128
  | _ => 4

/-- The requester to whose floor a tag counts. -/
def reqPool (r : Requester) : Requester :=
  match r with
  | .mPrefetch c => .mDemand c
  | x => x

/-- Everyone who holds a tag at some sorter or slice: one entry per tag. -/
def State.tagHolders (s : State) : List Requester :=
  s.sorters.flatMap (fun e => e.2.waiting.flatMap (fun r => r.who :: r.merged)) ++ s.sliceReqs.map (fun r => r.2.who)

/-- Tags above the floors, of the requesters that hold any, on a die. -/
def State.sharedUsed (s : State) (die : Nat) : Nat :=
  let l := (s.tagHolders.filter (fun r => decide ((reqDie r) = die) && !(reqMsr r))).map (fun r => (reqPool r))
  (l.eraseDups.map (fun r => (l.filter (fun x => decide (x = r))).length - (reqFloor r))).foldl (fun a b => a + b) 0

/-- A tag is free for the requester. -/
def State.tagFree (s : State) (r : Requester) : Bool :=
  let held := (s.tagHolders.filter (fun x => decide (x = r))).length
  let pool := (s.tagHolders.filter (fun x => decide ((reqPool x) = (reqPool r)))).length
  decide (held < (reqCap r)) && ((reqMsr r) || decide (pool < (reqFloor r)) || decide (s.sharedUsed (reqDie r) < 1472))

/-! ## Banks and limits (R222, R225) -/

/-- The bank of a request. -/
def SortReq.bank (r : SortReq) : Nat := r.block / 8 % 16

/-- The row of a request within its bank. -/
def SortReq.row (r : SortReq) : Nat := r.frame * 32 + r.block / 8

/-- Requesters that wait on a bank, under MSRs or under tags; merged ones count. -/
def Sorter.onBank (q : Sorter) (b : Nat) (msr : Bool) : Nat :=
  ((q.waiting.filter (fun r => decide (r.bank = b))).flatMap (fun r => (r.who :: r.merged).filter (fun x => decide (reqMsr x = msr)))).length

/-- The per-bank limit of a kind of request. -/
def State.bankLimit (s : State) (ch : Nat) (msr : Bool) : Nat :=
  if msr then s.getF (Csr.memSortCtrl_BANK_MSR ch) else s.getF (Csr.memSortCtrl_BANK_TAGS ch)

/-- The request would not exceed its bank's limit. -/
def State.bankRoom (s : State) (ch : Nat) (r : SortReq) : Bool :=
  decide ((s.sorter ch).onBank r.bank (reqMsr r.who) < s.bankLimit ch (reqMsr r.who))

/-- The classroom's MTAGS register after a change. -/
def State.showTags (s : State) (r : Requester) : State :=
  let n (x : Requester) : Nat := (s.tagHolders.filter (fun y => decide (y = x))).length
  match r with
  | .mDemand c => s.setFs [(Csr.clsMtags_DEMAND c, n r), (Csr.clsMtags_PARKED c,
      (s.sorters.flatMap (fun e => e.2.parked.filter (fun y => decide (y.who = r)))).length)]
  | .mPrefetch c => s.setF (Csr.clsMtags_PREFETCH c) (n r)
  | _ => s

/-- The state with a sorter replaced, its registers and MTAGS of the requesters named. -/
def State.setSorter (s : State) (ch : Nat) (q : Sorter) (who : List Requester) : State :=
  let s1 := { s with sorters := s.sorters.put (fun _ => Sorter.empty) ch q }
  let s2 := s1.setFs [(Csr.memSortStat_TAGS_WAIT ch, (q.waiting.filter (fun r => !(reqMsr r.who))).length),
    (Csr.memSortStat_MSR_WAIT ch, (q.waiting.filter (fun r => (reqMsr r.who))).length), (Csr.memSortStat_WBUF ch, q.wbuf.length)]
  who.foldl (fun t r => t.showTags r) s2

/-! ## Admission (R220, R224, R225) -/

/-- A read of 64-byte lines that `a`, a waiting read, fetches. -/
def sameRead (a b : SortReq) : Bool :=
  !a.write && !b.write && decide (a.frame = b.frame) && decide (a.block = b.block) && decide (a.first / 64 ≤ b.first / 64)
    && decide ((b.first + b.len - 1) / 64 ≤ (a.first + a.len - 1) / 64)

/-- A read whose bytes lie in one entry of the write buffer. -/
def Sorter.buffered (q : Sorter) (r : SortReq) : Bool :=
  !r.write && q.wbuf.any (fun w => decide (w.frame = r.frame) && decide (w.block = r.block) && decide (w.first ≤ r.first)
    && decide (r.first + r.len ≤ w.first + w.len))

/-- A request joins the sorter: a write enters the write buffer while that has room; a read takes its data from the write
buffer where it finds it there; a read of lines that a waiting read fetches is merged into that. -/
def Sorter.accept (q : Sorter) (r : SortReq) : Sorter :=
  if r.write && decide (q.wbuf.length < 64) then { q with wbuf := q.wbuf ++ [r] }
  else if q.buffered r then q
  else if q.waiting.any (fun x => sameRead x r) then
    { q with waiting := q.waiting.map (fun x => if sameRead x r then { x with merged := x.merged ++ [r.who] } else x) }
  else { q with waiting := q.waiting ++ [r] }

/-- Requests that a requester has parked, over all channels; an M engine's demand and prefetch together. -/
def State.parkedBy (s : State) (r : Requester) : Nat :=
  (s.sorters.flatMap (fun e => e.2.parked.filter (fun y => decide (reqPool y.who = reqPool r)))).length

/-- No request of the same kind is parked for the bank: a new one goes behind those. -/
def Sorter.noneParked (q : Sorter) (r : SortReq) : Bool :=
  q.parked.all (fun y => decide (y.bank ≠ r.bank) || decide (reqMsr y.who ≠ reqMsr r.who))

/-- A request for a channel: admitted, or refused and parked; none where the requester stalls, without a tag or with 8 requests
parked. -/
def State.admitChannel (s : State) (ch : Nat) (r : SortReq) : Option State :=
  let q := s.sorter ch
  if s.getF (Csr.memStatus_STATE ch) ≠ 1 ∨ !s.tagFree r.who ∨ 8 ≤ s.parkedBy r.who then none
  else if q.buffered r || (s.bankRoom ch r && q.noneParked r) then some (s.setSorter ch (q.accept r) [r.who])
  else some ((s.addF (Csr.memHot_COUNT ch) 1).setSorter ch { q with parked := q.parked ++ [r] } [r.who])

/-- A request under a tag for a slice; none without a tag, or where the slice's die has failed. -/
def State.admitSlice (s : State) (sl : Nat) (r : SortReq) : Option State :=
  if !s.tagFree r.who ∨ sl / 8 ∈ s.deadDies then none
  else some (({ s with sliceReqs := s.sliceReqs ++ [(sl, r)] } : State).showTags r.who)

/-- The request goes where it is sent. -/
def State.admitTo (s : State) (dest : Target) (r : SortReq) : Option State :=
  match dest with
  | .channel ch => s.admitChannel ch r
  | .slice sl => s.admitSlice sl r

/-- Requests of classroom `c`'s M engine or Satchel that have not been answered or accepted (R37, R60, R224). -/
def asks (c : Nat) (sat : Bool) (r : Requester) : Bool :=
  match r with
  | .mDemand k => !sat && decide (k.val = c)
  | .satchel k => sat && decide (k.val = c)
  | _ => false

/-- A write of the M engine, or of the Satchel, is not accepted yet (R224). -/
def State.unaccepted (s : State) (c : Nat) (sat : Bool) : Bool :=
  s.sorters.any (fun e => (e.2.waiting ++ e.2.parked).any (fun r => r.write && asks c sat r.who))

/-- A memory operation of the classroom has not completed (R60). -/
def State.asking (s : State) (c : Nat) : Bool :=
  s.sorters.any (fun e => (e.2.waiting ++ e.2.parked).any (fun r => (r.who :: r.merged).any (fun x => asks c false x || asks c true x)))
    || s.sliceReqs.any (fun r => asks c false r.2.who || asks c true r.2.who)

/-! ## The stream prefetcher (R230, R231, R233) -/

/-- The source lies wholly in classroom `c`'s own slice or OB, as its tiles lie now (R230). -/
def State.ownSource (s : State) (c : Nat) (d : RDesc) : Bool :=
  d.tileAddrs.all (fun a => match s.place (s.getF (Csr.clsStatus_PART c)) (max a d.base) with
    | .ob k _ => decide (k = c)
    | .tile tk _ _ => (s.tile tk).sram && decide ((s.tile tk).slice = c)
    | .nowhere => false)

/-- The key of the object that holds an address of a partition. -/
def State.objAt (s : State) (p dva : Nat) : Option Nat :=
  match s.place p dva with
  | .tile tk _ _ => some (tk / 16777216)
  | _ => none

/-- An MLOAD or MCONV issues: the prefetcher runs ahead on its source, where it may (R230). -/
def State.startPrefetch (s : State) (c : Nat) (src : Option RDesc) : State :=
  match src with
  | none => s
  | some d =>
    if !s.flag (Csr.clsPfCtrl_EN c) || d.nopref || s.ownSource c d then s
    else s.setRoom c { s.room c with prefetch := some ⟨d, s.objAt (s.getF (Csr.clsStatus_PART c)) d.base, []⟩ }

/-- The instruction completes or stops: the entries are discarded, and those never read are counted (R230, R233). -/
def State.endPrefetch (s : State) (c : Nat) : State :=
  match (s.room c).prefetch with
  | none => s
  | some x => (s.setRoom c { s.room c with prefetch := none }).addF (Csr.clsPfMiss_UNUSED c) (x.entries.filter (fun e => !e.read)).length

/-- The tile that lies in a frame of a channel or a slice. -/
def State.tileIn (s : State) (dest : Target) (frame : Nat) : Option Nat :=
  (s.tiles.find? (fun e => e.2.valid && (match dest with
    | .channel ch => !e.2.sram && decide (e.2.homeCh = ch.val) && decide (e.2.homeFrame = frame)
    | .slice sl => e.2.sram && decide (e.2.slice = sl.val) && decide (e.2.sframe = frame)))).map (fun e => e.1)

/-- The DVA of a request's first byte, where it goes to a tile of an object. -/
def State.reqDva (s : State) (dest : Target) (r : SortReq) : Option Nat :=
  (s.tileIn dest r.frame).bind (fun tk => (s.obj (tk / 16777216)).map (fun o => o.base + tk % 16777216 * 65536 + r.block * 256 + r.first))

/-- The prefetcher would read an address it may not: no tile of the partition, a poisoned tile, an object being destroyed (R231). -/
def State.pfRefused (s : State) (dest : Target) (r : SortReq) : Bool :=
  match s.tileIn dest r.frame with
  | none => true
  | some tk => (s.tile tk).poison || decide (tk / 16777216 / 1048576 ≠ r.part) || (match s.obj (tk / 16777216) with
      | some o => o.dying
      | none => true)

/-- The request reads inside the footprint of the source, and inside the object that holds the demand position (R230, R231). -/
def State.pfInside (s : State) (x : Prefetch) (dest : Target) (r : SortReq) : Bool :=
  decide ((s.tileIn dest r.frame).map (fun tk => tk / 16777216) = x.object) && (match s.reqDva dest r with
    | some a => spansMeet [(a, r.len)] x.src.spans
    | none => false)

/-- The buffer entry of a request. -/
def PfEntry.serves (e : PfEntry) (dest : Target) (r : SortReq) : Bool :=
  decide (e.target = dest) && decide (e.frame = r.frame) && decide (e.piece = r.block / 8)

/-- Room for one more entry of the buffer of 32: entries that a demand read has found give way. -/
def makeRoom (l : List PfEntry) : List PfEntry := if l.length < 32 then l else l.eraseP (fun e => e.read)

/-- A request of the stream prefetcher (R230, R231): inside what it may fetch it takes a tag; a new entry counts as one that the
prefetcher fills, and no more than DEPTH entries wait for a demand read. -/
def State.prefetchRequest (s : State) (c : Nat) (dest : Target) (r : SortReq) : State :=
  match (s.room c).prefetch with
  | none => s
  | some x =>
    if s.pfRefused dest r then s.addF (Csr.clsPfDrop_DROPPED c) 1
    else if !s.pfInside x dest r then s
    else if x.entries.any (fun e => e.serves dest r) then (s.admitTo dest r).getD s
    else if s.getF (Csr.clsPfCtrl_DEPTH c) ≤ (x.entries.filter (fun e => !e.read)).length then s
    else
      match s.admitTo dest r with
      | none => s
      | some t => (t.setRoom c { t.room c with prefetch := some { x with entries := makeRoom x.entries ++ [⟨dest, r.frame, r.block / 8, false⟩] } }).addF
          (Csr.clsPfStat_ISSUED c) 1

/-- A read of the prefetcher for the entry is still under way. -/
def State.inFlight (s : State) (c : Fin 64) (e : PfEntry) : Bool :=
  match e.target with
  | .channel ch =>
    let q := s.sorter ch
    (q.waiting ++ q.parked).any (fun r => e.serves e.target r && (r.who :: r.merged).any (fun x => decide (x = .mPrefetch c)))
  | .slice sl => s.sliceReqs.any (fun y => decide (y.1 = sl.val) && e.serves e.target y.2 && decide (y.2.who = .mPrefetch c))

/-- A demand read finds its data in the buffer, or on its way there: it issues nothing new (R230, R233). -/
def State.prefetchHit (s : State) (c : Fin 64) (dest : Target) (r : SortReq) : Option State :=
  match (s.room c).prefetch with
  | none => none
  | some x =>
    match x.entries.find? (fun e => e.serves dest r) with
    | none => none
    | some e =>
      let t := s.setRoom c { s.room c with prefetch := some { x with
        object := (s.tileIn dest r.frame).map (fun tk => tk / 16777216)
        entries := x.entries.map (fun y => if y.serves dest r then { y with read := true } else y) } }
      some (if e.read then t else if s.inFlight c e then t.addF (Csr.clsPfMiss_LATE c) 1 else t.addF (Csr.clsPfStat_USED c) 1)

/-- A demand read that the buffer does not hold moves the demand position (R231). -/
def State.moveDemand (s : State) (c : Nat) (dest : Target) (r : SortReq) : State :=
  match (s.room c).prefetch with
  | none => s
  | some x => s.setRoom c { s.room c with prefetch := some { x with object := (s.tileIn dest r.frame).map (fun tk => tk / 16777216) } }

/-- A request of the requester (R217): its own slice needs no tag. -/
def State.request (s : State) (dest : Target) (r : SortReq) : State :=
  let own (c : Nat) : Bool := match dest with
    | .slice sl => decide (sl.val = c)
    | _ => false
  match r.who with
  | .mPrefetch c => if own c || r.write then s else s.prefetchRequest c dest r
  | .mDemand c =>
    if own c then s
    else if r.write then (s.admitTo dest r).getD s
    else
      match s.prefetchHit c dest r with
      | some t => t
      | none => ((s.admitTo dest r).map (fun t => t.moveDemand c dest r)).getD s
  | .satchel c => if own c then s else (s.admitTo dest r).getD s
  | _ => (s.admitTo dest r).getD s

/-- The sizes of R217 and R219: within a 256-byte block, and a Proctor's or a walk's within one line. -/
def SortReq.ok (r : SortReq) : Bool :=
  decide (1 ≤ r.len) && decide (r.first + r.len ≤ 256) && (!reqMsr r.who || decide (r.first / 64 = (r.first + r.len - 1) / 64))

/-- PARKED_ADMISSION (R225): the request refused first among those whose bank has a place is admitted. -/
def execParkedAdmission (ch : Fin 48) (s : State) : Host.Outcome State Fault Refusal :=
  let q := s.sorter ch
  match q.parked.find? (fun r => s.bankRoom ch r) with
  | none => .next s
  | some r =>
    if s.tagFree r.who then .next (s.setSorter ch ({ q with parked := q.parked.erase r }.accept r) [r.who]) else .next s

/-! ## Service (R223, R224, R226) -/

/-- The value of a bank in a list of pairs. -/
def ofBank (l : List (Nat × Nat)) (b : Nat) : Option Nat := (l.find? (fun x => decide (x.1 = b))).map (fun x => x.2)

/-- The list with a bank's value replaced. -/
def setBank (l : List (Nat × Nat)) (b v : Nat) : List (Nat × Nat) := (b, v) :: l.filter (fun x => decide (x.1 ≠ b))

/-- The oldest request of the partition whose turn it is, among eligible ones. -/
def Sorter.inTurn (q : Sorter) (l : List SortReq) : Option SortReq :=
  let turn := (List.range 8).map (fun i => (q.lastPart + 1 + i) % 8)
  (turn.find? (fun p => l.any (fun r => decide (r.part = p)))).bind (fun p => l.find? (fun r => decide (r.part = p)))

/-- The request that the bank serves next among those that wait (R223 steps 1 to 3). -/
def Sorter.choose (q : Sorter) (b : Nat) : Option SortReq :=
  let l := q.waiting.filter (fun r => decide (r.bank = b))
  let reads := l.filter (fun r => !r.write)
  let hits := reads.filter (fun r => decide (some r.row = ofBank q.rows b))
  match l.find? (fun r => r.urgent) with
  | some r => some r
  | none =>
    if !hits.isEmpty && decide ((ofBank q.streaks b).getD 0 < 16) then q.inTurn hits
    else q.inTurn reads

/-- An older request for another row of the bank waits. -/
def Sorter.overtakes (q : Sorter) (r : SortReq) : Bool :=
  (q.waiting.takeWhile (fun x => decide (x ≠ r))).any (fun x => decide (x.bank = r.bank) && decide (x.row ≠ r.row))

/-- Waiting writes enter the write buffer as it has room, oldest first (R224). -/
def Sorter.refill (q : Sorter) : Sorter :=
  match q.waiting.find? (fun r => r.write) with
  | some r => if q.wbuf.length < 64 then { q with waiting := q.waiting.erase r, wbuf := q.wbuf ++ [r] } else q
  | none => q

/-- A write may drain to bank `b` (R224). -/
def Sorter.mayDrain (q : Sorter) (b : Nat) : Bool :=
  decide (48 ≤ q.wbuf.length) || q.waiting.all (fun r => r.write) || q.waiting.all (fun r => decide (r.bank ≠ b))

/-- The oldest write of the buffer for bank `b` goes to the bank. -/
def State.drainWrite (s : State) (ch b : Nat) : State :=
  let q := s.sorter ch
  match q.wbuf.find? (fun r => decide (r.bank = b)) with
  | none => s
  | some r =>
    if q.mayDrain b then
      let q1 := { q with wbuf := q.wbuf.erase r, rows := setBank q.rows b r.row, streaks := setBank q.streaks b 0 }.refill
      s.setSorter ch q1 (match q.waiting.find? (fun x => x.write) with
        | some x => [x.who]
        | none => [])
    else s

/-- Bank `b` takes the read or write `r`. -/
def State.serveRequest (s : State) (ch b : Nat) (r : SortReq) : State :=
  let q := s.sorter ch
  let hit := decide (some r.row = ofBank q.rows b)
  let streak := if hit && q.overtakes r then (ofBank q.streaks b).getD 0 + 1 else 0
  let q1 : Sorter := { q with waiting := q.waiting.erase r, rows := setBank q.rows b r.row, streaks := setBank q.streaks b streak, lastPart := r.part }
  let s1 := if hit && !r.write then s.addF (Csr.memSortCnt_ROW_HITS ch) 1 else s
  s1.setSorter ch q1 (r.who :: r.merged)

/-- REQUEST_URGENT (R226): the `n`-th waiting request has waited AGE_LIMIT. -/
def execRequestUrgent (ch : Fin 48) (n : Nat) (s : State) : Host.Outcome State Fault Refusal :=
  let q := s.sorter ch
  match q.waiting[n]? with
  | none => .next s
  | some r =>
    if r.urgent then .next s
    else .next ((s.addF (Csr.memSortCnt_AGED ch) 1).setSorter ch { q with waiting := q.waiting.set n { r with urgent := true } } [])

/-- The partition with the most requests waiting on a bank, the lowest among equals. -/
def Sorter.busiest (q : Sorter) (b : Nat) : Nat :=
  let n (p : Nat) : Nat := (q.waiting.filter (fun r => decide (r.bank = b) && decide (r.part = p))).length
  (List.range 8).foldl (fun a p => if n a < n p then p else a) 0

/-- BANK_HOTSPOT (R227): bank `b` has stood at a limit for HOT_TMO; `due` says that the channel's last record is 10 ms
past. An occurrence within the 10 ms is withheld. -/
def execBankHotspot (ch : Fin 48) (b : Fin 16) (due : Bool) (s : State) : Host.Outcome State Fault Refusal :=
  let q := s.sorter ch
  let full := decide (s.bankLimit ch false ≤ q.onBank b false) || decide (s.bankLimit ch true ≤ q.onBank b true)
  if !full ∨ s.getF (Csr.memSortCtrl_HOT_TMO ch) = 0 then .next s
  else
    let p := q.busiest b
    let w := (q.waiting.filter (fun r => decide (r.bank = b.val))).length
    let k := (q.parked.filter (fun r => decide (r.bank = b.val))).length
    let d : List (Nat × Nat) := [(1, ch.val), (1, b.val), (1, p), (2, w), (2, k)]
    let r : Rec := ⟨0x0204, 0, p, 2, ch, 0xFFFF, 0, d⟩
    if q.hot && !due then .next (s.withhold r)
    else
      let s1 := s.recordDP (some p) 0x0204 0 2 ch d
      .next (((s1.addF (Csr.memHot_RECORDS ch) 1).setF (Csr.memHot_LAST_BANK ch) b).setSorter ch { q with hot := true } [])

end Sys2Proof.Machine
end

