-- ==== Sys2Proof/Machine/Clock.lean ====
section
/-! DEFINITION. What the device's own time does when no command waits: one SCLK cycle of CLK.TIME, and the slices' answers to
requests under tags. -/

namespace Sys2Proof.Machine

/-- CLK.TIME advances by one SCLK cycle while SPLL is locked (R423). -/
def State.advanceTime (s : State) : State :=
  if s.flag Csr.clkStatus_SPLL_LOCK then s.wr Csr.clkTime (s.rd Csr.clkTime + 1) else s

/-- Requests to slices are answered, and their tags released (R217): which of them in this cycle is left open (free choices,
notes/assumptions/81.md). -/
def State.answerSlices (s : State) : State :=
  if s.sliceReqs.isEmpty then s
  else
    let l := s.sliceReqs.mapIdx (fun i y => (Config.freeBool s.drawn i, y))
    let t : State := { s with sliceReqs := (l.filter (fun y => !y.1)).map (fun y => y.2), drawn := s.drawn + 1 }
    (l.filter (fun y => y.1)).foldl (fun u y => u.showTags y.2.2.who) t

/-- What a step with no command waiting does. -/
def State.tick (s : State) : State := s.advanceTime.answerSlices

end Sys2Proof.Machine
end

