-- ==== Sys2Proof/Machine/HostOps.lean ====
section
/-! DEFINITION. Host transactions at the ZHL ports: which port may access which register (R240, R242, R450, R490),
how a denied access is counted, and how a permitted write meets the field types (R8, R10, R11). -/

namespace Sys2Proof.Machine

/-- The bits of a register that an access covers (R10). -/
def accMask (w : AccWidth) : Nat :=
  match w with
  | .full => 2 ^ 64 - 1
  | .low => 2 ^ 32 - 1
  | .high => 2 ^ 64 - 2 ^ 32

/-- The bytes that a read of a register's value answers: 8, or the 4 of the half that it reads (R10, R236). -/
def accBytes (w : AccWidth) (v : Nat) : List Byte :=
  match w with
  | .full => leBytes 8 v
  | .low => leBytes 4 v
  | .high => leBytes 4 (v / 2 ^ 32)

/-- The CSR offset of an access. -/
def accOffset (a : Nat) (w : AccWidth) : Nat :=
  match w with
  | .high => a + 4
  | _ => a

/-- The port is UP. -/
def State.portUp (s : State) (k : Nat) : Bool := decide (s.getF (Csr.hlStatus_STATE k) = 3)

/-- SYS.BOOT.STATE is READY (R448). -/
def State.booted (s : State) : Bool := decide (s.getF Csr.sysBoot_STATE = 4)

/-- SYS.BOOT.STATE is RECOVERY (R451). -/
def State.inRecovery (s : State) : Bool := decide (s.getF Csr.sysBoot_STATE = 5)

/-- Partition `p` is enabled and port `k` is in its HOSTMASK. -/
def State.serves (s : State) (k p : Nat) : Bool := s.partOn p && bitOf (s.getF (Csr.sysPartCfg_HOSTMASK p)) k

/-- What a port may do with a register: read it, write it, and the bits that its writes leave (management-owner
fields, R242). -/
structure Access where
  read : Bool
  write : Bool
  keep : Nat
deriving DecidableEq, Repr

def Access.full : Access := ⟨true, true, 0⟩
def Access.readOnly : Access := ⟨true, false, 0⟩
def Access.denied : Access := ⟨false, false, 0⟩

/-- `a` lies in [lo, hi). -/
def inWindow (a lo hi : Nat) : Bool := decide (lo ≤ a) && decide (a < hi)

/-- All 64 bits. -/
def allBits : Nat := 2 ^ 64 - 1

/-- The management-owner bits of the partition registers (R215, R313, R332, R359). -/
def mgmtBits (a : Nat) : Nat :=
  if inWindow a (Csr.migPartCfg 0) (Csr.migPartCfg 8) then
    let o := (a - Csr.migPartCfg 0) % (Csr.migPartCfg 1 - Csr.migPartCfg 0)
    if o = 0 then (2 ^ 27 - 2 ^ 8) + 1
    else if o = Csr.migPartSlices 0 - Csr.migPartCfg 0 ∨ o = Csr.migPartQuota 0 - Csr.migPartCfg 0 then allBits
    else 0
  else if inWindow a (Csr.niCtrl 0) (Csr.niCtrl 32) then
    let o := (a - Csr.niCtrl 0) % (Csr.niCtrl 1 - Csr.niCtrl 0)
    if o < 0x140 ∨ (Csr.niXcap 0 - Csr.niCtrl 0 ≤ o ∧ o < Csr.niXr 0 8 - Csr.niCtrl 0) then allBits else 0
  else if inWindow a (Csr.pftPartCtrs 0) (Csr.pftPartCtrs 8) &&
      decide ((a - Csr.pftPartCtrs 0) % (Csr.pftPartCtrs 1 - Csr.pftPartCtrs 0) = 0) then allBits
  else 0

/-- A partition that port `k` serves and that `f` selects. -/
def State.servedBy (s : State) (k : Nat) (f : Nat → Bool) : Bool := (List.range 8).any (fun p => s.serves k p && f p)

/-- The partition registers and engines that a port reaches through a partition it serves (R242, row 4): whether the
address is one, and whether the port serves it. -/
def State.partReg (s : State) (k a : Nat) : Option Bool :=
  let arr (base step n : Nat) : Option Nat := if inWindow a base (base + step * n) then some ((a - base) / step) else none
  match arr (Csr.clsCtrl 0) 0x100000 64 with
  | some c => some (s.servedBy k (fun p => bitOf (s.getF (Csr.sysPartCls_MASK p)) c))
  | none =>
  match arr (Csr.niCtrl 0) 0x20000 32 with
  | some n => some (s.servedBy k (fun p => bitOf (s.getF (Csr.sysPartNi_MASK p)) n))
  | none =>
  match arr (Csr.sysPlanCtrl 0) 0x10 8 with
  | some p => some (s.serves k p)
  | none =>
  match arr (Csr.migPartCfg 0) (Csr.migPartCfg 1 - Csr.migPartCfg 0) 8 with
  | some p => some (s.serves k p)
  | none =>
  match arr (Csr.pftPartCtrs 0) (Csr.pftPartCtrs 1 - Csr.pftPartCtrs 0) 8 with
  | some p => some (s.serves k p)
  | none =>
  match arr (Csr.pmuPartSbufBase 0) (Csr.pmuPartSbufBase 1 - Csr.pmuPartSbufBase 0) 8 with
  | some p => some (s.serves k p)
  | none =>
  match arr (Csr.pftCtr 0) 8 4096 with
  | some n => some (s.servedBy k (fun p => decide (s.getF (Csr.pftPartCtrs_BASE p) ≤ n)
      && decide (n < s.getF (Csr.pftPartCtrs_BASE p) + s.getF (Csr.pftPartCtrs_COUNT p))))
  | none => none

/-- R242, for a port that is not the management owner's. -/
def State.accessOther (s : State) (k a : Nat) : Access :=
  if a = Csr.sysId ∨ a = Csr.sysSerial ∨ a = Csr.sysBoot ∨ a = Csr.sysPartCap ∨ a = Csr.sysNode then .readOnly
  else if inWindow a (Csr.sysPartCfg 0) (Csr.sysPartCfg 8) then
    if bitOf (s.getF (Csr.sysPartCfg_HOSTMASK ((a - Csr.sysPartCfg 0) / 0x20))) k then .readOnly else .denied
  else if inWindow a (Csr.hlId 0) (Csr.hlId 4) then
    if (a - Csr.hlId 0) % 0x40000 = 8 then .denied else .readOnly
  else if inWindow a (Csr.ctxSqBase 0) (Csr.ctxSqBase 65536) then
    match s.ctxPart ((a - Csr.ctxSqBase 0) / 0x40) with
    | some p => if s.serves k p then .full else .denied
    | none => .denied
  else
    match s.partReg k a with
    | some true => ⟨true, true, mgmtBits a⟩
    | some false => .denied
    | none =>
      if inWindow a 0x400000 0x600000 || inWindow a 0x8000000 0x8300000 || inWindow a 0x8800000 0x8900000
          || inWindow a 0x9400000 0x9500000 then .readOnly
      else .denied

/-- An address inside some block's window (R489). -/
def inWindows (a : Nat) : Bool := blocks.any (fun b => inWindow a b.1 b.2.1)

/-- What R450 serves before READY and in RECOVERY; the flash registers in RECOVERY alone. -/
def servedEarly (k a mgmt : Nat) (recovery : Bool) : Bool :=
  decide (a = Csr.sysId ∨ a = Csr.sysSerial ∨ a = Csr.sysBoot ∨ a = Csr.sysPartCap)
    || inWindow a 0x400000 0x500000 || inWindow a (Csr.hlId k) (Csr.hlId (k + 1))
    || (decide (k = mgmt) && inWindow a 0x300000 0x400000
      && (recovery || !(decide (a = Csr.secFlashCmd) || inWindow a (Csr.secFlashBuf 0) (Csr.secFlashBuf 512))))

/-- What port `k` may do at address `a` (R242, R450, R490). -/
def State.access (s : State) (k a : Nat) : Access :=
  if !s.booted && !servedEarly k a s.mgmtPort s.inRecovery then .denied
  else if !inWindows a then .full
  else if k = s.mgmtPort then .full
  else s.accessOther k a

/-- A denied access is counted at its port (R242). -/
def State.deny (s : State) (k a : Nat) (w : AccWidth) : State :=
  (s.addF (Csr.hlAccDeny_COUNT k) 1).setF (Csr.hlAccDeny_LAST k) (accOffset a w)

/-- A port serves transactions: it is UP. -/
def State.portServes (s : State) (k : Nat) : Bool := s.portUp k

/-- A CFG_WR of port `k`: lost when the port is not UP (R239), denied (R242), or carried out by `act`, which receives
the written value and the bits it may change. -/
def State.hostWrite (s : State) (k a : Nat) (w : AccWidth) (v : Word) (act : State → Nat → Nat → State) : State :=
  if !s.portServes k then s
  else
    let acc := s.access k a
    if !acc.write then s.deny k a w
    else
      let m := accMask w - (accMask w &&& acc.keep)
      act s (v.toNat &&& m) m

/-- The fields of the register at an address. -/
def fieldsAt (a : Nat) : List FieldSpec :=
  match regAt a with
  | some (r, _) => r.fields
  | none => []

/-- The generic write: each field by its type (R8). -/
def State.store (s : State) (a v m : Nat) : State :=
  s.wr a (writeFields (fieldsAt a) (BitVec.ofNat 64 m) (BitVec.ofNat 64 v) (s.rd a))

/-- The generic write of the fields other than those listed. -/
def State.storeBut (s : State) (a v m : Nat) (fs : List Fld) : State :=
  s.store a v (fs.foldl (fun n f => n - (n &&& ((2 ^ f.len - 1) * 2 ^ f.lo))) m)

/-- The value written to a field, when the access covers it. -/
def wroteF (v m : Nat) (f : Fld) : Option Nat :=
  if m / 2 ^ f.lo % 2 ^ f.len = 0 then none else some (v / 2 ^ f.lo % 2 ^ f.len)

/-- A 1 was written to a one-bit field. -/
def wrote1 (v m : Nat) (f : Fld) : Bool := decide (wroteF v m f = some 1)

/-- The field as the write leaves it merged with its old value (a 32-bit access covers a part of a field). -/
def State.merged (s : State) (v m : Nat) (f : Fld) : Nat :=
  let fm := m / 2 ^ f.lo % 2 ^ f.len
  let o := s.getF f
  (v / 2 ^ f.lo % 2 ^ f.len &&& fm) ||| (o - (o &&& fm))

/-- A read by port `k`: lost when the port is not UP, 0 and counted when denied (R242). -/
def State.hostRead (s : State) (k a : Nat) (w : AccWidth) (act : State → Nat → State × Word) : State :=
  if !s.portServes k then s
  else if !(s.access k a).read then
    let t := s.deny k a w
    { t with replies := t.replies ++ [⟨k, .ok, accBytes w 0⟩] }
  else
    let r := act s (accMask w)
    { r.1 with replies := r.1.replies ++ [⟨k, .ok, accBytes w r.2.toNat⟩] }

/-- The generic read: the readable fields, then RC fields within the half read are cleared (R8, R10). -/
def State.fetch (s : State) (a m : Nat) : State × Word :=
  let fs := fieldsAt a
  (s.wr a (clearRcFields fs m (s.rd a)), readFields fs (s.rd a))

/-- The address of the CSR with index `r`. -/
def regAddr (r : Fin 33554432) : Nat := 8 * r.val

end Sys2Proof.Machine
end

