-- ==== Sys2Proof/Machine/HostLink.lean ====
section
/-! DEFINITION. The ZHL ports, partitions and doorbells (chapter 10): R236 to R247, R264, R266. -/

namespace Sys2Proof.Machine

/-! ## LINK events (R266) -/

/-- The timer of a port's LINK events, by SOURCE. -/
def State.linkT (s : State) (src : Nat) : RingTimer := s.linkTimer.get (fun _ => RingTimer.quiet) src

/-- The state with the timer replaced. -/
def State.setLinkT (s : State) (src : Nat) (t : RingTimer) : State :=
  { s with linkTimer := s.linkTimer.put (fun _ => RingTimer.quiet) src t }

/-- SOURCE of ZHL port `k`. -/
def zhlSource (k : Nat) : Nat := 64 + k

/-- The state of the port that SOURCE names, and its partition. -/
def State.portNow (s : State) (src : Nat) : Nat × Nat :=
  if 64 ≤ src then (s.getF (Csr.hlStatus_STATE (src - 64)), 255)
  else (s.getF (Csr.niStatus_STATE src), (s.niPart src).getD 255)

/-- Send a port's LINK event with its present state. -/
def State.sendLink (s : State) (src : Nat) : State :=
  let n := s.portNow src
  s.sendEvent ⟨s.mgmtPort, 5, n.2, src, 0, n.1⟩

/-- A port has entered or left UP: its event goes now, or waits for the end of the 10 ms limit. -/
def State.linkChange (s : State) (src : Nat) : State :=
  if (s.linkT src).recent then s.setLinkT src ⟨true, true⟩ else (s.sendLink src).setLinkT src ⟨true, false⟩

/-- LINK_EVENT_TIMER (R266): the 10 ms of a port end. Ports 0 to 31 are optical, 32 to 35 ZHL. -/
def execLinkEventTimer (port : Fin 36) (s : State) : Host.Outcome State Fault Refusal :=
  let src := if port.val < 32 then port.val else zhlSource (port.val - 32)
  if (s.linkT src).waiting then .next ((s.sendLink src).setLinkT src ⟨true, false⟩)
  else .next (s.setLinkT src RingTimer.quiet)

/-! ## ZHL port states (R238) -/

/-- HL.STATUS.STATE of port `k`: 0 DISABLED, 1 DOWN, 2 TRAINING, 3 UP. -/
def State.hlState (s : State) (k : Nat) : Nat := s.getF (Csr.hlStatus_STATE k)

/-- Enter a state with a width and the lanes trained. A port that is UP has its SerDes PLL in lock (DEDUCED from R422,
notes/assumptions/80.md). -/
def State.setHl (s : State) (k st width lanes : Nat) : State :=
  let s1 := s.setFs [(Csr.hlStatus_STATE k, st), (Csr.hlStatus_WIDTH k, width), (Csr.hlStatus_LANE_OK k, lanes)]
  if st = 3 then s1.setF Csr.clkSerdes_ZHL_LOCK (setBit (s.getF Csr.clkSerdes_ZHL_LOCK) k) else s1

/-- ZHL_SIGNAL_DETECT (R238, R268): `lanes` are the lanes on which a signal is detected; a card is there when there is one on any
(DEDUCED, notes/assumptions/83.md). An unpowered device holds the port DOWN (R239). -/
def execZhlSignalDetect (k : Fin 4) (lanes : BitVec 8) (s : State) : Host.Outcome State Fault Refusal :=
  if s.noVaux ∨ s.hlState k ≠ 1 then .next s
  else
    let t := s.setF (Csr.hlStatus_CABLE k) (decide (lanes ≠ 0)).toNat
    if 4 ≤ (setBits lanes.toNat 8).length then .next (t.setHl k 2 0 0) else .next t

/-- ZHL_TRAINED (R238, R268): `lanes` are the lanes that have trained; too few show in LANE_OK and the training goes on. -/
def execZhlTrained (k : Fin 4) (lanes : BitVec 8) (s : State) : Host.Outcome State Fault Refusal :=
  let l := lanes.toNat
  if s.noVaux ∨ s.hlState k ≠ 2 then .next s
  else if l = 255 then .next ((s.setHl k 3 8 l).linkChange (zhlSource k))
  else if s.flag (Csr.hlCtrl_X4_ALLOW k) ∧ (l % 16 = 15 ∨ l / 16 = 15) then
    .next ((s.setHl k 3 4 l).linkChange (zhlSource k))
  else .next (s.setF (Csr.hlStatus_LANE_OK k) l)

/-- ZHL_TRAINING_TIMEOUT (R238): 10 ms in TRAINING. -/
def execZhlTrainingTimeout (k : Fin 4) (s : State) : Host.Outcome State Fault Refusal :=
  if s.hlState k = 2 then .next (s.setHl k 1 0 0) else .next s

/-- What a port that leaves UP has in flight is lost (R239): an access not begun is dropped, a write that waits for its
tile lands with no answer. -/
def State.dropInFlight (s : State) (k : Nat) : State :=
  let l := s.held.filter (fun h => h.later.isNone || decide (h.src ≠ .port k))
  { s with held := l.map (fun h => if h.src = .port k then { h with src := .engine } else h) }

/-- A ZHL port leaves UP: DOWN_COUNT and the record that R238 gives (`lanes` still trained). -/
def State.zhlDown (s : State) (k lanes : Nat) : State :=
  let s1 := ((s.dropInFlight k).addF (Csr.hlErr_DOWN_COUNT k) 1).recordD 0x0301 1 7 k [(1, lanes)]
  (s1.setHl k 2 0 0).linkChange (zhlSource k)

/-- ZHL_LINK_LOSS (R238, R268): signal lost on an active lane, so that `lanes` are left, or 16 consecutive retries of one flit. `fec`
codewords corrected and `retries` flits retried since the port entered UP reach its counters here (DESIGN CHOICE,
notes/assumptions/83.md). -/
def execZhlLinkLoss (k : Fin 4) (lanes : BitVec 8) (fec retries : Nat) (s : State) : Host.Outcome State Fault Refusal :=
  if s.hlState k = 3 then
    let t := ((s.addF (Csr.hlErr_FEC_CE k) fec).addF (Csr.hlErr_RETRY k) retries).setF (Csr.hlStatus_CABLE k) (decide (lanes ≠ 0)).toNat
    .next (t.zhlDown k lanes.toNat)
  else .next s

/-- EN of a ZHL port takes a new value (R238). -/
def State.zhlSetEn (s : State) (k : Nat) (en : Bool) : State :=
  if en then (if s.hlState k = 0 then s.setHl k 1 0 0 else s)
  else if s.hlState k = 3 then
    (((s.dropInFlight k).addF (Csr.hlErr_DOWN_COUNT k) 1).setHl k 0 0 0).linkChange (zhlSource k)
  else s.setHl k 0 0 0

/-- A write of HL[k].CTRL. -/
def zhlCtrlWrite (k : Nat) (s : State) (v m : Nat) : State :=
  let t := s.store (Csr.hlCtrl k) v m
  if wroteF v m (Csr.hlCtrl_EN k) = none then t else t.zhlSetEn k (t.flag (Csr.hlCtrl_EN k))

/-- ZHL_ENABLE (R238): a write of HL[k].CTRL from port `port`. -/
def execZhlEnable (port k : Fin 4) (w : AccWidth) (v : Word) (s : State) : Host.Outcome State Fault Refusal :=
  .next (s.hostWrite port (Csr.hlCtrl k) w v (zhlCtrlWrite k))

/-! ## Partitions (R241) -/

/-- Two context ranges overlap. -/
def rangesMeet (a n b m : Nat) : Bool := decide (0 < n) && decide (0 < m) && decide (a < b + m) && decide (b < a + n)

/-- Partition `p` as written overlaps the enabled partition `q`. -/
def State.partsOverlap (s : State) (p q : Nat) : Bool :=
  decide (s.getF (Csr.sysPartCls_MASK p) &&& s.getF (Csr.sysPartCls_MASK q) ≠ 0)
    || decide (s.getF (Csr.sysPartNi_MASK p) &&& s.getF (Csr.sysPartNi_MASK q) ≠ 0)
    || rangesMeet (s.getF (Csr.sysPartCtx_BASE p)) (s.getF (Csr.sysPartCtx_COUNT p))
        (s.getF (Csr.sysPartCtx_BASE q)) (s.getF (Csr.sysPartCtx_COUNT q))

/-- A write of EN = 1 is accepted (R241). -/
def State.mayEnable (s : State) (p : Nat) : Bool :=
  decide (p < s.getF Csr.sysPartCap_MAX) && decide (s.getF (Csr.sysPartCfg_HOSTMASK p) ≠ 0)
    && bitOf (s.getF (Csr.sysPartCfg_HOSTMASK p)) (s.getF (Csr.sysPartCfg_EVT_PORT p))
    && decide (s.getF (Csr.sysPartCtx_BASE p) + s.getF (Csr.sysPartCtx_COUNT p) ≤ 65536)
    && (List.range 8).all (fun q => decide (q = p) || !s.partOn q || !s.partsOverlap p q)

/-- Objects of a partition. -/
def State.objsOf (s : State) (p : Nat) : List (Nat × Obj) :=
  s.objs.filterMap (fun e => match e.2 with
    | some o => if e.1 / 1048576 = p then some (e.1, o) else none
    | none => none)

/-- Contexts whose STATE is not CLOSED, ascending. -/
def State.openCtxs (s : State) : List Nat :=
  s.csr.filterMap (fun e =>
    if inWindow e.1 (Csr.ctxSqBase 0) (Csr.ctxSqBase 65536) && decide ((e.1 - Csr.ctxSqBase 0) % 64 = 0x30)
        && decide (e.2.toNat % 8 ≠ 0) then some ((e.1 - Csr.ctxSqBase 0) / 64) else none)

/-- A write of EN = 0 is accepted (R241). -/
def State.mayDisable (s : State) (p : Nat) : Bool :=
  (s.objsOf p).isEmpty && s.openCtxs.all (fun x => decide (s.ctxPart x ≠ some p))

/-- HL.PARTS and CTX.STATE.PART show the partition. -/
def State.showPartition (s : State) (p : Nat) : State :=
  let on := s.partOn p
  let s1 := (List.range 4).foldl (fun t k =>
    t.setF (Csr.hlParts_MASK k) ((List.range 8).foldl (fun m q => if t.serves k q then setBit m q else m) 0)) s
  (List.range (s.getF (Csr.sysPartCtx_COUNT p))).foldl
    (fun t i => t.setF (Csr.ctxState_PART (s.getF (Csr.sysPartCtx_BASE p) + i)) (if on then p else 0)) s1

/-! ## Doorbells and adoption (R246, R247) -/

/-- The test of R205: the new tail adds no more entries than the ring has room for. -/
def tailOk (size head old new : Nat) : Bool :=
  decide ((new + 65536 - old) % 65536 ≤ size - (old + 65536 - head) % 65536)

/-- The host at port `k` may write SQ_TAIL of context `x` (R243, R247). -/
def State.mayRing (s : State) (k x : Nat) : Bool :=
  match s.ctxPart x with
  | none => false
  | some p => if s.ctxSt x = 0 then s.serves k p else decide (s.getF (Csr.ctxState_PORT x) = k)

/-- A write of SQ_TAIL of context `x` from port `k` (R244, R247). -/
def sqTailWrite (k x : Nat) (s : State) (v m : Nat) : State :=
  let f := Csr.ctxSqTail_TAIL x
  if !s.mayRing k x then s.deny k (Csr.ctxSqTail x) (if m % 2 ^ 32 = 0 then .high else .full)
  else if wroteF v m f = none then s
  else
    let old := s.getF f
    let new := s.merged v m f
    let head := s.getF (Csr.ctxSqHead_HEAD x)
    let size := 2 ^ s.getF (Csr.ctxSqBase_LOG2 x)
    if !tailOk size head old new then s.setF (Csr.ctxSqHead_Q_ERR x) 1
    else if new = old then s
    else
      let r := s.ctx x
      let live := r.rings.filter (fun y => decide ((y.2.1 + 65536 - head) % 65536 ≠ 0)
        && decide ((y.2.1 + 65536 - head) % 65536 ≤ size))
      (s.setCtx x { r with rings := live ++ [(old, new, k)] }).setF f new

/-- SQ_TAIL_WRITE (R247): the context doorbell. -/
def execSqTailWrite (port : Fin 4) (x : Fin 65536) (w : AccWidth) (v : Word) (s : State) : Host.Outcome State Fault Refusal :=
  .next (s.hostWrite port (Csr.ctxSqTail x) w v (sqTailWrite port x))

/-- A write of CTX[x].STATE (R246): WR_IGN is cleared by a 1; PORT is written by a host of the partition while the
owner port is not UP. -/
def ctxStateWrite (k x : Nat) (s : State) (v m : Nat) : State :=
  let f := Csr.ctxState_PORT x
  let s1 := s.storeBut (Csr.ctxState x) v m [f]
  let host := match s.ctxPart x with
    | some p => s.serves k p
    | none => false
  if wroteF v m f = none || !host || s.portUp (s.getF f) then s1 else s1.setF f (s.merged v m f)

/-- CONTEXT_ADOPT (R246). -/
def execContextAdopt (port : Fin 4) (x : Fin 65536) (w : AccWidth) (v : Word) (s : State) : Host.Outcome State Fault Refusal :=
  .next (s.hostWrite port (Csr.ctxState x) w v (ctxStateWrite port x))

/-! ## MEM_RD and MEM_WR (R236, R237) -/

/-- Answer a host transaction. -/
def State.reply (s : State) (k : Nat) (st : ReplyStatus) (bs : List Byte) : State :=
  { s with replies := s.replies ++ [⟨k, st, bs⟩] }

/-- An access to an address outside every object, or that the port may not make: an error completion, counted. -/
def State.memError (s : State) (k : Nat) : State := (s.addF (Csr.hlAccDeny_COUNT k) 1).reply k .error []

/-- An earlier write of the port still waits for its tile: accesses of one port complete in order. -/
def State.portWaits (s : State) (k : Nat) : Bool := s.held.any (fun h => decide (h.src = .port k))

/-- The transaction fits R236: 1 to 256 bytes, not across a 256-byte boundary. -/
def memSizeOk (dva n : Nat) : Bool := decide (1 ≤ n) && decide (dva % 256 + n ≤ 256)

/-- The access reaches the OB window area, or the port does not serve the partition. -/
def State.memForbidden (s : State) (k p dva : Nat) : Bool := !s.serves k p || decide (obWindow ≤ dva)

/-- The addresses of `n` bytes. -/
def addrs (dva n : Nat) : List Nat := (List.range n).map (fun i => dva + i)

/-- A read of a port is carried out. -/
def State.memRead (s : State) (k p a n : Nat) : State :=
  if !s.booted then s.reply k .error []
  else if s.memForbidden k p a then s.memError k
  else
    match s.readBytes p a n with
    | .ok bs => (s.touch p [a]).reply k .ok bs
    | .error (.access _) => s.memError k
    | .error (.poison d) => (s.countHit (.poison d)).reply k .poisoned []

/-- A write of a port is carried out: it lands, is answered with an error, or waits for its tile. A write into an RDONLY
object is forbidden. -/
def State.memWrite (s : State) (k p a : Nat) (data : List Byte) : State :=
  let ws := bytesAt a data
  if !s.booted then s.reply k .error []
  else if s.memForbidden k p a then s.memError k
  else
    match s.writableAll p ws with
    | .ok _ =>
      let t := s.writeFrom (.port k) p ws
      if t.portWaits k then t else t.reply k .ok []
    | .error (.access _) => s.memError k
    | .error (.poison d) => (s.countHit (.poison d)).reply k .poisoned []

/-- An access of a port whose earlier accesses are complete. -/
def State.memAccess (s : State) (k p : Nat) (x : HostAcc) : State :=
  match x.data with
  | none => s.memRead k p x.dva x.len
  | some bs => s.memWrite k p x.dva bs

/-- An access that waits until the earlier accesses of its port have completed (R237). -/
def State.queueAccess (s : State) (k p : Nat) (x : HostAcc) : State := { s with held := s.held ++ [⟨p, [], .port k, some x⟩] }

/-- MEM_RD (R236, R237): `n` bytes at `dva` of partition `p`. -/
def execMemRd (port : Fin 4) (p : Fin 8) (dva : BitVec 48) (n : Nat) (s : State) : Host.Outcome State Fault Refusal :=
  if !memSizeOk dva.toNat n then .fault .noSuchTransaction
  else if !s.portServes port then .next s
  else if s.portWaits port then .next (s.queueAccess port p ⟨dva.toNat, n, none⟩)
  else .next (s.memRead port p dva.toNat n)

/-- MEM_WR (R236, R237): the bytes written at `dva` of partition `p`. -/
def execMemWr (port : Fin 4) (p : Fin 8) (dva : BitVec 48) (data : List Byte) (s : State) : Host.Outcome State Fault Refusal :=
  if !memSizeOk dva.toNat data.length then .fault .noSuchTransaction
  else if !s.portServes port then .next s
  else if s.portWaits port then .next (s.queueAccess port p ⟨dva.toNat, data.length, some data⟩)
  else .next (s.memWrite port p dva.toNat data)

end Sys2Proof.Machine
end

