-- ==== Sys2Proof/Machine/Frames.lean ====
section
/-! DEFINITION. Frames of both tiers: which are free, granting and freeing them, quotas, and the movement of one tile
(R196, R199, R200, R207 to R214). -/

namespace Sys2Proof.Machine

/-! ## Which frames are in use -/

/-- The die of house `h` works (R213, R492). -/
def State.dieOk (s : State) (h : Nat) : Bool := !decide (h ∈ s.deadDies)

/-- Channel `ch` has not failed. -/
def State.channelOk (s : State) (ch : Nat) : Bool := decide (s.getF (Csr.memStatus_STATE ch) ≠ 2)

/-- Frames of slice `sl` that hold a tile, are the destination of a move, or are retired. -/
def State.usedSram (s : State) (sl : Nat) : List Nat :=
  s.tiles.filterMap (fun e => if e.2.valid && e.2.sram && decide (e.2.slice = sl) then some e.2.sframe else none)
    ++ s.moves.filterMap (fun m => if m.toSram && decide (m.slice = sl) then some m.frame else none)
    ++ s.retired.filterMap (fun a => if decide (a < slowBase) && decide (a / 65536 / 4096 = sl) then some (a / 65536 % 4096) else none)

/-- The tile has a home frame, kept until its object is destroyed (R196): the object is not SRAM_ONLY. -/
def State.homed (s : State) (tk : Nat) : Bool :=
  match s.obj (tk / 16777216) with
  | some o => !o.sramOnly
  | none => false

/-- Frames of channel `ch` that are a tile's home or retired. -/
def State.usedSlow (s : State) (ch : Nat) : List Nat :=
  s.tiles.filterMap (fun e => if e.2.valid && s.homed e.1 && decide (e.2.homeCh = ch) then some e.2.homeFrame else none)
    ++ s.retired.filterMap (fun a =>
      if decide (slowBase ≤ a) && decide ((a - slowBase) / 65536 / 262144 = ch) then some ((a - slowBase) / 65536 % 262144) else none)

/-- One of `total` frames that is not in `used`, from a free starting point: which one is not specified (R196). -/
def pickFrame (used : List Nat) (total start : Nat) : Option Nat :=
  ((List.range (used.length + 1)).map (fun i => (start + i) % total)).find? (fun f => decide (f < total) && !decide (f ∈ used))

/-- A free frame of slice `sl` on a working die. -/
def State.freeSram (s : State) (sl : Nat) : Option Nat × State :=
  let d := s.draw 6
  if s.dieOk (sl / 8) then (pickFrame (s.usedSram sl) 4096 d.1, d.2) else (none, s)

/-- A free frame of a working channel; the top 1,024 frames are the device's (R200). -/
def State.freeSlow (s : State) (ch : Nat) : Option Nat × State :=
  let d := s.draw 6
  if s.channelOk ch then (pickFrame (s.usedSlow ch) 261120 d.1, d.2) else (none, s)

/-- Slice `sl` has a free frame on a working die. -/
def State.hasSram (s : State) (sl : Nat) : Bool := s.dieOk (sl / 8) && decide ((s.usedSram sl).length < 4096)

/-! ## Quotas (R209) -/

/-- Partition `p` is in POOL mode. -/
def State.pool (s : State) (p : Nat) : Bool := s.flag (Csr.migPartCfg_MODE p)

/-- `n` more SRAM frames for partition `p`. -/
def State.addSram (s : State) (p n : Nat) : State :=
  let s1 := s.addF (Csr.migPartUsage_SRAM p) n
  if s.pool p then s1.addF Csr.migPool_HELD n else s1

/-- `n` fewer SRAM frames for partition `p`. -/
def State.subSram (s : State) (p n : Nat) : State :=
  let s1 := s.subF (Csr.migPartUsage_SRAM p) n
  if s.pool p then s1.subF Csr.migPool_HELD n else s1

/-- Partition `p` may hold `n` more SRAM frames. -/
def State.sramQuota (s : State) (p n : Nat) : Bool :=
  if s.pool p then decide (s.getF Csr.migPool_HELD + n ≤ s.getF Csr.migPool_FRAMES)
  else decide (s.getF (Csr.migPartUsage_SRAM p) + n ≤ s.getF (Csr.migPartQuota_SRAM p))

/-- Partition of a tile key. -/
def partOfTile (tk : Nat) : Nat := tk / 16777216 / 1048576

/-! ## Held writes (R208, R367) -/

/-- The MIG's queue of partition `p`. -/
def State.mig (s : State) (p : Nat) : MigQueue := s.migs.get (fun _ => MigQueue.empty) p

/-- The state with the queue replaced. -/
def State.setMig (s : State) (p : Nat) (q : MigQueue) : State :=
  { s with migs := s.migs.put (fun _ => MigQueue.empty) p q }

/-- A chunk's held write into DST has met an error (R353): it is not counted as landed. -/
def State.dstFailed (s : State) (stamp : Nat) (access : Bool) : State :=
  { s with ops := s.ops.map (fun o =>
    if o.stamp = stamp then { o with refused := o.refused || access, hit := o.hit || !access, owed := o.owed - 1 } else o) }

/-- The report of a held write that has landed, or met an error. -/
def State.holdDone (s : State) (h : HeldWrite) (st : ReplyStatus) : State :=
  match h.src, st with
  | .port k, _ => s.reply k st []
  | .prefect _ stamp, .error => s.dstFailed stamp true
  | .prefect _ stamp, .poisoned => s.dstFailed stamp false
  | _, _ => s

/-- One held write tried again: it lands where it may, waits on for tiles that still hold it, and is discarded with
a report when a tile refuses it (it waited at detection, so it is no hit of R210). -/
def State.retryWrite (s : State) (h : HeldWrite) : State :=
  match s.writableAll h.part h.writes with
  | .error (.access _) => s.holdDone h .error
  | .error (.poison _) => s.holdDone h .poisoned
  | .ok _ =>
    let wait := h.writes.filter (fun w => s.writeWaits h.part w.1)
    let s1 := s.writeAll h.part (h.writes.filter (fun w => !s.writeWaits h.part w.1))
    if wait.isEmpty then s1.holdDone h .ok else { s1 with held := s1.held ++ [{ h with writes := wait }] }

/-- The writer keeps its bytes itself and only waits for the tiles. -/
def HoldSrc.keeps (x : HoldSrc) : Bool :=
  match x with
  | .insn _ _ => true
  | .record _ _ => true
  | _ => false

/-- What is held tried again: an access of a port waits on behind an earlier one of the port (R237); a writer that keeps its bytes
waits on while a tile holds one of them. -/
def State.retryHeld (s : State) (h : HeldWrite) : State :=
  match h.later, h.src with
  | some x, .port k => if s.portWaits k then { s with held := s.held ++ [h] } else s.memAccess k h.part x
  | _, _ =>
    if h.src.keeps then
      (if h.writes.any (fun w => s.writeWaits h.part w.1) then { s with held := s.held ++ [h] } else s)
    else s.retryWrite h

/-- Held writes that now may land do so, in the order in which they came. -/
def State.releaseHeld (s : State) : State := s.held.foldl (fun t h => t.retryHeld h) { s with held := [] }

/-! ## One tile -/

/-- The tile's SRAM frame is freed: filled with zeros (R214). -/
def State.dropSram (s : State) (tk : Nat) : State :=
  let e := s.tile tk
  (s.zeroFrame (sramAddr e.slice e.sframe 0)).subSram (partOfTile tk) 1

/-- The tile becomes resident in frame `f` of slice `sl`; a ZERO tile copies nothing (R199, R207). -/
def State.toSram (s : State) (tk sl f : Nat) : State :=
  let e := s.tile tk
  let s1 := if e.zero then s else s.copyFrame (slowAddr e.homeCh e.homeFrame 0) (sramAddr sl f 0)
  s1.setTile tk { e with sram := true, slice := sl, sframe := f, dirty := false, moving := false, age := 0 }

/-- The tile returns to its home frame: a clean or ZERO tile copies nothing (R199, R206). -/
def State.toSlow (s : State) (tk : Nat) : State :=
  let e := s.tile tk
  let s1 := if e.zero || !e.dirty then s else s.copyFrame (sramAddr e.slice e.sframe 0) (slowAddr e.homeCh e.homeFrame 0)
  (s1.dropSram tk).setTile tk { e with sram := false, slice := 0, sframe := 0, dirty := false, moving := false, age := 0 }

/-! ## Eviction (R209) -/

/-- Frames of the pool that partition `q` holds. -/
def State.poolTiles (s : State) (q : Nat) : Nat := if s.pool q then s.getF (Csr.migPartUsage_SRAM q) else 0

/-- A tile may be evicted from slice `sl` for partition `p`, with AGE at least `minAge`. -/
def State.evictable (s : State) (p sl minAge tk : Nat) (e : TileEntry) : Bool :=
  let q := partOfTile tk
  e.valid && e.sram && s.pool q && decide (e.slice = sl) && decide (1 ≤ e.age) && decide (minAge ≤ e.age)
    && !e.pin && !e.moving && !e.wp && !e.noHome && !e.poison
    && (decide (q = p) || decide (s.getF (Csr.migPartCfg_POOL_FLOOR q) < s.poolTiles q))

/-- The better of two candidates: the higher AGE, then the lower SFRAME. -/
def older (a b : Nat × TileEntry) : Nat × TileEntry :=
  if a.2.age < b.2.age ∨ (a.2.age = b.2.age ∧ b.2.sframe < a.2.sframe) then b else a

/-- The tile to evict. -/
def State.victim (s : State) (p sl minAge : Nat) : Option Nat :=
  match s.tiles.filter (fun e => s.evictable p sl minAge e.1 e.2) with
  | [] => none
  | a :: r => some (r.foldl older a).1

/-- Evict a tile for partition `p`: a DEMOTE, counted at the tile's partition. -/
def State.evict (s : State) (p tk : Nat) : State :=
  let q := partOfTile tk
  let s1 := (s.toSlow tk).addF (Csr.migPartEvict_EVICTED q) 1
  if q = p then s1 else s1.addF (Csr.migPartEvict_BY_OTHER q) 1

/-- An SRAM frame of slice `sl` for a promotion of partition `p` (R209): within the quota and free, or in POOL mode
after the eviction of a tile with AGE at least `minAge`. -/
def State.promoteFrame (s : State) (p sl minAge : Nat) : Option Nat × State :=
  if !s.dieOk (sl / 8) then (none, s)
  else if s.sramQuota p 1 && s.hasSram sl then s.freeSram sl
  else if s.pool p then
    match s.victim p sl minAge with
    | none => (none, s)
    | some tk =>
      let t := s.evict p tk
      if t.sramQuota p 1 then t.freeSram sl else (none, t)
  else (none, s)

end Sys2Proof.Machine
end

