-- ==== Sys2Proof/Machine/Vector.lean ====
section
/-! DEFINITION. The vector queue (R82 to R89). -/

namespace Sys2Proof.Machine

/-! ## Shared forms -/

/-- An operation's flags with NONFINITE_IN left to the operands (R138). -/
def dropNonfinite (f : NFlags) : NFlags := { f with nonfiniteIn := false }

/-- Form every element of a destination from its index, encode it, and check that it may be written.
`elementwise` and `ops` say which overlaps leave unspecified bytes (R71). -/
def formElems (s : State) (v : View) (c : Nat) (d : RDesc) (elementwise : Bool) (ops : List RDesc)
    (listed : NFlags) (f : Nat → Except FaultInfo NumF) : Except FaultInfo Result := do
  let rs ← (List.range d.count).mapM (fun n => do
    let x ← f n
    let y ← viaDesc d (v.encode c d n x.1)
    return (y.1, orFlags x.2 (dropNonfinite y.2)))
  let ws := (rs.mapIdx (fun n y => elemBytes d n y.1)).flatten
  let fl := rs.foldl (fun a y => orFlags a y.2) noFlags
  s.checkWrites v.part d ws
  return ⟨spoil (2 * s.drawn) d (clashing elementwise d ops) ws, maskFlags listed fl, []⟩

/-- A BF16 immediate (R83). -/
def immBf16 (e : Nat) : Num := decodeFloat bf16 (duoImm e)

/-- Any operand present is EMPTY: the instruction writes nothing and sets no flag (R83). -/
def anyEmpty (e : QEntry) : Bool :=
  [e.dst, e.a, e.b].any (fun o => match o with
    | some d => d.empty
    | none => false)

/-- An operation on values and their flags, gathering both operands' flags. -/
def lift2 (f : Num → Num → NumF) (x y : NumF) : NumF :=
  let r := f x.1 y.1
  (r.1, orFlags (orFlags x.2 y.2) r.2)

/-! ## Sums in lanes and tree (R86, R130) -/

/-- Lane `l` of a row of values: terms l, l + 256, ... added by `step` in ascending order. -/
def laneSum (step : NumF → NumF → NumF) (xs : List NumF) (l : Nat) : NumF :=
  (List.range ((xs.length + 255 - l) / 256)).foldl
    (fun acc i => step acc (xs.getD (l + 256 * i) (numZero, noFlags))) (numZero, noFlags)

/-- One level of the fixed binary tree. -/
def pairSums (xs : List NumF) : List NumF :=
  match xs with
  | a :: b :: r => lift2 add32 a b :: pairSums r
  | l => l

/-- The tree of 2^n leaves. -/
def treeSum (n : Nat) (xs : List NumF) : NumF :=
  match n with
  | 0 => xs.headD (numZero, noFlags)
  | k + 1 => treeSum k (pairSums xs)

/-- A sum in the order of R86: 256 lanes, then the tree. -/
def vectorSum (step : NumF → NumF → NumF) (xs : List NumF) : NumF :=
  treeSum 8 ((List.range 256).map (laneSum step xs))

/-- s + x. -/
def stepAdd (acc x : NumF) : NumF := lift2 add32 acc x
/-- s + x², one rounding. -/
def stepSquare (acc x : NumF) : NumF :=
  let r := fma32 x.1 x.1 acc.1
  (r.1, orFlags (orFlags acc.2 x.2) r.2)

/-! ## Element-wise instructions -/

/-- VADD (R83). -/
def vaddResult (s : State) (c : Nat) (e : QEntry) : Except FaultInfo Result :=
  match e.dst, e.a, e.b with
  | some d, some x, some y =>
    if anyEmpty e then .ok Result.none
    else
      let v := s.view c .v
      formElems s v c d true [x, y] listAll (fun n => do
        let p ← viaDesc x (v.value c x n)
        let q ← viaDesc y (v.value c y (if bitOf e.enc 0 then n % y.e0 else n))
        return lift2 (if bitOf e.enc 1 then sub32 else add32) p q)
  | _, _, _ => .ok Result.none

/-- VFMA (R83): DST = ±(X × Y) + DST, rounded once. -/
def vfmaResult (s : State) (c : Nat) (e : QEntry) : Except FaultInfo Result :=
  match e.dst, e.a, e.b with
  | some d, some x, some y =>
    if anyEmpty e then .ok Result.none
    else
      let v := s.view c .v
      formElems s v c d true [x, y] listAll (fun n => do
        let p ← viaDesc x (v.value c x n)
        let q ← viaDesc y (v.value c y (if bitOf e.enc 0 then n % y.e0 else n))
        let a ← viaDesc d (v.value c d n)
        let r := fma32 (if bitOf e.enc 1 then negNum p.1 else p.1) q.1 a.1
        return (r.1, orFlags (orFlags p.2 (orFlags q.2 a.2)) r.2))
  | _, _, _ => .ok Result.none

/-- An element-wise function of one source. -/
def unaryResult (s : State) (c : Nat) (e : QEntry) (listed : NFlags) (f : Num → NumF) :
    Except FaultInfo Result :=
  match e.dst, e.a with
  | some d, some x =>
    if anyEmpty e then .ok Result.none
    else
      let v := s.view c .v
      formElems s v c d true [x] listed (fun n => do
        let p ← viaDesc x (v.value c x n)
        let r := f p.1
        return (r.1, orFlags p.2 r.2))
  | _, _ => .ok Result.none

/-- exp(c × X): the product is an FP32 multiplication, then the exponential unit (R82, R83, R129). -/
def vexpFn (k : Num) (x : Num) : NumF :=
  let p := mul32 k x
  let r := exp32 p.1
  (r.1, orFlags p.2 r.2)

/-- 1 / sqrt(X + ε): an FP32 addition, then the inverse square root unit (R83, R129). -/
def vrsqFn (eps : Num) (x : Num) : NumF :=
  let p := add32 x eps
  let r := rsqrt32 p.1
  (r.1, orFlags p.2 r.2)

/-! ## VAMAX (R89) -/

/-- Largest magnitude over the finite values, from `start`, with the flags of R89: a NaN meets the comparison, so that it sets INVALID
too (R138; DEDUCED, notes/assumptions/84.md). -/
def finiteMax (start : Num) (xs : List NumF) : NumF :=
  xs.foldl (fun acc x =>
    if isFinite x.1 then (maxNum acc.1 (absNum x.1), orFlags acc.2 x.2)
    else (acc.1, orFlags acc.2 (orFlags x.2 (if isNan x.1 then flInvalid else noFlags))))
    (start, noFlags)

/-- ceil(log2(mx / fmax)) of positive values: the least k with mx ≤ fmax × 2^k. -/
def ceilLog2Ratio (m : Nat) (e : Int) (f : FloatFmt) : Int :=
  let k0 := e + Int.ofNat m.log2 - (f.maxE + Int.ofNat f.maxM.log2)
  if leScaled m e f.maxM (f.maxE + (k0 - 1)) then k0 - 1
  else if leScaled m e f.maxM (f.maxE + k0) then k0 else k0 + 1

/-- The clamp to a signed byte. -/
def clampByte (x : Int) : Int := max (-128) (min 127 x)

/-- VAMAX in either mode (R89). -/
def vamaxResult (s : State) (c : Nat) (e : QEntry) : Except FaultInfo Result :=
  match e.a with
  | none => .ok Result.none
  | some x =>
    if anyEmpty e then .ok Result.none
    else do
      let v := s.view c .v
      let xs ← viaDesc x (v.values c x)
      if insnBits e.enc 0 2 = 1 then
        let r := finiteMax numZero xs
        let imm := duoImm e.enc
        match r.1, floatFmt (imm / 64 % 16) with
        | .fin _ m ex, some f =>
          if m = 0 then return ⟨[], maskFlags listAmax r.2, []⟩
          else
            let k := clampByte (ceilLog2Ratio m ex f + Int.ofNat (imm / 1024 % 16))
            return ⟨[], maskFlags listAmax r.2, [.setSexp (imm % 64) (toSigned 8 k)]⟩
        | _, _ => return ⟨[], maskFlags listAmax r.2, []⟩
      else
        match e.dst with
        | none => return Result.none
        | some d =>
          let old ← if bitOf e.enc 2 then viaDesc d (v.value c d 0) else .ok (numZero, noFlags)
          formElems s v c d false [x] listAmax (fun _ => .ok (finiteMax numZero (old :: xs)))

/-! ## VSMX (R84) -/

/-- IEEE equality of values. -/
def eqNum (x y : Num) : Bool :=
  match x, y with
  | .nan, _ => false
  | _, .nan => false
  | .inf a, .inf b => decide (a = b)
  | .fin s m e, .fin s' m' e' => decide (unitsOf s m e (min e e') = unitsOf s' m' e' (min e e'))
  | _, _ => false

/-- -∞. -/
def negInf : Num := .inf true

/-- What one row of VSMX gives: the e values, m, l and alpha, with flags. -/
structure SmxRow where
  es : List Num
  m : Num
  l : Num
  alpha : Num
  flags : NFlags
deriving DecidableEq, Repr

/-- One row of online softmax from its scaled scores (R84). -/
def smxRow (xs : List NumF) (mOld lOld : Num) : SmxRow :=
  let f0 := xs.foldl (fun f x => orFlags f x.2) noFlags
  let mNew := xs.foldl (fun a x => maxNum a x.1) mOld
  let al : NumF := if eqNum mNew mOld then (numOne, noFlags)
    else
      let d := sub32 mOld mNew
      let r := exp32 d.1
      (r.1, orFlags d.2 r.2)
  let es : List NumF := xs.map (fun x =>
    if decide (x.1 = negInf) then (numZero, noFlags)
    else
      let d := sub32 x.1 mNew
      let r := exp32 d.1
      (r.1, orFlags d.2 r.2))
  let lb := es.foldl (fun a x => lift2 add32 a x) ((numZero, noFlags) : NumF)
  let l := fma32 al.1 lOld lb.1
  ⟨es.map (fun x => x.1), mNew, l.1, al.1, orFlags (orFlags f0 al.2) (orFlags lb.2 l.2)⟩

/-- VSMX (R84). -/
def vsmxResult (s : State) (c : Nat) (e : QEntry) : Except FaultInfo Result :=
  match e.dst, e.a, e.b with
  | some p, some sc, some st =>
    if anyEmpty e then .ok Result.none
    else do
      let v := s.view c .v
      let init := bitOf e.enc 0
      let causal := bitOf e.enc 1
      let kb ← viaDesc st (v.raw st 0)
      let mul ← viaDesc st (v.value c st 1)
      let rows := sc.e1 * sc.e2 * sc.e3
      let rs ← (List.range rows).mapM (fun r => do
        let mo ← if init then .ok (negInf, noFlags) else viaDesc st (v.value c st (4 * (r + 1)))
        let lo ← if init then .ok (numZero, noFlags) else viaDesc st (v.value c st (4 * (r + 1) + 1))
        let qp ← viaDesc st (v.raw st (4 * (r + 1) + 3))
        let xs ← (List.range sc.e0).mapM (fun j => do
          let y ← viaDesc sc (v.value c sc (r * sc.e0 + j))
          let x := lift2 mul32 mul y
          return (if causal && decide (qp % 2 ^ 24 < kb % 2 ^ 24 + j) then (negInf, x.2) else x))
        let z := smxRow xs mo.1 lo.1
        return ({ z with flags := orFlags z.flags (orFlags mo.2 lo.2) }, r))
      let pw ← rs.mapM (fun z => (List.range sc.e0).mapM (fun j => do
        let n := z.2 * sc.e0 + j
        let y ← viaDesc p (v.encode c p n (z.1.es.getD j numZero))
        return (elemBytes p n y.1, dropNonfinite y.2)))
      let sw ← rs.mapM (fun z => do
        let n := 4 * (z.2 + 1)
        let a ← viaDesc st (v.encode c st n z.1.m)
        let b ← viaDesc st (v.encode c st (n + 1) z.1.l)
        let d ← viaDesc st (v.encode c st (n + 2) z.1.alpha)
        return (elemBytes st n a.1 ++ elemBytes st (n + 1) b.1 ++ elemBytes st (n + 2) d.1,
          dropNonfinite (orFlags a.2 (orFlags b.2 d.2))))
      let wp := (pw.flatten.map (fun x => x.1)).flatten
      let wst := (sw.map (fun x => x.1)).flatten
      s.checkWrites v.part p wp
      s.checkWrites v.part st wst
      let fl := (rs.map (fun z => z.1.flags) ++ pw.flatten.map (fun x => x.2) ++ sw.map (fun x => x.2)).foldl orFlags noFlags
      return ⟨spoil (2 * s.drawn) p (clashing false p [sc, st]) wp ++
        spoil (2 * s.drawn + 1) st (clashing false st [sc, p]) wst, maskFlags listAll fl, []⟩
  | _, _, _ => .ok Result.none

/-! ## VNORM (R83, R130) -/

/-- ε = 2^-EPSX; 0 for EPSX = 0. -/
def epsOf (x : Nat) : Num := if x = 0 then numZero else .fin false 1 (-(Int.ofNat x))

/-- The mean and the inverse root of a row (R83, R130): μ (0 under RMS) and 1 / sqrt(σ² + ε). -/
def rowStats (rms : Bool) (epsx : Nat) (xs : List NumF) : NumF × NumF :=
  let cnt : Num := .fin false xs.length 0
  let mean (t : NumF) : NumF :=
    let r := div32 t.1 cnt
    (r.1, orFlags t.2 r.2)
  let mu : NumF := if rms then (numZero, noFlags) else mean (vectorSum stepAdd xs)
  let ds := if rms then xs else xs.map (fun x => lift2 sub32 x mu)
  let var := mean (vectorSum stepSquare ds)
  let ve := round32 (addExact var.1 (epsOf epsx))
  let rs := rsqrt32 ve.1
  (mu, (rs.1, orFlags var.2 (orFlags ve.2 rs.2)))

/-- VNORM (R83). -/
def vnormResult (s : State) (c : Nat) (e : QEntry) : Except FaultInfo Result :=
  match e.dst, e.a, e.b with
  | some d, some x, some g =>
    if anyEmpty e then .ok Result.none
    else do
      let v := s.view c .v
      let rms := bitOf e.enc 0
      let stats ← (List.range (x.e1 * x.e2 * x.e3)).mapM (fun r => do
        let xs ← (List.range x.e0).mapM (fun j => viaDesc x (v.value c x (r * x.e0 + j)))
        return rowStats rms (insnBits e.enc 4 8) xs)
      formElems s v c d false [x, g] listAll (fun n => do
        let xv ← viaDesc x (v.value c x n)
        let gv ← viaDesc g (v.value c g (n % x.e0))
        let st := stats.getD (n / x.e0) ((numZero, noFlags), (numZero, noFlags))
        let dlt := if rms then xv else lift2 sub32 xv st.1
        return lift2 mul32 (lift2 mul32 dlt st.2) gv)
  | _, _, _ => .ok Result.none

/-! ## VQUANT (R85, R150) -/

/-- The largest finite magnitude of a quantised format (R85). -/
def quantMax (code : Nat) : Num :=
  match floatFmt code with
  | some f => fmaxNum f
  | none => .fin false 127 0

/-- One element of VQUANT: stored bits, flags, and whether its block is flagged. -/
def quantElem (code : Nat) (x : Num) (ex : Int) : Nat × NFlags × Bool :=
  match x with
  | .fin sg _ _ =>
    let y := scaleNum x (-ex)
    if ltNum (quantMax code) (absNum y) then
      let sat := if sg then negNum (quantMax code) else quantMax code
      ((convertCode code sat).1, flSaturate, true)
    else
      let r := convertCode code y
      (r.1, r.2, false)
  | _ =>
    let r := convertCode code x
    (r.1, orFlags r.2 flNonfinite, true)

/-- VQUANT (R85): Q, the amax of X, and the flags of blocks that overflow or hold a non-finite element. -/
def vquantResult (s : State) (c : Nat) (e : QEntry) : Except FaultInfo Result :=
  match e.dst, e.a, e.b with
  | some q, some x, some am =>
    if anyEmpty e then .ok Result.none
    else do
      let v := s.view c .v
      let xs ← viaDesc x (v.values c x)
      let a0 ← if bitOf e.enc 0 then viaDesc am (v.value c am 0) else .ok (numZero, noFlags)
      let mx := xs.foldl (fun a y => if isFinite y.1 then maxNum a (absNum y.1) else a) a0.1
      let qs ← (List.range q.count).mapM (fun n => do
        let ex ← viaDesc q (v.expo c q n)
        let y := xs.getD n (numZero, noFlags)
        let r := quantElem q.fmt y.1 ex
        return (r.1, orFlags y.2 r.2.1, r.2.2))
      let ws := (qs.mapIdx (fun n y => elemBytes q n y.1)).flatten
      s.checkWrites v.part q ws
      let aw ← viaDesc am (v.encode c am 0 mx)
      let aws := elemBytes am 0 aw.1
      s.checkWrites v.part am aws
      let blks := ((qs.mapIdx (fun n y => (n, y.2.2))).filter (fun y => y.2)).map (fun y => q.block y.1)
      let effs := if s.hasOffsets c q then
          blks.eraseDups.map (fun b =>
            let fp := flagPlace (s.bofsBase c q) q.blocks b
            Effect.orBit fp.1 fp.2)
        else []
      s.checkWrites v.part q (effs.filterMap (fun f => match f with
        | .orBit a _ => some (a, 0)
        | _ => none))
      let fl := qs.foldl (fun f y => orFlags f y.2.1) a0.2
      return ⟨spoil (2 * s.drawn) q (clashing false q [x, am]) ws ++
        spoil (2 * s.drawn + 1) am (clashing false am [x, q]) aws, maskFlags listConvert fl, effs⟩
  | _, _, _ => .ok Result.none

/-! ## VSUMSQ, VRNG, VQUIZ -/

/-- VSUMSQ (R86): the sum is added to the classroom's report card scratch at completion. -/
def vsumsqResult (s : State) (c : Nat) (e : QEntry) : Except FaultInfo Result :=
  match e.a with
  | none => .ok Result.none
  | some x =>
    if x.empty then .ok Result.none
    else do
      let v := s.view c .v
      let xs ← viaDesc x (v.values c x)
      let t := vectorSum stepSquare xs
      let a := s.getF (Csr.clsRcBase_DVA c) + 16 * x.layer + 4 * insnBits e.enc 0 2
      s.checkWrites v.part x (bytesAt a (leBytes 4 0))
      return ⟨[], maskFlags listSumsq t.2, [.addF32 a (encodeFloat fp32 t.1)]⟩

/-- Word `n mod 4` of Philox block `n / 4` of a stream (R88). -/
def streamWord (k0 k1 ctr n : Nat) : Nat :=
  let q := ctr + n / 4
  wordOf4 (philox k0 k1 q (q / 2 ^ 32) (q / 2 ^ 64) (q / 2 ^ 96)) n

/-- VRNG (R88). -/
def vrngResult (s : State) (c : Nat) (e : QEntry) : Except FaultInfo Result :=
  match e.dst, e.a with
  | some d, some st =>
    if anyEmpty e then .ok Result.none
    else do
      let v := s.view c .v
      let dist := insnBits e.enc 0 2
      let w ← viaDesc st (v.raws st)
      let g (i : Nat) : Nat := w.getD i 0
      let ctr := g 2 + 2 ^ 32 * g 3 + 2 ^ 64 * g 4 + 2 ^ 96 * g 5
      let os ← (List.range d.count).mapM (fun n => do
        let x := streamWord (g 0) (g 1) ctr n
        if dist = 1 then return elemBytes d n x
        else
          let u : Num := .fin false (x / 256) (-24)
          let y : Num := if dist = 0 then u else if ltNum u (immBf16 e.enc) then numOne else numZero
          let b ← viaDesc d (v.encode c d n y)
          return elemBytes d n b.1)
      let ws := os.flatten
      let c2 := (ctr + ceilDiv d.count 4) % 2 ^ 128
      let cw := (List.range 4).flatMap (fun i => elemBytes st (2 + i) (c2 / 2 ^ (32 * i) % 2 ^ 32))
      s.checkWrites v.part d ws
      s.checkWrites v.part st cw
      return ⟨spoil (2 * s.drawn) d (clashing false d [st]) ws ++
        spoil (2 * s.drawn + 1) st (clashing false st [d]) cw, noFlags, []⟩
  | _, _ => .ok Result.none

/-- The histogram bin of rel (R160). -/
def quizBin (rel : Num) : Nat :=
  match rel with
  | .fin _ m e =>
    if m = 0 then 0
    else
      let l := e + Int.ofNat m.log2
      if l < -16 then 0 else if -2 ≤ l then 15 else (l + 17).toNat
  | _ => 15

/-- The tile is sampled (R159). -/
def State.sampled (s : State) (c layer t : Nat) : Bool :=
  decide ((philox (s.getF (Csr.clsQuizKey_KEY0 c)) (s.getF (Csr.clsQuizKey_KEY1 c)) t layer
    (s.getF (Csr.clsQuizCtrl_SEQ c)) 0).1 % 2 ^ s.getF (Csr.clsQuizCtrl_K c) = 0)

/-- One sampled tile: its effect and whether a non-finite element was read (R87). -/
def quizOne (v : View) (c orient m n k t : Nat) (cd a b : RDesc) : Except FaultInfo (Effect × NFlags) := do
  let tc := ceilDiv n 128
  let i0 := t / tc * 128
  let j0 := t % tc * 128
  let rows := min 128 (m - i0)
  let cols := min 128 (n - j0)
  let z ← (List.range (rows * cols)).foldlM (fun (acc : Num × Num × NFlags) x => do
    let i := i0 + x / cols
    let j := j0 + x % cols
    let cv ← viaDesc cd (v.value c cd (i * n + j))
    let w ← (List.range k).foldlM (fun (w : Num × NFlags) kk => do
      let av ← viaDesc a (v.value c a (aIdx orient m k i kk))
      let bv ← viaDesc b (v.value c b (bIdx orient n k kk j))
      return ((fma32 av.1 bv.1 w.1).1, orFlags w.2 (orFlags av.2 bv.2))) (numZero, noFlags)
    return (maxNum acc.1 (absNum (sub32 cv.1 w.1).1), maxNum acc.2.1 (absNum w.1),
      orFlags acc.2.2 (orFlags cv.2 w.2))) (numZero, numZero, noFlags)
  let rel := (div32 z.1 (maxNum z.2.1 (.fin false 1 (-126)))).1
  return (.quiz cd.layer t (quizBin rel), z.2.2)
where
  aIdx (orient m k i kk : Nat) : Nat := if orient = 2 then kk * m + i else i * k + kk
  bIdx (orient n k kk j : Nat) : Nat := if orient = 1 then j * k + kk else kk * n + j

/-- VQUIZ (R87, R159 to R161). -/
def vquizResult (s : State) (c : Nat) (e : QEntry) : Except FaultInfo Result :=
  match e.dst, e.a, e.b with
  | some cd, some a, some b =>
    if anyEmpty e then .ok Result.none
    else do
      let v := s.view c .v
      let orient := insnBits e.enc 0 2
      let m := if orient = 2 then a.e0 else a.e1
      let k := if orient = 2 then a.e1 else a.e0
      let n := if orient = 1 then b.e1 else b.e0
      let ts := (List.range (ceilDiv m 128 * ceilDiv n 128)).filter (fun t => s.sampled c cd.layer t)
      let rs ← ts.mapM (fun t => quizOne v c orient m n k t cd a b)
      return ⟨[], maskFlags listQuiz (rs.foldl (fun f r => orFlags f r.2) noFlags), rs.map (fun r => r.1)⟩
  | _, _, _ => .ok Result.none

/-! ## Meanings -/

/-- VADD (R82, R83). -/
def execVadd (c : Fin 64) (s : State) : Host.Outcome State Fault Refusal :=
  .next (s.issue c .v .vadd (vaddResult s c))

/-- VFMA (R82, R83). -/
def execVfma (c : Fin 64) (s : State) : Host.Outcome State Fault Refusal :=
  .next (s.issue c .v .vfma (vfmaResult s c))

/-- VEXP (R82, R83, R129). -/
def execVexp (c : Fin 64) (s : State) : Host.Outcome State Fault Refusal :=
  .next (s.issue c .v .vexp (fun e => unaryResult s c e listConvert (vexpFn (immBf16 e.enc))))

/-- VRSQ (R82, R83, R129). -/
def execVrsq (c : Fin 64) (s : State) : Host.Outcome State Fault Refusal :=
  .next (s.issue c .v .vrsq (fun e => unaryResult s c e listRsq (vrsqFn (immBf16 e.enc))))

/-- VAMAX (R89). -/
def execVamax (c : Fin 64) (s : State) : Host.Outcome State Fault Refusal :=
  .next (s.issue c .v .vamax (vamaxResult s c))

/-- VSMX (R84). -/
def execVsmx (c : Fin 64) (s : State) : Host.Outcome State Fault Refusal :=
  .next (s.issue c .v .vsmx (vsmxResult s c))

/-- VNORM (R83, R130). -/
def execVnorm (c : Fin 64) (s : State) : Host.Outcome State Fault Refusal :=
  .next (s.issue c .v .vnorm (vnormResult s c))

/-- VQUANT (R85). -/
def execVquant (c : Fin 64) (s : State) : Host.Outcome State Fault Refusal :=
  .next (s.issue c .v .vquant (vquantResult s c))

/-- VCVT (R82, R83, R132). -/
def execVcvt (c : Fin 64) (s : State) : Host.Outcome State Fault Refusal :=
  .next (s.issue c .v .vcvt (fun e => unaryResult s c e listConvert (fun x => (x, nonfiniteFlag x))))

/-- VSUMSQ (R86). -/
def execVsumsq (c : Fin 64) (s : State) : Host.Outcome State Fault Refusal :=
  .next (s.issue c .v .vsumsq (vsumsqResult s c))

/-- VRNG (R88). -/
def execVrng (c : Fin 64) (s : State) : Host.Outcome State Fault Refusal :=
  .next (s.issue c .v .vrng (vrngResult s c))

/-- VQUIZ (R87, R159 to R161). -/
def execVquiz (c : Fin 64) (s : State) : Host.Outcome State Fault Refusal :=
  .next (s.issue c .v .vquiz (vquizResult s c))

end Sys2Proof.Machine
end

