-- ==== Sys2Proof/Machine/Move.lean ====
section
/-! DEFINITION. The move queue (R90 to R93). -/

namespace Sys2Proof.Machine

/-! ## Issue of a move -/

/-- What a move did before a failed access stopped it: the fault, and the bytes of other elements. Which
of them were already written is free (R63, R90). -/
structure MoveStop where
  fault : FaultInfo
  formed : List (Nat × Byte)
deriving DecidableEq, Repr

/-- Some of the bytes: a free choice for each. -/
def freeSubset (drawn : Nat) (ws : List (Nat × Byte)) : List (Nat × Byte) :=
  (ws.mapIdx (fun i w => (w, Config.freeBool drawn i))).filterMap
    (fun x => if x.2 then some x.1 else none)

/-- The last issued instruction of the M queue waits for a MUPD before it (R37). -/
def State.deferLast (s : State) (c : Nat) : State :=
  let r := s.room c
  s.setRoom c { r with mf := r.mf.mapIdx (fun i f => if i + 1 = r.mf.length then { f with deferred := true } else f) }

/-- A move that has issued stops with a fault: what it wrote before is a free subset of the elements' bytes (R63, R90). -/
def State.stopMove (s : State) (c : Nat) (e : QEntry) (chosen : Bool) (wait : Nat) (m : MoveStop) : State :=
  (((s.demandWrite (s.getF (Csr.clsStatus_PART c)) (freeSubset s.drawn m.formed)).endPrefetch c).sampleEnd c .m e chosen wait true).faultCls
    c 2 e.pc e.enc m.fault

/-- Issue the head of the M queue if it is `op` and ready; `streamed` marks a source that the prefetcher
runs ahead on, and `reads` the addresses whose tiles count as accessed. One that touches bytes which a MUPD before it has not
yet written issues too, and reads its operands after that MUPD (R37). -/
def State.issueMove (s : State) (c : Nat) (op : Op) (streamed : Bool)
    (run : QEntry → Except MoveStop Result) (reads : QEntry → List Nat) : State :=
  match s.ready c .m op with
  | none => s
  | some e =>
    let p := s.getF (Csr.clsStatus_PART c)
    let s1 := s.popHead c .m e
    let s2 := if streamed then s1.startPrefetch c e.a else s1
    if s.satClash c e then (s2.launchInsn c .m e Result.none).deferLast c
    else
      match run e with
      | .error f =>
        let t := s2.sampleIssue c .m
        t.2.stopMove c e t.1.1 t.1.2 f
      | .ok r => (s2.touch p (reads e)).launchInsn c .m e r

/-- Form every element of a move; the first failed one is the fault, and the others' bytes are kept with it. -/
def moveElems (n : Nat) (f : Nat → Except FaultInfo (List (Nat × Byte) × NFlags)) :
    Except MoveStop (List (Nat × Byte) × NFlags) :=
  let rs := (List.range n).map f
  let ws := rs.flatMap (fun r => match r with
    | .ok x => x.1
    | .error _ => [])
  match rs.findSome? (fun r => match r with
    | .ok _ => none
    | .error e => some e) with
  | some e => .error ⟨e, ws⟩
  | none => .ok (ws, rs.foldl (fun a r => match r with
    | .ok x => orFlags a x.2
    | .error _ => a) noFlags)

/-- Addresses of the sources' tiles. -/
def sourceTiles (e : QEntry) : List Nat :=
  match e.a with
  | some d => d.tileAddrs
  | none => []

/-! ## MLOAD, MSTORE, MCONV (R90) -/

/-- A move that copies the stored bytes. -/
def copyResult (s : State) (c : Nat) (e : QEntry) : Except MoveStop Result :=
  match e.dst, e.a with
  | some d, some x =>
    if anyEmpty e then .ok Result.none
    else do
      let v := s.view c .m
      let r ← moveElems d.count (fun n => do
        let b ← viaDesc x (v.raw x n)
        let ws := elemBytes d n b
        s.checkWrites v.part d ws
        return (ws, noFlags))
      return ⟨spoil (2 * s.drawn) d (clashing true d [x]) r.1, noFlags, []⟩
  | _, _ => .ok Result.none

/-- A move that converts (R128, R132): the source value is taken after its scaling, so that one which scales beyond FP32 is a
non-finite source. -/
def convertResult (s : State) (c : Nat) (e : QEntry) : Except MoveStop Result :=
  match e.dst, e.a with
  | some d, some x =>
    if anyEmpty e then .ok Result.none
    else do
      let v := s.view c .m
      let r ← moveElems d.count (fun n => do
        let y ← viaDesc x (v.value c x n)
        let z ← viaDesc d (v.encode c d n y.1)
        let ws := elemBytes d n z.1
        s.checkWrites v.part d ws
        return (ws, orFlags y.2 (orFlags (nonfiniteFlag y.1) (dropNonfinite z.2))))
      return ⟨spoil (2 * s.drawn) d (clashing true d [x]) r.1, maskFlags listConvert r.2, []⟩
  | _, _ => .ok Result.none

/-! ## MGATHER, MSCATTER (R91) -/

/-- Rows of a tensor: its 2-D view's row count. -/
def RDesc.rows (d : RDesc) : Nat := d.e1 * d.e2 * d.e3

/-- MGATHER: row q of DST is table row index[q], or +0.0 with INVALID for an index out of range. -/
def gatherResult (s : State) (c : Nat) (e : QEntry) : Except MoveStop Result :=
  match e.dst, e.a, e.b with
  | some d, some t, some ix =>
    if anyEmpty e then .ok Result.none
    else do
      let v := s.view c .m
      let r ← moveElems d.count (fun n => do
        let i ← viaDesc ix (v.raw ix (n / d.e0))
        if i < t.rows then
          let b ← viaDesc t (v.raw t (i * t.e0 + n % d.e0))
          let ws := elemBytes d n b
          s.checkWrites v.part d ws
          return (ws, noFlags)
        else
          let ws := elemBytes d n 0
          s.checkWrites v.part d ws
          return (ws, flInvalid))
      return ⟨spoil (2 * s.drawn) d (clashing false d [t, ix]) r.1, maskFlags listGather r.2, []⟩
  | _, _, _ => .ok Result.none

/-- The row numbers of an index tensor that can be read. -/
def indexRows (s : State) (c : Nat) (ix : RDesc) : List Nat :=
  match (s.view c .m).raws ix with
  | .ok l => l
  | .error _ => []

/-- Addresses of the table rows that a gather fetches. -/
def gatherTiles (s : State) (c : Nat) (e : QEntry) : List Nat :=
  match e.a, e.b with
  | some t, some ix => ((indexRows s c ix).filter (fun i => decide (i < t.rows))).map (fun i => t.addr (i * t.e0))
      ++ ix.tileAddrs
  | _, _ => []

/-- MSCATTER without ADD: table row index[q] is source row q, the last q winning. -/
def scatterCopy (s : State) (c : Nat) (t x ix : RDesc) : Except MoveStop Result := do
  let v := s.view c .m
  let r ← moveElems x.count (fun n => do
    let i ← viaDesc ix (v.raw ix (n / x.e0))
    if i < t.rows then
      let b ← viaDesc x (v.raw x n)
      let ws := elemBytes t (i * t.e0 + n % x.e0) b
      s.checkWrites v.part t ws
      return (ws, noFlags)
    else return ([], flInvalid))
  return ⟨spoil (2 * s.drawn) t (clashing false t [x, ix]) r.1, maskFlags listGather r.2, []⟩

/-- The sums of a scatter with ADD so far: table element and bits, latest first, with flags and the first fault. -/
structure ScatterSum where
  sums : List (Nat × Nat)
  flags : NFlags
  fault : Option FaultInfo
deriving DecidableEq, Repr

/-- One element of a scatter with ADD: FP32 addition with RNE, as stored (R91). -/
def scatterStep (s : State) (v : View) (t x ix : RDesc) (acc : ScatterSum) (n : Nat) : ScatterSum :=
  match acc.fault with
  | some _ => acc
  | none =>
    let one : Except FaultInfo (Option (Nat × Nat) × NFlags) := do
      let i ← viaDesc ix (v.raw ix (n / x.e0))
      if i < t.rows then
        let el := i * t.e0 + n % x.e0
        let b ← viaDesc x (v.raw x n)
        let old ← match acc.sums.find? (fun p => decide (p.1 = el)) with
          | some p => Except.ok p.2
          | none => viaDesc t (v.raw t el)
        s.checkWrites v.part t (elemBytes t el 0)
        let a := decodeFloat fp32 old
        let y := decodeFloat fp32 b
        let r := add32 a y
        return (some (el, encodeFloat fp32 r.1), orFlags (orFlags (nonfiniteFlag a) (nonfiniteFlag y)) r.2)
      else return (none, flInvalid)
    match one with
    | .error f => { acc with fault := some f }
    | .ok (some p, fl) => { acc with sums := p :: acc.sums, flags := orFlags acc.flags fl }
    | .ok (none, fl) => { acc with flags := orFlags acc.flags fl }

/-- MSCATTER with ADD: rows are added in ascending q. -/
def scatterAdd (s : State) (c : Nat) (t x ix : RDesc) : Except MoveStop Result :=
  let v := s.view c .m
  let r := (List.range x.count).foldl (scatterStep s v t x ix) ⟨[], noFlags, none⟩
  let ws := r.sums.reverse.flatMap (fun p => elemBytes t p.1 p.2)
  match r.fault with
  | some f => .error ⟨f, ws⟩
  | none => .ok ⟨spoil (2 * s.drawn) t (clashing false t [x, ix]) ws, maskFlags listAll r.flags, []⟩

/-- MSCATTER: SRCA holds the rows, DST the table. -/
def scatterResult (s : State) (c : Nat) (e : QEntry) : Except MoveStop Result :=
  match e.dst, e.a, e.b with
  | some t, some x, some ix =>
    if anyEmpty e then .ok Result.none
    else if bitOf e.enc 0 then scatterAdd s c t x ix else scatterCopy s c t x ix
  | _, _, _ => .ok Result.none

/-! ## MPREF (R92, R231, R232) -/

/-- The die of a classroom (R16). -/
def dieOf (c : Nat) : Nat := c / 32

/-- One tile of an MPREF region. `first` is the object that holds the region's first byte. -/
def State.prefTile (s : State) (c p : Nat) (nopref : Bool) (first : Option Nat) (a : Nat) : State :=
  let s0 := s.addF (Csr.clsMprefStat_REQUESTED c) 1
  let drop := s0.addF (Csr.clsMprefDrop_DROPPED c) 1
  match s.place p a with
  | .tile tk _ _ =>
    let e := s.tile tk
    let dying := match s.obj (tk / 16777216) with
      | some o => o.dying
      | none => true
    if nopref || decide (first ≠ some (tk / 16777216)) || e.poison || dying then drop
    else if e.sram || e.moving then s0.addF (Csr.clsMprefDrop_RESIDENT c) 1
    else if 256 ≤ (s.prefq.filter (fun r => decide (dieOf r.cls = dieOf c))).length then drop
    else { s0 with prefq := s0.prefq ++ [⟨c, tk⟩] }
  | _ => drop

/-- Every tile of the region. -/
def State.prefRegion (s : State) (c p : Nat) (d : RDesc) : State :=
  let first := match s.place p d.base with
    | .tile tk _ _ => some (tk / 16777216)
    | _ => none
  d.tileAddrs.foldl (fun t a => t.prefTile c p d.nopref first a) s

/-! ## A move that waited for a MUPD (R37) -/

/-- What a move of the M queue forms. -/
def moveRun (s : State) (c : Nat) (e : QEntry) : Except MoveStop Result :=
  match insnOp e.enc with
  | some .mload | some .mstore => copyResult s c e
  | some .mconv => convertResult s c e
  | some .mgather => gatherResult s c e
  | some .mscatter => scatterResult s c e
  | _ => .ok Result.none

/-- The addresses whose tiles an MSCATTER reads. -/
def scatterTiles (e : QEntry) : List Nat := sourceTiles e ++
  (match e.b with
    | some d => d.tileAddrs
    | none => [])

/-- The addresses whose tiles a move reads. -/
def moveReads (s : State) (c : Nat) (e : QEntry) : List Nat :=
  match insnOp e.enc with
  | some .mgather => gatherTiles s c e
  | some .mscatter => scatterTiles e
  | _ => sourceTiles e

/-- An issued move, which waited for a MUPD, with the results that it now forms. -/
def InFlight.formed (f : InFlight) (x : Result) : InFlight :=
  { f with writes := x.writes, flags := x.flags, effects := x.effects, deferred := false }

/-- The `n`-th issued move, which waited for a MUPD, reads its operands and stops. -/
def State.stopDeferred (s : State) (c n : Nat) (f : InFlight) (m : MoveStop) : State :=
  let r := s.room c
  (s.setRoom c { r with mf := r.mf.eraseIdx n }).stopMove c f.entry f.sampled f.wait m

/-- The `n`-th issued move, which waited for a MUPD, reads its operands and becomes `g`. -/
def State.formDeferred (s : State) (c n : Nat) (g : InFlight) : State :=
  let r := s.room c
  (s.touch (s.getF (Csr.clsStatus_PART c)) (moveReads s c g.entry)).setRoom c { r with mf := r.mf.set n g }

/-! ## Meanings -/

/-- MLOAD (R90). -/
def execMload (c : Fin 64) (s : State) : Host.Outcome State Fault Refusal :=
  .next (s.issueMove c .mload true (copyResult s c) sourceTiles)

/-- MSTORE (R90). -/
def execMstore (c : Fin 64) (s : State) : Host.Outcome State Fault Refusal :=
  .next (s.issueMove c .mstore false (copyResult s c) sourceTiles)

/-- MCONV (R90). -/
def execMconv (c : Fin 64) (s : State) : Host.Outcome State Fault Refusal :=
  .next (s.issueMove c .mconv true (convertResult s c) sourceTiles)

/-- MGATHER (R91). -/
def execMgather (c : Fin 64) (s : State) : Host.Outcome State Fault Refusal :=
  .next (s.issueMove c .mgather false (gatherResult s c) (gatherTiles s c))

/-- MSCATTER (R91). -/
def execMscatter (c : Fin 64) (s : State) : Host.Outcome State Fault Refusal :=
  .next (s.issueMove c .mscatter false (scatterResult s c) scatterTiles)

/-- MPREF (R92): the region's tiles enter the MIG's prefetch queue, or are dropped or counted resident. -/
def execMpref (c : Fin 64) (s : State) : Host.Outcome State Fault Refusal :=
  match s.ready c .m .mpref with
  | none => .next s
  | some e =>
    let s1 := s.popHead c .m e
    let s2 := match e.a with
      | some d => s1.prefRegion c (s.getF (Csr.clsStatus_PART c)) d
      | none => s1
    .next (s2.launchInsn c .m e Result.none)

/-- The scale slots of a classroom, which a MUPD reads as it issues (R54). -/
def State.scaleSlots (s : State) (c : Nat) : List Word := (List.range 64).map (fun n => s.rd (Csr.clsScale c n))

/-- MUPD (R93): the update enters the Satchel's queue of 4; with the queue full it does not issue. -/
def execMupd (c : Fin 64) (s : State) : Host.Outcome State Fault Refusal :=
  match s.ready c .m .mupd with
  | none => .next s
  | some e =>
    if 4 ≤ (s.room c).sat.length then .next s
    else
      let t := (s.popHead c .m e).sampleIssue c .m
      let s1 := t.2
      let r := s1.room c
      let r1 := { r with sat := r.sat ++ [{ SatEntry.fresh e with sampled := t.1.1, wait := t.1.2, slots := s.scaleSlots c }] }
      .next ((s1.setRoom c r1).setF (Csr.clsSatStat_Q_OCC c) r1.sat.length)

end Sys2Proof.Machine
end

