-- ==== Sys2Proof/Machine/Products.lean ====
section
/-! DEFINITION. The tensor queue: products (R73 to R81), weight loads (R77, R78, R103, R104), random
words of stochastic rounding (R135), and the arrays' power states (R113 to R118). -/

namespace Sys2Proof.Machine

/-! ## Shapes (R73) -/

/-- Index of a(i, k) among A's elements as stored. -/
def aIndex (orient m k i kk : Nat) : Nat := if orient = 2 then kk * m + i else i * k + kk
/-- Index of b(k, j) among B's elements as stored. -/
def bIndex (orient n k kk j : Nat) : Nat := if orient = 1 then j * k + kk else kk * n + j

/-! ## Sums (R76, R127) -/

/-- One cell: p + a × b rounded once into FP32; of the flags INVALID and OVERFLOW count (R81). -/
def cellStep (acc : NumF) (a b : Num) : NumF :=
  let r := fma32 a b acc.1
  (r.1, orFlags acc.2 ⟨r.2.invalid, r.2.overflow, false, false, false⟩)

/-- The sum over k in ascending order, from +0.0 (R76). -/
def dot (k : Nat) (a b : Nat → Num) : NumF :=
  (List.range k).foldl (fun acc kk => cellStep acc (a kk) (b kk)) (numZero, noFlags)

/-- FP32 addition of two pass results of TPAIR (R76). -/
def addPass (x y : NumF) : NumF :=
  let r := add32 x.1 y.1
  (r.1, orFlags (orFlags x.2 y.2) ⟨r.2.invalid, r.2.overflow, false, false, false⟩)

/-- HI and LO of a PAIR-BF16 element (R125). -/
def pairHi (b : Nat) : Num := decodeFloat bf16 (b % 65536)
def pairLo (b : Nat) : Num := decodeFloat bf16 (b / 65536 % 65536)

/-- The random word of element (i, j) (R135). -/
def State.srWord (s : State) (c : Nat) (op : Op) (base i j : Nat) : Nat :=
  let cell := i % 128 * 128 + j % 128
  let orient := match op with
    | .tmult => 1
    | .tmulta => 2
    | .tpair => 3
    | _ => 0
  wordOf4 (philox (s.getF (Csr.clsSrKey_KEY0 c)) (s.getF (Csr.clsSrKey_KEY1 c))
    (cell / 4 + orient * 4096) (i / 128) (base / 64 % 2 ^ 32)
    (j / 128 % 4 + 4 * s.getF (Csr.clsSrSeq_SEQ c))) cell

/-! ## The product -/

/-- The stored elements of a tile that the weight-load path reads: it lies in the OB or the own slice as it is read
(R74, R103; notes/assumptions/39.md). -/
def readTile (v : View) (c : Nat) (b : RDesc) : Except FaultInfo (List Nat) :=
  if v.s.near c v.part b then viaDesc b (v.raws b) else .error ⟨.badDesc, b.idx, 0, 0⟩

/-- The stored elements of the stationary operand: the shadow bank under PRE = 1 (R78), else SRCB itself. -/
def stationary (v : View) (c : Nat) (r : Classroom) (pre : Bool) (b : RDesc) : Except FaultInfo (List Nat) :=
  if pre then
    match r.shadow with
    | some k => .ok k.data
    | none => .error ⟨.badDesc, b.idx, 0, 0⟩
  else readTile v c b

/-- The shadow bank holds the tile that the product needs (R78). -/
def tileMatches (t : TileId) (orient : Nat) (b : RDesc) : Bool :=
  decide (t.base = b.base) && decide (t.fmt = b.fmt) && decide (t.empty = b.empty)
    && (b.empty || (decide (t.e0 = b.e0) && decide (t.e1 = b.e1)))
    && decide (t.tr = decide (orient = 1))

/-- One element of C: its stored bits and flags. `av`, `bv` give the scaled operands by part: 0 whole, 1 HI, 2 LO. -/
def prodElem (s : State) (v : View) (c : Nat) (op : Op) (d : RDesc) (acc rnd : Bool) (k i j n : Nat)
    (av bv : Nat → Nat → Num) : Except FaultInfo (Nat × NFlags) := do
  let p :=
    if op = .tpair then
      let p1 := dot k (av 1) (bv 1)
      let p2 := dot k (av 1) (bv 2)
      let p3 := dot k (av 2) (bv 1)
      addPass (addPass p1 p2) p3
    else dot k (av 0) (bv 0)
  let ex ← viaDesc d (v.expo c d n)
  let x := scaleNum p.1 (-ex)
  if acc then
    let old ← viaDesc d (v.raw d n)
    let o := decodeFloat fp32 old
    let r := if rnd then stochAdd o x (s.srWord c op d.base i j) else round32 (addExact o x)
    let w := rne32 x
    return (encodeFloat fp32 r.1, orFlags (orFlags p.2 (nonfiniteFlag o))
      ⟨r.2.invalid, r.2.overflow || w.2.overflow, w.2.underflow, r.2.inexact, false⟩)
  else
    match floatFmt d.fmt with
    | some f =>
      let r := roundTo f x
      return (encodeFloat f r.1, orFlags p.2 r.2)
    | none => return (0, p.2)

/-- OB lines of classroom `c` that lie wholly within a footprint (R80). -/
def wholeLines (c : Nat) (d : RDesc) (ws : List (Nat × Byte)) : List Nat :=
  let w := obWindow + c * 0x200000
  let ls := (ws.map (fun x => (x.1 - w) / 64)).eraseDups
  ls.filter (fun l => (List.range 64).all (fun i => d.covers (w + l * 64 + i)))

/-- What a product forms (R76, R80, R81). -/
def productResult (s : State) (c : Nat) (op : Op) (e : QEntry) : Except FaultInfo Result :=
  match e.dst, e.a, e.b with
  | some d, some a, some b =>
    let acc := bitOf e.enc 0
    let pre := bitOf e.enc 1
    let rnd := decide (insnBits e.enc 2 2 = 1)
    let orient := orientOf op e.enc
    let v := s.view c .t
    if d.empty then .ok Result.none
    else if a.empty || b.empty then
      if acc then .ok Result.none
      else
        let ws := (List.range d.count).flatMap (fun n => elemBytes d n 0)
        .ok ⟨ws, noFlags, [.zeroTags (wholeLines c d ws)]⟩
    else do
      let r := s.room c
      if pre && !(match r.shadow with
          | some k => tileMatches k.id orient b
          | none => false) then .error ⟨.badDesc, b.idx, 0, 0⟩
      else
        let m := prodM orient a
        let n := prodN orient b
        let k := prodK orient a
        let ar ← viaDesc a (v.raws a)
        let br ← stationary v c r pre b
        let ae ← (List.range a.count).mapM (fun x => viaDesc a (v.expo c a x))
        let be ← (List.range b.count).mapM (fun x => viaDesc b (v.expo c b x))
        let part (fmt raw : Nat) (sel : Nat) : Num :=
          match sel with
          | 0 => decodeCode fmt raw
          | 1 => pairHi raw
          | _ => pairLo raw
        let av (i : Nat) (sel kk : Nat) : Num :=
          let x := aIndex orient m k i kk
          scaleNum (part a.fmt (ar.getD x 0) sel) (ae.getD x 0)
        let bv (j : Nat) (sel kk : Nat) : Num :=
          let x := bIndex orient n k kk j
          scaleNum (part b.fmt (br.getD x 0) sel) (be.getD x 0)
        let nf := (ar.map (fun x => nonfiniteFlag (decodeCode a.fmt x)) ++
          br.map (fun x => nonfiniteFlag (decodeCode b.fmt x))).foldl orFlags noFlags
        let cs ← (List.range (m * n)).mapM (fun x =>
          prodElem s v c op d acc rnd k (x / n) (x % n) x (av (x / n)) (bv (x % n)))
        let ws := (cs.mapIdx (fun x y => elemBytes d x y.1)).flatten
        let fl := cs.foldl (fun f y => orFlags f y.2) nf
        s.checkWrites v.part d ws
        return ⟨spoil (2 * s.drawn) d (clashing false d [a, b]) ws, maskFlags listProduct fl, []⟩
  | _, _, _ => .ok Result.none

/-- The product streams rows: neither operand nor C is EMPTY (R80, R108). -/
def streams (e : QEntry) : Bool :=
  match e.dst, e.a, e.b with
  | some d, some a, some b => !d.empty && !a.empty && !b.empty
  | _, _, _ => false

/-! ## Array power states (R113 to R118) -/

/-- A request for a ramp slot among the others: behind those of earlier SCLK cycles, and in ascending classroom number among those
of its own (R115). -/
def placeRamp (x : Nat × Nat) (l : List (Nat × Nat)) : List (Nat × Nat) :=
  match l with
  | [] => [x]
  | y :: r => if y.1 = x.1 ∧ x.2 < y.2 then x :: y :: r else y :: placeRamp x r

/-- Ask for a ramp slot (R115). -/
def State.askRamp (s : State) (c : Nat) : State :=
  if s.rampReq.any (fun y => decide (y.2 = c)) then s
  else { s with rampReq := placeRamp ((s.rd Csr.clkTime).toNat, c) s.rampReq }

/-- Take a request for a ramp slot back. -/
def State.unaskRamp (s : State) (c : Nat) : State := { s with rampReq := s.rampReq.filter (fun y => y.2 ≠ c) }

/-- Give a ramp slot back. -/
def State.freeRamp (s : State) (c : Nat) : State := { s with rampHold := s.rampHold.filter (fun x => x ≠ c) }

/-- A product issues, or HOLD is set to 1: the row of R116 for the present state. `prod` marks a product. A product that issues
in FILL takes a pending request back, as HOLD does (DESIGN CHOICE, notes/assumptions/85.md). -/
def State.wakeArrays (s : State) (c : Nat) (prod : Bool) : State :=
  let r := s.room c
  match s.getF (Csr.clsArrStat_PSTATE c) with
  | 4 =>
    let s1 := s.unaskRamp c
    if prod then s1.setF (Csr.clsArrStat_PSTATE c) 3 else s1
  | 5 =>
    let d := s.getF (Csr.clsArrStat_RAMP_STEP c)
    if d = 0 then
      (s.freeRamp c).setF (Csr.clsArrStat_PSTATE c) (if prod then 3 else 4)
    else
      (((s.setF (Csr.clsArrStat_PSTATE c) 2).setF (Csr.clsArrStat_RAMP_STEP c) 0).addF
        (Csr.clsArrRamp_UP_COUNT c) 1).setRoom c { r with rampLeft := d, waitArrays := r.waitArrays || prod }
  | 0 =>
    ((s.setF (Csr.clsArrStat_PSTATE c) 1).askRamp c).setRoom c { r with waitArrays := r.waitArrays || prod }
  | 3 => s
  | _ => s.setRoom c { r with waitArrays := r.waitArrays || prod }

/-- An issued TLOADW. -/
def isLoad (f : InFlight) : Bool := decide (insnOp f.entry.enc = some .tloadw)

/-- The path carries the load of a product of its own (R77, R104): it is busy, and no TLOADW is under way. -/
def State.ownLoad (s : State) (c : Nat) : Bool := s.flag (Csr.clsArrStat_LOAD_BUSY c) && !((s.room c).tf.any isLoad)

/-- The path abandons a loading TLOADW: it completes now, with its signal, and a waiting SFENCE sees it (R94, R104). -/
def State.abandonLoad (s : State) (c : Nat) : State :=
  let r := s.room c
  match r.tf.findIdx? isLoad, r.tf.find? isLoad with
  | some n, some f =>
    let s1 := s.setRoom c (({ r with tf := r.tf.eraseIdx n } : Classroom).fenceSees .t n)
    ((s1.setF (Csr.clsArrStat_LOAD_BUSY c) 0).signal c .t f).sampleEnd c .t f.entry f.sampled f.wait false
  | _, _ => s

/-- The banks as a streaming product issues: PRE = 1 swaps the shadow bank in (R78, R102); PRE = 0 loads
SRCB through the shadow bank, discarding an unconsumed TLOADW, and keeps the path busy until its own load has ended (R77, R104). -/
def State.productBanks (s : State) (c : Nat) (pre : Bool) (id : TileId) (data : List Nat) : State :=
  let s1 := if pre then s else (s.abandonLoad c).setF (Csr.clsArrStat_LOAD_BUSY c) 1
  let r := s1.room c
  let act := if pre then r.shadow else some ⟨id, data, false⟩
  (s1.setRoom c { r with active := act, shadow := none }).setFs
    [(Csr.clsArrStat_SHADOW_VALID c, 0), (Csr.clsArrStat_SHADOW_TR c, 0)]

/-- Issue of a product (R36, R76 to R81, R104, R116). -/
def State.issueProduct (s : State) (c : Nat) (op : Op) : State :=
  match s.ready c .t op with
  | none => s
  | some e =>
    if acceptsProduct (s.room c) then
      let s1 := s.popHead c .t e
      match productResult s c op e with
      | .error f => s1.issueFault c .t e f
      | .ok r =>
        let id : TileId := match e.b with
          | some b => ⟨b.base, b.fmt, b.e0, b.e1, b.empty, decide (orientOf op e.enc = 1)⟩
          | none => ⟨0, 0, 0, 0, true, false⟩
        let data := match e.b with
          | some b => match (s.view c .t).raws b with
            | .ok l => l
            | .error _ => []
          | none => []
        let s2 := if streams e then s1.productBanks c (bitOf e.enc 1) id data else s1
        let s3 := (s2.touchSources c e).launchInsn c .t e r
        if streams e then s3.wakeArrays c true else s3
    else s

/-! ## Meanings -/

/-- TMUL (R73 to R81): C = A · B. -/
def execTmul (c : Fin 64) (s : State) : Host.Outcome State Fault Refusal := .next (s.issueProduct c .tmul)

/-- TMULT (R73 to R81): C = A · Bᵀ, B through the transposer. -/
def execTmult (c : Fin 64) (s : State) : Host.Outcome State Fault Refusal := .next (s.issueProduct c .tmult)

/-- TMULTA (R73 to R81): C = Aᵀ · B. -/
def execTmulta (c : Fin 64) (s : State) : Host.Outcome State Fault Refusal := .next (s.issueProduct c .tmulta)

/-- TPAIR (R73 to R81): three BF16 passes in the orientation of ORIENT. -/
def execTpair (c : Fin 64) (s : State) : Host.Outcome State Fault Refusal := .next (s.issueProduct c .tpair)

/-- The weight-load path takes no load now: a TLOADW is under way, or the load of a product of its own has not ended, which is a
matter of time and free (R104; notes/assumptions/81.md). -/
def State.pathBusy (s : State) (c : Nat) : Bool :=
  s.flag (Csr.clsArrStat_LOAD_BUSY c) && (!s.ownLoad c || Config.freeBool s.drawn 0)

/-- TLOADW (R77, R103, R104): the tile is read into the shadow bank; the path is busy until completion. -/
def execTloadw (c : Fin 64) (s0 : State) : Host.Outcome State Fault Refusal :=
  match s0.ready c .t .tloadw with
  | none => .next s0
  | some e =>
    let s : State := if s0.ownLoad c then (s0.draw 0).2 else s0
    if s0.pathBusy c then .next s
    else
      match e.a with
      | none => .next s
      | some b =>
        let s1 := s.popHead c .t e
        match readTile (s.view c .t) c b with
        | .error f => .next (s1.issueFault c .t e f)
        | .ok data =>
          let tr := bitOf e.enc 0
          let id : TileId := ⟨b.base, b.fmt, b.e0, b.e1, b.empty, tr⟩
          let s2 := s1.setRoom c { s1.room c with shadow := some ⟨id, data, true⟩ }
          let s3 := s2.setFs [(Csr.clsArrStat_LOAD_BUSY c, 1), (Csr.clsArrStat_SHADOW_VALID c, 1),
            (Csr.clsArrStat_SHADOW_TR c, tr.toNat)]
          .next ((s3.touchSources c e).launchInsn c .t e Result.none)

end Sys2Proof.Machine
end

