-- ==== Sys2Proof/Machine/Sync.lean ====
section
/-! DEFINITION. The sync queue (R94 to R98) and the end of a lesson (R60). -/

namespace Sys2Proof.Machine

/-- The serial comparison of R95 and R170: (counter − v) mod 65,536 < 32,768. -/
def serialHolds (ctr v : Nat) : Bool := decide ((ctr + 65536 - v % 65536) % 65536 < 32768)

/-- Trigger counter `n` belongs to partition `p` (R337). -/
def State.ownsCtr (s : State) (p n : Nat) : Bool :=
  decide (s.getF (Csr.pftPartCtrs_BASE p) ≤ n) &&
    decide (n < s.getF (Csr.pftPartCtrs_BASE p) + s.getF (Csr.pftPartCtrs_COUNT p))

/-- The MOD condition of SWAIT (R94, R95). -/
def State.swaitHolds (s : State) (c e : Nat) : Bool :=
  if bitOf (synMod e) 0 then serialHolds (s.getF (Csr.pftCtr_VALUE (synTgt e))) (synValue e)
  else
    let n := s.getF (Csr.clsTok_COUNT c (synTgt e))
    if bitOf (synMod e) 1 then decide (n = synValue e) else decide (synValue e ≤ n)

/-- SWAIT (R94, R95): issues when its MOD condition holds too; it has no effect of its own. -/
def execSwait (c : Fin 64) (s : State) : Host.Outcome State Fault Refusal :=
  match s.ready c .s .swait with
  | none => .next s
  | some e =>
    if s.swaitHolds c e.enc then .next ((s.popHead c .s e).launchInsn c .s e Result.none) else .next s

/-- The token operation of SSIG (R94). -/
def State.tokenOp (s : State) (c : Nat) (e : QEntry) : State :=
  let t := synTgt e.enc
  match insnBits e.enc 0 2 with
  | 0 => s.tokenAdd c t (Int.ofNat (synValue e.enc)) 3 e.pc e.enc
  | 1 => s.tokenAdd c t (-(Int.ofNat (synValue e.enc))) 3 e.pc e.enc
  | 2 => s.setF (Csr.clsTok_COUNT c t) (synValue e.enc)
  | _ => s.setF (Csr.clsTok_TARGET c t) (synValue e.enc)

/-- SSIG (R94, R95): the token changes at issue. -/
def execSsig (c : Fin 64) (s : State) : Host.Outcome State Fault Refusal :=
  match s.ready c .s .ssig with
  | none => .next s
  | some e => .next (((s.popHead c .s e).launchInsn c .s e Result.none).tokenOp c e)

/-- The last issued instruction of the S queue changed by `f`. -/
def State.mapLastS (s : State) (c : Nat) (f : InFlight → InFlight) : State :=
  let r := s.room c
  s.setRoom c { r with sf := r.sf.mapIdx (fun i x => if i + 1 = r.sf.length then f x else x) }

/-- SFENCE (R94): it covers every instruction of the classroom issued before it, the MUPDs in the Satchel
included, and completes after them. Both scopes wait alike: completed writes are visible device-wide. -/
def execSfence (c : Fin 64) (s : State) : Host.Outcome State Fault Refusal :=
  match s.ready c .s .sfence with
  | none => .next s
  | some e =>
    let r := s.room c
    .next (((s.popHead c .s e).launchInsn c .s e Result.none).mapLastS c
      (fun f => { f with fence := (r.tf.length, r.vf.length, r.mf.length, r.sat.length) }))

/-- Key of launch barrier `b` of the context of classroom `c`. -/
def State.barKey (s : State) (c b : Nat) : Nat := s.getF (Csr.clsStatus_CTX c) * 16 + b

/-- A barrier. -/
def State.bar (s : State) (k : Nat) : Barrier := s.bars.get (fun _ => Barrier.empty) k

/-- The state with a barrier replaced. -/
def State.setBar (s : State) (k : Nat) (b : Barrier) : State :=
  { s with bars := s.bars.put (fun _ => Barrier.empty) k b }

/-- Release the SBAR on barrier `b` that classroom `c` waits in, if it still runs the LAUNCH of context `x` and waits. -/
def State.releaseBar (s : State) (x b c : Nat) : State :=
  let r := s.room c
  if s.getF (Csr.clsStatus_CTX c) = x then
    s.setRoom c { r with sf := r.sf.map (fun f =>
      if f.barWait && decide (synTgt f.entry.enc = b) then { f with barWait := false } else f) }
  else s

/-- SBAR (R97): the first arrival fixes VALUE; a different VALUE stops its own lesson; the last arrival
releases every participant and starts a new generation. -/
def execSbar (c : Fin 64) (s : State) : Host.Outcome State Fault Refusal :=
  match s.ready c .s .sbar with
  | none => .next s
  | some e =>
    let k := s.barKey c (synTgt e.enc)
    let b := s.bar k
    let s1 := s.popHead c .s e
    if b.arrived ≠ [] ∧ b.value ≠ synValue e.enc then .next (s1.issueFault c .s e (plainFault .illegalInsn))
    else
      let s2 := (s1.launchInsn c .s e Result.none).mapLastS c (fun f => { f with barWait := true })
      let arrived := b.arrived ++ [c.val]
      if arrived.length < synValue e.enc then .next (s2.setBar k ⟨synValue e.enc, arrived⟩)
      else .next (arrived.foldl (fun t x => t.releaseBar (s.getF (Csr.clsStatus_CTX c)) (synTgt e.enc) x) (s2.setBar k Barrier.empty))

/-- STRIG (R96): writes that completed before it issued are already visible device-wide; the increment is
applied at completion. -/
def execStrig (c : Fin 64) (s : State) : Host.Outcome State Fault Refusal :=
  match s.ready c .s .strig with
  | none => .next s
  | some e =>
    .next ((s.popHead c .s e).launchInsn c .s e ⟨[], noFlags, [.trig (synTgt e.enc) (synValue e.enc)]⟩)

/-- The T, V and M queues and the Satchel hold nothing and their engines are idle (R60). -/
def Classroom.quiet (r : Classroom) : Bool :=
  r.tq.isEmpty && r.vq.isEmpty && r.mq.isEmpty && r.tf.isEmpty && r.vf.isEmpty && r.mf.isEmpty && r.sat.isEmpty

/-- SEND (R60): the classroom enters ENDED once every memory operation of it has completed. -/
def execSend (c : Fin 64) (s : State) : Host.Outcome State Fault Refusal :=
  match s.ready c .s .send with
  | none => .next s
  | some e =>
    if (s.room c).quiet && !s.asking c then
      let t := (s.popHead c .s e).sampleIssue c .s
      .next ((t.2.sampleEnd c .s e t.1.1 t.1.2 false).setF (Csr.clsStatus_STATE c) 5)
    else .next s

end Sys2Proof.Machine
end

