-- ==== Sys2Proof/Machine/Complete.lean ====
section
/-! DEFINITION. Completion of issued instructions (R37, R40, R138, R161), token timeouts (R45) and the ramps
of the arrays (R113 to R118). -/

namespace Sys2Proof.Machine

/-- The mnemonic is a product. -/
def isProduct (o : Option Op) : Bool :=
  decide (o = some .tmul) || decide (o = some .tmult) || decide (o = some .tmulta) || decide (o = some .tpair)

/-- An issued product that streams rows. -/
def streaming (f : InFlight) : Bool := isProduct (insnOp f.entry.enc) && streams f.entry

/-- The active bank is still loading: the product that swapped it in waits for its TLOADW (R104). -/
def loadingActive (r : Classroom) : Bool :=
  match r.active with
  | some k => k.loading
  | none => false

/-- The instruction at place `n` of the T queue's issued list is the product that waits for the arrays or for its
stationary tile: the last streaming product while one waits (R104, R116). -/
def waitsForArrays (r : Classroom) (n : Nat) : Bool :=
  (r.waitArrays || loadingActive r) && (match r.tf[n]? with
    | some f => streaming f && !((r.tf.drop (n + 1)).any streaming)
    | none => false)

/-- An instruction may complete but for the tiles that it writes: it is the oldest of its queue, or only TLOADWs precede it, or it
is a TLOADW (R104); its barrier has released it (R97); what its SFENCE covers has completed (R94); the arrays stream it (R116);
no MUPD before it has still to write what it touches (R37); and the write buffers have accepted its requests' writes (R224). -/
def State.mayComplete (s : State) (c : Nat) (q : Queue) (n : Nat) : Option InFlight :=
  let r := s.room c
  match (r.flight q)[n]? with
  | none => none
  | some f =>
    let load (x : InFlight) := decide (insnOp x.entry.enc = some .tloadw)
    let st := s.getF (Csr.clsStatus_STATE c)
    if (load f || ((r.flight q).take n).all load) && !f.barWait && decide (f.fence = (0, 0, 0, 0))
      && !(decide (q = .t) && waitsForArrays r n) && (decide (st = 2) || decide (st = 3))
      && !(f.deferred && s.satClash c f.entry) && !(decide (q = .m) && s.unaccepted c false)
    then some f else none

/-- A bank that has finished loading. -/
def Bank.loaded (b : Bank) : Bank := { b with loading := false }

/-- The weight-load path falls idle as a TLOADW completes (R103). -/
def State.endLoad (s : State) (c : Nat) : State :=
  let r := s.room c
  (s.setRoom c { r with active := r.active.map Bank.loaded, shadow := r.shadow.map Bank.loaded }).setF
    (Csr.clsArrStat_LOAD_BUSY c) 0

/-- A product of PRE = 0. -/
def loadsOwn (f : InFlight) : Bool := streaming f && !bitOf f.entry.enc 1

/-- The stream of the `n`-th issued product has ended, with its own load before it: after the last product a gap begins and the
arrays pass from ACTIVE to FILL; the path is idle unless a later product's load keeps it busy (R77, R104, R113, R116). -/
def State.endStream (s : State) (c n : Nat) : State :=
  let later := ((s.room c).tf.drop (n + 1))
  let s1 := if s.ownLoad c && !later.any loadsOwn then s.setF (Csr.clsArrStat_LOAD_BUSY c) 0 else s
  if s.getF (Csr.clsArrStat_PSTATE c) = 3 && !later.any streaming then s1.setF (Csr.clsArrStat_PSTATE c) 4 else s1

/-- The alerts of a VQUIZ, in order: layer, bin, tile (R161). -/
def State.alertsOf (s : State) (c : Nat) (es : List Effect) : List (Nat × Nat × Nat) :=
  es.filterMap (fun e => match e with
    | .quiz layer tile bin => if s.getF (Csr.clsQuizCtrl_ALERT_BIN c) ≤ bin then some (layer, bin, tile) else none
    | _ => none)

/-- A VQUIZ with alerts: one SPOT_QUIZ record, and the halt of an armed SPOT_QUIZ_ALERT (R161). -/
def State.quizReport (s : State) (c p pc : Nat) (al : List (Nat × Nat × Nat)) : State :=
  match al with
  | [] => s
  | (layer, bin, tile) :: _ =>
    let s1 := s.recordP (s.clsPart c) 0x0105 0 1 c 0xFFFF 0 [(2, layer), (1, bin), (4, tile), (2, pc), (4, al.length)]
    if s1.partArmed p 6 && decide (s1.getF (Csr.clsStatus_STATE c) = 2) && !(s1.room c).stopping then
      (s1.setF (Csr.clsStatus_STATE c) 3).setRoom c { s1.room c with quizHalt := true }
    else s1

/-- The engine's number in CLS.FLAGS, none for the sync queue. -/
def engineOf (q : Queue) : Option Nat :=
  match q with
  | .t => some 0
  | .v => some 1
  | .m => some 2
  | .s => none

/-- The descriptor by which an instruction reaches address `a`: the one whose footprint holds it. -/
def QEntry.descAt (e : QEntry) (a : Nat) : Nat :=
  match [e.dst, e.b, e.a].findSome? (fun o => o.filter (fun d => d.covers a)) with
  | some d => d.idx
  | none => 0

/-- The address of a failed access. -/
def AccErr.addr (e : AccErr) : Nat :=
  match e with
  | .access a => a
  | .poison a => a

/-- The bytes that effects change in memory. -/
def effectAddrs (es : List Effect) : List Nat :=
  es.flatMap (fun e => match e with
    | .orBit a _ => [a]
    | .satBit _ a _ => [a]
    | .addF32 a _ => [a, a + 1, a + 2, a + 3]
    | _ => [])

/-- The addresses that an instruction writes at its completion, read-modify-writes included (R367). -/
def InFlight.addrs (f : InFlight) : List Nat := f.writes.map (fun w => w.1) ++ effectAddrs f.effects

/-- What an instruction does as it completes. -/
def State.finish (s : State) (c : Nat) (q : Queue) (n : Nat) (f : InFlight) : State :=
  let p := s.getF (Csr.clsStatus_PART c)
  let r := s.room c
  let sE := if q = .t && streaming f then s.endStream c n else s
  let s0 := (sE.setRoom c ((r.setFlight q ((r.flight q).eraseIdx n)).fenceSees q n))
  match s0.writableAll p f.writes with
  | .error e => ((if q = .m then s0.endPrefetch c else s0).sampleEnd c q f.entry f.sampled f.wait true).faultCls c (queueCode q)
      f.entry.pc f.entry.enc (accFault (f.entry.descAt e.addr) e)
  | .ok _ =>
    let t := (s0.demandWrite p f.writes).applyEffects c p f.entry.pc f.effects f.flags
    let s1 := match engineOf q with
      | some g => t.1.raiseFlags c g f.entry.pc t.2
      | none => t.1
    let s2 := if insnOp f.entry.enc = some .tloadw then s1.endLoad c else s1
    let s3 := if q = .m then s2.endPrefetch c else s2
    let s4 := s3.quizReport c p f.entry.pc (s.alertsOf c f.effects)
    (s4.signal c q f).sampleEnd c q f.entry f.sampled f.wait false

/-- The instruction's writes land and it completes, or they wait at a tile that moves or is write-protected, and it with them
(R208, R367). -/
def State.landOrStall (s : State) (c : Nat) (q : Queue) (n : Nat) (f : InFlight) : State :=
  let p := s.getF (Csr.clsStatus_PART c)
  if f.addrs.any (fun a => s.writeWaits p a) then s.stall (.insn c (queueCode q)) p f.addrs else s.finish c q n f

/-- INSTRUCTION_COMPLETE (R37, R40, R138). A move that waited for a MUPD forms its results first. -/
def execInstructionComplete (c : Fin 64) (q : Queue) (n : Nat) (s : State) : Host.Outcome State Fault Refusal :=
  match s.mayComplete c q n with
  | none => .next s
  | some f =>
    if f.deferred then
      match moveRun s c f.entry with
      | .error m => .next (s.stopDeferred c n f m)
      | .ok x => .next ((s.formDeferred c n (f.formed x)).landOrStall c q n (f.formed x))
    else .next (s.landOrStall c q n f)

/-- READ_INC (R40): the last source read of a T instruction or of a move; for the others it is the completion. With it a product's
stream ends (R113). The token is raised where the mode is READ_INC. -/
def execReadInc (c : Fin 64) (q : Queue) (n : Nat) (s : State) : Host.Outcome State Fault Refusal :=
  let r := s.room c
  match (r.flight q)[n]? with
  | none => .next s
  | some f =>
    if (q = .t || q = .m) && !f.readDone && !f.deferred && !(decide (q = .t) && waitsForArrays r n) then
      let s0 := if q = .t && streaming f then s.endStream c n else s
      let s1 := s0.setRoom c (r.setFlight q ((r.flight q).set n { f with readDone := true }))
      .next (if insnSmode f.entry.enc = 2 then s1.tokenAdd c (insnStok f.entry.enc) 1 (queueCode q) f.entry.pc f.entry.enc else s1)
    else .next s

/-- The token that a timed-out head waited on: its WTOK, or for a SWAIT on a token alone its TGT; 0 for a
trigger counter or a barrier that it has joined (R66). -/
def timeoutToken (s : State) (c : Nat) (e : QEntry) : Nat :=
  if (s.room c).sf.any (fun f => f.barWait && decide (f.entry = e)) then 0
  else if !s.waitHolds c e.enc then insnWtok e.enc
  else if insnOp e.enc = some .swait && !bitOf e.enc 0 then synTgt e.enc else 0

/-- The head waits on a token, a trigger counter or a barrier (R45, R95, R97). -/
def State.headWaits (s : State) (c : Nat) (q : Queue) : Option QEntry :=
  let r := s.room c
  match q, r.sf.find? (fun f => f.barWait) with
  | .s, some f => some f.entry
  | _, _ =>
    match r.queue q with
    | [] => none
    | e :: _ =>
      if !s.waitHolds c e.enc || (decide (insnOp e.enc = some .swait) && !s.swaitHolds c e.enc) then some e else none

/-- WAIT_TIMEOUT (R45). -/
def execWaitTimeout (c : Fin 64) (q : Queue) (s : State) : Host.Outcome State Fault Refusal :=
  if s.running c && s.flag (Csr.clsCtrl_TMO_EN c) then
    match s.headWaits c q with
    | none => .next s
    | some e => .next (s.faultCls c (queueCode q) e.pc e.enc ⟨.waitTimeout, 0, 0, timeoutToken s c e⟩)
  else .next s

/-! ## Ramps (R114 to R116) -/

/-- RAMP_SLOT_REQUEST (R113, R114): a gap has reached 65 cycles. The gap began with the end of the last stream, be the product still
in its drain. -/
def execRampSlotRequest (c : Fin 64) (s : State) : Host.Outcome State Fault Refusal :=
  let s1 := if s.getF (Csr.clsArrStat_PSTATE c) = 3 then s.endStream c (s.room c).tf.length else s
  if s1.getF (Csr.clsArrStat_PSTATE c) = 4 ∧ !s1.flag (Csr.clsArrCtrl_HOLD c) then .next (s1.askRamp c) else .next s1

/-- Ramp slots in use: a running KEEP slew holds two (R115, R421). -/
def State.rampSlots (s : State) : Nat := s.rampHold.length + 2 * s.getF Csr.clkTclk_SLEWING

/-- RAMP_SLOT_GRANT (R115): the oldest request gets one of the 16 slots; `waited` is the time in WAIT_SLOT, in
SCLK cycles. -/
def execRampSlotGrant (c : Fin 64) (waited : Nat) (s : State) : Host.Outcome State Fault Refusal :=
  if s.rampReq.head?.map (fun y => y.2) = some c.val ∧ s.rampSlots < 16 then
    let s1 := { s with rampReq := s.rampReq.tail, rampHold := s.rampHold ++ [c.val] }
    let r := s1.room c
    let s2 := (s1.setF (Csr.clsArrStat_RAMP_STEP c) 0).setRoom c { r with rampLeft := 16 }
    if s.getF (Csr.clsArrStat_PSTATE c) = 4 then .next (s2.setF (Csr.clsArrStat_PSTATE c) 5)
    else if s.getF (Csr.clsArrStat_PSTATE c) = 1 then
      let w := r.slotRest + waited
      .next ((((s2.setF (Csr.clsArrStat_PSTATE c) 2).addF (Csr.clsArrRamp_UP_COUNT c) 1).addF
        (Csr.clsArrRamp_SLOT_WAIT c) (w / 64)).setRoom c { s2.room c with slotRest := w % 64 })
    else .next (s2.freeRamp c)
  else .next s

/-- RAMP_STEP (R114, R116): one more step; the last reaches IDLE or FILL and frees the slot. -/
def execRampStep (c : Fin 64) (s : State) : Host.Outcome State Fault Refusal :=
  let r := s.room c
  let d := s.getF (Csr.clsArrStat_RAMP_STEP c) + 1
  match s.getF (Csr.clsArrStat_PSTATE c) with
  | 5 =>
    if d < r.rampLeft then .next (s.setF (Csr.clsArrStat_RAMP_STEP c) d)
    else .next ((((s.freeRamp c).setF (Csr.clsArrStat_PSTATE c) 0).setF (Csr.clsArrStat_RAMP_STEP c) 0).addF
      (Csr.clsArrRamp_DOWN_COUNT c) 1)
  | 2 =>
    if d < r.rampLeft then .next (s.setF (Csr.clsArrStat_RAMP_STEP c) d)
    else .next ((((s.freeRamp c).setF (Csr.clsArrStat_PSTATE c) (if r.waitArrays then 3 else 4)).setF
      (Csr.clsArrStat_RAMP_STEP c) 0).setRoom c { r with waitArrays := false })
  | _ => .next s

end Sys2Proof.Machine
end

