-- ==== Sys2Proof/Machine/FrontEnd.lean ====
section
/-! DEFINITION. The front end: instruction memory (R32), loops (R46 to R48), the checks at dispatch
(R52, R55, R58, R59, R69, R73 to R75, R78, R82 to R97, R185), and dispatch (R35). -/

namespace Sys2Proof.Machine

/-! ## What each mnemonic uses (R58, R67) -/

/-- No bit of `v` outside `m` is set. -/
def onlyBits (v m : Nat) : Bool := decide (v &&& m = v)

/-- A field that is not used is 0, no reserved MOD bit or value is set (R58, R67, R75, R83, R86 to R89, R91, R94,
R96, R97). -/
def fieldsOk (op : Op) (e : Nat) : Bool :=
  let rnd := decide (insnBits e 2 2 ≤ 1)
  let kind (n : Nat) := decide (insnBits e 0 2 < n)
  match op with
  | .tmul | .tmult | .tmulta => onlyBits (triMod e) 0xF && rnd
  | .tpair => onlyBits (triMod e) 0x30F && rnd && decide (insnBits e 8 2 ≠ 3)
  | .tloadw => decide (triDst e = 0) && decide (duoImm e = 0) && onlyBits (duoMod e) 1
  | .vadd | .vfma | .vsmx => onlyBits (triMod e) 3
  | .vexp | .vrsq => decide (duoMod e = 0)
  | .vamax => onlyBits (duoMod e) 7 && kind 2 &&
      (decide (insnBits e 0 2 = 0) ||
        (decide (triDst e = 0) && !bitOf e 2 && decide (duoImm e % 64 ≠ 0)
          && decide (1 ≤ duoImm e / 64 % 16) && decide (duoImm e / 64 % 16 ≤ 4) && decide (duoImm e / 2 ^ 14 = 0)))
  | .vnorm => onlyBits (triMod e) 0xFF1
  | .vquant => onlyBits (triMod e) 1
  | .vcvt => decide (duoImm e = 0) && decide (duoMod e = 0)
  | .vsumsq => decide (triDst e = 0) && decide (triB e = 0) && onlyBits (triMod e) 3 && kind 2
  | .vrng => onlyBits (duoMod e) 3 && kind 3
  | .vquiz => onlyBits (triMod e) 3 && kind 3
  | .mload | .mstore | .mconv => decide (duoImm e = 0) && decide (duoMod e = 0)
  | .mgather | .mupd => decide (triMod e = 0)
  | .mscatter => onlyBits (triMod e) 1
  | .mpref => decide (triDst e = 0) && decide (duoImm e = 0) && decide (duoMod e = 0)
  | .swait => onlyBits (synMod e) 7 &&
      (if bitOf e 0 then decide (insnBits e 1 2 = 0) else decide (insnBits e 1 2 ≤ 1) && decide (synTgt e < 64))
  | .ssig => onlyBits (synMod e) 3 && decide (synTgt e < 64)
  | .sfence => decide (synTgt e = 0) && decide (synValue e = 0) && onlyBits (synMod e) 1
  | .sbar => decide (synTgt e < 16) && decide (1 ≤ synValue e) && decide (synValue e ≤ 64) && decide (synMod e = 0)
  | .strig => decide (synValue e ≠ 0) && decide (synMod e = 0)
  | .sloop => true
  | .send => decide (synTgt e = 0) && decide (synValue e = 0) && decide (synMod e = 0) && decide (insnSmode e = 0)

/-- Token fields are 0 under mode NONE (R39, R40, R58). -/
def tokensOk (e : Nat) : Bool :=
  (decide (insnWmode e ≠ 0) || decide (insnWtok e = 0)) && (decide (insnSmode e ≠ 0) || decide (insnStok e = 0))

/-- Which of the descriptor fields DST, SRCA / SRC, SRCB a mnemonic names (R67). -/
def named (op : Op) (e : Nat) : Bool × Bool × Bool :=
  match op with
  | .tmul | .tmult | .tmulta | .tpair | .vadd | .vfma | .vsmx | .vnorm | .vquant | .vquiz | .mgather | .mscatter | .mupd =>
    (true, true, true)
  | .vexp | .vrsq | .vcvt | .vrng | .mload | .mstore | .mconv => (true, true, false)
  | .vamax => (decide (insnBits e 0 2 = 0), true, false)
  | .tloadw | .vsumsq | .mpref => (false, true, false)
  | .swait | .ssig | .sfence | .sbar | .strig | .sloop | .send => (false, false, false)

/-- Which of them it writes (R67). -/
def written (op : Op) : Bool × Bool × Bool :=
  match op with
  | .vsmx | .vquant => (true, false, true)
  | .vrng => (true, true, false)
  | .vquiz => (false, false, false)
  | _ => (true, false, false)

/-! ## Formats and shapes -/

/-- A source format of the V instructions (R82). -/
def vSource (d : RDesc) : Bool := decide (d.fmt ≤ 4)
/-- A destination format of the V instructions (R82). -/
def vDest (d : RDesc) : Bool := decide (d.fmt ≤ 2)
/-- FP32. -/
def isF32 (d : RDesc) : Bool := decide (d.fmt = 0)
/-- FP32 or BF16. -/
def isF32Bf16 (d : RDesc) : Bool := decide (d.fmt ≤ 1)
/-- `n` elements, or EMPTY. -/
def holds (d : RDesc) (n : Nat) : Bool := d.empty || decide (d.count = n)

/-- The stationary operand's limits, K and N taken by its orientation (R73). -/
def stationaryOk (tr : Bool) (b : RDesc) : Bool :=
  b.empty || (decide (b.ndim ≤ 1) &&
    (if tr then decide (b.e0 ≤ 128) && decide (b.e1 ≤ 512) else decide (b.e1 ≤ 128) && decide (b.e0 ≤ 512)))

/-- A check and the operand that a failure names: 0 DST, 1 SRCA or SRC, 2 SRCB (CLS.FAULT0.DESC, R66). -/
abbrev Check := Bool × Nat

/-- The operand of the first check that fails. -/
def firstFailing (l : List Check) : Option Nat := (l.find? (fun x => !x.1)).map (fun x => x.2)

/-- Shapes of a product (R73); with `kn` the limits of K and N too; agreement is not checked against an EMPTY operand (R51). -/
def productShape (orient : Nat) (kn : Bool) (d a b : RDesc) : List Check :=
  let flat (x : RDesc) := x.empty || decide (x.ndim ≤ 1)
  [(flat d, 0), (flat a, 1), (flat b, 2),
   (a.empty || b.empty || decide (prodK orient a = prodKb orient b), 2),
   (!kn || a.empty || b.empty || decide (prodK orient a ≤ 128), 1),
   (!kn || b.empty || decide (prodN orient b ≤ 512), 2),
   (!kn || d.empty || decide (d.e0 ≤ 512), 0),
   (d.empty || a.empty || decide (d.e1 = prodM orient a), 0),
   (d.empty || b.empty || decide (d.e0 = prodN orient b), 0)]

/-- Formats, places and shapes of a product (R73, R74, R75); the T engine checks the place of SRCB as it reads it. -/
def productOk (c : Nat) (op : Op) (e : Nat) (d a b : RDesc) : List Check :=
  let acc := bitOf e 0
  (if op = .tpair then
    [(isF32 d || (!acc && decide (d.fmt = 1)), 0), (decide (a.fmt = 6), 1), (decide (b.fmt = 6), 2)]
  else
    [(isF32 d || (!acc && decide (d.fmt ≤ 2)), 0), (decide (1 ≤ a.fmt) && decide (a.fmt ≤ 4), 1),
     (decide (1 ≤ b.fmt) && decide (b.fmt ≤ 4), 2), (decide (a.fmt = b.fmt), 2)])
  ++ [(inOb c d, 0), (inOb c a, 1)] ++ productShape (orientOf op e) true d a b

/-- The tile that the last TLOADW dispatched named matches a PRE = 1 product's SRCB (R78). -/
def State.preOk (s : State) (c : Nat) (op : Op) (e : Nat) (b : RDesc) : Bool :=
  !bitOf e 1 || (match (s.room c).lastTlw with
    | none => false
    | some t => decide (t.base = b.base) && decide (t.fmt = b.fmt) && decide (t.empty = b.empty)
      && (b.empty || (decide (t.e0 = b.e0) && decide (t.e1 = b.e1)))
      && decide (t.tr = decide (orientOf op e = 1)))

/-- The layer is named and its report card row exists (R55, R185). -/
def State.layerOk (s : State) (c : Nat) (d : RDesc) : Bool :=
  decide (d.layer ≠ 0xFFF) && decide (d.layer < s.getF (Csr.clsRcBase_ROWS c))

/-- Formats (INT8 is no source, R120), places and shapes of every mnemonic; `d`, `a`, `b` are DST, SRCA, SRCB where it names
them. The order of the checks, and which of two operands that disagree is named, are the model's (DESIGN CHOICE, notes/assumptions/38.md). -/
def State.operandsOk (s : State) (c : Nat) (op : Op) (e : Nat) (d a b : RDesc) : List Check :=
  let x := if a.empty then d else a
  match op with
  | .tmul | .tmult | .tmulta | .tpair => productOk c op e d a b ++ [(s.preOk c op e b, 2)]
  | .tloadw => [((decide (1 ≤ a.fmt) && decide (a.fmt ≤ 4)) || decide (a.fmt = 6), 1), (stationaryOk (bitOf e 0) a, 1)]
  | .vadd | .vfma => [(vDest d, 0), (vSource a, 1), (vSource b, 2), (sameExtents d a, 0)] ++
      (if bitOf e 0 then
        [(b.empty || (decide (b.e1 = 1) && decide (b.e2 = 1) && decide (b.e3 = 1)), 2), (b.empty || x.empty || decide (b.e0 = x.e0), 2)]
      else [(sameExtents b x, 2)])
  | .vexp | .vrsq => [(vDest d, 0), (vSource a, 1), (sameExtents d a, 0)]
  | .vcvt => [(decide (d.fmt ≠ 5), 0), (vSource a, 1), (sameExtents d a, 0)]
  | .vamax => if insnBits e 0 2 = 0 then [(isF32 d, 0), (vSource a, 1), (holds d 1, 0)]
      else [(isF32 a, 1), (a.empty || decide (a.count ≤ 64), 1)]
  | .vsmx => [(vDest d, 0), (isF32Bf16 a, 1), (isF32 b, 2), (sameExtents d a, 0), (b.empty || decide (b.e0 = 4), 2),
      (b.empty || x.empty || decide (b.e1 * b.e2 * b.e3 = x.e1 * x.e2 * x.e3 + 1), 2)]
  | .vnorm => [(vDest d, 0), (vSource a, 1), (vSource b, 2), (sameExtents d a, 0), (b.empty || x.empty || decide (b.count = x.e0), 2)]
  | .vquant => [(decide (3 ≤ d.fmt) && decide (d.fmt ≤ 5), 0), (vSource a, 1), (isF32 b, 2), (sameExtents d a, 0), (holds b 1, 2)]
  | .vsumsq => [(vSource a, 1), (s.layerOk c a, 1)]
  | .vrng => [(vDest d && (decide (insnBits e 0 2 ≠ 1) || isF32 d), 0), (isF32 a, 1), (holds a 16, 1)]
  | .vquiz => [(isF32Bf16 d, 0), (isF32Bf16 a, 1), (isF32Bf16 b, 2)] ++ productShape (insnBits e 0 2) false d a b
  | .mload => [(decide (d.fmt ≠ 5), 0), (decide (a.fmt ≠ 5), 1), (inOb c d, 0), (decide (d.fmt = a.fmt), 0), (sameExtents d a, 0)]
  | .mstore => [(decide (d.fmt ≠ 5), 0), (decide (a.fmt ≠ 5), 1), (inOb c a, 1), (decide (d.fmt = a.fmt), 0), (sameExtents d a, 0)]
  | .mconv => [(decide (d.fmt ≠ 5), 0), (decide (a.fmt ≠ 5), 1), (sameExtents d a, 0)]
  | .mgather => [(decide (d.fmt ≠ 5), 0), (decide (a.fmt ≠ 5), 1), (isF32 b, 2), (decide (d.fmt = a.fmt), 0),
      (d.empty || a.empty || decide (d.e0 = a.e0), 0), (d.empty || b.empty || decide (d.e1 * d.e2 * d.e3 = b.count), 0)]
  | .mscatter => [(decide (d.fmt ≠ 5) && (!bitOf e 0 || isF32 d), 0), (decide (a.fmt ≠ 5), 1), (isF32 b, 2), (decide (d.fmt = a.fmt), 1),
      (d.empty || a.empty || decide (d.e0 = a.e0), 1), (a.empty || b.empty || decide (a.e1 * a.e2 * a.e3 = b.count), 1)]
  | .mpref => [(decide (a.fmt ≠ 5), 1)]
  | .mupd => [(isF32 d && d.persist && s.layerOk c d, 0), (isF32Bf16 a, 1), (sameExtents d a, 0), (decide (b.fmt ≠ 5), 2),
      (holds b (64 / b.esz), 2)]
  | .swait | .ssig | .sfence | .sbar | .strig | .sloop | .send => []

/-! ## Descriptors at dispatch (R48, R52) -/

/-- Read descriptor `i`, resolve its base and check it alone. -/
def State.resolve (s : State) (c i : Nat) (dest mupd : Bool) : Except FaultInfo RDesc :=
  let b := s.descBits c i
  let eff := Int.ofNat (insnBits b 0 48) + s.advance c i (s.getF (Csr.clsStatus_LOOP_DEPTH c))
  let d := parseDesc i b eff.toNat
  if descBitsOk b && descRangeOk d eff && (!dest || destOk d mupd) then .ok d
  else .error ⟨.badDesc, i, 0, 0⟩

/-- Resolve an operand that the mnemonic names. -/
def State.resolveIf (s : State) (c i : Nat) (named dest mupd : Bool) : Except FaultInfo (Option RDesc) :=
  if named then do
    let d ← s.resolve c i dest mupd
    return some d
  else .ok none

/-- The stand-in for an operand that a mnemonic does not name. -/
def RDesc.absent : RDesc := ⟨0, 0, 0, 0, 0, 0xFFF, false, true, false, false, false, 1, 1, 1, 1, 0, 0, 0⟩

/-- All checks of an instruction other than SLOOP; the resolved queue entry (R35). ILLEGAL_INSN is judged before ACCESS and ACCESS before
BAD_DESC; descriptors are resolved in the order DST, SRCA, SRCB (DESIGN CHOICE, notes/assumptions/38.md). -/
def State.dispatchChecks (s : State) (c pc e depth : Nat) (op : Op) : Except FaultInfo QEntry := do
  if !(fieldsOk op e && tokensOk e) || (op = .send && depth ≠ 0) then .error (plainFault .illegalInsn)
  else
    let p := s.getF (Csr.clsStatus_PART c)
    if ((op = .strig) || (op = .swait && bitOf e 0)) && !s.ownsCtr p (synTgt e) then .error (plainFault .access)
    else
      let nm := named op e
      let wr := written op
      let mu := decide (op = .mupd)
      let d ← s.resolveIf c (triDst e) nm.1 wr.1 mu
      let a ← s.resolveIf c (triA e) nm.2.1 wr.2.1 mu
      let b ← s.resolveIf c (triB e) nm.2.2 wr.2.2 mu
      match firstFailing (s.operandsOk c op e (d.getD RDesc.absent) (a.getD RDesc.absent) (b.getD RDesc.absent)) with
      | none => return ⟨pc, e, d, a, b⟩
      | some r => .error ⟨.badDesc, if r = 0 then triDst e else if r = 1 then triA e else triB e, 0, 0⟩

/-! ## Loops (R46, R47) -/

/-- The first slot of the running lesson's instructions (R29). -/
def State.firstSlot (s : State) (c : Nat) : Nat := s.getF (Csr.clsLesson_FIRST_SEG c) * 512 + 56

/-- Write the loop state of level `l`. -/
def State.setLoop (s : State) (c l index count : Nat) (active : Bool) : State :=
  s.setFs [(Csr.clsLoop_INDEX c l, index), (Csr.clsLoop_COUNT c l, count), (Csr.clsLoop_ACTIVE c l, active.toNat)]

/-- Pass the end of each body that ends before `pc` (innermost first): the next iteration, or the loop
closes and the enclosing one is looked at. -/
def State.loopEnd (s : State) (c pc n : Nat) : State :=
  match n with
  | 0 => s.setF (Csr.clsPc_PC c) pc
  | k + 1 =>
    let r := s.room c
    match r.loops.getLast? with
    | none => s.setF (Csr.clsPc_PC c) pc
    | some (first, len) =>
      if pc ≠ first + len then s.setF (Csr.clsPc_PC c) pc
      else
        let i := s.getF (Csr.clsLoop_INDEX c (r.loops.length - 1)) + 1
        if i < s.getF (Csr.clsLoop_COUNT c (r.loops.length - 1)) then
          (s.setF (Csr.clsLoop_INDEX c (r.loops.length - 1)) i).setF (Csr.clsPc_PC c) first
        else
          State.loopEnd (((s.setLoop c (r.loops.length - 1) 0 0 false).setF (Csr.clsStatus_LOOP_DEPTH c)
            (r.loops.length - 1)).setRoom c { r with loops := r.loops.dropLast }) c pc k

/-- Execute SLOOP at slot `pc` (R46, R47). -/
def State.openLoop (s : State) (c pc e : Nat) : State :=
  let r := s.room c
  let depth := r.loops.length
  let len := loopBody e
  let fin := pc + 1 + len
  let inner := match r.loops.getLast? with
    | some (f, l) => decide (fin ≤ f + l)
    | none => true
  if insnBits e 40 16 ≠ 0 then s.faultCls c 4 pc e (plainFault .illegalInsn)
  else if len = 0 ∨ loopLevel e ≠ depth ∨ 4 ≤ depth ∨ inner = false ∨
      s.firstSlot c + s.getF (Csr.clsLesson_INSN_COUNT c) < fin then
    s.faultCls c 4 pc e (plainFault .loopNest)
  else if loopCount e = 0 then s.loopEnd c fin 4
  else
    ((s.setRoom c { r with loops := r.loops ++ [(pc + 1, len)] }).setLoop c depth 0 (loopCount e) true).setFs
      [(Csr.clsStatus_LOOP_DEPTH c, depth + 1), (Csr.clsPc_PC c, pc + 1)]

/-! ## Dispatch (R35) -/

/-- Place an entry at the tail of its queue, note TLOADW and SEND, and advance. A full queue stalls. -/
def State.enqueue (s : State) (c pc : Nat) (op : Op) (e : QEntry) : State :=
  let q := insnQueue e.enc
  let r := s.room c
  if 64 ≤ (r.queue q).length then s
  else
    let tlw := match op, e.a with
      | .tloadw, some b => some ⟨b.base, b.fmt, b.e0, b.e1, b.empty, bitOf e.enc 0⟩
      | _, _ => r.lastTlw
    let r1 := { (r.setQueue q (r.queue q ++ [e])) with lastTlw := tlw, ended := r.ended || decide (op = .send) }
    ((s.setRoom c r1).setF (occField c q) (r1.queue q).length).loopEnd c (pc + 1) 4

/-- An instruction fails its checks at dispatch. The ACCESS of an STRIG or SWAIT for a counter that the partition does not
own involves no descriptor and no address: FAULT0.DESC and FAULT2.DVA are open (free values; notes/assumptions/40.md). -/
def State.stopDispatch (s : State) (c pc e : Nat) (f : FaultInfo) : State :=
  if f.cause = .access then
    let a := s.draw 10
    let b := a.2.draw 10
    b.2.faultCls c 4 pc e { f with desc := a.1, dva := b.1 }
  else s.faultCls c 4 pc e f

/-- Decode the instruction in slot `pc`. -/
def State.decodeSlot (s : State) (c pc : Nat) : State :=
  let e := (s.rd (Csr.clsImem c pc)).toNat
  match insnOp e with
  | none => s.faultCls c 4 pc e (plainFault .illegalInsn)
  | some .sloop => s.openLoop c pc e
  | some op =>
    match s.dispatchChecks c pc e (s.room c).loops.length op with
    | .error f => s.stopDispatch c pc e f
    | .ok x => s.enqueue c pc op x

/-- One decode cycle of classroom `c`, with what the fetch met (R32). -/
def State.frontEnd (s : State) (c : Nat) (ecc : Ecc) : State :=
  if !s.running c || (s.room c).ended then s
  else
    let pc := s.getF (Csr.clsPc_PC c)
    if s.getF (Csr.clsLesson_INSN_COUNT c) ≤ (pc + 32768 - s.firstSlot c) % 32768 then
      ((s.draw 10).2).faultCls c 4 pc (s.draw 10).1 (plainFault .pcOverrun)
    else
      match ecc with
      | .uncorrectable => s.faultCls c 4 pc (s.rd (Csr.clsImem c pc)).toNat (plainFault .imemUe)
      | .corrected =>
        ((s.addF (Csr.clsImemEcc_CE_COUNT c) 1).setF (Csr.clsImemEcc_LAST_SLOT c) pc).decodeSlot c pc
      | .clean => s.decodeSlot c pc

/-! ## Meanings -/

/-- FRONT_END_DISPATCH (R35): one decode cycle. -/
def execFrontEndDispatch (c : Fin 64) (ecc : Ecc) (s : State) : Host.Outcome State Fault Refusal :=
  .next (s.frontEnd c ecc)

/-- SLOOP (R46, R47): the decode cycle of a SLOOP at CLS.PC; with any other instruction there, nothing. -/
def execSloop (c : Fin 64) (ecc : Ecc) (s : State) : Host.Outcome State Fault Refusal :=
  if insnOp (s.rd (Csr.clsImem c (s.getF (Csr.clsPc_PC c)))).toNat = some .sloop then .next (s.frontEnd c ecc)
  else .next s

end Sys2Proof.Machine
end

