-- ==== Sys2Proof/Machine/Satchel.lean ====
section
/-! DEFINITION. The Satchel: MUPD from its queue to its completion (R93, R169 to R188) and the close of a step
(R151, R157, R188). -/

namespace Sys2Proof.Machine

/-- The bytes of the parameter record of the head MUPD, whose SRCB names it. -/
def State.readRecord (s : State) (c : Nat) (e : QEntry) : Except FaultInfo (List Byte) :=
  match e.b with
  | none => .error ⟨.badDesc, 0, 0, 0⟩
  | some r => viaDesc r (s.readBytes (s.getF (Csr.clsStatus_PART c)) r.base 64)

/-! ## Descriptors that the record names -/

/-- A descriptor of the record is usable: R52 (as a destination where `dest`), PERSIST = 1 for a destination, its
format, and the master's extents, which an EMPTY tensor has only if the master is EMPTY too (R51, R178). -/
def State.recDescOk (s : State) (c i fmt : Nat) (dest : Bool) (master : RDesc) : Bool :=
  let d := s.tableDesc c i
  descBitsOk (s.descBits c i) && descRangeOk d (Int.ofNat d.base) && (!dest || (destOk d true && d.persist))
    && decide (d.fmt = fmt) && (master.empty || (!d.empty && sameExtents d master))

/-- The microcode operation in slot `i` (R183). -/
def State.ucode (s : State) (c i : Nat) : Nat :=
  if i % 2 = 0 then s.getF (Csr.clsSatUc_OP_LO c (i / 2)) else s.getF (Csr.clsSatUc_OP_HI c (i / 2))

/-- The program up to its END; none where an operation before it is illegal or there is no END. -/
def State.program (s : State) (c i fuel : Nat) : Option (List Nat) :=
  match fuel with
  | 0 => none
  | k + 1 =>
    let w := s.ucode c i
    if 2 ^ 24 ≤ w ∨ 0x0B < w % 256 then none
    else if w % 256 = 0 then some []
    else (s.program c (i + 1) k).map (fun r => w :: r)

/-- The first check of step 1 of R178 that fails, as the descriptor it names: `r` is the record's. -/
def State.paramsBad (s : State) (c : Nat) (q : Params) (r : Nat) (master grad : RDesc) : Option Nat :=
  let p := s.getF (Csr.clsStatus_PART c)
  let ds := q.dests
  let near (d : RDesc) : Check := (decide (q.algo = 3) || s.near c p d, d.idx)
  firstFailing (
    [((decide (q.algo ≤ 3) || decide (q.algo = 15)) && !q.reserved, r)]
    ++ ds.map (fun d => (s.recDescOk c d.1 d.2 true master, d.1))
    ++ (if q.algo = 3 then [(s.recDescOk c q.n1 0 false master, q.n1), (s.recDescOk c q.n2 0 false master, q.n2)] else [])
    ++ [(!q.frzMap || decide (q.frzBase % 4096 = 0), r), (decide (q.algo ≠ 15) || (s.program c 0 16).isSome, r), near master, near grad]
    ++ ds.map (fun d => near (s.tableDesc c d.1)))

/-! ## The Satchel's queue -/

/-- The head of the Satchel's queue. -/
def State.satHead (s : State) (c : Nat) : Option SatEntry := (s.room c).sat.head?

/-- The state with the head replaced, or removed. -/
def State.setSatHead (s : State) (c : Nat) (h : Option SatEntry) : State :=
  let r := s.room c
  let l := match h with
    | some x => x :: r.sat.tail
    | none => r.sat.tail
  let wait := l.head?.filter (fun x => decide (x.stage = SatStage.fence))
  (s.setRoom c { r with sat := l }).setFs [(Csr.clsSatStat_Q_OCC c, l.length), (Csr.clsSatStat_FENCE_WAIT c, wait.isSome.toNat),
    (Csr.clsSatStat_WAIT_LAYER c, (wait.bind (fun x => x.entry.dst)).elim 0 (fun d => d.layer))]

/-- Remove the head: a waiting SFENCE sees it go. -/
def State.dropSatHead (s : State) (c : Nat) : State :=
  let t := s.setRoom c ((s.room c).fenceSeesSat)
  t.setSatHead c none

/-- The head MUPD fails: the lesson stops with QUEUE M and nothing of the update is written (R178). -/
def State.satFault (s : State) (c : Nat) (x : SatEntry) (f : FaultInfo) : State :=
  ((s.dropSatHead c).sampleEnd c .m x.entry x.sampled x.wait true).faultCls c 2 x.entry.pc x.entry.enc f

/-- The classroom still runs what it has issued: RUNNING or HALTING. -/
def State.working (s : State) (c : Nat) : Bool :=
  decide (s.getF (Csr.clsStatus_STATE c) = 2) || decide (s.getF (Csr.clsStatus_STATE c) = 3)

/-- The tiles of a parameter record and of the step record that it names count as accessed (R198). -/
def State.touchRecord (s : State) (p base : Nat) (q : Params) : State := s.touch p [base, base + 63, q.stepRec + 0x50]

/-- SATCHEL_TAKE (R178 steps 1 and 2, R170): read and check the parameter record, read the fence entry. -/
def execSatchelTake (c : Fin 64) (s : State) : Host.Outcome State Fault Refusal :=
  match s.satHead c with
  | none => .next s
  | some x =>
    if x.stage ≠ .queued ∨ !s.working c then .next s
    else
      match x.entry.dst, x.entry.a with
      | some m, some g =>
        match s.readRecord c x.entry with
        | .error f => .next (s.satFault c x f)
        | .ok bs =>
          let q := parseParams bs
          match s.paramsBad c q (triB x.entry.enc) m g with
          | some i => .next (s.satFault c x ⟨.badDesc, i, 0, 0⟩)
          | none =>
            let p := s.getF (Csr.clsStatus_PART c)
            let rb := match x.entry.b with
              | some r => r
              | none => RDesc.absent
            let read : Except FaultInfo Nat := do
              let ft ← viaDesc rb (s.readBytes p (q.stepRec + 0x50) 6)
              let fe ← viaDesc rb (s.readBytes p (leNat ft + 8 * m.layer) 8)
              return leNat fe
            match read with
            | .error f => .next (s.satFault c x f)
            | .ok w =>
              .next ((s.touchRecord p rb.base q).setSatHead c (some
                { x with
                  stage := .fence, fenceCtr := w % 4096, fenceValid := bitOf w 12,
                  fenceTarget := w / 65536 % 65536, step := q.step, stepRec := q.stepRec, record := bs }))
      | _, _ => .next (s.satFault c x ⟨.badDesc, 0, 0, 0⟩)

/-- The fence has drained, or the entry is not valid (R169, R170). -/
def State.drained (s : State) (x : SatEntry) : Bool :=
  !x.fenceValid || serialHolds (s.getF (Csr.pftCtr_VALUE x.fenceCtr)) x.fenceTarget

/-! ## One element (R179, R183) -/

/-- The sixteen registers of the microcode and the flags gathered. -/
structure Regs where
  r : List Num
  flags : NFlags
deriving DecidableEq, Repr

/-- One microcode operation. -/
def ucodeStep (x : Regs) (w : Nat) : Regs :=
  let a := x.r.getD (w / 2 ^ 12 % 16) numZero
  let b := x.r.getD (w / 2 ^ 16 % 16) numZero
  let c := x.r.getD (w / 2 ^ 20 % 16) numZero
  let nanFlag (l : List Num) : NFlags := if l.any isNan then flInvalid else noFlags
  let v : NumF := match w % 256 with
    | 0x01 => add32 a b
    | 0x02 => sub32 a b
    | 0x03 => mul32 a b
    | 0x04 => fma32 a b c
    | 0x05 => div32 a b
    | 0x06 => sqrt32 a
    | 0x07 => (signNum a, nanFlag [a])
    | 0x08 => (absNum a, noFlags)
    | 0x09 => (maxNum a b, nanFlag [a, b])
    | 0x0A => (minNum a b, nanFlag [a, b])
    | _ => (a, noFlags)
  ⟨x.r.set (w / 256 % 16) v.1, orFlags x.flags v.2⟩

/-- What an element's update gives: p, m, v and the flags. -/
structure Elem where
  p : Num
  m : Num
  v : Num
  flags : NFlags
deriving DecidableEq, Repr

/-- Gather the flags of a step. -/
def keep (f : NFlags) (x : NumF) : Num × NFlags := (x.1, orFlags f x.2)

/-- p − lr × (wd × p + d), rounded as R179 gives. -/
def decayStep (p lr wd d : Num) (f : NFlags) : NumF :=
  let a := keep f (fma32 wd p d)
  let b := keep a.2 (mul32 lr a.1)
  keep b.2 (sub32 p b.1)

/-- The update menu (R179): `g` is already clipped but for APPLY. `k` gives LR to BC2, c1 and c2. -/
def updateElem (algo : Nat) (nesterov : Bool) (k : Nat → Num) (prog : List Nat) (p g m v n1 n2 : Num) : Elem :=
  let lr := k 0
  let b1 := k 1
  let b2 := k 2
  match algo with
  | 0 =>
    let m' := fma32 b1 m g
    let d := if nesterov then keep m'.2 (fma32 b1 m'.1 g) else m'
    let r := decayStep p lr (k 4) d.1 d.2
    ⟨r.1, m'.1, v, r.2⟩
  | 1 =>
    let t1 := mul32 (k 7) g
    let m' := keep t1.2 (fma32 b1 m t1.1)
    let g2 := keep m'.2 (mul32 g g)
    let t2 := keep g2.2 (mul32 (k 8) g2.1)
    let v' := keep t2.2 (fma32 b2 v t2.1)
    let num := keep v'.2 (mul32 (k 5) m'.1)
    let vb := keep num.2 (mul32 (k 6) v'.1)
    let sq := keep vb.2 (sqrt32 vb.1)
    let den := keep sq.2 (add32 sq.1 (k 3))
    let d := keep den.2 (div32 num.1 den.1)
    let r := decayStep p lr (k 4) d.1 d.2
    ⟨r.1, m'.1, v'.1, r.2⟩
  | 2 =>
    let t1 := mul32 (k 7) g
    let cc := keep t1.2 (fma32 b1 m t1.1)
    let t2 := keep cc.2 (mul32 (k 8) g)
    let m' := keep t2.2 (fma32 b2 m t2.1)
    let r := decayStep p lr (k 4) (signNum cc.1) m'.2
    ⟨r.1, m'.1, v, r.2⟩
  | 3 =>
    let r := sub32 p g
    ⟨r.1, n1, n2, r.2⟩
  | _ =>
    let r0 : List Num := [p, g, m, v] ++ (List.range 7).map k ++ [numOne, numZero, numZero, numZero, numZero]
    let z := prog.foldl ucodeStep ⟨r0, noFlags⟩
    ⟨z.r.getD 0 numZero, z.r.getD 2 numZero, z.r.getD 3 numZero, z.flags⟩

/-! ## The whole update (R178 step 5, R180 to R182) -/

/-- What the update of some elements has given so far. -/
structure Upd where
  writes : List (Nat × Byte)
  flags : NFlags
  effects : List Effect
  sumsq : NumF
  amax : Num
  updated : Nat
  frozen : Nat
deriving DecidableEq, Repr

/-- One written working copy: its bytes, the flags of its conversion, and the block flag of a saturation (R132, R150, R181). -/
def workCopy (v : View) (c rec : Nat) (d : RDesc) (n : Nat) (x : Num) : Except FaultInfo (List (Nat × Byte) × NFlags × List Effect) := do
  let y ← viaDesc d (v.encode c d n x)
  let effs := if y.2.overflow && decide (3 ≤ d.fmt) && v.s.hasOffsets c d then
      let fp := flagPlace (v.s.bofsBase c d) d.blocks (d.block n)
      [Effect.satBit rec fp.1 fp.2]
    else []
  return (elemBytes d n y.1, y.2, effs)

/-- Is element `n` frozen (R180)? -/
def isFrozen (v : View) (q : Params) (m : RDesc) (n : Nat) : Except AccErr Bool :=
  if q.frzAll then .ok true
  else if q.frzMap then do
    let b ← v.byte (q.frzBase + m.block n / 8)
    return bitOf b.toNat (m.block n % 8)
  else .ok false

/-- One element of the update: the moments are written before the master, and that before its working copies (R179, R181). -/
def updOne (v : View) (c : Nat) (q : Params) (clip : Num) (k : Nat → Num) (prog : List Nat) (md gd : RDesc)
    (acc : Upd) (n : Nat) : Except FaultInfo Upd := do
  let gv ← viaDesc gd (v.value c gd n)
  let pv ← viaDesc md (v.value c md n)
  let frz ← viaDesc md (isFrozen v q md n)
  let foldMax (x : Num) : Num := if isFinite x then maxNum acc.amax (absNum x) else acc.amax
  if frz then
    return { acc with flags := orFlags acc.flags (orFlags gv.2 pv.2), amax := foldMax pv.1, frozen := acc.frozen + 1 }
  else
    let d1 := v.s.tableDesc c q.m1
    let d2 := v.s.tableDesc c q.m2
    let mv ← if q.algo = 3 then .ok (numZero, noFlags) else viaDesc d1 (v.value c d1 n)
    let vv ← if q.usesM2 && decide (q.algo ≠ 3) then viaDesc d2 (v.value c d2 n) else .ok (numZero, noFlags)
    let e1 := v.s.tableDesc c q.n1
    let e2 := v.s.tableDesc c q.n2
    let x1 ← if q.algo = 3 then viaDesc e1 (v.value c e1 n) else .ok (numZero, noFlags)
    let x2 ← if q.algo = 3 then viaDesc e2 (v.value c e2 n) else .ok (numZero, noFlags)
    let g : NumF := if q.algo = 3 then (gv.1, noFlags) else mul32 gv.1 clip
    let r := updateElem q.algo (bitOf q.flags 0) k prog pv.1 g.1 mv.1 vv.1 x1.1 x2.1
    let u := sub32 pv.1 r.p
    let pw ← viaDesc md (v.encode c md n r.p)
    let mw ← viaDesc d1 (v.encode c d1 n r.m)
    let vw ← if q.usesM2 then do
        let y ← viaDesc d2 (v.encode c d2 n r.v)
        Except.ok (elemBytes d2 n y.1, dropNonfinite y.2)
      else Except.ok ([], noFlags)
    let cps ← ((if q.w8fEn then [q.w8f] else []) ++ (if q.w8bEn then [q.w8b] else []) ++ (if q.w16En then [q.w16] else [])).mapM
      (fun i => workCopy v c q.stepRec (v.s.tableDesc c i) n r.p)
    let sq := fma32 u.1 u.1 acc.sumsq.1
    return { writes := acc.writes ++ elemBytes d1 n mw.1 ++ vw.1 ++ elemBytes md n pw.1 ++ cps.flatMap (fun y => y.1),
             flags := ([gv.2, pv.2, mv.2, vv.2, x1.2, x2.2, g.2, r.flags, u.2, dropNonfinite pw.2, dropNonfinite mw.2, vw.2] ++
               cps.map (fun y => y.2.1)).foldl orFlags acc.flags,
             effects := acc.effects ++ cps.flatMap (fun y => y.2.2),
             sumsq := (sq.1, orFlags acc.sumsq.2 ⟨false, sq.2.overflow, false, false, false⟩),
             amax := foldMax r.p, updated := acc.updated + 1, frozen := acc.frozen }

/-- The whole update of a MUPD. -/
def State.updateAll (s : State) (c : Nat) (q : Params) (clip : Nat) (m g : RDesc) : Except FaultInfo Upd := do
  let p := s.getF (Csr.clsStatus_PART c)
  let v : View := ⟨s, p, []⟩
  let b1 := f32 (q.coef.getD 1 0)
  let b2 := f32 (q.coef.getD 2 0)
  let k (i : Nat) : Num :=
    match i with
    | 7 => (sub32 numOne b1).1
    | 8 => (sub32 numOne b2).1
    | _ => f32 (q.coef.getD i 0)
  let prog := (s.program c 0 16).getD []
  let u ← (List.range (if m.empty || g.empty then 0 else m.count)).foldlM (updOne v c q (f32 clip) k prog m g)
    ⟨[], if q.algo = 1 ∨ q.algo = 2 then orFlags (sub32 numOne b1).2 (sub32 numOne b2).2 else noFlags, [],
      (numZero, noFlags), numZero, 0, 0⟩
  s.checkWrites p m u.writes
  return u

/-! ## FENCE_DRAIN (R170, R178 steps 3 to 5, R156, R157) -/

/-- The armed numeric policies of a partition as POLICY holds them, with LATCHED (R174). -/
def State.policyByte (s : State) (p : Nat) : Nat :=
  (s.partArmed p 3).toNat + 2 * (s.partArmed p 4).toNat + 128

/-- Latch the policies on the step's first MUPD (R156, R178). -/
def State.latchPolicy (s : State) (p rec : Nat) : State :=
  if bitOf (s.memNat p (rec + 0x0D) 1) 7 then s else s.memPut p (rec + 0x0D) 1 (s.policyByte p)

/-- Accesses of the device's own, in order, each to `n` bytes from an address and with its write: the first that a
classroom's partition may not make, or that meets a poisoned tile. -/
def State.accessAll (s : State) (p : Nat) (l : List (Nat × Nat × Bool)) : Except AccErr Unit :=
  match l with
  | [] => .ok ()
  | (a, n, w) :: r => do
    let bs ← s.readBytes p a n
    if w then s.writableAll p (bytesAt a bs)
    s.accessAll p r

/-- The tiles of what the device reads count as accessed (R198). -/
def State.touchRanges (s : State) (p : Nat) (l : List (Nat × Nat × Bool)) : State :=
  s.touch p (l.flatMap (fun y => if y.2.2 then [] else [y.1, y.1 + y.2.1 - 1]))

/-- The tiles of the tensors that an update reads. -/
def State.touchUpdate (s : State) (c p : Nat) (q : Params) (m g : RDesc) : State :=
  s.touch p ((m :: g :: q.dests.map (fun d => s.tableDesc c d.1)).flatMap (fun d => d.tileAddrs))

/-- The state with the scale slots of a classroom as a MUPD read them at its issue (R54). -/
def State.withSlots (s : State) (c : Nat) (l : List Word) : State :=
  (List.range l.length).foldl (fun t n => t.wr (Csr.clsScale c n) (l.getD n 0)) s

/-- The bytes of block flags that effects set. -/
def flagBytes (es : List Effect) : List (Nat × Nat × Bool) :=
  es.filterMap (fun e => match e with
    | .orBit a _ => some (a, 1, true)
    | .satBit _ a _ => some (a, 1, true)
    | _ => none)

/-- The update of a MUPD formed: it waits for its completion; or an access of its completion is refused. -/
def State.holdUpdate (s : State) (c : Nat) (x : SatEntry) (q : Params) (m g : RDesc) (u : Upd) : State :=
  let p := s.getF (Csr.clsStatus_PART c)
  let row := s.getF (Csr.clsRcBase_DVA c) + 16 * m.layer + 8
  let pair := s.memNat p (x.stepRec + 0x40) 6 + 16 * q.amax
  let ax := s.memNat p pair 6
  match s.accessAll p ((if q.amaxEn then [(pair, 16, false), (ax, 4, true)] else []) ++ [(row, 4, true)] ++ flagBytes u.effects) with
  | .error e => s.satFault c x (accFault (triB x.entry.enc) e)
  | .ok _ =>
    { s.setSatHead c (some
        { x with
        stage := .updating, writes := spoil (2 * s.drawn) m (clashing false m
          ((match x.entry.b with
            | some r => [g, r]
            | none => [g]))) u.writes,
        flags := orFlags (maskFlags listAll u.flags) u.sumsq.2,
        effects := u.effects ++ [.addF32 row (encodeFloat fp32 u.sumsq.1)],
        amaxDva := ax, amaxBits := encodeFloat fp32 u.amax, amaxEn := q.amaxEn, updated := u.updated, frozen := u.frozen })
      with drawn := s.drawn + 1 }

/-- Addresses of `n` bytes. -/
def spread (a n : Nat) : List Nat := (List.range n).map (fun i => a + i)

/-- A record is written whole, or its writer waits for the tiles that hold it (R205, R208, R367). -/
def State.ringWaits (s : State) (p dva n : Nat) : Bool := decide (dva + n ≤ obWindow) && (spread dva n).any (fun a => s.writeWaits p a)

/-- The step's first MUPD cannot latch the policies: the byte's tile moves or is write-protected (R208, R367). -/
def State.latchWaits (s : State) (p rec : Nat) : Bool :=
  !bitOf (s.memNat p (rec + 0x0D) 1) 7 && s.writeWaits p (rec + 0x0D)

/-- Start the update once the fence has drained: the step record is read again, whole (R178 steps 3 to 5). The latch of the
policies is one atomic operation, which waits where its write does. -/
def State.startUpdate (s : State) (c : Nat) (x : SatEntry) (m g : RDesc) : State :=
  let p := s.getF (Csr.clsStatus_PART c)
  let q := parseParams x.record
  match s.accessAll p [(x.stepRec, 128, true)] with
  | .error e => s.satFault c x (accFault (triB x.entry.enc) e)
  | .ok _ =>
    if s.latchWaits p x.stepRec then s.stall (.insn c 5) p [x.stepRec + 0x0D]
    else
    let s1 := (s.touch p [x.stepRec, x.stepRec + 127]).latchPolicy p x.stepRec
    let nf := s1.memNat p (x.stepRec + 0x0C) 1
    if s1.memNat p x.stepRec 8 ≠ x.step ∨ !bitOf nf 1 ∨ (q.amaxEn ∧ s1.memNat p (x.stepRec + 0x3A) 2 ≤ q.amax) then
      s1.satFault c x ⟨.badDesc, triB x.entry.enc, 0, 0⟩
    else if bitOf nf 0 && bitOf (s1.memNat p (x.stepRec + 0x0D) 1) 0 then
      s1.setSatHead c (some { x with stage := .updating, skipped := true })
    else
      match (s1.withSlots c x.slots).updateAll c q (s1.memNat p (x.stepRec + 0x10) 4) m g with
      | .error f => s1.satFault c x f
      | .ok u => (s1.touchUpdate c p q m g).holdUpdate c x q m g u

/-- FENCE_DRAIN (R170, R178). -/
def execFenceDrain (c : Fin 64) (s : State) : Host.Outcome State Fault Refusal :=
  match s.satHead c with
  | none => .next s
  | some x =>
    if x.stage ≠ .fence ∨ !s.working c ∨ !s.drained x then .next s
    else
      match x.entry.dst, x.entry.a with
      | some m, some g => .next (s.startUpdate c x m g)
      | _, _ => .next s

/-- Mark the LAUNCH of a context: it completes with FENCE_TIMEOUT in place of DONE (R173). -/
def State.markFence (s : State) (x : Nat) : State :=
  match (s.ctx x).launch with
  | none => s
  | some l => s.setCtx x { s.ctx x with launch := some { l with fence := true } }

/-- FENCE_TIMEOUT (R173): one record for the MUPD; it keeps waiting. -/
def execFenceTimeout (c : Fin 64) (s : State) : Host.Outcome State Fault Refusal :=
  match s.satHead c with
  | none => .next s
  | some x =>
    if x.stage ≠ .fence ∨ x.reported ∨ !s.flag (Csr.clsSatCtrl_FT_EN c) ∨ s.drained x then .next s
    else
      let layer := match x.entry.dst with
        | some m => m.layer
        | none => 0xFFF
      let cx := s.getF (Csr.clsStatus_CTX c)
      let s1 := s.recordP (s.clsPart c) 0x0106 1 1 c cx 0
        [(8, x.step), (2, layer), (2, x.fenceTarget), (2, s.getF (Csr.pftCtr_VALUE x.fenceCtr) % 65536)]
      .next (((s1.addF (Csr.clsSatStat_FT_COUNT c) 1).setSatHead c (some { x with reported := true })).markFence cx)

/-! ## The close (R151, R157, R186, R188) -/

/-- FP32 sum from +0.0 in order. -/
def sumF32 (xs : List Nat) : Nat := encodeFloat fp32 (xs.foldl (fun a x => (add32 a (f32 x)).1) numZero)

/-- A histories' entry written from its scratch (R145, R175, R188). -/
def State.closeAmax (s : State) (p tab step i : Nat) : State :=
  let a := tab + 16 * i
  let d := s.memNat p (a + 14) 1 % 64 + 1
  s.memPut p (s.memNat p (a + 8) 6 + 4 * (step % d)) 4 (s.memNat p (s.memNat p a 6) 4)

/-- Column `col` of report card row `l`, summed over classrooms. -/
def State.cardSum (s : State) (p : Nat) (cs : List Nat) (l col : Nat) : Nat :=
  sumF32 (cs.map (fun c => s.memNat p (s.getF (Csr.clsRcBase_DVA c) + 16 * l + 4 * col) 4))

/-- The committed report card (R186). -/
def State.closeCard (s : State) (p rec : Nat) : State :=
  let out := s.memNat p (rec + 0x30) 6
  let rows := s.memNat p (rec + 0x38) 2
  let gn := s.memNat p (rec + 0x28) 6
  let cs := maskClassrooms (s.memNat p (rec + 0x20) 8)
  let g (l : Nat) : Nat := s.memNat p (gn + 4 * l) 4
  let head := leBytes 8 (s.memNat p rec 8) ++ leBytes 4 (s.memNat p (rec + 0x10) 4) ++
    leBytes 4 (sumF32 ((List.range rows).map g)) ++ leBytes 4 (g rows) ++ List.replicate 12 0
  let s1 := s.writeIfOk p out head
  (List.range rows).foldl (fun t l => t.writeIfOk p (out + 32 + 16 * l)
    (leBytes 4 (s.cardSum p cs l 0) ++ leBytes 4 (s.cardSum p cs l 1) ++ leBytes 4 (s.cardSum p cs l 2) ++ leBytes 4 (g l))) s1

/-- One flagged block raised: its nibble, and whether it was held at 15 (R151). -/
def State.bumpBlock (s : State) (p base n : Nat) : State × Bool :=
  let a := base + n / 2
  let b := s.memNat p a 1
  let o := if n % 2 = 0 then b % 16 else b / 16
  if o = 15 then (s, true) else (s.memPut p a 1 (b + (if n % 2 = 0 then 1 else 16)), false)

/-- The entry of a flag that a Satchel has set in the step now closed: the next commit takes it up (R150). -/
def State.ownFlag (s : State) (p rec a b : Nat) : Option SatFlag :=
  s.satFlags.find? (fun x => x.names p a b && decide (x.stepRec = rec))

/-- The bytes of a flag bitmap that stay after its read-and-clear: flags of the step's own Satchels. -/
def State.keptFlags (s : State) (p rec fb n : Nat) : List Byte :=
  (List.range n).map (fun i =>
    let a := fb + i
    let b := s.memNat p a 1
    BitVec.ofNat 8 (((List.range 8).filter (fun j => bitOf b j && (s.ownFlag p rec a j).isSome)).foldl setBit 0))

/-- One block scale area at the close (R150, R151). -/
def State.closeArea (s : State) (c p rec tab i : Nat) (bump : Bool) : State :=
  let a := tab + 16 * i
  let base := s.memNat p a 6
  let nb := s.memNat p (a + 8) 4
  let fb := base + 4096 * ceilDiv nb 8192
  let taken (n : Nat) : Bool := (s.ownFlag p rec (fb + n / 8) (n % 8)).elim true (fun x => x.other)
  let fl := (List.range nb).filter (fun n => bitOf (s.memNat p (fb + n / 8) 1) (n % 8) && taken n)
  if fl.isEmpty then s
  else
    let r := if bump then
        let cleared := s.writeIfOk p fb (s.keptFlags p rec fb (64 * ceilDiv nb 512))
        fl.foldl (fun (t : State × Nat × Nat) n =>
          let y := t.1.bumpBlock p base n
          if y.2 then (y.1, t.2.1, t.2.2 + 1) else (y.1, t.2.1 + 1, t.2.2)) (cleared, 0, 0)
      else (s, 0, 0)
    r.1.recordP (s.clsPart c) 0x0104 0 1 c 0xFFFF base [(4, fl.length), (4, r.2.1), (4, r.2.2)]

/-- Clear the scratch: every amax scratch element and every report card row of the classrooms named (R188). -/
def State.closeScratch (s : State) (p rec : Nat) : State :=
  let tab := s.memNat p (rec + 0x40) 6
  let s1 := (List.range (s.memNat p (rec + 0x3A) 2)).foldl (fun t i => t.memPut p (s.memNat p (tab + 16 * i) 6) 4 0) s
  let rows := s.memNat p (rec + 0x38) 2
  (maskClassrooms (s.memNat p (rec + 0x20) 8)).foldl
    (fun t c => t.writeIfOk p (s.getF (Csr.clsRcBase_DVA c)) (List.replicate (16 * rows) 0)) s1

/-- The close of a step by classroom `c`'s Satchel (R188). -/
def State.closeStep (s : State) (c p rec : Nat) : State :=
  let step := s.memNat p rec 8
  let nf := bitOf (s.memNat p (rec + 0x0C) 1) 0
  let pol := s.memNat p (rec + 0x0D) 1
  let skipped := s.stepSkipped p rec
  let amaxTab := s.memNat p (rec + 0x40) 6
  let s1 := if skipped then s
    else ((List.range (s.memNat p (rec + 0x3A) 2)).foldl (fun t i => t.closeAmax p amaxTab step i) s).closeCard p rec
  let s2 := (List.range (s1.memNat p (rec + 0x3C) 2)).foldl
    (fun t i => t.closeArea c p rec (s1.memNat p (rec + 0x48) 6) i (bitOf pol 1)) s1
  let s3 : State := { s2.closeScratch p rec with
    satFlags := s2.satFlags.filter (fun x => !(decide (x.part = p) && decide (x.stepRec = rec))) }
  let skips := min (s.memNat p (rec + 8) 4 + 1) 0xFFFFFFFF
  let s4 := (s3.memPut p rec 8 (step + 1)).memPut p (rec + 0x18) 4 0
  let s5 := (if skipped then s4.memPut p (rec + 8) 4 skips else s4).memPut p (rec + 0x0C) 2 0
  if skipped then s5.recordP (s.clsPart c) 0x0102 0 1 c 0xFFFF 0 [(8, step), (4, skips)]
  else if nf then s5.recordP (s.clsPart c) 0x0103 1 1 c 0xFFFF 0 [(8, step)]
  else s5

/-- The head MUPD completes: its flags, its place in the queue, its sample and its token (R93, R138). -/
def State.leaveSatchel (s : State) (c : Nat) (x : SatEntry) (fl : NFlags) : State :=
  let s1 := ((s.raiseFlags c 3 x.entry.pc fl).dropSatHead c).sampleEnd c .m x.entry x.sampled x.wait false
  s1.signal c .m ⟨x.entry, [], noFlags, [], false, false, (0, 0, 0, 0), false, 0, false⟩

/-- The writes of the head MUPD land (R93, R181, R182, R188): the update's bytes, the squares, the amax and the block flags, and
MUPD_DONE advances. Beside the state, the flags gathered. -/
def State.landUpdate (s : State) (c p : Nat) (x : SatEntry) : State × NFlags :=
  let t := (s.demandWrite p x.writes).applyEffects c p x.entry.pc x.effects x.flags
  let s1 := if x.amaxEn && !x.skipped then t.1.maxF32 p x.amaxDva x.amaxBits else t.1
  let s2 := (s1.addF (Csr.clsSatUpd_UPDATED c) x.updated).addF (Csr.clsSatFrz_FROZEN c) x.frozen
  (s2.memPut p (x.stepRec + 0x18) 4 ((s2.memNat p (x.stepRec + 0x18) 4 + 1) % 2 ^ 32), t.2)

/-- MUPD_DONE has reached MUPD_TOTAL (R188). -/
def State.stepFull (s : State) (p rec : Nat) : Bool := decide (s.memNat p (rec + 0x18) 4 = s.memNat p (rec + 0x14) 4)

/-- The head MUPD of classroom `c` ends (R93, R181, R182, R188): its writes land, the last one closes the step, and the token is
signalled. A close that meets an access it may not make stops the lesson with the update written and nothing of the close
(notes/assumptions/73.md). -/
def State.endMupd (s : State) (c : Nat) (x : SatEntry) : State :=
  let p := s.getF (Csr.clsStatus_PART c)
  match (do
    s.writableAll p x.writes
    s.accessAll p [(x.stepRec, 128, true)]) with
  | .error e => s.satFault c x (accFault (if x.writes.any (fun w => decide (w.1 = e.addr)) then x.entry.descAt e.addr
      else triB x.entry.enc) e)
  | .ok _ =>
    let t := s.landUpdate c p x
    if t.1.stepFull p x.stepRec then
      match t.1.accessAll p (t.1.closeAccesses p x.stepRec) with
      | .error e => t.1.satFault c x (accFault (triB x.entry.enc) e)
      | .ok _ => ((t.1.touchRanges p (t.1.closeAccesses p x.stepRec)).closeStep c p x.stepRec).leaveSatchel c x t.2
    else t.1.leaveSatchel c x t.2

/-- The addresses that a MUPD writes as it completes, read-modify-writes included (R367). -/
def SatEntry.addrs (x : SatEntry) : List Nat :=
  x.writes.map (fun w => w.1) ++ effectAddrs x.effects ++ (if x.amaxEn && !x.skipped then spread x.amaxDva 4 else [])
    ++ spread (x.stepRec + 0x18) 4

/-- The addresses that the close of a step writes (R188, R367). -/
def State.closeAddrs (s : State) (p rec : Nat) : List Nat :=
  spread rec 128 ++ ((s.closeAccesses p rec).filter (fun y => y.2.2)).flatMap (fun y => spread y.1 y.2.1)

/-- All that the head MUPD writes as it completes: with it the close, where it is the step's last. -/
def State.mupdAddrs (s : State) (c p : Nat) (x : SatEntry) : List Nat :=
  let t := (s.landUpdate c p x).1
  x.addrs ++ (if t.stepFull p x.stepRec then t.closeAddrs p x.stepRec else [])

/-- MUPD_COMPLETE (R93, R178). A tile that moves or is write-protected holds the Satchel, and all of the completion with it
(R208, R367); so does a write that no buffer has accepted (R224). -/
def execMupdComplete (c : Fin 64) (s : State) : Host.Outcome State Fault Refusal :=
  match s.satHead c with
  | none => .next s
  | some x =>
    let p := s.getF (Csr.clsStatus_PART c)
    if x.stage ≠ .updating ∨ !s.working c ∨ s.unaccepted c true then .next s
    else if (s.mupdAddrs c p x).any (fun a => s.writeWaits p a) then .next (s.stall (.insn c 5) p (s.mupdAddrs c p x))
    else .next (s.endMupd c x)

end Sys2Proof.Machine
end

