-- ==== Sys2Proof/Machine/Mig.lean ====
section
/-! DEFINITION. The MIG: command queues, their operations, tile moves, poison, component failures, aging
(R194 to R215, R266, R492) and MPREF promotion (R232). -/

namespace Sys2Proof.Machine

/-! ## The queue (R205, R207, R266) -/

/-- Replace the entry with index `idx`. -/
def State.setEntry (s : State) (p : Nat) (e : MigEntry) : State :=
  let q := s.mig p
  s.setMig p { q with started := q.started.map (fun x => if x.idx = e.idx then e else x) }

/-- An entry ends with a status. -/
def State.endEntry (s : State) (p : Nat) (e : MigEntry) (status : Nat) : State :=
  s.setEntry p { e with fresh := false, todo := [], status := some status }

/-- The status of an entry whose tiles are all dealt with. -/
def tileStatus (e : MigEntry) : Nat := if e.skipped = 0 then 0 else 1

/-- A tile operation's entry ends once no tile is left. -/
def State.settleEntry (s : State) (p : Nat) (e : MigEntry) : State :=
  if e.todo.isEmpty && decide (e.moving = 0) then s.endEntry p e (tileStatus e) else s.setEntry p e

/-- MIG_Q_TAIL of partition `p` written (R205). -/
def migTailWrite (p : Nat) (s : State) (v m : Nat) : State :=
  let f := Csr.migPartQTail_TAIL p
  if wroteF v m f = none then s
  else
    let new := s.merged v m f
    if tailOk (2 ^ s.getF (Csr.migPartQBase_LOG2 p)) (s.getF (Csr.migPartQHead_HEAD p)) (s.getF f) new then s.setF f new
    else s.setF (Csr.migPartQHead_Q_ERR p) 1

/-- MIG_Q_TAIL_WRITE (R205). -/
def execMigQTailWrite (port : Fin 4) (p : Fin 8) (w : AccWidth) (v : Word) (s : State) : Host.Outcome State Fault Refusal :=
  .next (s.hostWrite port (Csr.migPartQTail p) w v (migTailWrite p))

/-- A write of Q_BASE or CQ_BASE (R215). -/
def migBaseWrite (p : Nat) (cq : Bool) (s : State) (v m : Nat) : State :=
  if s.getF (Csr.migPartQHead_HEAD p) ≠ s.getF (Csr.migPartQTail_TAIL p) then s.setF (Csr.migPartQHead_Q_ERR p) 1
  else s.store (if cq then Csr.migPartCqBase p else Csr.migPartQBase p) v m

/-- A write of MIG.PART[p].CFG (R209). -/
def migCfgWrite (p : Nat) (s : State) (v m : Nat) : State :=
  let f := Csr.migPartCfg_MODE p
  let s1 := s.storeBut (Csr.migPartCfg p) v m [f]
  if wroteF v m f = none ∨ s.merged v m f = s.getF f then s1
  else if (s1.objsOf p).isEmpty then s1.setF f (s.merged v m f)
  else s1.setF (Csr.migPartCfg_MODE_IGN p) 1

/-- MIG_MODE_WRITE (R209). -/
def execMigModeWrite (port : Fin 4) (p : Fin 8) (w : AccWidth) (v : Word) (s : State) : Host.Outcome State Fault Refusal :=
  .next (s.hostWrite port (Csr.migPartCfg p) w v (migCfgWrite p))

/-- Index of the next entry to read. -/
def State.migNext (s : State) (p : Nat) : Nat := (s.getF (Csr.migPartQHead_HEAD p) + (s.mig p).started.length) % 65536

/-- An operation with a tile range. -/
def rangedOp (op : Nat) : Bool := decide (3 ≤ op) && decide (op ≤ 8)

/-- Reserved fields of an entry are 0, and the OP is known (R206). -/
def migFormatOk (b : List Byte) : Bool :=
  decide (1 ≤ fieldAt b 0 1) && decide (fieldAt b 0 1 ≤ 9) && decide (fieldAt b 1 1 < 2) && decide (fieldAt b 2 2 = 0)
    && decide (fieldAt b 8 4 < 2 ^ 20) && decide (fieldAt b 0x14 2 < 4) && decide (fieldAt b 0x16 2 = 0)
    && decide (fieldAt b 0x18 8 < 2 ^ 48) && decide (fieldAt b 0x20 8 < 2 ^ 48) && (b.drop 0x30).all (fun x => decide (x = 0))

/-- An entry from its bytes. -/
def parseMig (idx : Nat) (b : List Byte) : MigEntry :=
  { idx := idx, op := fieldAt b 0 1, tag := fieldAt b 4 4, obj := fieldAt b 8 4, first := fieldAt b 0x0C 4,
    count := fieldAt b 0x10 4, oflags := fieldAt b 0x14 2, dva := fieldAt b 0x18 8, chmask := fieldAt b 0x20 8,
    slicemask := fieldAt b 0x28 8, fresh := true, todo := [], moving := 0, done := 0, skipped := 0, status := none }

/-- An entry whose bytes could not be read: TAG and every other field are 0 (R205). -/
def unreadMig (idx status : Nat) : MigEntry :=
  ⟨idx, 0, 0, 0, 0, 0, 0, 0, 0, 0, false, [], 0, 0, 0, some status⟩

/-- The object that the entry names. -/
def State.entryObj (s : State) (p : Nat) (e : MigEntry) : Option Obj := s.obj (objKey p e.obj)

/-- The checks of R206 that every operation shares. -/
def State.entryOk (s : State) (p : Nat) (b : List Byte) (e : MigEntry) : Bool :=
  migFormatOk b && (decide (e.op = 1 ∨ e.op = 9) ||
    (match s.entryObj p e with
      | none => false
      | some o => !rangedOp e.op || decide (e.first + e.count ≤ o.tiles)))

/-- The entry names an object that an OBJ_DESTROY is taking away. -/
def State.entryDying (s : State) (p : Nat) (e : MigEntry) : Bool :=
  match s.entryObj p e with
  | some o => o.dying
  | none => false

/-- The MIG reads the next entry of partition `p` (R205 to R207). -/
def State.migRead (s : State) (p : Nat) : State :=
  let q := s.mig p
  let i := s.migNext p
  let slot := s.getF (Csr.migPartQBase_DVA p) + 64 * (i % 2 ^ s.getF (Csr.migPartQBase_LOG2 p))
  match s.readObjs p slot 64 with
  | .error e =>
    let st := match e with
      | .access _ => 0x0D
      | .poison _ => 0x10
    (s.countHit e).setMig p { q with started := q.started ++ [unreadMig i st] }
  | .ok b =>
    let e := parseMig i b
    if (bitOf (fieldAt b 1 1) 0 && !q.started.isEmpty) || s.entryDying p e then s
    else (s.touch p [slot]).setMig p { q with started := q.started ++
      [if s.entryOk p b e then e else { e with fresh := false, status := some 0x0E }] }

/-- MIG_ENTRY_READ (R205, R207): one entry at a time waits for its operation's step. -/
def execMigEntryRead (p : Fin 8) (s : State) : Host.Outcome State Fault Refusal :=
  if s.fatal ∨ s.migNext p = s.getF (Csr.migPartQTail_TAIL p) ∨ (s.mig p).started.any (fun e => e.fresh) then .next s
  else .next (s.migRead p)

/-- Send partition `p`'s MIG_CQ event with the last completion's status (R266). -/
def State.sendMigCq (s : State) (p status : Nat) : State :=
  (s.setMig p { s.mig p with unannounced := none }).sendEvent
    ⟨s.getF (Csr.sysPartCfg_EVT_PORT p), 3, p, 0, s.getF (Csr.migPartQHead_HEAD p), status⟩

/-- MIG_COMPLETION (R205, R266): the oldest entry's record is written, then Q_HEAD advances. -/
def execMigCompletion (p : Fin 8) (s : State) : Host.Outcome State Fault Refusal :=
  match (s.mig p).started with
  | [] => .next s
  | e :: r =>
    let slot := s.getF (Csr.migPartCqBase_DVA p) + 16 * (e.idx % 2 ^ s.getF (Csr.migPartQBase_LOG2 p))
    match e.status with
    | none => .next s
    | some st =>
      if s.fatal then .next s
      else if s.ringWaits p slot 16 then .next (s.stall (.record 0 p) p (spread slot 16))
      else
        let bs := leBytes 4 e.tag ++ leBytes 1 st ++ leBytes 3 0 ++ leBytes 4 e.done ++ leBytes 4 e.skipped
        let s1 := (s.writeRing p slot bs).setF (Csr.migPartQHead_HEAD p) (e.idx + 1)
        let s2 := s1.setMig p { started := r, unannounced := some st }
        .next (if st = 0 then s2 else s2.sendMigCq p st)

/-- MIG_CQ_EVENT_TIMER (R266): 10 µs after the first completion not yet announced. -/
def execMigCqEventTimer (p : Fin 8) (s : State) : Host.Outcome State Fault Refusal :=
  match (s.mig p).unannounced with
  | none => .next s
  | some st => .next (s.sendMigCq p st)

/-- The entry of partition `p` that waits for its operation's step, when its OP is `op`. -/
def State.freshEntry (s : State) (p op : Nat) : Option MigEntry :=
  if s.fatal then none else (s.mig p).started.find? (fun e => e.fresh && decide (e.op = op))

/-- An entry before `e` in the queue still acts on a tile of object `o` in [f, f + n): a tile that it has to judge, or moves (R207). -/
def State.earlierActs (s : State) (p : Nat) (e : MigEntry) (o f n : Nat) : Bool :=
  let before := (s.mig p).started.takeWhile (fun x => decide (x.idx ≠ e.idx))
  before.any (fun x => decide (x.obj = o) && x.todo.any (fun t => decide (f ≤ t) && decide (t < f + n)))
    || s.moves.any (fun m => decide (m.key / 16777216 = objKey p o) && decide (f ≤ m.key % 16777216)
        && decide (m.key % 16777216 < f + n) && before.any (fun x => decide (m.entry = some (p, x.idx))))

/-! ## OBJ_CREATE and OBJ_DESTROY (R194 to R196, R199, R206, R214) -/

/-- The object would overlap an object of the partition. -/
def State.overlapsObj (s : State) (p base tiles : Nat) : Bool :=
  (s.objsOf p).any (fun y => decide (base < y.2.base + y.2.tiles * 65536) && decide (y.2.base < base + tiles * 65536))

/-- Tiles of `n` that fall on the `i`-th of `k` places taken in turn. -/
def share (n k i : Nat) : Nat := (n + k - 1 - i) / k

/-- A home frame for each tile, in tile order. -/
def State.grantSlow (s : State) (ok t : Nat) (chs : List Nat) (n : Nat) : State :=
  match n with
  | 0 => s
  | k + 1 =>
    let ch := chs.getD (t % chs.length) 0
    let g := s.freeSlow ch
    let e := { TileEntry.absent with valid := true, zero := true, homeCh := ch, homeFrame := g.1.getD 0 }
    (g.2.setTile (tileKey ok t) e).grantSlow ok (t + 1) chs k

/-- An SRAM frame for each tile of an SRAM_ONLY object. -/
def State.grantSram (s : State) (ok t : Nat) (sls : List Nat) (n : Nat) : State :=
  match n with
  | 0 => s
  | k + 1 =>
    let sl := sls.getD (t % sls.length) 0
    let g := s.freeSram sl
    let e := { TileEntry.absent with valid := true, zero := true, sram := true, noHome := true, slice := sl, sframe := g.1.getD 0 }
    (g.2.setTile (tileKey ok t) e).grantSram ok (t + 1) sls k

/-- The checks of OBJ_CREATE: a status, or none. -/
def State.createCheck (s : State) (p : Nat) (e : MigEntry) : Option Nat :=
  let so := bitOf e.oflags 1
  let sls := setBits e.slicemask 64
  let chs := setBits e.chmask 48
  if (s.entryObj p e).isSome ∨ e.dva % 65536 ≠ 0 ∨ e.count = 0 ∨ 16777216 < e.count ∨ obWindow < e.dva + e.count * 65536
      ∨ s.overlapsObj p e.dva e.count then some 0x0E
  else if so then
    if sls.isEmpty ∨ sls.any (fun sl => !bitOf (s.getF (Csr.migPartSlices_MASK p)) sl || !s.dieOk (sl / 8)) then some 0x0E
    else if !s.sramQuota p e.count ∨ (sls.mapIdx (fun i sl => (i, sl))).any
        (fun y => decide (4096 < (s.usedSram y.2).length + share e.count sls.length y.1)) then some 0x0D
    else none
  else
    if chs.isEmpty ∨ chs.any (fun ch => !s.channelOk ch) then some 0x0E
    else if s.getF (Csr.migPartQuota_LP p) < s.getF (Csr.migPartUsage_LP p) + e.count
        ∨ (chs.mapIdx (fun i ch => (i, ch))).any
        (fun y => decide (261120 < (s.usedSlow y.2).length + share e.count chs.length y.1)) then some 0x0D
    else none

/-- OBJ_CREATE (R194 to R196, R199, R206). -/
def execObjCreate (p : Fin 8) (s : State) : Host.Outcome State Fault Refusal :=
  match s.freshEntry p 1 with
  | none => .next s
  | some e =>
    match s.createCheck p e with
    | some st => .next (s.endEntry p e st)
    | none =>
      let ok := objKey p e.obj
      let so := bitOf e.oflags 1
      let o : Obj := ⟨e.dva, e.count, bitOf e.oflags 0, so, e.chmask, false⟩
      let s1 := s.setObj ok (some o)
      let s2 := if so then (s1.grantSram ok 0 (setBits e.slicemask 64) e.count).addSram p e.count
        else (s1.grantSlow ok 0 (setBits e.chmask 48) e.count).addF (Csr.migPartUsage_LP p) e.count
      .next (s2.endEntry p { e with done := e.count } 0)

/-- Remove tile `t` of an object and free its frames, filled with zeros (R214). -/
def State.removeTile (s : State) (p ok t : Nat) : State :=
  let e := s.tile (tileKey ok t)
  let s1 := if e.sram then s.dropSram (tileKey ok t) else s
  let s2 := if s.homed (tileKey ok t) then (s1.zeroFrame (slowAddr e.homeCh e.homeFrame 0)).subF (Csr.migPartUsage_LP p) 1 else s1
  s2.setTile (tileKey ok t) TileEntry.absent

/-- Remove an object with its tiles. -/
def State.removeObj (s : State) (p ok : Nat) (o : Obj) : State :=
  let s1 := (List.range o.tiles).foldl (fun t i => t.removeTile p ok i) s
  (s1.setObj ok none).releaseHeld

/-- Nothing moves, or is about to move for an entry before `e`, in the object. -/
def State.objQuiet (s : State) (p : Nat) (e : MigEntry) (o : Obj) : Bool :=
  !s.earlierActs p e e.obj 0 o.tiles && s.moves.all (fun m => decide (m.key / 16777216 ≠ objKey p e.obj))

/-- The OBJ_DESTROY entries of partition `p` whose objects have come to rest end. -/
def State.settleDestroys (s : State) (p : Nat) : State :=
  (s.mig p).started.foldl (fun t e =>
    match t.entryObj p e with
    | some o =>
      if e.op = 2 ∧ !e.fresh ∧ e.status.isNone ∧ t.objQuiet p e o then
        (t.removeObj p (objKey p e.obj) o).endEntry p { e with done := o.tiles } 0
      else t
    | none => t) s

/-- OBJ_DESTROY (R206): refused while a tile has WP = 1; waits for moves on the object to finish. -/
def execObjDestroy (p : Fin 8) (s : State) : Host.Outcome State Fault Refusal :=
  match s.freshEntry p 2 with
  | none => .next s
  | some e =>
    match s.entryObj p e with
    | none => .next (s.endEntry p e 0x0E)
    | some o =>
      let ok := objKey p e.obj
      if (List.range o.tiles).any (fun t => (s.tile (tileKey ok t)).wp) then .next (s.endEntry p e 0x0C)
      else
        let s1 := s.setObj ok (some { o with dying := true })
        .next ((s1.setEntry p { e with fresh := false }).settleDestroys p)

/-! ## PROMOTE, DEMOTE and tile moves (R206 to R209) -/

/-- The tiles of an entry's range. -/
def rangeOf (e : MigEntry) : List Nat := (List.range e.count).map (fun i => e.first + i)

/-- PROMOTE (R206): its tiles wait for movers. -/
def execPromote (p : Fin 8) (s : State) : Host.Outcome State Fault Refusal :=
  match s.freshEntry p 3 with
  | none => .next s
  | some e =>
    if e.slicemask = 0 then .next (s.endEntry p e 0x0E)
    else .next (s.settleEntry p { e with fresh := false, todo := rangeOf e })

/-- DEMOTE (R206): its tiles wait for movers. -/
def execDemote (p : Fin 8) (s : State) : Host.Outcome State Fault Refusal :=
  match s.freshEntry p 4 with
  | none => .next s
  | some e => .next (s.settleEntry p { e with fresh := false, todo := rangeOf e })

/-- The slice that PROMOTE gives to tile `t`. -/
def promoteSlice (e : MigEntry) (t : Nat) : Nat :=
  let sls := setBits e.slicemask 64
  sls.getD ((t - e.first) % sls.length) 0

/-- Begin a move: MOVING is set and a mover taken. -/
def State.beginMove (s : State) (m : Move) : State :=
  (({ s with moves := s.moves ++ [m] }).setTile m.key { s.tile m.key with moving := true }).addF Csr.migStat_MOVERS_BUSY 1

/-- The entry passes over tile `t`. -/
def State.skipTile (s : State) (p : Nat) (e : MigEntry) (t : Nat) : State :=
  s.settleEntry p { e with todo := e.todo.erase t, skipped := e.skipped + 1 }

/-- The entry has acted on tile `t` at once. -/
def State.tileDone (s : State) (p : Nat) (e : MigEntry) (t : Nat) : State :=
  s.settleEntry p { e with todo := e.todo.erase t, done := e.done + 1 }

/-- A promotion of tile `t` for an entry begins, or is passed over. -/
def State.startPromote (s : State) (p : Nat) (e : MigEntry) (t : Nat) : State :=
  let tk := tileKey (objKey p e.obj) t
  let x := s.tile tk
  let sl := promoteSlice e t
  if x.sram || x.poison || !bitOf (s.getF (Csr.migPartSlices_MASK p)) sl then s.skipTile p e t
  else
    let g := s.promoteFrame p sl 0
    match g.1 with
    | none => g.2.skipTile p e t
    | some f =>
      let s2 := g.2.addSram p 1
      if x.zero then (s2.toSram tk sl f).tileDone p e t
      else (s2.setEntry p { e with todo := e.todo.erase t, moving := e.moving + 1 }).beginMove ⟨tk, some (p, e.idx), none, true, sl, f⟩

/-- A demotion of tile `t` for an entry begins, or is passed over. -/
def State.startDemote (s : State) (p : Nat) (e : MigEntry) (t : Nat) : State :=
  let tk := tileKey (objKey p e.obj) t
  let x := s.tile tk
  if !x.sram || x.pin || x.noHome || x.poison then s.skipTile p e t
  else if x.zero || !x.dirty then (s.toSlow tk).tileDone p e t
  else (s.setEntry p { e with todo := e.todo.erase t, moving := e.moving + 1 }).beginMove ⟨tk, some (p, e.idx), none, false, 0, 0⟩

/-- TILE_MOVE_START (R207, R208): tile `t` of the PROMOTE or DEMOTE entry with index `idx`, once no earlier entry acts
on it, it is neither moving nor write-protected, and a mover is free. -/
def execTileMoveStart (p : Fin 8) (idx t : Nat) (s : State) : Host.Outcome State Fault Refusal :=
  match (s.mig p).started.find? (fun e => decide (e.idx = idx) && decide (t ∈ e.todo)) with
  | none => .next s
  | some e =>
    let x := s.tile (tileKey (objKey p e.obj) t)
    if s.fatal || s.earlierActs p e e.obj t 1 || x.wp || x.moving || decide (64 ≤ s.moves.length) then .next s
    else .next ((if e.op = 3 then s.startPromote p e t else s.startDemote p e t).settleDestroys p)

/-- The entry or the classroom that a move serves counts its end. -/
def State.countMove (s : State) (m : Move) (moved : Bool) : State :=
  let s1 := match m.entry with
    | none => s
    | some (p, idx) =>
      match (s.mig p).started.find? (fun e => decide (e.idx = idx)) with
      | none => s
      | some e =>
        if moved then s.settleEntry p { e with moving := e.moving - 1, done := e.done + 1 }
        else s.settleEntry p { e with moving := e.moving - 1, skipped := e.skipped + 1 }
  match m.cls with
  | none => s1
  | some c => if moved then s1.addF (Csr.clsMprefStat_PROMOTED c) 1 else s1.addF (Csr.clsMprefDrop_DROPPED c) 1

/-- A move is over: its mover is free, a tile that a snapshot lists receives WP (R364), held writes go on, destroys that
waited end. -/
def State.endMove (s : State) (m : Move) (moved : Bool) : State :=
  let p := partOfTile m.key
  let s0 := ({ s with moves := s.moves.erase m }).subF Csr.migStat_MOVERS_BUSY 1
  let s1 := if s.snapSt p = 1 && (s.snap p).tiles.any (fun t => decide (t.key = m.key)) then
      s0.setTile m.key { s0.tile m.key with wp := true } else s0
  ((s1.countMove m moved).releaseHeld).settleDestroys (partOfTile m.key)

/-- `k` reads of a tile's frame have met an error that its code corrected (R202, R203). -/
def State.countCorrected (s : State) (e : TileEntry) (k : Nat) : State :=
  if e.sram then s.addF Csr.migSramEcc_CE k else s.addF (Csr.memCe_ONDIE e.homeCh) k

/-- TILE_ENTRY_SWITCH (R202, R203, R207, R208): the `n`-th move in progress has written its last byte; `corrected` of its reads met
an error that was corrected. -/
def execTileEntrySwitch (n : Nat) (corrected : Nat) (s : State) : Host.Outcome State Fault Refusal :=
  match s.moves[n]? with
  | none => .next s
  | some m =>
    let t := s.countCorrected (s.tile m.key) corrected
    if s.fatal then .next s
    else if m.toSram then .next ((t.toSram m.key m.slice m.frame).endMove m true)
    else .next ((t.toSlow m.key).endMove m true)

/-- Abandon a move: the tile stays at its source, and a destination frame is given back (R208). -/
def State.abandonMove (s : State) (m : Move) : State :=
  let s1 := s.setTile m.key { s.tile m.key with moving := false }
  let s2 := if m.toSram then s1.subSram (partOfTile m.key) 1 else s1
  s2.endMove m false

/-! ## PIN, UNPIN, QUERY, FENCE (R206) -/

/-- Every tile of an entry's range changed. -/
def State.mapTiles (s : State) (p : Nat) (e : MigEntry) (f : TileEntry → TileEntry) : State :=
  (rangeOf e).foldl (fun t i =>
    let tk := tileKey (objKey p e.obj) i
    t.setTile tk (f (t.tile tk))) s

/-- PIN (R206). -/
def execPin (p : Fin 8) (s : State) : Host.Outcome State Fault Refusal :=
  match s.freshEntry p 5 with
  | none => .next s
  | some e =>
    if s.earlierActs p e e.obj e.first e.count then .next s
    else .next ((s.mapTiles p e (fun x => { x with pin := true })).endEntry p { e with done := e.count } 0)

/-- UNPIN (R206). -/
def execUnpin (p : Fin 8) (s : State) : Host.Outcome State Fault Refusal :=
  match s.freshEntry p 6 with
  | none => .next s
  | some e =>
    if s.earlierActs p e e.obj e.first e.count then .next s
    else .next ((s.mapTiles p e (fun x => { x with pin := false })).endEntry p { e with done := e.count } 0)

/-- The 16 bytes of a tile entry (R197). -/
def tileBytes (oi : Nat) (e : TileEntry) : List Byte :=
  let lo := e.valid.toNat + 2 * e.sram.toNat + 4 * e.moving.toNat + 8 * e.poison.toNat + 16 * e.wp.toNat + 32 * e.dirty.toNat
    + 64 * e.pin.toNat + 128 * e.zero.toNat + 2 ^ 8 * e.age + 2 ^ 16 * oi + 2 ^ 36 * e.homeCh + 2 ^ 42 * e.homeFrame
  let hi := e.slice + 2 ^ 6 * e.sframe + 2 ^ 18 * e.noHome.toNat
  leBytes 8 lo ++ leBytes 8 hi

/-- The write of one tile entry into the buffer of a QUERY. -/
def State.queryBytes (s : State) (p : Nat) (e : MigEntry) (i : Nat) : List (Nat × Byte) :=
  bytesAt (e.dva + 16 * i) (tileBytes e.obj (s.tile (tileKey (objKey p e.obj) (e.first + i))))

/-- Write the tile entries of an entry's range, from the `i`-th on: up to the end, an error, or a tile of the buffer that moves or
is write-protected. Beside the state, how many are written, and the status where the operation ends. -/
def State.queryFrom (s : State) (p : Nat) (e : MigEntry) (i n : Nat) : State × Nat × Option Nat :=
  match n with
  | 0 => (s, i, some 0)
  | k + 1 =>
    let ws := s.queryBytes p e i
    match s.writableAll p ws with
    | .error (.access _) => (s, i, some 0x0D)
    | .error (.poison d) => (s.countHit (.poison d), i, some 0x10)
    | .ok _ =>
      if ws.any (fun w => decide (obWindow ≤ w.1)) then (s, i, some 0x0D)
      else if ws.any (fun w => s.writeWaits p w.1) then (s.stall (.record 3 p) p (ws.map (fun w => w.1)), i, none)
      else (s.writeAll p ws).queryFrom p e (i + 1) k

/-- QUERY (R197, R206): each tile entry is written as it stands when read; where the buffer's tile holds the write, the operation
goes on from there with the next QUERY. -/
def execQuery (p : Fin 8) (s : State) : Host.Outcome State Fault Refusal :=
  match s.freshEntry p 8 with
  | none => .next s
  | some e =>
    if s.earlierActs p e e.obj e.first e.count then .next s
    else if e.count = 0 ∨ 4096 < e.count ∨ e.dva % 16 ≠ 0 then .next (s.endEntry p e 0x0E)
    else
      let r := s.queryFrom p e e.done (e.count - e.done)
      match r.2.2 with
      | some st => .next (r.1.endEntry p { e with done := r.2.1 } st)
      | none => .next (r.1.setEntry p { e with done := r.2.1 })

/-- FENCE (R206): no action. -/
def execFence (p : Fin 8) (s : State) : Host.Outcome State Fault Refusal :=
  match s.freshEntry p 9 with
  | none => .next s
  | some e => .next (s.endEntry p e 0)

/-! ## RESTORE_TILE and retirement (R212) -/

/-- Retire the frame in which a poisoned tile's error lies: never granted again, counted. A tile that a failure or a
reset has poisoned has none. -/
def State.retire (s : State) (e : TileEntry) : State :=
  match e.bad with
  | none => s
  | some a =>
    let s1 := if a ∈ s.retired then s else { s with retired := s.retired ++ [a] }
    if a < slowBase then s1.addF Csr.migSramEcc_RETIRED 1 else s1.addF (Csr.memRetired_FRAMES ((a - slowBase) / 65536 / 262144)) 1

/-- A frame that a restored tile leaves is freed, filled with zeros (R214), but for the retired one. -/
def State.leaveFrame (s : State) (e : TileEntry) (a : Nat) : State := if e.bad = some a then s else s.zeroFrame a

/-- The channels in the order in which RESTORE_TILE tries them: the home channel, then those of the mask, ascending
and cyclically after it. -/
def restoreOrder (mask home : Nat) : List Nat :=
  let l := setBits mask 48
  home :: (l.filter (fun c => decide (home < c)) ++ l.filter (fun c => decide (c < home)))

/-- The slices in the order in which RESTORE_TILE tries them for an SRAM_ONLY tile. -/
def State.restoreSlices (s : State) (p sl : Nat) : List Nat := sl :: setBits (s.getF (Csr.migPartSlices_MASK p)) 64

/-- The source bytes of RESTORE_TILE: a status, or the 64 KiB. -/
def State.restoreSource (s : State) (p dva : Nat) : Except Nat (List Byte) :=
  match s.place p dva with
  | .tile _ 0 _ =>
    match s.readBytes p dva 65536 with
    | .ok bs => .ok bs
    | .error _ => .error 0x10
  | _ => .error 0x0E

/-- An address lies in a tile of an object of the partition. -/
def State.inTile (s : State) (p dva : Nat) : Bool :=
  match s.place p dva with
  | .tile _ _ _ => true
  | _ => false

/-- A poisoned tile of an object with a home is restored into a fresh home frame, or there is none. -/
def State.restoreSlow (s : State) (p tk : Nat) (o : Obj) (bs : List Byte) : Option State :=
  let x := s.tile tk
  match (restoreOrder o.chmask x.homeCh).find? (fun ch => s.channelOk ch && decide ((s.usedSlow ch).length < 261120)) with
  | none => none
  | some ch =>
    let g := s.freeSlow ch
    let f := g.1.getD 0
    let t := (g.2.retire x).leaveFrame x (slowAddr x.homeCh x.homeFrame 0)
    let t1 := if x.sram then (t.leaveFrame x (sramAddr x.slice x.sframe 0)).subSram p 1 else t
    some ((t1.pokeN (slowAddr ch f 0) bs).setTile tk
      { x with
        bad := none, poison := false, sram := false, slice := 0, sframe := 0, dirty := false, zero := false, noHome := false,
        homeCh := ch, homeFrame := f, age := 0 })

/-- A poisoned tile of an SRAM_ONLY object is restored into a fresh SRAM frame, or there is none. -/
def State.restoreSram (s : State) (p tk : Nat) (bs : List Byte) : Option State :=
  let x := s.tile tk
  if !s.sramQuota p 1 then none
  else
    match (s.restoreSlices p x.slice).find? (fun sl => s.hasSram sl) with
    | none => none
    | some sl =>
      let g := s.freeSram sl
      let f := g.1.getD 0
      some ((((g.2.retire x).leaveFrame x (sramAddr x.slice x.sframe 0)).pokeN (sramAddr sl f 0) bs).setTile tk
        { x with bad := none, poison := false, slice := sl, sframe := f, dirty := true, zero := false, noHome := true, age := 0 })

/-- RESTORE_TILE (R206, R212). -/
def execRestoreTile (p : Fin 8) (s : State) : Host.Outcome State Fault Refusal :=
  match s.freshEntry p 7, (s.freshEntry p 7).bind (s.entryObj p) with
  | some e, some o =>
    let tk := tileKey (objKey p e.obj) e.first
    if s.earlierActs p e e.obj e.first 1 then .next s
    else if e.count ≠ 1 ∨ e.dva % 65536 ≠ 0 ∨ !s.inTile p e.dva then .next (s.endEntry p e 0x0E)
    else if !(s.tile tk).poison then .next (s.endEntry p e 0)
    else
      let dry : Option State := if o.sramOnly then s.restoreSram p tk [] else s.restoreSlow p tk o []
      match dry, s.restoreSource p e.dva with
      | none, _ => .next (s.endEntry p e 0x0D)
      | some _, .error st => .next ((if st = 0x10 then s.countHit (.poison e.dva) else s).endEntry p e st)
      | some _, .ok bs =>
        let r := if o.sramOnly then s.restoreSram p tk bs else s.restoreSlow p tk o bs
        .next (((r.getD s).touch p [e.dva]).endEntry p { e with done := 1 } 0)
  | some e, none => .next (s.endEntry p e 0x0E)
  | none, _ => .next s

/-! ## Aging (R209) -/

/-- A resident tile's entry after an aging tick. -/
def aged (e : TileEntry) : TileEntry := { e with age := if e.accessed then 0 else min (e.age + 1) 255, accessed := false }

/-- AGING_TICK (R209): POOL mode's resident tiles. -/
def execAgingTick (s : State) : Host.Outcome State Fault Refusal :=
  if s.fatal ∨ s.getF Csr.migCtrl_AGE_TICK = 0 then .next s
  else .next ((s.tiles.filter (fun e => e.2.sram && s.pool (partOfTile e.1))).foldl (fun t e => t.setTile e.1 (aged e.2)) s)

/-! ## Poison, scrubbing and component failures (R202 to R204, R210, R213) -/

/-- The last uncorrectable read of a channel is captured (R216). -/
def State.captureUe (s : State) (ch frame part : Nat) (scrub : Bool) : State :=
  let s1 := s.addF (Csr.memUe_COUNT ch) 1
  if s1.flag (Csr.memLastUe_VALID ch) then s1
  else s1.setFs [(Csr.memLastUe_FRAME ch, frame), (Csr.memLastUe_PART ch, part), (Csr.memLastUe_SCRUB ch, scrub.toNat),
    (Csr.memLastUe_VALID ch, 1)]

/-- Moves of a tile are abandoned. -/
def State.abandonTile (s : State) (tk : Nat) : State :=
  (s.moves.filter (fun m => decide (m.key = tk))).foldl (fun t m => t.abandonMove m) s

/-- An address of partition `p` lies in a tile. -/
def State.onTile (s : State) (p tk a : Nat) : Bool :=
  match s.place p a with
  | .tile k _ _ => decide (k = tk)
  | _ => false

/-- The requests that wait on a tile, merged ones included (R210). -/
def State.waitingOn (s : State) (tk : Nat) : List Requester :=
  let e := s.tile tk
  if e.sram then (s.sliceReqs.filter (fun y => decide (y.1 = e.slice) && decide (y.2.frame = e.sframe))).map (fun y => y.2.who)
  else
    let q := s.sorter e.homeCh
    ((q.waiting ++ q.parked).filter (fun r => decide (r.frame = e.homeFrame))).flatMap (fun r => r.who :: r.merged)

/-- The demand writes held at a tile. -/
def State.heldOn (s : State) (tk : Nat) : List HeldWrite :=
  s.held.filter (fun h => h.writes.any (fun w => s.onTile h.part tk w.1))

/-- How many requesters wait on a tile. -/
def State.tileWaiters (s : State) (tk : Nat) : Nat := (s.waitingOn tk).length + (s.heldOn tk).length

/-- The requests that wait on a tile are answered and leave. -/
def State.dropWaiting (s : State) (tk : Nat) : State :=
  let e := s.tile tk
  if e.sram then
    let t : State := { s with sliceReqs := s.sliceReqs.filter (fun y => !(decide (y.1 = e.slice) && decide (y.2.frame = e.sframe))) }
    (s.waitingOn tk).foldl (fun u r => u.showTags r) t
  else
    let q := s.sorter e.homeCh
    s.setSorter e.homeCh { q with
      waiting := q.waiting.filter (fun r => decide (r.frame ≠ e.homeFrame))
      parked := q.parked.filter (fun r => decide (r.frame ≠ e.homeFrame)) } (s.waitingOn tk)

/-- Where an issued instruction meets a tile: the descriptor and the address. -/
def State.meets (s : State) (p tk : Nat) (f : InFlight) : Option (Nat × Nat) :=
  match f.addrs.find? (fun a => s.onTile p tk a) with
  | some a => some (f.entry.descAt a, a)
  | none => [f.entry.a, f.entry.b].findSome? (fun o => o.bind (fun d =>
      (d.tileAddrs.find? (fun a => s.onTile p tk (max a d.base))).map (fun a => (d.idx, max a d.base))))

/-- The oldest issued instruction of a queue that meets the tile receives POISONED (R210, R211): the lesson stops. It waited at the
detection, so that it is no hit of a later access. -/
def State.poisonInsn (s : State) (c : Nat) (q : Queue) (tk : Nat) : State :=
  let r := s.room c
  let p := s.getF (Csr.clsStatus_PART c)
  let n := (r.flight q).findIdx (fun f => (s.meets p tk f).isSome)
  match (r.flight q)[n]? with
  | none => s
  | some f =>
    let x := (s.meets p tk f).getD (0, 0)
    let t := s.setRoom c ((r.setFlight q ((r.flight q).eraseIdx n)).fenceSees q n)
    ((if q = .m then t.endPrefetch c else t).sampleEnd c q f.entry f.sampled f.wait true).recordStop c (queueCode q) f.entry.pc f.entry.enc
      ⟨.poison, x.1, x.2, 0⟩

/-- The head MUPD receives POISONED. -/
def State.poisonMupd (s : State) (c tk : Nat) : State :=
  match s.satHead c with
  | none => s
  | some x =>
    let p := s.getF (Csr.clsStatus_PART c)
    let y := (s.meets p tk ⟨x.entry, x.writes, noFlags, x.effects, false, false, (0, 0, 0, 0), false, 0, false⟩).getD
      (triB x.entry.enc, (x.entry.b.map (fun d => d.base)).getD 0)
    ((s.dropSatHead c).sampleEnd c .m x.entry x.sampled x.wait true).recordStop c 2 x.entry.pc x.entry.enc ⟨.poison, y.1, y.2, 0⟩

/-- An M engine or a Satchel whose request waited receives POISONED. -/
def State.poisonReader (s : State) (tk : Nat) (r : Requester) : State :=
  match r with
  | .mDemand c => s.poisonInsn c .m tk
  | .satchel c => s.poisonMupd c tk
  | _ => s

/-- A writer that keeps its bytes and waited at the tile receives POISONED. -/
def State.poisonWriter (s : State) (tk : Nat) (h : HeldWrite) : State :=
  match h.src with
  | .insn c 0 => s.poisonInsn c .t tk
  | .insn c 1 => s.poisonInsn c .v tk
  | .insn c 2 => s.poisonInsn c .m tk
  | .insn c 5 => s.poisonMupd c tk
  | _ => s

/-- A tile is poisoned (R208, R210): POISON is set and the record written; then everyone who waits on the tile is answered
POISONED, and a move of it is abandoned. -/
def State.poisonNow (s : State) (tk : Nat) : State :=
  let t := (s.poisonTile tk (s.tileWaiters tk)).dropWaiting tk
  let u := (s.waitingOn tk).eraseDups.foldl (fun v r => v.poisonReader tk r) t
  (((s.heldOn tk).foldl (fun v h => v.poisonWriter tk h) u).abandonTile tk).releaseHeld

/-- An uncorrectable error in the frame at `a` poisons a tile; RESTORE_TILE retires that frame (R210, R212). -/
def State.poisonFrame (s : State) (tk a : Nat) : State := (s.setTile tk { s.tile tk with bad := some a }).poisonNow tk

/-- A read of a tile that is not poisoned meets an uncorrectable error (R202, R203, R210): it is counted, and the tile poisoned. -/
def State.failTile (s : State) (tk : Nat) : State :=
  let e := s.tile tk
  let t := if e.sram then s.addF Csr.migSramEcc_UE 1 else s.captureUe e.homeCh e.homeFrame (partOfTile tk) false
  t.poisonFrame tk (tileAddr e 0)

/-- POISON_TILE (R202, R203, R210): an uncorrectable error in tile `t` of object `oi`. A ZERO tile's frame is never read. -/
def execPoisonTile (p : Fin 8) (oi : Fin 1048576) (t : Nat) (s : State) : Host.Outcome State Fault Refusal :=
  let tk := tileKey (objKey p oi) t
  let e := s.tile tk
  if !e.valid || e.poison || e.zero then .next s else .next (s.failTile tk)

/-- The key of the tile whose home is a frame. -/
def State.homeOf (s : State) (ch f : Nat) : Option Nat :=
  (s.tiles.find? (fun e => e.2.valid && s.homed e.1 && decide (e.2.homeCh = ch) && decide (e.2.homeFrame = f))).map (fun e => e.1)

/-- SCRUB_READ (R203, R204): the patrol scrub reads a frame of a channel. -/
def execScrubRead (ch : Fin 48) (frame : Fin 262144) (ecc : Ecc) (s : State) : Host.Outcome State Fault Refusal :=
  if !s.flag (Csr.memScrub_EN ch) ∨ s.getF (Csr.memStatus_STATE ch) ≠ 1 then .next s
  else
    match ecc with
    | .clean => .next s
    | .corrected => .next (s.addF (Csr.memCe_ONDIE ch) 1)
    | .uncorrectable =>
      match s.homeOf ch frame with
      | none => .next (s.captureUe ch frame 0 true)
      | some tk =>
        let s1 := s.captureUe ch frame (partOfTile tk) true
        .next (if (s.tile tk).poison then s1 else s1.poisonFrame tk (slowAddr ch frame 0))

/-- The copies of a component failure's record (R213, R385): one in the device ring with the total, one in the ring of
each affected partition with its own count. -/
def State.failRecord (s : State) (type kind unit : Nat) (keys affected : List Nat) : State :=
  let fl := if affected.isEmpty then 0 else 2
  let r (p n : Nat) : Rec := ⟨type, 1, p, kind, unit, 0xFFFF, 0, [(1, unit), (4, n)]⟩
  let s1 := (s.addF (Csr.errSevCount_COUNT 1) 1).devRecord (r 255 keys.length) fl 1
  affected.foldl (fun t p => t.partRecord p (r p (keys.filter (fun k => decide (partOfTile k = p))).length) 1 1) s1

/-- A classroom of a failed die (R116, R213, R257): one that runs a LAUNCH stops with cause POISON; its arrays are IDLE
at once. What FAULT0 to FAULT2 name beside the cause is left open (free values). -/
def State.loseClassroom (s : State) (c : Nat) : State :=
  let s0 : State := { s with rampReq := s.rampReq.filter (fun y => decide (y.2 ≠ c)), rampHold := s.rampHold.erase c }
  let s1 := (s0.setRoom c { s0.room c with waitArrays := false }).setF (Csr.clsArrStat_PSTATE c) 0
  let s2 := s1.setF (Csr.clsArrStat_RAMP_STEP c) 0
  let st := s.getF (Csr.clsStatus_STATE c)
  if 1 ≤ st ∧ st ≤ 4 then
    let d := s2.draw 10
    let e := d.2.draw 10
    e.2.recordStop c 4 (s.getF (Csr.clsPc_PC c)) 0 ⟨.poison, d.1 % 256, e.1 % 2 ^ 48, 0⟩
  else s2.setF (Csr.clsStatus_STATE c) 7

/-- SRAM_DIE_FAILED (R213, R361): the SRAM die of house `h` fails. -/
def execSramDieFailed (h : Fin 8) (s : State) : Host.Outcome State Fault Refusal :=
  if h.val ∈ s.deadDies then .next s
  else
    let s0 := { s with deadDies := s.deadDies ++ [h.val] }
    let s1 := (s0.moves.filter (fun m => m.toSram && decide (m.slice / 8 = h.val))).foldl (fun t m => t.abandonMove m) s0
    let here := s1.tiles.filter (fun e => e.2.valid && e.2.sram && decide (e.2.slice / 8 = h.val))
    let clean := here.filter (fun e => !e.2.dirty && !e.2.noHome && !e.2.poison)
    let lost := (here.filter (fun e => (e.2.dirty || e.2.noHome) && !e.2.poison)).map (fun e => e.1)
    let s2 := clean.foldl (fun t e => (t.abandonTile e.1).toSlow e.1) s1
    let owners : List Nat := (List.range 8).filterMap (fun i => s2.clsPart (8 * h.val + i))
    let parts := (List.range 8).filter (fun p => s2.partOn p && (decide (p ∈ owners) || here.any (fun e => decide (partOfTile e.1 = p))))
    let s3 := s2.failRecord 0x0202 13 h lost parts
    let s4 := lost.foldl (fun t k => t.poisonNow k) s3
    .next (((List.range 8).foldl (fun t i => t.loseClassroom (8 * h.val + i)) s4).releaseHeld)

/-- CHANNEL_FAILED (R213): training of a channel is lost and not regained. -/
def execChannelFailed (ch : Fin 48) (s : State) : Host.Outcome State Fault Refusal :=
  if s.getF (Csr.memStatus_STATE ch) = 2 then .next s
  else
    let s0 := s.setF (Csr.memStatus_STATE ch) 2
    let here := s0.tiles.filter (fun e => e.2.valid && s0.homed e.1 && decide (e.2.homeCh = ch.val))
    let slow := (here.filter (fun e => !e.2.sram && !e.2.poison)).map (fun e => e.1)
    let s1 := (here.filter (fun e => e.2.sram)).foldl
      (fun t e => (t.abandonTile e.1).setTile e.1 { (t.abandonTile e.1).tile e.1 with noHome := true }) s0
    let parts := (List.range 8).filter (fun p => s1.partOn p && here.any (fun e => decide (partOfTile e.1 = p)))
    .next (slow.foldl (fun t k => t.poisonNow k) (s1.failRecord 0x0203 2 ch slow parts))

/-! ## MPREF promotion (R92, R209, R232) -/

/-- A command entry waits in some MIG queue, or has tiles that no mover carries. -/
def State.migWaits (s : State) : Bool :=
  (List.range 8).any (fun p => (s.partOn p && decide (s.migNext p ≠ s.getF (Csr.migPartQTail_TAIL p)))
    || (s.mig p).started.any (fun e => e.fresh || !e.todo.isEmpty))

/-- A tile of the prefetch queue is served: promoted into the requesting classroom's slice, or dropped. -/
def State.prefServe (s : State) (r : PrefReq) : State :=
  let e := s.tile r.tile
  let p := partOfTile r.tile
  let drop (t : State) : State := t.addF (Csr.clsMprefDrop_DROPPED r.cls) 1
  let dying := match s.obj (r.tile / 16777216) with
    | some o => o.dying
    | none => true
  if !e.valid || e.poison || dying then drop s
  else if e.sram || e.moving then s.addF (Csr.clsMprefDrop_RESIDENT r.cls) 1
  else if !bitOf (s.getF (Csr.migPartSlices_MASK p)) r.cls then drop s
  else
    let g := s.promoteFrame p r.cls (s.getF Csr.migCtrl_PREF_AGE)
    match g.1 with
    | none => drop g.2
    | some f =>
      let s2 := g.2.addSram p 1
      if e.zero then (s2.toSram r.tile r.cls f).addF (Csr.clsMprefStat_PROMOTED r.cls) 1
      else s2.beginMove ⟨r.tile, none, some r.cls, true, r.cls, f⟩

/-- MPREF_PROMOTION (R232): the MIG serves the oldest entry of a die's prefetch queue after every command entry. A
write-protected tile waits (R208). -/
def execMprefPromotion (die : Fin 2) (s : State) : Host.Outcome State Fault Refusal :=
  match s.prefq.find? (fun r => decide (r.cls / 32 = die.val)) with
  | none => .next s
  | some r =>
    if s.fatal || s.migWaits || decide (64 ≤ s.moves.length) || (s.tile r.tile).wp then .next s
    else .next ({ s with prefq := s.prefq.erase r }.prefServe r)

end Sys2Proof.Machine
end

