-- ==== Sys2Proof/Machine/Channel.lean ====
section
/-! DEFINITION. Requests on their way to a channel or a slice, and the transfers of the banks with the errors that they meet
(R202, R203, R210, R217 to R226). -/

namespace Sys2Proof.Machine

/-! ## Errors of a transfer (R202, R203) -/

/-- Retries of a transfer over the link. -/
def linkRetries (x : LinkEcc) : Nat :=
  match x with
  | .retried false => 1
  | .retried true => 2
  | .failed => 2
  | _ => 0

/-- The link has corrected an error of the transfer, by its code or by a retry. -/
def linkMended (x : LinkEcc) : Bool :=
  match x with
  | .corrected => true
  | .retried _ => true
  | _ => false

/-- What a transfer of channel `ch` meets is counted. -/
def State.countTransfer (s : State) (ch : Nat) (ecc : Ecc) (link : LinkEcc) : State :=
  let s1 := s.addF (Csr.memUe_RETRIES ch) (linkRetries link)
  let s2 := if linkMended link then s1.addF (Csr.memCe_LINK ch) 1 else s1
  if ecc = .corrected then s2.addF (Csr.memCe_ONDIE ch) 1 else s2

/-- An uncorrectable error in a frame: the tile in it is poisoned, if it holds one that can meet it. -/
def State.failFrameAt (s : State) (dest : Target) (frame part : Nat) : State :=
  match s.tileIn dest frame with
  | some tk => if (s.tile tk).poison || (s.tile tk).zero then s else s.failTile tk
  | none =>
    match dest with
    | .channel ch => s.captureUe ch frame part false
    | .slice _ => s.addF Csr.migSramEcc_UE 1

/-- A transfer of channel `ch` for the request `r`, with what it meets. -/
def State.transfer (s : State) (ch : Fin 48) (r : SortReq) (ecc : Ecc) (link : LinkEcc) : State :=
  let t := s.countTransfer ch ecc link
  if ecc = .uncorrectable || decide (link = .failed) then t.failFrameAt (.channel ch) r.frame r.part else t

/-! ## Meanings -/

/-- A slice's frame read for a request that reaches it: `ecc` is what the read meets (R202). -/
def State.sliceRead (s : State) (dest : Target) (r : SortReq) (ecc : Ecc) : State :=
  match dest, ecc with
  | .slice _, .corrected => s.addF Csr.migSramEcc_CE 1
  | .slice _, .uncorrectable => s.failFrameAt dest r.frame r.part
  | _, _ => s

/-- The request takes no tag, or there is one for it. -/
def State.reaches (s : State) (dest : Target) (r : SortReq) : Bool :=
  match dest with
  | .channel _ => true
  | .slice sl => !decide (sl.val / 8 ∈ s.deadDies) && (s.tagFree r.who || (match r.who with
      | .mDemand c => decide (c = sl)
      | .satchel c => decide (c = sl)
      | _ => false))

/-- REQUEST_ADMISSION (R217 to R220, R225, R230): one request of up to 256 bytes, to a channel or a slice. -/
def execRequestAdmission (dest : Target) (who : Requester) (p : Fin 8) (frame : Fin 262144) (block : Fin 256) (first : Fin 256) (len : Nat)
    (write : Bool) (ecc : Ecc) (s : State) : Host.Outcome State Fault Refusal :=
  let r : SortReq := ⟨who, p, frame, block, first, len, write, false, []⟩
  if !r.ok then .next s
  else if s.reaches dest r then .next ((s.request dest r).sliceRead dest r ecc)
  else .next (s.request dest r)

/-- The oldest write of the buffer that may drain to bank `b` (R224). -/
def State.drainable (s : State) (ch b : Nat) : Option SortReq :=
  let q := s.sorter ch
  if q.mayDrain b then q.wbuf.find? (fun r => decide (r.bank = b)) else none

/-- It drains, with what its transfer meets. -/
def State.drainBank (s : State) (ch : Fin 48) (b : Nat) (ecc : Ecc) (link : LinkEcc) : State :=
  match s.drainable ch b with
  | none => s
  | some r => (s.drainWrite ch b).transfer ch r ecc link

/-- BANK_COMMAND (R203, R223, R224, R226): the bank takes the request that the sorter picks, or else a write of the buffer. -/
def execBankCommand (ch : Fin 48) (b : Fin 16) (ecc : Ecc) (link : LinkEcc) (s : State) : Host.Outcome State Fault Refusal :=
  match (s.sorter ch).choose b with
  | none => .next (s.drainBank ch b ecc link)
  | some r => .next ((s.transfer ch r ecc link).serveRequest ch b r)

/-- WRITE_BUFFER_DRAIN (R203, R224): the oldest write for bank `b` leaves the buffer, when a condition of R224 holds. -/
def execWriteBufferDrain (ch : Fin 48) (b : Fin 16) (link : LinkEcc) (s : State) : Host.Outcome State Fault Refusal :=
  .next (s.drainBank ch b .clean link)

end Sys2Proof.Machine
end

