-- ==== Sys2Proof/Machine/Context.lean ====
section
/-! DEFINITION. Hardware contexts (R243 to R265): reading commands, their completions, and the commands of
chapter 10; the classrooms' part in a LAUNCH (R33, R61 to R63, R140). -/

namespace Sys2Proof.Machine

/-! ## Completion records and events (R253, R265) -/

/-- Entries of the context's rings. -/
def State.ringSize (s : State) (x : Nat) : Nat := 2 ^ s.getF (Csr.ctxSqBase_LOG2 x)

/-- PHASE of the completion with index `i`: 1 on the first pass of the ring. -/
def phaseOf (size i : Nat) : Nat := 1 - i / size % 2

/-- Send a CQ event and reset the count and the timer (R265). -/
def State.cqEvent (s : State) (x status : Nat) : State :=
  let r := s.ctx x
  (s.setCtx x { r with evtCount := 0, evtFirst := none }).sendEvent
    ⟨s.getF (Csr.ctxState_PORT x), 1, s.getF (Csr.ctxState_PART x), x, s.getF (Csr.ctxCqTail_TAIL x), status⟩

/-- The events that a written completion sends (R265). -/
def State.cqNotify (s : State) (x status : Nat) (flagged : Bool) : State :=
  if !s.flag (Csr.ctxEvt_EN x) then s
  else
    let r := s.ctx x
    let n := r.evtCount + (flagged || s.flag (Csr.ctxEvt_ALL x)).toNat
    let s1 := s.setCtx x { r with evtCount := n, evtFirst := some (r.evtFirst.getD status) }
    if flagged || decide (max 1 (s.getF (Csr.ctxEvt_THRESH x)) ≤ n) then s1.cqEvent x status else s1

/-- Write a completion record and advance CQ_TAIL; a record whose slot cannot be written is discarded (R253). -/
def State.writeCq (s : State) (x tag status st op idx detail info : Nat) (flagged : Bool) : State :=
  let n := s.getF (Csr.ctxCqTail_TAIL x)
  let size := s.ringSize x
  let ph := phaseOf size n
  let bs := leBytes 4 tag ++ leBytes 1 status ++ leBytes 1 st ++ leBytes 1 op ++ leBytes 1 ph ++ leBytes 2 idx ++
    leBytes 2 0 ++ leBytes 4 detail ++ leBytes 8 info ++ leBytes 8 (s.rd Csr.clkTime).toNat
  let s1 := match s.ctxPart x with
    | some p => s.writeRing p (s.getF (Csr.ctxCqBase_DVA x) + 32 * (n % size)) bs
    | none => s
  (s1.setFs [(Csr.ctxCqTail_TAIL x, n + 1), (Csr.ctxCqTail_PHASE x, ph)]).cqNotify x status flagged

/-- A started command ends: its record is written and it is no longer outstanding. -/
def State.putDone (s : State) (x : Nat) (c : Cmd) (status detail info : Nat) : State :=
  let s1 := s.writeCq x c.tag status c.st c.op c.sqIdx detail info (bitOf c.flags 1)
  let r := s1.ctx x
  let l := r.started.filter (fun d => decide (d.sqIdx ≠ c.sqIdx))
  (s1.setCtx x { r with started := l }).setF (Csr.ctxState_OUTSTANDING x) l.length

/-- A context keeps a resident lesson in some classroom. -/
def State.hasLesson (s : State) (x : Nat) : Bool :=
  (List.range 64).any (fun c => (s.room c).resident.any (fun l => decide (l.ctx = x)))

/-- The state a context at rest takes: LOADED with a resident lesson, OPEN without (R260, R263). -/
def State.restState (s : State) (x : Nat) : State := s.setCtxSt x (if s.hasLesson x then 2 else 1)

/-- The oldest started command is a DRAIN that has begun: every command before it has completed, and it completes (R260, R263). -/
def State.settleDrain (s : State) (x : Nat) : State :=
  match (s.ctx x).started with
  | [] => s
  | c :: _ => if c.op = 7 ∧ !c.fresh then (s.restState x).putDone x c 0 0 0 else s

/-- A started command completes, and with it a DRAIN that waited for it last. -/
def State.complete (s : State) (x : Nat) (c : Cmd) (status detail info : Nat) : State :=
  (s.putDone x c status detail info).settleDrain x

/-- A context enters FAULTED and sends one CTX_FAULT event with CQ_TAIL as reached (R258, R264). -/
def State.faultCtx (s : State) (x status : Nat) : State :=
  (s.setCtxSt x 6).sendEvent ⟨s.getF (Csr.ctxState_PORT x), 2, s.getF (Csr.ctxState_PART x), x, s.getF (Csr.ctxCqTail_TAIL x), status⟩

/-- CQ_EVENT_TIMER (R265): TIMER µs have passed since the first completion not yet announced. -/
def execCqEventTimer (x : Fin 65536) (s : State) : Host.Outcome State Fault Refusal :=
  match (s.ctx x).evtFirst with
  | none => .next s
  | some st =>
    if s.flag (Csr.ctxEvt_EN x) && decide (s.getF (Csr.ctxEvt_TIMER x) ≠ 0) then .next (s.cqEvent x st) else .next s

/-! ## Proctor cores (R245, R254, R491) -/

/-- The core works. -/
def State.coreWorks (s : State) (i : Nat) : Bool := decide (s.getF (Csr.prcCoreStatus_STATE i) = 1)

/-- The working core with the fewest open contexts, the lowest number among equals (R254); core 0 with none. -/
def State.pickCore (s : State) : Nat :=
  let l := (List.range 16).filter (fun i => s.coreWorks i)
  let best := l.foldl (fun (b : Option Nat) i => match b with
    | none => some i
    | some j => if s.getF (Csr.prcCoreStatus_CTXS i) < s.getF (Csr.prcCoreStatus_CTXS j) then some i else some j) none
  best.getD 0

/-- The core that serves a context whose state lives on core `i`: itself, or the lowest working core of its die
(R245). -/
def State.servingCore (s : State) (i : Nat) : Option Nat :=
  if s.coreWorks i then some i
  else (List.range 16).find? (fun j => s.coreWorks j && decide (j / 8 = i / 8))

/-- A context's commands can be served: CLOSED contexts by any working core, others by their core or its stand-in. -/
def State.served (s : State) (x : Nat) : Bool :=
  if s.ctxSt x = 0 then (List.range 16).any (fun i => s.coreWorks i)
  else (s.servingCore (s.getF (Csr.ctxState_PRC x))).isSome

/-- Move a context to core `i`. -/
def State.moveCore (s : State) (x i : Nat) : State :=
  ((s.subF (Csr.prcCoreStatus_CTXS (s.getF (Csr.ctxState_PRC x))) 1).setF (Csr.ctxState_PRC x) i).addF
    (Csr.prcCoreStatus_CTXS i) 1

/-! ## Reading commands (R248 to R252) -/

/-- Every byte from offset `o` on is 0. -/
def zeroFrom (b : List Byte) (o : Nat) : Bool := (b.drop o).all (fun x => decide (x = 0))

/-- The OPs of R249. -/
def knownOp (op : Nat) : Bool :=
  (decide (1 ≤ op) && decide (op ≤ 8)) || decide (op = 0x10) || decide (op = 0x11)
    || (decide (0x18 ≤ op) && decide (op ≤ 0x1A)) || decide (op = 0x20)

/-- A device address of a command: 48 bits, 64-byte aligned. -/
def dvaOk (b : List Byte) (o : Nat) : Bool := decide (fieldAt b o 8 < 2 ^ 48) && decide (fieldAt b o 8 % 64 = 0)

/-- The format of a command (R249, R250 check 1); the ARGS of groups, snapshots and policies by their chapters
(R333, R336, R361, R396). -/
def formatOk (b : List Byte) : Bool :=
  let op := fieldAt b 0 1
  knownOp op && decide (fieldAt b 1 1 < 4) && decide (fieldAt b 2 2 = 0) &&
  match op with
  | 1 => (decide (fieldAt b 8 1 < 16) || decide (fieldAt b 8 1 = 0xFF)) && zeroFrom b 9
  | 2 => (decide (fieldAt b 0x10 1 < 16) || decide (0xFE ≤ fieldAt b 0x10 1)) && zeroFrom b 0x11
  | 3 => dvaOk b 0x10 && decide (fieldAt b 0x18 4 < 64) && zeroFrom b 0x1C
  | 4 => dvaOk b 0x10 && decide (fieldAt b 0x1C 4 < 64) && zeroFrom b 0x20
  | 0x10 => dvaOk b 8 && zeroFrom b 0x10
  | 0x11 => zeroFrom b 0x0A
  | 0x18 => dvaOk b 8 && zeroFrom b 0x10
  | 0x19 => dvaOk b 8 && decide (fieldAt b 0x14 1 < 2) && zeroFrom b 0x15
  | 0x1A => decide (fieldAt b 8 8 < 2 ^ 48) && zeroFrom b 0x10
  | 0x20 => decide (fieldAt b 0x0B 1 = 0) && zeroFrom b 0x10
  | _ => zeroFrom b 8

/-- Is an OP legal in a context state (R252)? Rows in the order of the table, columns CLOSED to FAULTED. -/
def legalIn (op st : Nat) : Bool :=
  let cols : List Nat := match op with
    | 1 => [0]
    | 2 => [1, 2, 6]
    | 3 => [1, 2, 3, 4]
    | 4 => [2]
    | 5 => [3, 6]
    | 6 => [3, 4]
    | 7 => [1, 2, 3, 4, 6]
    | 8 => [1, 2]
    | 0x10 => [1, 2, 3, 4]
    | 0x11 => [1, 2, 3, 4, 6]
    | 0x18 => [2, 3, 4]
    | 0x19 => [2, 3, 4, 5, 6]
    | 0x1A => [1, 2]
    | 0x20 => [1, 2, 3, 4]
    | _ => []
  decide (st ∈ cols)

/-- CLSMASK of a command. -/
def clsMask (b : List Byte) : Nat := fieldAt b 8 8

/-- DETAIL of a LAUNCH or LESSON_LOAD: the classroom concerned and its CLS.FAULT0.CAUSE (R253). -/
def State.concerning (s : State) (k : Nat) : Nat := k + 256 * s.getF (Csr.clsFault0_CAUSE k)

/-- The permission check of a command (R250 check 2): a status and DETAIL, which names the classroom concerned (R253), or
none. -/
def State.permission (s : State) (x p : Nat) (b : List Byte) : Option (Nat × Nat) :=
  let op := fieldAt b 0 1
  let m := clsMask b
  let bad := (setBits m 64).find? (fun c =>
    !bitOf (s.getF (Csr.sysPartCls_MASK p)) c || ((op = 3 || op = 4) && !bitOf (s.ctx x).bound c))
  let dead := (setBits m 64).find? (fun c => decide (s.getF (Csr.clsStatus_STATE c) = 7))
  if op = 0x20 ∧ s.getF (Csr.ctxState_PORT x) ≠ s.mgmtPort then some (0x0D, 0)
  else if 2 ≤ op ∧ op ≤ 4 ∧ bad.isSome then some (0x0D, if op = 2 then 0 else s.concerning (bad.getD 0))
  else if op = 3 ∨ op = 4 then dead.map (fun c => (0x0D, c))
  else none

/-- The snapshot that context `x` began is open, so CTX_CLOSE is refused (R252). -/
def State.snapOpenBy (s : State) (x : Nat) : Bool :=
  match s.ctxPart x with
  | some p => decide (s.snapSt p ≠ 0) && decide (s.getF (Csr.rgsPartState_CTX p) = x)
  | none => false

/-- Classrooms of a LAUNCH's mask, but for those that another context has launched since they ended (R257). -/
def State.heldBy (s : State) (x m : Nat) : List Nat := (setBits m 64).filter (fun k => decide (s.getF (Csr.clsStatus_CTX k) = x))

/-- The four refusals of R252 in states that the table marks legal. -/
def State.refusedAnyway (s : State) (x : Nat) (b : List Byte) : Bool :=
  let r := s.ctx x
  let st := s.ctxSt x
  match fieldAt b 0 1 with
  | 2 => decide (st = 6) && decide (clsMask b ≠ r.bound)
  | 5 => r.started.any (fun c => decide (c.op = 5))
  | 6 =>
    let m := match r.launch with
      | some l => l.mask
      | none => 0
    decide (st = 3) && !((s.heldBy x m).any (fun c => decide (s.getF (Csr.clsStatus_STATE c) = 4) && (s.room c).quizHalt))
  | 8 => s.snapOpenBy x
  | _ => false

/-- The checks 1 to 3 of R250, and PARTITION_FATAL (R383): a status and DETAIL, or none. -/
def State.firstCheck (s : State) (x p : Nat) (b : List Byte) : Option (Nat × Nat) :=
  let op := fieldAt b 0 1
  if !formatOk b then some (0x0E, 0)
  else
    match s.permission x p b with
    | some r => some r
    | none =>
      if !legalIn op (s.ctxSt x) || s.refusedAnyway x b then some (0x0C, 0)
      else if p ∈ s.partFatal ∧ (op = 4 ∨ op = 0x10 ∨ op = 0x18) then some (0x13, 0)
      else none

/-- The address of the next command. -/
def State.cmdSlot (s : State) (x : Nat) : Nat := s.getF (Csr.ctxSqBase_DVA x) + 64 * (s.getF (Csr.ctxSqHead_HEAD x) % s.ringSize x)

/-- Read a command's 64 bytes. -/
def State.readCmd (s : State) (x p : Nat) : Except AccErr (List Byte) := s.readObjs p (s.cmdSlot x) 64

/-- The capacity that starting a command needs (R248). -/
def State.capacity (s : State) (x : Nat) : Bool :=
  let n := (s.ctx x).started.length
  decide (n < 16) && decide ((s.getF (Csr.ctxCqTail_TAIL x) + 65536 - s.getF (Csr.ctxCqHead_HEAD x)) % 65536 < s.ringSize x - n)

/-- The next command of context `x` is read (R248). One command at a time waits for its own step. -/
def State.readNext (s : State) (x p : Nat) : State :=
  let i := s.getF (Csr.ctxSqHead_HEAD x)
  let st := s.ctxSt x
  match s.readCmd x p with
  | .error e =>
    (((s.countHit e).setF (Csr.ctxSqHead_HEAD x) (i + 1)).writeCq x 0 (match e with
      | .access _ => 0x0D
      | .poison _ => 0x10) st 0 i 0 0 false)
  | .ok b =>
    let r := s.ctx x
    if bitOf (fieldAt b 1 1) 0 && !r.started.isEmpty then s
    else
      let c : Cmd := ⟨i, fieldAt b 0 1, fieldAt b 1 1, fieldAt b 4 4, st, b, true, 0, 0⟩
      let s1 := (s.touch p [s.cmdSlot x]).setF (Csr.ctxSqHead_HEAD x) (i + 1)
      match s.firstCheck x p b with
      | some (status, detail) =>
        let s2 := if status = 0x0C then s1.addF (Csr.ctxState_REFUSED x) 1 else s1
        s2.writeCq x c.tag status st c.op i detail 0 (bitOf c.flags 1)
      | none =>
        (s1.setCtx x { r with started := r.started ++ [c] }).setF (Csr.ctxState_OUTSTANDING x) (r.started.length + 1)

/-- COMMAND_READ (R248 to R253). -/
def execCommandRead (x : Fin 65536) (s : State) : Host.Outcome State Fault Refusal :=
  match s.ctxPart x with
  | none => .next s
  | some p =>
    if s.getF (Csr.ctxSqHead_HEAD x) = s.getF (Csr.ctxSqTail_TAIL x) ∨ s.fatal ∨ !s.served x ∨ !s.capacity x
        ∨ (s.ctx x).started.any (fun c => c.fresh) then .next s
    else .next (s.readNext x p)

/-- The command of context `x` that waits for its own step, when its OP is `op` (R248). -/
def State.freshCmd (s : State) (x op : Nat) : Option Cmd :=
  if s.fatal then none else (s.ctx x).started.find? (fun c => c.fresh && decide (c.op = op))

/-- Mark a started command as carried out so far. -/
def State.unfresh (s : State) (x : Nat) (c : Cmd) : State :=
  let r := s.ctx x
  s.setCtx x { r with started := r.started.map (fun d => if d.sqIdx = c.sqIdx then { d with fresh := false } else d) }

/-- Replace a started command. -/
def State.putCmd (s : State) (x : Nat) (c : Cmd) : State :=
  let r := s.ctx x
  s.setCtx x { r with started := r.started.map (fun d => if d.sqIdx = c.sqIdx then c else d) }

/-- A command refused by its own checks (R250 check 4, R251). -/
def State.refuse (s : State) (x : Nat) (c : Cmd) (status detail : Nat) : State :=
  let s1 := if status = 0x0C then s.addF (Csr.ctxState_REFUSED x) 1 else s
  s1.complete x c status detail 0

/-! ## Resident lessons (R27, R30, R255) -/

/-- Segments `f` to `f + n - 1` as a mask. -/
def segMask (f n : Nat) : Nat := (2 ^ n - 1) * 2 ^ f

/-- Remove the lessons of a classroom that `gone` selects: their segments become free and empty. -/
def State.freeLessons (s : State) (c : Nat) (gone : Resident → Bool) : State :=
  let r := s.room c
  let m := (r.resident.filter gone).foldl (fun a l => a ||| segMask l.firstSeg l.segs) 0
  (s.setRoom c { r with resident := r.resident.filter (fun l => !gone l) }).setF (Csr.clsSegmap_VALID c)
    (s.getF (Csr.clsSegmap_VALID c) &&& (2 ^ 64 - 1 - m))

/-- The port whose doorbell write submitted the command with SQ index `i` (R244). -/
def Ctx.ringer (r : Ctx) (i : Nat) : Nat :=
  match r.rings.find? (fun y => decide ((i + 65536 - y.1) % 65536 < (y.2.1 + 65536 - y.1) % 65536)) with
  | some y => y.2.2
  | none => 0

/-! ## CTX_OPEN, CTX_BIND (R254, R255) -/

/-- CTX_OPEN (R254). -/
def execCtxOpen (x : Fin 65536) (s : State) : Host.Outcome State Fault Refusal :=
  match s.freshCmd x 1 with
  | none => .next s
  | some c =>
    let prc := fieldAt c.bytes 8 1
    let core := if prc = 0xFF then s.pickCore else prc
    let r := s.ctx x
    let s1 := (s.setCtx x { r with bound := 0, launch := none, lastMask := 0 }).setFs
      [(Csr.ctxState_PORT x, r.ringer c.sqIdx), (Csr.ctxState_PRC x, core), (Csr.ctxState_STATE x, 1)]
    .next ((s1.addF (Csr.prcCoreStatus_CTXS core) 1).complete x c 0 0 0)

/-- CTX_BIND (R255). -/
def execCtxBind (x : Fin 65536) (s : State) : Host.Outcome State Fault Refusal :=
  match s.freshCmd x 2 with
  | none => .next s
  | some c =>
    let m := clsMask c.bytes
    let prc := fieldAt c.bytes 0x10 1
    let s1 := (List.range 64).foldl (fun t k =>
      if bitOf m k then t else t.freeLessons k (fun l => decide (l.ctx = x.val))) s
    let s2 := s1.setCtx x { s1.ctx x with bound := m }
    let s3 := if prc = 0xFE then s2 else s2.moveCore x (if prc = 0xFF then s2.pickCore else prc)
    let s4 := if s3.ctxSt x = 6 then s3 else s3.restState x
    .next (s4.complete x c 0 0 0)

/-! ## LESSON_LOAD (R28 to R31, R244, R256) -/

/-- Segments of an image of `n` instructions (R29). -/
def imageSegs (n : Nat) : Nat := ceilDiv (448 + 8 * n) 4096

/-- Two runs of segments overlap. -/
def overlap (a n b m : Nat) : Bool := decide (a < b + m) && decide (b < a + n)

/-- The classroom is in STARTING, RUNNING, HALTING or HALTED (R257). -/
def State.clsBusy (s : State) (c : Nat) : Bool :=
  decide (1 ≤ s.getF (Csr.clsStatus_STATE c)) && decide (s.getF (Csr.clsStatus_STATE c) ≤ 4)

/-- The lesson of a classroom in RUNNING, HALTING or HALTED lies in the segments named (R31). -/
def State.overlapsRunning (s : State) (c f n : Nat) : Bool :=
  s.clsBusy c && decide (s.getF (Csr.clsStatus_STATE c) ≠ 1) && overlap f n (s.getF (Csr.clsLesson_FIRST_SEG c)) (s.getF (Csr.clsLesson_SEG_COUNT c))

/-- The status that an unreadable byte gives a command (R30). -/
def accStatus (e : AccErr) : Nat :=
  match e with
  | .access _ => 0x0D
  | .poison _ => 0x10

/-- The checks of a LESSON_LOAD before anything is written: a status and classroom, or the image's N. -/
def State.loadChecks (s : State) (x p : Nat) (c : Cmd) : Except (Nat × Nat) Nat :=
  let cs := setBits (clsMask c.bytes) 64
  let c0 := cs.headD 0
  let f := fieldAt c.bytes 0x18 4
  match s.readObjs p (fieldAt c.bytes 0x10 8) 8 with
  | .error e => .error (accStatus e, c0)
  | .ok h =>
    let n := fieldAt h 4 4
    if fieldAt h 0 2 ≠ 1 ∨ fieldAt h 2 2 ≠ 1 ∨ n < 1 ∨ 32712 < n ∨ 64 < f + imageSegs n then .error (0x0E, c0)
    else
      match cs.find? (fun k => s.overlapsRunning k f (imageSegs n)) with
      | some k => .error (0x0C, k)
      | none =>
        match cs.find? (fun k => (s.room k).resident.any (fun l => decide (l.ctx ≠ x) && overlap f (imageSegs n) l.firstSeg l.segs)) with
        | some k => .error (0x0D, k)
        | none => .ok n

/-- Segments of a classroom are marked empty, and lessons that overlap them removed whole (R30). -/
def State.clearSegs (s : State) (k f n : Nat) : State :=
  let t := s.freeLessons k (fun l => overlap f n l.firstSeg l.segs)
  t.setF (Csr.clsSegmap_VALID k) (t.getF (Csr.clsSegmap_VALID k) &&& (2 ^ 64 - 1 - segMask f n))

/-- LESSON_LOAD (R28 to R31, R256): the checks, then writing begins: lessons it replaces are removed whole. -/
def execLessonLoad (x : Fin 65536) (s : State) : Host.Outcome State Fault Refusal :=
  match s.freshCmd x 3, s.ctxPart x with
  | some c, some p =>
    match s.loadChecks x p c with
    | .error (st, k) => .next ((if st = 0x10 then s.addF Csr.migPoison_HITS 1 else s).refuse x c st (s.concerning k))
    | .ok n =>
      let f := fieldAt c.bytes 0x18 4
      .next (((setBits (clsMask c.bytes) 64).foldl (fun t k => t.clearSegs k f (imageSegs n))
        (s.touch p [fieldAt c.bytes 0x10 8])).putCmd x { c with fresh := false, todo := clsMask c.bytes, count := n })
  | _, _ => .next s

/-- The slots of instruction memory written from an image. -/
def State.writeSlots (s : State) (k slot : Nat) (bs : List Byte) (fuel : Nat) : State :=
  match fuel, bs with
  | 0, _ => s
  | _, [] => s
  | g + 1, b => (s.wr (Csr.clsImem k slot) (BitVec.ofNat 64 (leNat (b.take 8)))).writeSlots k (slot + 1) (b.drop 8) g

/-- The image is whole: IMG_CRC over it with its own field as 0 (R28). -/
def imageCrcOk (img : List Byte) : Bool :=
  decide (crc32c (img.take 0x3C ++ List.replicate 4 0 ++ img.drop 0x40) = fieldAt img 0x3C 4)

/-- The lesson becomes resident in classroom `k`. -/
def State.addLesson (s : State) (x k f n : Nat) : State :=
  let r := s.room k
  (s.setRoom k { r with resident := r.resident ++ [⟨x, f, n⟩] }).setF (Csr.clsSegmap_VALID k)
    (s.getF (Csr.clsSegmap_VALID k) ||| segMask f n)

/-- A lesson has come resident: OPEN becomes LOADED (R263). -/
def State.lessonState (s : State) (x : Nat) : State :=
  if s.ctxSt x = 1 ∧ s.hasLesson x then s.setCtxSt x 2 else s

/-- What stands now in the way of writing classroom `k` (R31, R244): a lesson that runs there, or another context's, come since the
checks; a status. -/
def State.writeBarred (s : State) (x k f n : Nat) : Option Nat :=
  if s.overlapsRunning k f n then some 0x0C
  else if (s.room k).resident.any (fun l => decide (l.ctx ≠ x) && overlap f n l.firstSeg l.segs) then some 0x0D
  else none

/-- The image of a LESSON_LOAD: the eight bytes that the checks have read, and the rest as memory holds it now. -/
def State.readImage (s : State) (p : Nat) (c : Cmd) : Except AccErr (List Byte) := do
  let r ← s.readObjs p (fieldAt c.bytes 0x10 8 + 8) (440 + 8 * c.count)
  return leBytes 2 1 ++ leBytes 2 1 ++ leBytes 4 c.count ++ r

/-- The image is written into classroom `k` (R30, R256); beside the state the status of a failure. After one the segments are empty,
and CLS.IMEM holds what was written (notes/assumptions/82.md). -/
def State.loadRoom (s : State) (x p : Nat) (c : Cmd) (k : Nat) : State × Option Nat :=
  let f := fieldAt c.bytes 0x18 4
  let n := imageSegs c.count
  match s.writeBarred x k f n with
  | some st => (s, some st)
  | none =>
    match s.readImage p c with
    | .error e => (s.countHit e, some (accStatus e))
    | .ok img =>
      let t := ((s.clearSegs k f n).touch p [fieldAt c.bytes 0x10 8, fieldAt c.bytes 0x10 8 + img.length - 1]).writeSlots k (f * 512) img 32768
      if imageCrcOk img then (t.addLesson x k f n, none) else (t, some 0x0E)

/-- LESSON_LOAD_DONE (R30, R256): the image has been read and written for the lowest classroom still to be written; the command
completes with the last, or with the first failure. Classrooms written before keep the lesson. -/
def execLessonLoadDone (x : Fin 65536) (s : State) : Host.Outcome State Fault Refusal :=
  match (s.ctx x).started.find? (fun c => !c.fresh && decide (c.op = 3)), s.ctxPart x with
  | some c, some p =>
    match setBits c.todo 64 with
    | [] => .next (s.complete x c 0 0 0)
    | k :: ks =>
      match s.loadRoom x p c k with
      | (t, some st) => .next ((t.lessonState x).complete x c st (s.concerning k) 0)
      | (t, none) =>
        if ks.isEmpty then .next ((t.lessonState x).complete x c 0 0 0)
        else .next (t.putCmd x { c with todo := clearBit c.todo k })
  | _, _ => .next s

/-! ## LAUNCH (R20, R33, R97, R140, R257) -/

/-- The resident lesson that begins at a segment. -/
def State.lessonAt (s : State) (k f : Nat) : Option Resident :=
  (s.room k).resident.find? (fun l => decide (l.firstSeg = f))

/-- MB_DECL of the image at segment `f` (R28). -/
def State.mbDecl (s : State) (k f : Nat) : Nat := (s.rd (Csr.clsImem k (f * 512 + 1))).toNat % 65536

/-- INSN_COUNT of the image at segment `f` (R28). -/
def State.insnCount (s : State) (k f : Nat) : Nat := (s.rd (Csr.clsImem k (f * 512))).toNat / 2 ^ 32

/-- LAUNCH (R257): busy classrooms and the micro-batch limit refuse it; else each classroom is STARTING. -/
def execLaunch (x : Fin 65536) (s : State) : Host.Outcome State Fault Refusal :=
  match s.freshCmd x 4, s.ctxPart x with
  | some c, some p =>
    let cs := setBits (clsMask c.bytes) 64
    let f := fieldAt c.bytes 0x1C 4
    match cs.find? (fun k => s.clsBusy k) with
    | some k => .next (s.refuse x c 0x0C (s.concerning k))
    | none =>
      match cs.find? (fun k => (s.lessonAt k f).isSome && decide (256 < s.mbDecl k f)) with
      | some k => .next (s.refuse x c 0x0E (s.concerning k))
      | none =>
        let s1 := (cs.mapIdx (fun i k => (i, k))).foldl (fun t y => t.setFs
          [(Csr.clsStatus_STATE y.2, 1), (Csr.clsStatus_CTX y.2, x.val), (Csr.clsStatus_PART y.2, p),
           (Csr.clsLesson_FIRST_SEG y.2, f), (Csr.clsDtab_DVA y.2, fieldAt c.bytes 0x10 8 + y.1 * fieldAt c.bytes 0x18 4 * 8192)]) s
        let s2 := (List.range 16).foldl (fun t b => t.setBar (x.val * 16 + b) Barrier.empty) s1
        let s3 := s2.unfresh x c
        let l : Launch := ⟨{ c with fresh := false }, clsMask c.bytes, 0, none, false⟩
        .next ((s3.setCtx x { s3.ctx x with launch := some l, lastMask := clsMask c.bytes }).setCtxSt x 3)
  | _, _ => .next s

/-- Queues, loops and engines of a classroom emptied (R33 step 6); lessons, banks and tags stay. -/
def Classroom.cleared (r : Classroom) : Classroom :=
  { r with
    tq := [], vq := [], mq := [], sq := [], tf := [], vf := [], mf := [], sf := [], ended := false, stopping := false,
    loops := [], lastTlw := none, sat := [], waitArrays := false, quizHalt := false }

/-- The registers that show queues and loops, as an empty classroom shows them. -/
def State.clearShown (s : State) (k : Nat) : State :=
  let s1 := (List.range 4).foldl (fun t l => t.setLoop k l 0 0 false) s
  s1.setFs [(Csr.clsStatus_LOOP_DEPTH k, 0), (Csr.clsQstat_T_OCC k, 0), (Csr.clsQstat_V_OCC k, 0),
    (Csr.clsQstat_M_OCC k, 0), (Csr.clsQstat_S_OCC k, 0), (Csr.clsSatStat_Q_OCC k, 0), (Csr.clsSatStat_FENCE_WAIT k, 0),
    (Csr.clsSatStat_WAIT_LAYER k, 0)]

/-- A classroom emptied and in state `st`. -/
def State.clearCls (s : State) (k st : Nat) : State :=
  ((s.setRoom k (s.room k).cleared).clearShown k).setF (Csr.clsStatus_STATE k) st

/-- LAUNCH's numeric flags (R140) and cleared fault registers (R33 step 6). -/
def State.launchFlags (s : State) (k : Nat) : State :=
  ((((((s.wr (Csr.clsFlagsPrev k) (BitVec.ofNat 64 (s.getF ⟨Csr.clsFlags k, 0, 29⟩))).wr (Csr.clsFlags k) 0).wr
    (Csr.clsFlagPc k) 0).wr (Csr.clsFault0 k) 0).wr (Csr.clsFault1 k) 0).wr (Csr.clsFault2 k) 0)

/-- Load TOK_TARGET and ADV from the image at segment `f` (R28, R33). -/
def State.loadTables (s : State) (k f : Nat) : State :=
  let base := f * 512
  let s1 := (List.range 64).foldl (fun t i =>
    let w := (s.rd (Csr.clsImem k (base + 8 + i / 4))).toNat
    t.setFs [(Csr.clsTok_COUNT k i, 0), (Csr.clsTok_TARGET k i, w / 2 ^ (16 * (i % 4)))]) s
  (List.range 32).foldl (fun t i =>
    let w := (s.rd (Csr.clsImem k (base + 24 + i))).toNat
    t.setFs [(Csr.clsAdv_DESC k i, w), (Csr.clsAdv_VALID k i, w / 2 ^ 8), (Csr.clsAdv_DELTA k i, w / 2 ^ 16)]) s1

/-- The 8 KiB descriptor table written into CLS.DESC. -/
def State.loadDescs (s : State) (k : Nat) (bs : List Byte) : State :=
  (List.range 1024).foldl (fun t i =>
    t.wr (Csr.clsDescW k (i / 4) (i % 4)) (BitVec.ofNat 64 (leNat ((bs.drop (8 * i)).take 8)))) s

/-- The DVA of a classroom's descriptor table (R257): its place in the LAUNCH's mask counts the strides. -/
def State.dtabOf (s : State) (c : Nat) : Nat :=
  match (s.ctx (s.getF (Csr.clsStatus_CTX c))).launch with
  | some l => fieldAt l.cmd.bytes 0x10 8 + ((setBits l.mask 64).filter (fun k => decide (k < c))).length * fieldAt l.cmd.bytes 0x18 4 * 8192
  | none => s.getF (Csr.clsDtab_DVA c)

/-- A classroom that fails step 1 or 2 of its start: its fault registers hold that fault, and nothing of steps 3 to 8 takes place
(R33, R63, R140). -/
def State.failStart (s : State) (c : Nat) (f : FaultInfo) : State :=
  (((s.wr (Csr.clsFault0 c) 0).wr (Csr.clsFault1 c) 0).wr (Csr.clsFault2 c) 0).faultStart c f

/-- Steps 3 to 8 of R33: a HALT that came meanwhile takes the classroom to HALTING. -/
def State.startCls (s : State) (c f segs : Nat) (bs : List Byte) : State :=
  let halted := (s.ctx (s.getF (Csr.clsStatus_CTX c))).started.any (fun d => decide (d.op = 5) && !d.fresh)
  let s1 := (((s.loadDescs c bs).loadTables c f).clearCls c (if halted then 3 else 2)).launchFlags c
  s1.setFs [(Csr.clsLesson_SEG_COUNT c, segs), (Csr.clsLesson_INSN_COUNT c, s.insnCount c f), (Csr.clsLesson_MB_DECL c, s.mbDecl c f),
    (Csr.clsPc_PC c, f * 512 + 56)]

/-- CLASSROOM_START (R33, R140): a classroom in STARTING checks its lesson, reads its descriptor table and enters
RUNNING; a lesson not resident or a table that cannot be read stops it as a front-end fault. A lesson that declares more than 256
micro-batches, come after LAUNCH judged it, stops it as one that is not resident (DEDUCED, notes/assumptions/82.md). -/
def execClassroomStart (c : Fin 64) (s : State) : Host.Outcome State Fault Refusal :=
  if s.getF (Csr.clsStatus_STATE c) ≠ 1 ∨ (s.room c).stopping then .next s
  else
    let f := s.getF (Csr.clsLesson_FIRST_SEG c)
    let p := s.getF (Csr.clsStatus_PART c)
    match (s.lessonAt c f).filter (fun _ => decide (s.mbDecl c f ≤ 256)) with
    | none => .next (s.failStart c ⟨.badDesc, 0, 0, 0⟩)
    | some l =>
      match s.readObjs p (s.dtabOf c) 8192 with
      | .error e => .next (s.failStart c (accFault 0 e))
      | .ok bs => .next ((s.touch p [s.dtabOf c, s.dtabOf c + 8191]).startCls c f l.segs bs)

/-! ## How a LAUNCH ends (R257 to R260) -/

/-- Every classroom of a mask. -/
def allOf (m : Nat) (f : Nat → Bool) : Bool := (setBits m 64).all f

/-- The context's LAUNCH has had a fault, of a classroom or of its core: FAULTED, or DRAINING from there (R258, R260). -/
def State.faultedLaunch (s : State) (x : Nat) : Bool :=
  let r := s.ctx x
  decide (s.ctxSt x = 6) || (decide (s.ctxSt x = 5) &&
    ((r.launch.bind (fun l => l.first)).isSome || r.started.any (fun c => decide (c.op = 7) && decide (c.st = 6))))

/-- The classroom has stopped for the completion of the LAUNCH: ENDED, FAULTED or UNAVAILABLE, or launched anew by another
context since; HALTED counts after a fault (R257, R258). -/
def State.stoppedFor (s : State) (x c : Nat) : Bool :=
  let st := s.getF (Csr.clsStatus_STATE c)
  decide (s.getF (Csr.clsStatus_CTX c) ≠ x) || decide (5 ≤ st) || (decide (st = 4) && s.faultedLaunch x && !(s.room c).quizHalt)

/-- The classrooms of the context's LAUNCH, or of the one that its core's failure has ended: a HALT reaches those that still run
(R245, R258). -/
def State.haltMask (s : State) (x : Nat) : Nat :=
  match (s.ctx x).launch with
  | some l => l.mask
  | none => (s.ctx x).lastMask

/-- The LAUNCH is abandoned (R260): its classrooms go to IDLE and it completes with PARTIAL. -/
def State.abandonLaunch (s : State) (x : Nat) : State :=
  let s1 := (s.heldBy x (s.ctx x).lastMask).foldl (fun t k => if t.getF (Csr.clsStatus_STATE k) = 7 then t else t.clearCls k 0) s
  match (s.ctx x).launch with
  | some l => (s1.setCtx x { s1.ctx x with launch := none }).complete x l.cmd 1 0 l.faulted
  | none => s1

/-- A HALT that has begun completes once every classroom of the LAUNCH has stopped and one is HALTED; the context
enters HALTED from RUNNING (R259). In a context that drains, the LAUNCH can then end no other way than abandoned, as by a DRAIN in
HALTED (R260; DEDUCED, notes/assumptions/82.md). -/
def State.settleHalt (s : State) (x : Nat) : State :=
  let r := s.ctx x
  match r.started.find? (fun c => decide (c.op = 5) && !c.fresh) with
  | none => s
  | some c =>
    let st (k : Nat) := s.getF (Csr.clsStatus_STATE k)
    let ks := s.heldBy x (s.haltMask x)
    if ks.all (fun k => decide (st k = 0) || decide (4 ≤ st k) || (s.room k).stopping) && (r.launch.isNone || ks.any (fun k => decide (st k = 4))) then
      let s1 := (if s.ctxSt x = 3 then s.setCtxSt x 4 else s).complete x c 0 0 0
      if s.ctxSt x = 5 && !s.faultedLaunch x then s1.abandonLaunch x else s1
    else s

/-- The classrooms of a LAUNCH's mask that stand in HALTED, ENDED or FAULTED go to IDLE (R260). -/
def State.idleStopped (s : State) (x m : Nat) : State :=
  (s.heldBy x m).foldl (fun t k =>
    let st := t.getF (Csr.clsStatus_STATE k)
    if 4 ≤ st ∧ st ≤ 6 then t.clearCls k 0 else t) s

/-- What follows the end of a LAUNCH in its context. -/
def State.afterLaunch (s : State) (x : Nat) (l : Launch) (status detail info : Nat) : State :=
  let s1 := (s.setCtx x { s.ctx x with launch := none }).complete x l.cmd status detail info
  let s2 := if s.ctxSt x = 3 then s1.setCtxSt x 2 else s1
  let s3 := if s.ctxSt x = 5 && s.faultedLaunch x then s2.idleStopped x l.mask else s2
  s3.settleHalt x

/-- LAUNCH_COMPLETE (R173, R257): every named classroom has stopped. -/
def execLaunchComplete (x : Fin 65536) (s : State) : Host.Outcome State Fault Refusal :=
  match (s.ctx x).launch with
  | none => .next s
  | some l =>
    if allOf l.mask (s.stoppedFor x) then
      match l.first with
      | some (st, k, cause) => .next (s.afterLaunch x l st (k + 256 * cause) l.faulted)
      | none => .next (s.afterLaunch x l (if l.fence then 0x15 else 0) 0 0)
    else .next s

/-- The LAUNCH of a classroom's context counts its fault, and the context enters FAULTED at once (R258, R263). -/
def State.launchFault (s : State) (c : Nat) : State :=
  let x := s.getF (Csr.clsStatus_CTX c)
  let r := s.ctx x
  match r.launch with
  | none => s
  | some l =>
    let st := s.getF (Csr.clsFault0_STATUS c)
    let l1 := { l with faulted := setBit l.faulted c, first := some (l.first.getD (st, c, s.getF (Csr.clsFault0_CAUSE c))) }
    let s1 := s.setCtx x { r with launch := some l1 }
    if s.ctxSt x = 3 ∨ s.ctxSt x = 4 then s1.faultCtx x st else s1

/-- Nothing issued is left to complete, but for SBARs that wait (R61, R63). -/
def Classroom.drained (r : Classroom) : Bool :=
  r.tf.isEmpty && r.vf.isEmpty && r.mf.isEmpty && r.sat.isEmpty && r.sf.all (fun f => f.barWait)

/-- The CLS_FAULT record (R63, R391). -/
def State.clsFaultRecord (s : State) (c : Nat) : State :=
  s.recordP (s.clsPart c) 0x0101 3 1 c (s.getF (Csr.clsStatus_CTX c)) (s.getF (Csr.clsFault2_DVA c))
    [(8, (s.rd (Csr.clsFault0 c)).toNat), (8, (s.rd (Csr.clsFault1 c)).toNat), (8, (s.rd (Csr.clsFault2 c)).toNat)]

/-- CLASSROOM_FAULTED (R63, R97, R257): waiting SBARs are abandoned, the record is written, the LAUNCH told. With
its house's SRAM die failed the classroom reads UNAVAILABLE. -/
def execClassroomFaulted (c : Fin 64) (s : State) : Host.Outcome State Fault Refusal :=
  let r := s.room c
  if r.stopping && r.drained then
    let s1 := r.sf.foldl (fun t f => t.sampleEnd c .s f.entry f.sampled f.wait true) s
    let s2 := s1.setRoom c { s1.room c with sf := [], stopping := false, quizHalt := false }
    let s3 := (s2.clsFaultRecord c).setF (Csr.clsStatus_STATE c) (if c.val / 8 ∈ s.deadDies then 7 else 6)
    .next ((s3.launchFault c).settleHalt (s.getF (Csr.clsStatus_CTX c)))
  else .next s

/-- CLASSROOM_HALTED (R61): the last issued instruction has completed. -/
def execClassroomHalted (c : Fin 64) (s : State) : Host.Outcome State Fault Refusal :=
  let r := s.room c
  if s.getF (Csr.clsStatus_STATE c) = 3 ∧ !r.stopping ∧ r.drained then
    .next ((s.setF (Csr.clsStatus_STATE c) 4).settleHalt (s.getF (Csr.clsStatus_CTX c)))
  else .next s

/-! ## HALT, RESUME, DRAIN (R259, R260) -/

/-- HALT of one classroom: RUNNING becomes HALTING; one halted under SPOT_QUIZ_ALERT counts as halted; a fault stop
goes on (R61, R65, R259). -/
def State.haltCls (s : State) (k : Nat) : State :=
  let s1 := s.setRoom k { s.room k with quizHalt := false }
  if s.getF (Csr.clsStatus_STATE k) = 2 ∧ !(s.room k).stopping then s1.setF (Csr.clsStatus_STATE k) 3 else s1

/-- HALT (R259). -/
def execHalt (x : Fin 65536) (s : State) : Host.Outcome State Fault Refusal :=
  match s.freshCmd x 5 with
  | none => .next s
  | some c =>
    .next ((((s.heldBy x (s.haltMask x)).foldl (fun t k => t.haltCls k) s).unfresh x c).settleHalt x)

/-- RESUME of one classroom (R62). -/
def State.resumeCls (s : State) (k : Nat) : State :=
  if s.getF (Csr.clsStatus_STATE k) = 4 then
    (s.setRoom k { s.room k with quizHalt := false }).setF (Csr.clsStatus_STATE k) 2
  else s

/-- RESUME (R259): in HALTED every classroom of the LAUNCH, in RUNNING those that SPOT_QUIZ_ALERT halted. -/
def execResume (x : Fin 65536) (s : State) : Host.Outcome State Fault Refusal :=
  match s.freshCmd x 6 with
  | none => .next s
  | some c =>
    let m := match (s.ctx x).launch with
      | some l => l.mask
      | none => 0
    let all := decide (s.ctxSt x = 4)
    let s1 := (s.heldBy x m).foldl (fun t k => if all || (t.room k).quizHalt then t.resumeCls k else t) s
    let s2 := if all then s1.setCtxSt x 3 else s1
    .next (s2.complete x c 0 0 0)

/-- DRAIN (R260). -/
def execDrain (x : Fin 65536) (s : State) : Host.Outcome State Fault Refusal :=
  match s.freshCmd x 7 with
  | none => .next s
  | some c =>
    let r := s.ctx x
    let s0 := s.unfresh x c
    match s.ctxSt x with
    | 3 => .next ((s0.setCtxSt x 5).settleDrain x)
    | 4 => .next ((((s0.setCtxSt x 5).abandonLaunch x).settleHalt x).settleDrain x)
    | 6 =>
      let s1 := s0.setCtxSt x 5
      let s2 := if r.launch.isNone then s1.idleStopped x r.lastMask else s1
      .next (s2.settleDrain x)
    | _ => .next (s0.complete x c 0 0 0)

end Sys2Proof.Machine
end

