-- ==== Sys2Proof/Machine/LinkOps.lean ====
section
/-! DEFINITION. Operations on the optical ports that links, roll call and the Prefect share: lanes, credits, the
Bell bound, messages waiting to be sent (chapters 12 to 14). -/

namespace Sys2Proof.Machine

/-- What NI `k` holds beside its registers. -/
def State.ni (s : State) (k : Nat) : NiPort := s.nis.get (fun _ => NiPort.down) k

/-- The state with NI `k` holding `n`. -/
def State.setNi (s : State) (k : Nat) (n : NiPort) : State := { s with nis := s.nis.put (fun _ => NiPort.down) k n }

/-- A count of a map by class or lane. -/
def cnt (m : SMap Nat) (c : Nat) : Nat := m.get (fun _ => 0) c

/-- The map with a count replaced. -/
def setCnt (m : SMap Nat) (c v : Nat) : SMap Nat := m.put (fun _ => 0) c v

/-- NI.STATUS.STATE: 0 DISABLED, 1 DOWN, 2 ALIGN, 3 NEGOTIATE, 4 UP. -/
def State.niSt (s : State) (k : Nat) : Nat := s.getF (Csr.niStatus_STATE k)

/-- Roll-call state: 0 IDLE, 1 WAIT, 2 MATCHED, 3 ENABLED, 4 QUARANTINE, 5 MISSING. -/
def State.rcSt (s : State) (k : Nat) : Nat := s.getF (Csr.niRcState_STATE k)

/-- The port is enabled for data (R321). -/
def State.dataOn (s : State) (k : Nat) : Bool := decide (s.rcSt k = 3)

/-! ## Readings (R276) -/

/-- No reading. -/
def noReading : Nat := 0x8000

/-- A reading of a map of 16-bit readings. -/
def rdg (m : SMap Nat) (k : Nat) : Nat := m.get (fun _ => noReading) k

/-- The map with a reading replaced. -/
def setRdg (m : SMap Nat) (k v : Nat) : SMap Nat := m.put (fun _ => noReading) k v

/-- The state with the optical service's part replaced. -/
def State.withOptics (s : State) (f : Optics → Optics) : State := { s with optics := f s.optics }

/-- Direction code: 0 transmit, 1 receive. -/
def dirCode (tx : Bool) : Nat := (!tx).toNat

/-- Key of a monitor: port, direction, stage, lane of the port. -/
def monKey (k : Nat) (tx : Bool) (stage i : Nat) : Nat := ((k * 2 + dirCode tx) * 8 + stage) * 8 + i

/-- The monitor exchange in the order of its readings (R277): stages 4 and 5 of the direction that a device receives, then stages 2
and 3 of the one that it sends, each with its second monitor. `sender`: as its sender names the directions. -/
def exchangeKeys (sender : Bool) : List (Bool × Nat) :=
  [(!sender, 4), (!sender, 5), (!sender, 0), (sender, 2), (sender, 3), (sender, 7)]

/-- The message that carries the readings of an exchange: its bytes are not given (free values); two for each reading
(notes/assumptions/86.md). -/
def monitorMessage (rs : List Nat) : List Byte := (List.range (2 * rs.length)).map (fun i => Config.monitorByte rs i)

/-- The far end's readings of a monitor exchange received at port `k`. -/
def State.hearMonitor (s : State) (k : Nat) (b : List Byte) : State :=
  let keys := (exchangeKeys false).flatMap (fun x => (List.range 8).map (fun i => monKey k x.1 x.2 i))
  s.withOptics (fun o => { o with
    far := (keys.mapIdx (fun n x => (x, (Config.monitorReading b n).toNat))).foldl (fun m y => setRdg m y.1 y.2) o.far })

/-! ## Lanes (R270) -/

/-- The glove of port `k`, and the lane of the glove that carries lane `i` of the port. -/
def gloveOf (k : Nat) : Nat := k / 2
def gloveLane (k i : Nat) : Nat := 8 * (k % 2) + i

/-- Optical state of a transmit lane: 0 DARK, 1 SWEEP, 2 LOCKED, 3 DRIFT, 4 UNLOCKED. -/
def State.txLane (s : State) (k i : Nat) : Nat := s.getF (Csr.glvTxLanes_STATE (gloveOf k) (gloveLane k i))

/-- Optical state of a receive lane. -/
def State.rxLane (s : State) (k i : Nat) : Nat := s.getF (Csr.glvRxLanes_STATE (gloveOf k) (gloveLane k i))

/-- ADMIT of a transmit lane. -/
def State.txOffered (s : State) (k i : Nat) : Bool := s.flag (Csr.glvTxLanes_ADMIT (gloveOf k) (gloveLane k i))

/-- ADMIT of a receive lane. -/
def State.rxOffered (s : State) (k i : Nat) : Bool := s.flag (Csr.glvRxLanes_ADMIT (gloveOf k) (gloveLane k i))

/-- GLV.PORT's suspension of port `k` (R284). -/
def State.suspended (s : State) (k : Nat) : Bool :=
  if k % 2 = 0 then s.flag (Csr.glvPort_SUSP_A (gloveOf k)) else s.flag (Csr.glvPort_SUSP_B (gloveOf k))

/-! ## The Bell bound (R310) -/

/-- The port conditions of R310. -/
def State.boundHolds (s : State) (k : Nat) : Bool :=
  decide (s.niSt k = 4) && s.dataOn k && decide (s.getF (Csr.niStatus_TX_ADMIT k) ≠ 0)
    && decide (s.getF (Csr.niStatus_RX_ADMIT k) ≠ 0) && !s.suspended k && !s.flag (Csr.niStatus_LONG k)

/-- The first condition of R310 that fails: UP, enabled, a transmit lane, a receive lane, not suspended, not long. -/
def State.boundCause (s : State) (k : Nat) : Nat :=
  if s.niSt k ≠ 4 then 0
  else if !s.dataOn k then 1
  else if s.getF (Csr.niStatus_TX_ADMIT k) = 0 then 2
  else if s.getF (Csr.niStatus_RX_ADMIT k) = 0 then 3
  else if s.suspended k then 4
  else 5

/-- BOUND follows the conditions; its fall writes BELL_BOUND_LOST, at most one per port per 10 ms. The code that names a
condition is not given (a free value), and whether 10 ms have passed since the last record is free. -/
def State.bound (s : State) (k : Nat) : State :=
  if s.boundHolds k then s.setF (Csr.niStatus_BOUND k) 1
  else if s.flag (Csr.niStatus_BOUND k) then
    let s1 := s.setF (Csr.niStatus_BOUND k) 0
    let r : Rec := ⟨0x0503, 0, 255, 4, k, 0xFFFF, 0, [(1, Config.freeNat 11 (s.boundCause k))]⟩
    if (s.ni k).boundSaid then
      let s2 := { s1 with drawn := s.drawn + 1 }
      if Config.freeBool s.drawn 0 then s2.withhold r else s2.record true none r
    else (s1.setNi k { s1.ni k with boundSaid := true }).record true none r
  else s

/-! ## Lanes admitted to the port (R303) -/

/-- The lanes that this end offers for sending, as a mask. -/
def State.txOffers (s : State) (k : Nat) : Nat :=
  (List.range 8).foldl (fun m i => if s.txOffered k i then m + 2 ^ i else m) 0

/-- The lanes that the far end accepts. A lane that has left is accepted again only once the far end has shown its bit clear in
between: it has then been trained anew (DESIGN CHOICE, notes/assumptions/88.md). -/
def NiPort.accepts (n : NiPort) : Nat := n.farAdmit - (n.farAdmit &&& n.stale)

/-- The far RX_ADMIT as a control block brings it. -/
def NiPort.hearAdmit (n : NiPort) (v : Nat) : NiPort := { n with farAdmit := v, stale := n.stale &&& v }

/-- The lanes in `m` have left TX_ADMIT. -/
def NiPort.leave (n : NiPort) (m : Nat) : NiPort := { n with stale := n.stale ||| (n.farAdmit &&& m) }

/-- TX_ADMIT after a change of our offers or of the far RX_ADMIT: lanes accepted at both ends join; a lane that leaves
sends one more frame, with LAST, while it has lock, and leaves at once without. -/
def State.dealLanes (s : State) (k : Nat) : State :=
  if s.niSt k ≠ 4 then s
  else
    let now := s.getF (Csr.niStatus_TX_ADMIT k)
    let want := s.txOffers k &&& (s.ni k).accepts
    let leaving := (List.range 8).foldl (fun m i =>
      if bitOf now i && !bitOf want i && (decide (s.txLane k i = 2) || decide (s.txLane k i = 3)) then m + 2 ^ i else m) 0
    let stay := want ||| leaving
    ((s.setNi k ((s.ni k).leave (now - (now &&& stay)))).setF (Csr.niStatus_TX_ADMIT k) stay).bound k

/-- A lane has been withdrawn and sends its last frame next. -/
def State.closing (s : State) (k i : Nat) : Bool :=
  bitOf (s.getF (Csr.niStatus_TX_ADMIT k)) i && !bitOf (s.txOffers k &&& (s.ni k).accepts) i

/-- RX_ADMIT loses every lane that is not in `m`: it is trained anew (R303). -/
def State.keepRx (s : State) (k m : Nat) : State :=
  let old := s.getF (Csr.niStatus_RX_ADMIT k)
  let gone := old - (old &&& m)
  let s1 := s.setNi k { s.ni k with runs := (setBits gone 8).foldl (fun r i => setCnt r i 0) (s.ni k).runs }
  (s1.setF (Csr.niStatus_RX_ADMIT k) (old &&& m)).bound k

/-- The receive lanes that leave admission leave RX_ADMIT (R303). -/
def State.acceptLanes (s : State) (k : Nat) : State :=
  s.keepRx k ((List.range 8).foldl (fun a i => if s.rxOffered k i then a + 2 ^ i else a) 0)

/-! ## Credits and messages -/

/-- Receive buffer of a class in flits (R305). -/
def classBuffer (c : Nat) : Nat :=
  match c with
  | 0 => 128
  | 1 => 1024
  | 2 => 2048
  | _ => 64

/-- Credits held for class `c` (R307). -/
def NiPort.credits (n : NiPort) (c : Nat) : Nat :=
  classBuffer c - (cnt n.sent c + 65536 - cnt n.credit c) % 65536

/-- NI.CRED_STAT shows the credits. -/
def State.showCredits (s : State) (k : Nat) : State :=
  let n := s.ni k
  s.setFs [(Csr.niCredStat_TC0 k, n.credits 0), (Csr.niCredStat_TC1 k, n.credits 1), (Csr.niCredStat_TC2 k, n.credits 2),
    (Csr.niCredStat_TC3 k, n.credits 3)]

/-- A message handed to the transmit NI of port `k`. -/
def State.sendMsg (s : State) (k cls : Nat) (data : List Byte) (fwd : Bool) (op : Option Nat) : State :=
  s.setNi k { s.ni k with txq := (s.ni k).txq ++ [⟨cls, data, false, fwd, op, false⟩] }

/-- Flits of a message that has left a receive buffer raise CREDIT (R307). -/
def NiPort.free (n : NiPort) (c flits : Nat) : NiPort :=
  { n with freed := setCnt n.freed c ((cnt n.freed c + flits) % 65536) }

/-! ## Chunks that wait for a port (R347, R355) -/

/-- The ports that a chunk may take: enabled for data, of the trunk, with WRAP as the step asks. -/
def State.trunk (s : State) (p : Nat) (axis : Nat) (minus : Bool) (wrap : Option Bool) : List Nat :=
  (List.range 32).filter (fun k => bitOf (s.getF (Csr.sysPartNi_MASK p)) k && s.dataOn k
    && s.flag (Csr.niPmap_ASSIGNED k) && decide (s.getF (Csr.niPmap_AXIS k) = axis)
    && decide (s.getF (Csr.niPmap_DIR k) = minus.toNat)
    && (match wrap with
      | none => true
      | some w => s.flag (Csr.niPmap_WRAP k) == w))

/-- Replace an operation. -/
def State.setOp (s : State) (o : PftOp) : State :=
  { s with ops := s.ops.map (fun x => if x.stamp = o.stamp then o else x) }

/-- The chunks of an operation that find a port with fewer than 32 of its chunks in flight go to that port. -/
def State.pumpOut (s : State) (o : PftOp) (out : List OutChunk) : State × PftOp :=
  match out with
  | [] => (s, o)
  | c :: r =>
    let ports := s.trunk o.part c.axis c.minus c.wrap
    match ports[c.idx % max 1 ports.length]? with
    | none =>
      let x := s.pumpOut { o with out := [] } r
      (x.1, { x.2 with out := c :: x.2.out })
    | some k =>
      if 32 ≤ (o.flight.filter (fun f => decide (f = k))).length then
        let x := s.pumpOut { o with out := [] } r
        (x.1, { x.2 with out := c :: x.2.out })
      else
        ((s.sendMsg k c.cls c.bytes false (some o.stamp)).addF (Csr.niPftChunks_SENT k) 1).pumpOut
          { o with out := [], flight := o.flight ++ [k] } r

/-- Hand every chunk that can go to its port; operations in posting order. One that has completed is forgotten when
nothing of it is left to send. -/
def State.pump (s : State) : State :=
  if s.fatal then s
  else
    let t := s.ops.foldl (fun t o =>
      let x := t.pumpOut o o.out
      x.1.setOp x.2) s
    { t with ops := t.ops.filter (fun o => !(o.gone && o.out.isEmpty)) }

end Sys2Proof.Machine
end

