-- ==== Sys2Proof/Machine/Group.lean ====
section
/-! DEFINITION. Groups and what a posted operation sends and expects (R333 to R335, R340, R341, R344 to R350). -/

namespace Sys2Proof.Machine

/-! ## Group records (R333, R334) -/

/-- Key of group `gid` of partition `p`. -/
def groupKey (p gid : Nat) : Nat := p * 4096 + gid

/-- The group, if it is joined; there are 4,096 to a partition (R333, R335). -/
def State.group (s : State) (p gid : Nat) : Option Group := if gid < 4096 then s.groups.get (fun _ => none) (groupKey p gid) else none

/-- The state with a group replaced. -/
def State.setGroup (s : State) (p gid : Nat) (g : Option Group) : State :=
  { s with groups := s.groups.put (fun _ => none) (groupKey p gid) g }

/-- Fields of a group record. -/
def recAxes (b : List Byte) : List Nat := setBits (fieldAt b 5 1) 8
def recExt (b : List Byte) (a : Nat) : Nat := fieldAt b (0x08 + 2 * a) 2
def recPos (b : List Byte) (a : Nat) : Nat := fieldAt b (0x18 + 2 * a) 2
def recSize (b : List Byte) : Nat := (recAxes b).foldl (fun n a => n * recExt b a) 1

/-- The rank of the member with the given positions: the lowest axis varies fastest. -/
def rankOf (b : List Byte) (pos : Nat → Nat) : Nat :=
  ((recAxes b).foldl (fun (x : Nat × Nat) a => (x.1 + pos a * x.2, x.2 * recExt b a)) (0, 1)).1

/-- This device's rank. -/
def ownRank (b : List Byte) : Nat := rankOf b (recPos b)

/-- The position along axis `a` of the member with a rank. -/
def posOf (b : List Byte) (rank a : Nat) : Nat :=
  rank / ((recAxes b).foldl (fun n x => if x < a then n * recExt b x else n) 1) % max 1 (recExt b a)

/-- The rank of the plus (minus) neighbour along axis `a`. -/
def neighbour (b : List Byte) (a : Nat) (minus : Bool) : Nat :=
  let n := recExt b a
  rankOf b (fun x => if x = a then (if minus then (recPos b a + n - 1) % n else (recPos b a + 1) % n) else recPos b x)

/-- The node at a rank. -/
def Group.node (g : Group) (rank : Nat) : Nat := g.table.getD rank 0

/-- Job tag and wire version of a group. -/
def Group.job (g : Group) : Nat := fieldAt g.record 2 2
def Group.ver (g : Group) : Nat := fieldAt g.record 4 1

/-! ## Operation descriptors (R340) -/

def PftOp.code (o : PftOp) : Nat := fieldAt o.bytes 0 1
def PftOp.bidir (o : PftOp) : Bool := bitOf (fieldAt o.bytes 1 1) 0
def PftOp.stream (o : PftOp) : Bool := bitOf (fieldAt o.bytes 1 1) 2
def PftOp.gid (o : PftOp) : Nat := fieldAt o.bytes 2 2
def PftOp.trig (o : PftOp) : Nat := fieldAt o.bytes 8 2
def PftOp.thresh (o : PftOp) : Nat := fieldAt o.bytes 0x0A 2
def PftOp.src (o : PftOp) : Nat := fieldAt o.bytes 0x10 8
def PftOp.dst (o : PftOp) : Nat := fieldAt o.bytes 0x18 8
def PftOp.count (o : PftOp) : Nat := fieldAt o.bytes 0x20 4
def PftOp.dtype (o : PftOp) : Nat := fieldAt o.bytes 0x24 1
def PftOp.isMax (o : PftOp) : Bool := decide (fieldAt o.bytes 0x25 1 = 1)
def PftOp.chunk (o : PftOp) : Nat := 2 ^ fieldAt o.bytes 0x26 1
def PftOp.peer (o : PftOp) : Nat := fieldAt o.bytes 0x28 2
def PftOp.slot (o : PftOp) : Nat := fieldAt o.bytes 0x2A 2
def PftOp.chunkCtr (o : PftOp) : Nat := fieldAt o.bytes 0x2C 2
def PftOp.esz (o : PftOp) : Nat := esize o.dtype

/-- SEND, RECV and CTR_ADD are matched by SLOT and take no sequence number (R342). -/
def bySlot (op : Nat) : Bool := decide (op = 1) || decide (op = 2) || decide (op = 10)

/-- SEQ of the operation's chunks: SLOT for one that is matched by it (R350). -/
def PftOp.label (o : PftOp) : Nat := if bySlot o.code then o.slot else o.seq

/-- A counter field names no counter. -/
def noCtr (f : Nat) : Bool := bitOf f 15

/-- The operation runs as Bell class (R341, R348). -/
def PftOp.bell (o : PftOp) : Bool :=
  decide (o.code = 8) || decide (o.code = 9) || (decide (o.code = 3) && decide (o.count * o.esz ≤ 216))

/-- Bytes of an element of a Bell message, an FP32 value, and the 54 of one message (R348); BARRIER's vector has no bytes. -/
def PftOp.bellSize (o : PftOp) : Nat := if o.code = 8 then 0 else 4
def PftOp.bellPer (o : PftOp) : Nat := if o.code = 8 then 1 else 54

/-- An element of an ALL_REDUCE as a Bell message carries it, and as it was stored (R348). -/
def PftOp.wide (o : PftOp) (x : Option Nat) : Option Nat :=
  match decide (o.code = 3), floatFmt o.dtype with
  | true, some f => if o.dtype = 0 then x else x.map (fun v => encodeFloat fp32 (decodeFloat f v))
  | _, _ => x
def PftOp.narrow (o : PftOp) (x : Option Nat) : Option Nat :=
  match decide (o.code = 3), floatFmt o.dtype with
  | true, some f => if o.dtype = 0 then x else x.map (fun v => encodeFloat f (decodeFloat fp32 v))
  | _, _ => x

/-! ## Phases and shards (R344, R345) -/

/-- Elements of each half: one part without BIDIR (R345). -/
def PftOp.halfSizes (o : PftOp) : List Nat :=
  if o.bidir then [o.count / 2, o.count - o.count / 2] else [o.count]

/-- First element of shard `i` of `n` of `e` elements, and its size. -/
def shardStart (e n i : Nat) : Nat := i * e / n
def shardSize (e n i : Nat) : Nat := (i + 1) * e / n - i * e / n

/-- A phase of a ring algorithm: reducing or gathering, its axis, members, this member's position, elements of its
larger vector, where they begin in the half, and the ring steps before it (DESIGN CHOICE: STEP counts on through
the phases, notes/assumptions/31.md). -/
structure Phase where
  reduce : Bool
  axis : Nat
  n : Nat
  r : Nat
  elems : Nat
  off : Nat
  base : Nat
deriving DecidableEq, Repr

/-- The cuts along the axes, ascending: axis, members, position, elements before the cut, their offset. -/
def cuts (b : List Byte) (axes : List Nat) (e off : Nat) : List (Nat × Nat × Nat × Nat × Nat) :=
  match axes with
  | [] => []
  | a :: r =>
    let n := recExt b a
    let p := recPos b a
    (a, n, p, e, off) :: cuts b r (shardSize e n p) (off + shardStart e n p)

/-- Number the steps of a list of phases. -/
def withBases (l : List Phase) (base : Nat) : List Phase :=
  match l with
  | [] => []
  | p :: r => { p with base := base } :: withBases r (base + (p.n - 1))

/-- The phases of a half of `e` elements of a ring operation (R344). -/
def PftOp.phases (o : PftOp) (g : Group) (e : Nat) : List Phase :=
  let cs := cuts g.record (recAxes g.record) e 0
  let mk (red : Bool) (c : Nat × Nat × Nat × Nat × Nat) : Phase := ⟨red, c.1, c.2.1, c.2.2.1, c.2.2.2.1, c.2.2.2.2, 0⟩
  let red := cs.map (mk true)
  let gat := cs.reverse.map (mk false)
  withBases (match o.code with
    | 4 => red
    | 5 => gat
    | _ => red ++ gat) 0

/-- Elements of this member's block of a half of `e` elements. -/
def blockSize (b : List Byte) (e : Nat) : Nat := (recAxes b).foldl (fun m a => shardSize m (recExt b a) (recPos b a)) e

/-- The shard number `k` positions behind this member along the ring of the half (R344). -/
def Phase.behind (p : Phase) (half k : Nat) : Nat := if half = 0 then (p.r + p.n * 2 - k % p.n) % p.n else (p.r + k) % p.n

/-- The shard that step `t` sends, and the one that arrives in it. -/
def Phase.sends (p : Phase) (half t : Nat) : Nat := if p.reduce then p.behind half (t + 1) else p.behind half t
def Phase.takes (p : Phase) (half t : Nat) : Nat := if p.reduce then p.behind half (t + 2) else p.behind half (t + 1)

/-- The chunks of `len` bytes: number, offset, size (R355). -/
def chunksOf (len size : Nat) : List (Nat × Nat × Nat) :=
  (List.range (ceilDiv len size)).map (fun i => (i, i * size, min size (len - i * size)))

/-! ## What an operation sends (R341, R344 to R348) -/

/-- A chunk that an operation sends: half, step, byte offset, payload bytes, number within the step, destination rank,
trunk, class, KIND, and STEP of its header. -/
structure Hop where
  half : Nat
  step : Nat
  off : Nat
  len : Nat
  idx : Nat
  rank : Nat
  axis : Nat
  minus : Bool
  wrap : Option Bool
  cls : Nat
  kind : Nat
  hstep : Nat
deriving DecidableEq, Repr

/-- A chunk to the neighbour along an axis. -/
def ringHop (b : List Byte) (half step axis cls kind : Nat) (minus : Bool) (c : Nat × Nat × Nat) : Hop :=
  let p := recPos b axis
  let wrap := if minus then decide (p = 0) else decide (p + 1 = recExt b axis)
  ⟨half, step, c.2.1, c.2.2, c.1, neighbour b axis minus, axis, minus, some wrap, cls, kind, step⟩

/-- A chunk to a rank of a group of one axis (R346): plus trunk up to half way round; the wrap step of a direct
neighbour is that of R347. -/
def directHop (b : List Byte) (key cls kind rank : Nat) (c : Nat × Nat × Nat) : Hop :=
  let n := recSize b
  let r := ownRank b
  let a := (recAxes b).headD 0
  let d := (rank + n - r) % n
  let minus := decide (n < 2 * d)
  let wrap := if d = 1 ∧ !minus then some (decide (r + 1 = n))
    else if d + 1 = n ∧ minus then some (decide (r = 0)) else none
  ⟨0, key, c.2.1, c.2.2, c.1, rank, a, minus, wrap, cls, kind, 0⟩

/-- Ring operations: every step of every phase. -/
def PftOp.ringHops (o : PftOp) (g : Group) : List Hop :=
  (o.halfSizes.mapIdx (fun h e => (h, e))).flatMap (fun x => (o.phases g x.2).flatMap (fun p =>
    (List.range (p.n - 1)).flatMap (fun t =>
      (chunksOf (shardSize p.elems p.n (p.sends x.1 t) * o.esz) o.chunk).map
        (fun c => ringHop g.record x.1 (p.base + t) p.axis 2 1 (decide (x.1 = 1)) c))))

/-- BROADCAST's place in the tree: for each axis ascending, members, distance from the source along the half's ring,
steps before it; and whether every later axis stands at the source's position. -/
def PftOp.castLine (o : PftOp) (g : Group) (half : Nat) : List (Nat × Nat × Nat × Nat) :=
  let b := g.record
  let go := (recAxes b).foldl (fun (x : List (Nat × Nat × Nat × Nat) × Nat) a =>
    let n := recExt b a
    let root := posOf b o.peer a
    let d := if half = 0 then (recPos b a + n - root) % n else (root + n - recPos b a) % n
    (x.1 ++ [(a, n, d, x.2)], x.2 + (n - 1))) ([], 0)
  go.1

/-- The number of the axis phase in which this member receives: one more than the last axis on which it differs from
the root, 0 for the root. -/
def castPhase (chain : List (Nat × Nat × Nat × Nat)) : Nat :=
  ((chain.mapIdx (fun i x => (i, x))).foldl (fun m y => if y.2.2.2.1 = 0 then m else y.1 + 1) 0)

/-- BROADCAST: forward along the axis on which it arrives, then along every later axis (R346). -/
def PftOp.castHops (o : PftOp) (g : Group) : List Hop :=
  (o.halfSizes.mapIdx (fun h e => (h, e))).flatMap (fun x =>
    let chain := o.castLine g x.1
    let ph := castPhase chain
    (chain.mapIdx (fun i y => (i, y))).flatMap (fun z =>
      let n := z.2.2.1
      let d := z.2.2.2.1
      if (z.1 + 1 = ph ∧ d + 1 < n) ∨ (ph ≤ z.1 ∧ 1 < n) then
        (chunksOf (x.2 * o.esz) o.chunk).map (fun c => ringHop g.record x.1 (z.2.2.2.2 + d) z.2.1 2 1 (decide (x.1 = 1)) c)
      else []))

/-- Messages of a Bell vector of `len` elements. -/
def PftOp.bellChunks (o : PftOp) (len : Nat) : List (Nat × Nat × Nat) :=
  let per := o.bellPer
  (List.range (max 1 (ceilDiv len per))).map (fun i => (i, i * 216, min per (len - i * per) * o.bellSize))

/-- Bell operations: up the axis in pass 0, round it in pass 1 (R348). -/
def PftOp.bellHops (o : PftOp) (g : Group) (len : Nat) : List Hop :=
  ((recAxes g.record).mapIdx (fun i a => (i, a))).flatMap (fun x =>
    let n := recExt g.record x.2
    let r := recPos g.record x.2
    (o.bellChunks len).flatMap (fun c =>
      (if r + 1 < n then [ringHop g.record 0 (2 * x.1) x.2 3 4 false c] else []) ++
      (if 1 < n ∧ (r + 1 = n ∨ r + 2 < n) then [ringHop g.record 0 (2 * x.1 + 1) x.2 3 4 false c] else [])))

/-- Length of a Bell vector, as its first half run holds it. -/
def PftOp.bellLen (o : PftOp) : Nat :=
  match o.halves with
  | h :: _ => h.vec.length
  | [] => 0

/-- Everything that the operation sends. -/
def PftOp.hops (o : PftOp) (g : Group) : List Hop :=
  let b := g.record
  match o.code with
  | 1 => (chunksOf (o.count * o.esz) o.chunk).map (directHop b 0 2 2 o.peer)
  | 2 => []
  | 6 =>
    let blk := o.count / recSize b * o.esz
    ((List.range (recSize b)).filter (fun j => decide (j ≠ ownRank b))).flatMap
      (fun j => (chunksOf blk o.chunk).map (directHop b j 2 1 j))
  | 7 => o.castHops g
  | 10 => [directHop b 0 3 3 o.peer (0, 0, 0)]
  | _ => if o.bell then o.bellHops g o.bellLen else o.ringHops g

/-- Everything that the operation expects: half, step, offset, payload bytes. -/
def PftOp.expects (o : PftOp) (g : Group) : List (Nat × Nat × Nat × Nat) :=
  let b := g.record
  let pieces (h st len size : Nat) := (chunksOf len size).map (fun c => (h, st, c.2.1, c.2.2))
  let halves := o.halfSizes.mapIdx (fun h e => (h, e))
  match o.code with
  | 1 => []
  | 2 => pieces 0 0 (o.count * o.esz) o.chunk
  | 6 => ((List.range (recSize b)).filter (fun j => decide (j ≠ ownRank b))).flatMap
      (fun j => pieces 0 j (o.count / recSize b * o.esz) o.chunk)
  | 7 => halves.flatMap (fun x =>
      let chain := o.castLine g x.1
      match castPhase chain with
      | 0 => []
      | i + 1 => match chain[i]? with
        | some y => pieces x.1 (y.2.2.2 + y.2.2.1 - 1) (x.2 * o.esz) o.chunk
        | none => [])
  | 10 => []
  | _ =>
    if o.bell then
      ((recAxes b).mapIdx (fun i a => (i, a))).flatMap (fun x =>
        let n := recExt b x.2
        let r := recPos b x.2
        (o.bellChunks o.bellLen).flatMap (fun c =>
          (if 0 < r then [(0, 2 * x.1, c.2.1, c.2.2)] else []) ++ (if r + 1 < n then [(0, 2 * x.1 + 1, c.2.1, c.2.2)] else [])))
    else
      halves.flatMap (fun x => (o.phases g x.2).flatMap (fun p => (List.range (p.n - 1)).flatMap (fun t =>
        pieces x.1 (p.base + t) (shardSize p.elems p.n (p.takes x.1 t) * o.esz) o.chunk)))

/-! ## Home NI (R347) -/

/-- The half whose chunks go first: the one on the plus rings, unless it has no elements (R345). -/
def PftOp.firstHalf (o : PftOp) : Nat := if o.bidir ∧ o.count < 2 then 1 else 0

/-- BROADCAST's first trunk: that of the first axis along which this member sends; a member that sends nothing uses the one on which it
receives. -/
def PftOp.castTrunk (o : PftOp) (g : Group) : Option (Nat × Bool) :=
  let h := o.firstHalf
  let chain := o.castLine g h
  let ph := castPhase chain
  match (chain.mapIdx (fun i x => (i, x))).find? (fun z =>
      decide ((z.1 + 1 = ph ∧ z.2.2.2.1 + 1 < z.2.2.1) ∨ (ph ≤ z.1 ∧ 1 < z.2.2.1))) with
  | some z => some (z.2.1, decide (h = 1))
  | none => if ph = 0 then none else (chain[ph - 1]?).map (fun x => (x.1, decide (h = 0)))

/-- The first trunk that the operation uses (R347): axis and direction. An axis of one member has none; an operation that uses none is
given the first axis's. -/
def PftOp.firstTrunk (o : PftOp) (g : Group) : Nat × Bool :=
  let b := g.record
  let axes := recAxes b
  let first (l : List Nat) : Nat × Bool :=
    ((l.find? (fun a => decide (1 < recExt b a))).getD (axes.headD 0), decide (o.firstHalf = 1) && !o.bell)
  let direct (rank : Nat) : Nat × Bool :=
    let h := directHop b 0 2 2 rank (0, 0, 0)
    (h.axis, h.minus)
  match o.code with
  | 1 | 2 | 10 => direct o.peer
  | 5 => first axes.reverse
  | 6 => direct (if ownRank b = 0 then 1 else 0)
  | 7 => (o.castTrunk g).getD (first axes)
  | _ => first axes

/-- The home NI: the lowest port of the first trunk, enabled ones first; NI 0 where the maps give none (DESIGN CHOICE,
notes/assumptions/31.md). -/
def State.homeNi (s : State) (p : Nat) (o : PftOp) (g : Group) : Nat :=
  let t := o.firstTrunk g
  let mapped := (List.range 32).filter (fun k => bitOf (s.getF (Csr.sysPartNi_MASK p)) k && s.flag (Csr.niPmap_ASSIGNED k)
    && decide (s.getF (Csr.niPmap_AXIS k) = t.1) && decide (s.getF (Csr.niPmap_DIR k) = t.2.toNat))
  (s.trunk p t.1 t.2 none).headD (mapped.headD 0)

end Sys2Proof.Machine
end

