-- ==== Sys2Proof/Machine/RollCall.lean ====
section
/-! DEFINITION. Node ID, roll call and the plan (R314 to R323). -/

namespace Sys2Proof.Machine

/-! ## Records sent (R317, R318) -/

/-- The AXIS byte of a record (R317), from the port map. -/
def State.axisByte (s : State) (k : Nat) : Nat :=
  s.getF (Csr.niPmap_AXIS k) + 8 * s.getF (Csr.niPmap_DIR k) + 16 * s.getF (Csr.niPmap_WRAP k) +
    128 * s.getF (Csr.niPmap_ASSIGNED k)

/-- MATCHED of the port's own record: it is MATCHED or ENABLED. -/
def State.ownMatched (s : State) (k : Nat) : Bool := decide (s.rcSt k = 2) || decide (s.rcSt k = 3)

/-- The port's roll-call record (R317). -/
def State.rcRecord (s : State) (k seq : Nat) : List Byte :=
  leBytes 1 1 ++ leBytes 1 (s.getF Csr.sysNode_PROTO) ++ leBytes 1 k ++ leBytes 1 (s.ownMatched k).toNat ++
  leBytes 2 (s.getF Csr.sysNode_NODE) ++ leBytes 2 (s.getF (Csr.niPmap_JOB k)) ++ leBytes 8 (s.rd Csr.sysSerial).toNat ++
  leBytes 1 (s.axisByte k) ++ List.replicate 7 0 ++ leBytes 4 seq ++ List.replicate 4 0

/-- Send the port's record. A port that is not UP sends none: one that is retraining owes it to the end of its retrain. -/
def State.sendRecord (s : State) (k : Nat) : State :=
  if s.niSt k ≠ 4 then s.setNi k { s.ni k with rcOwed := true }
  else
    let seq := (s.ni k).rcSeq + 1
    (s.setNi k { s.ni k with rcSeq := seq % 2 ^ 32, rcOwed := false }).sendMsg k 0 (s.rcRecord k seq) false none

/-- UP again in the same epoch: a record whose fields changed during the retrain is sent (R318). -/
def State.sendOwed (s : State) (k : Nat) : State := if (s.ni k).rcOwed then s.sendRecord k else s

/-! ## The plan's state (R322) -/

/-- SYS.PLAN[p].CTRL.STATE: 0 UNLOADED, 1 PENDING, 2 SATISFIED, 3 UNSATISFIED. -/
def State.planSt (s : State) (p : Nat) : Nat := s.getF (Csr.sysPlanCtrl_STATE p)

/-- The ports of partition `p`. -/
def State.portsOf (s : State) (p : Nat) : List Nat := setBits (s.getF (Csr.sysPartNi_MASK p)) 32

/-- The ports of `p` in a roll-call state, as a mask. -/
def State.rcMask (s : State) (p st : Nat) : Nat :=
  (s.portsOf p).foldl (fun m k => if s.rcSt k = st then m + 2 ^ k else m) 0

/-- What the plan's state must be, while it is loaded. -/
def State.planWants (s : State) (p : Nat) : Nat :=
  let v := (s.portsOf p).filter (fun k => s.flag (Csr.niExpId_VALID k))
  if v.any (fun k => decide (s.rcSt k = 5) || decide (s.rcSt k = 4)) then 3
  else if v.all (fun k => decide (s.rcSt k = 3)) then 2
  else 1

/-- PORTS and the plan's state follow the ports; entries to UNSATISFIED and SATISFIED write their records (R323). -/
def State.showPlan (s : State) (p : Nat) : State :=
  let s1 := s.setFs [(Csr.sysPlanPorts_MISSING p, s.rcMask p 5), (Csr.sysPlanPorts_QUAR p, s.rcMask p 4)]
  let old := s.planSt p
  let new := s.planWants p
  if old = 0 ∨ old = new then s1
  else
    let s2 := s1.setF (Csr.sysPlanCtrl_STATE p) new
    if new = 3 then s2.recordP (some p) 0x0602 1 0 0 0xFFFF 0 [(4, s.rcMask p 5), (4, s.rcMask p 4)]
    else if new = 2 then s2.recordP (some p) 0x0603 0 0 0 0xFFFF 0 []
    else s2

/-! ## Roll-call states (R320) -/

/-- Port `k` enters a roll-call state: a change of MATCHED is sent (R318), the plan and the Bell bound follow. -/
def State.setRc (s : State) (k st : Nat) : State :=
  let old := s.rcSt k
  let s1 := s.setF (Csr.niRcState_STATE k) st
  let s2 := if s.ownMatched k ≠ s1.ownMatched k then s1.sendRecord k else s1
  let s3 := match s.niPart k with
    | some p => s2.showPlan p
    | none => s2
  if old = st then s3 else s3.bound k

/-- The plan of the port's partition is loaded. -/
def State.planLoaded (s : State) (k : Nat) : Bool :=
  match s.niPart k with
  | some p => decide (s.planSt p ≠ 0)
  | none => false

/-- A port enters QUARANTINE: counted, and the record of R323 with the far record. -/
def State.quarantine (s : State) (k mism : Nat) : State :=
  let sev := if s.flag (Csr.niExpId_VALID k) then 1 else 0
  let fields := (1, mism) :: ((s.ni k).farRec.take 24).map (fun b => (1, b.toNat))
  (((s.setF (Csr.niRcState_MISMATCH k) mism).addF (Csr.niRcStat_QUAR k) 1).recordP (s.niPart k) 0x0601 sev 4 k 0xFFFF 0
    fields).setRc k 4

/-- The checks of R319 on the last record, as FAR_SERIAL and FAR_ID hold it; its PORT byte is compared whole. -/
def State.mismatch (s : State) (k : Nat) : Nat :=
  let far (f : Nat → Fld) := s.getF (f k)
  let exp (f : Nat → Fld) := s.getF (f k)
  let axis := far Csr.niFarId_AXIS
  let own := s.axisByte k
  let serial := s.rd (Csr.niFarSerial k)
  let want := s.rd (Csr.niExpSerial k)
  let job := far Csr.niFarId_JOB
  let checks : List Bool := [
    decide (want ≠ 0) && decide (serial ≠ want),
    decide (far Csr.niFarId_NODE ≠ exp Csr.niExpId_NODE),
    decide (fieldAt (s.ni k).farRec 2 1 ≠ exp Csr.niExpId_PORT),
    decide (job ≠ exp Csr.niExpId_JOB) || decide (job ≠ exp Csr.niPmap_JOB),
    decide (far Csr.niFarId_PROTO < exp Csr.niExpId_MIN_PROTO),
    bitOf axis 7 && bitOf own 7 && (decide (axis % 8 ≠ own % 8) || decide (bitOf axis 3 = bitOf own 3)),
    decide (exp Csr.niExpId_VALID = 0),
    decide (serial = s.rd Csr.sysSerial)]
  checks.foldr (fun b n => b.toNat + 2 * n) 0

/-- A record whose MATCHED is 1 enables a MATCHED port of a device with a node ID; one with MATCHED = 0 returns an
ENABLED port to MATCHED (R314, R320). -/
def State.matchStep (s : State) (k : Nat) : State :=
  let m := s.flag (Csr.niFarId_MATCHED k)
  if s.rcSt k = 2 && m && decide (s.getF Csr.sysNode_NODE ≠ 0xFFFF) then s.setRc k 3
  else if s.rcSt k = 3 && !m then s.setRc k 2
  else s

/-- The last record is evaluated (R319, R320). A port that PORT_QUARANTINE holds (QUARANTINE with MISMATCH 0) leaves
only by a RECHECK (R398). -/
def State.evaluate (s : State) (k : Nat) (recheck : Bool) : State :=
  let mism := s.mismatch k
  let st := s.rcSt k
  if !s.planLoaded k || decide (st = 0) || (decide (st = 4) && decide (s.getF (Csr.niRcState_MISMATCH k) = 0) && !recheck) then s
  else if mism ≠ 0 then
    if st = 4 then s.setF (Csr.niRcState_MISMATCH k) mism else s.quarantine k mism
  else
    let s1 := s.setF (Csr.niRcState_MISMATCH k) 0
    let s2 := if st = 1 ∨ st = 4 ∨ st = 5 then s1.setRc k 2 else s1
    s2.matchStep k

/-- FAR_SERIAL and FAR_ID take a record. -/
def State.storeFar (s : State) (k : Nat) (b : List Byte) : State :=
  (((s.setNi k { s.ni k with farRec := b }).wr (Csr.niFarSerial k) (BitVec.ofNat 64 (fieldAt b 8 8))).setFs
    [(Csr.niFarId_PROTO k, fieldAt b 1 1), (Csr.niFarId_PORT k, fieldAt b 2 1), (Csr.niFarId_NODE k, fieldAt b 4 2),
     (Csr.niFarId_JOB k, fieldAt b 6 2), (Csr.niFarId_AXIS k, fieldAt b 0x10 1), (Csr.niFarId_MATCHED k, fieldAt b 3 1),
     (Csr.niFarId_VALID k, 1)])

/-- TYPE is 0x01 and every reserved bit is 0 (R317). -/
def rcRecordOk (b : List Byte) : Bool :=
  decide (fieldAt b 0 1 = 1) && decide (fieldAt b 3 1 < 2) && decide (fieldAt b 0x10 1 / 32 % 4 = 0)
    && decide (fieldAt b 0x11 7 = 0) && decide (fieldAt b 0x1C 4 = 0)

/-- A received record (R317 to R320). -/
def State.hearRecord (s : State) (k : Nat) (b : List Byte) : State :=
  let s1 := s.addF (Csr.niRcStat_RECORDS k) 1
  if rcRecordOk b then (s1.storeFar k b).evaluate k false else s1

/-- A message of class `c` of port `k`, taken out of its receive buffer: the first whole one that `f` selects. -/
def takeMsg (l : List InMsg) (f : InMsg → Bool) : Option (InMsg × List InMsg) :=
  match l with
  | [] => none
  | m :: r =>
    if f m then some (m, r)
    else match takeMsg r f with
      | some (x, r') => some (x, m :: r')
      | none => none

/-- A whole TC0 message of 32 bytes is a roll-call record (DEDUCED: R316, R317 give records no header). -/
def isRcRecord (m : InMsg) : Bool := decide (m.cls = 0) && m.whole && decide (m.data.length = 32)

/-- The oldest whole message of class `cls` that has not been dispatched: messages of a class are taken in order (R302). -/
def NiPort.nextIn (n : NiPort) (cls : Nat) : Option (InMsg × List InMsg) :=
  takeMsg n.msgs (fun m => decide (m.cls = cls) && m.whole && m.out.isNone)

/-- ROLL_CALL_RECORD (R302, R317 to R320): the oldest message of TC0 received at port `k`, where it is a record. -/
def execRollCallRecord (k : Fin 32) (s : State) : Host.Outcome State Fault Refusal :=
  let n := s.ni k
  match n.nextIn 0 with
  | none => .next s
  | some (m, r) => if isRcRecord m then .next ((s.setNi k ({ n with msgs := r }.free 0 m.flits)).hearRecord k m.data) else .next s

/-- ROLL_CALL_RESEND (R318): 100 ms in UP and not ENABLED. -/
def execRollCallResend (k : Fin 32) (s : State) : Host.Outcome State Fault Refusal :=
  if s.niSt k = 4 ∧ s.rcSt k ≠ 3 then .next (s.sendRecord k) else .next s

/-- RC_TMO_EXPIRY (R320). -/
def execRcTmoExpiry (k : Fin 32) (s : State) : Host.Outcome State Fault Refusal :=
  if s.planLoaded k && s.flag (Csr.niExpId_VALID k) && (s.rcSt k = 0 || s.rcSt k = 1) then .next (s.setRc k 5) else .next s

/-- Port `k` leaves UP for DOWN: IDLE, data disabled (R320). -/
def State.rcDown (s : State) (k : Nat) : State := if s.rcSt k = 0 then s else s.setRc k 0

/-- Port `k` enters UP in a new epoch: WAIT where the plan is loaded, and its record is sent (R318, R320). -/
def State.rcUp (s : State) (k : Nat) : State :=
  let s1 := s.setF (Csr.niRcState_STATE k) 0
  let s2 := if s.planLoaded k then s1.setRc k 1 else s1.setRc k 0
  s2.sendRecord k

/-! ## GO and UNLOAD (R320, R322) -/

/-- Two VALID entries of the same trunk name different nodes (R322). -/
def State.badPlan (s : State) (p : Nat) : Bool :=
  let v := (s.portsOf p).filter (fun k => s.flag (Csr.niExpId_VALID k) && s.flag (Csr.niPmap_ASSIGNED k))
  v.any (fun a => v.any (fun b => decide (s.getF (Csr.niPmap_AXIS a) = s.getF (Csr.niPmap_AXIS b))
    && decide (s.getF (Csr.niPmap_DIR a) = s.getF (Csr.niPmap_DIR b))
    && decide (s.getF (Csr.niExpId_NODE a) ≠ s.getF (Csr.niExpId_NODE b))))

/-- GO of partition `p` (R322): ports that are UP wait for their neighbour's record. -/
def State.planGo (s : State) (p : Nat) : State :=
  if s.planSt p ≠ 0 then s
  else if s.badPlan p then s.setF (Csr.sysPlanCtrl_BADPLAN p) 1
  else ((s.portsOf p).foldl (fun t k => if t.niSt k = 4 then t.setRc k 1 else t) (s.setF (Csr.sysPlanCtrl_STATE p) 1)).showPlan p

/-- UNLOAD of partition `p` (R320, R322). -/
def State.planUnload (s : State) (p : Nat) : State :=
  ((s.portsOf p).foldl (fun t k => t.setRc k 0) (s.setF (Csr.sysPlanCtrl_STATE p) 0)).showPlan p

/-- A write of SYS.PLAN[p].CTRL (R331): GO is judged before UNLOAD. -/
def planCtrlWrite (p : Nat) (s : State) (v m : Nat) : State :=
  let s1 := s.storeBut (Csr.sysPlanCtrl p) v m [Csr.sysPlanCtrl_GO p, Csr.sysPlanCtrl_UNLOAD p]
  let s2 := if wrote1 v m (Csr.sysPlanCtrl_GO p) then s1.planGo p else s1
  if wrote1 v m (Csr.sysPlanCtrl_UNLOAD p) then s2.planUnload p else s2

/-- PLAN_GO (R322): a write of SYS.PLAN[p].CTRL. -/
def execPlanGo (port : Fin 4) (p : Fin 8) (w : AccWidth) (v : Word) (s : State) : Host.Outcome State Fault Refusal :=
  .next (s.hostWrite port (Csr.sysPlanCtrl p) w v (planCtrlWrite p))

/-- PLAN_UNLOAD (R322): a write of SYS.PLAN[p].CTRL. -/
def execPlanUnload (port : Fin 4) (p : Fin 8) (w : AccWidth) (v : Word) (s : State) : Host.Outcome State Fault Refusal :=
  .next (s.hostWrite port (Csr.sysPlanCtrl p) w v (planCtrlWrite p))

/-! ## Partitions (R241) -/

/-- A write of SYS.PART[p].CFG (R241): EN_ERR is cleared by a 1, HOSTMASK and EVT_PORT are stored while EN = 0, then
EN is judged. A partition that is disabled leaves no plan loaded behind it (DESIGN CHOICE, notes/assumptions/88.md): its ports are IDLE. -/
def partCfgWrite (p : Nat) (s : State) (v m : Nat) : State :=
  let a := Csr.sysPartCfg p
  let s1 := if s.partOn p then s.storeBut a v m [Csr.sysPartCfg_EN p, Csr.sysPartCfg_HOSTMASK p, Csr.sysPartCfg_EVT_PORT p]
    else s.storeBut a v m [Csr.sysPartCfg_EN p]
  match wroteF v m (Csr.sysPartCfg_EN p) with
  | none => s1
  | some 0 =>
    if !s1.partOn p then s1
    else if s1.mayDisable p then ((s1.planUnload p).setF (Csr.sysPartCfg_EN p) 0).showPartition p
    else s1.setF (Csr.sysPartCfg_EN_ERR p) 1
  | some _ =>
    if s1.partOn p then s1
    else if s1.mayEnable p then (s1.setF (Csr.sysPartCfg_EN p) 1).showPartition p
    else s1.setF (Csr.sysPartCfg_EN_ERR p) 1

/-- PARTITION_ENABLE (R241): a write of SYS.PART[p].CFG. -/
def execPartitionEnable (port : Fin 4) (p : Fin 8) (w : AccWidth) (v : Word) (s : State) : Host.Outcome State Fault Refusal :=
  .next (s.hostWrite port (Csr.sysPartCfg p) w v (partCfgWrite p))

/-! ## RECHECK and NODE (R314, R320) -/

/-- A write of NI.RC_STATE (R320, R332): RECHECK in QUARANTINE evaluates the last record again. -/
def rcStateWrite (k : Nat) (s : State) (v m : Nat) : State :=
  if wrote1 v m (Csr.niRcState_RECHECK k) && decide (s.rcSt k = 4) && s.flag (Csr.niFarId_VALID k) then s.evaluate k true else s

/-- RECHECK (R320): a write of NI.RC_STATE. -/
def execRecheck (port : Fin 4) (k : Fin 32) (w : AccWidth) (v : Word) (s : State) : Host.Outcome State Fault Refusal :=
  .next (s.hostWrite port (Csr.niRcState k) w v (rcStateWrite k))

/-- A write of SYS.NODE (R314, R331). With a node ID a MATCHED port whose neighbour has matched is enabled. -/
def sysNodeWrite (s : State) (v m : Nat) : State :=
  let f := Csr.sysNode_NODE
  let s1 := s.storeBut Csr.sysNode v m [f]
  if wroteF v m f = none then s1
  else if (List.range 32).any (fun k => s.dataOn k) then s1.setF Csr.sysNode_NODE_IGN 1
  else
    let old := s.getF f
    let s2 := s1.setF f (s.merged v m f)
    if s2.getF f = old then s2
    else (List.range 32).foldl (fun t k => (t.sendRecord k).matchStep k) s2

/-- NODE_WRITE (R314): a write of SYS.NODE. -/
def execNodeWrite (port : Fin 4) (w : AccWidth) (v : Word) (s : State) : Host.Outcome State Fault Refusal :=
  .next (s.hostWrite port Csr.sysNode w v sysNodeWrite)

/-- A write of PMAP, EXP_SERIAL or EXP_ID of port `k` (R318, R322): ignored while the plan is loaded; a change of the
record is sent. -/
def planEntryWrite (a k : Nat) (s : State) (v m : Nat) : State :=
  match s.niPart k with
  | some p =>
    if s.planSt p ≠ 0 then s.setF (Csr.sysPlanCtrl_WR_IGN p) 1
    else
      let t := s.store a v m
      if t.rd (Csr.niPmap k) = s.rd (Csr.niPmap k) then t else t.sendRecord k
  | none =>
    let t := s.store a v m
    if t.rd (Csr.niPmap k) = s.rd (Csr.niPmap k) then t else t.sendRecord k

end Sys2Proof.Machine
end

