-- ==== Sys2Proof/Machine/Transit.lean ====
section
/-! DEFINITION. Messages that arrive on an optical port: local delivery, transit routes and drops (R316, R321,
R324 to R328). -/

namespace Sys2Proof.Machine

/-- DEST and JOB of a message (R316, R350). -/
def msgDest (d : List Byte) : Nat := fieldAt d 4 2
def msgJob (d : List Byte) : Nat := fieldAt d 6 2

/-- The route that takes a message of port `k` on (R325): the lowest valid entry with its destination and tag and
another out port. -/
def State.route (s : State) (k dest job : Nat) : Option Nat :=
  ((List.range 8).find? (fun j => s.flag (Csr.niXr_VALID k j) && decide (s.getF (Csr.niXr_DEST k j) = dest)
    && decide (s.getF (Csr.niXr_JOB k j) = job) && decide (s.getF (Csr.niXr_OUT_PORT k j) ≠ k))).map
    (fun j => s.getF (Csr.niXr_OUT_PORT k j))

/-- A record that R323 limits to one per port per 10 ms. -/
def State.limited (s : State) (due : Bool) (r : Rec) : State :=
  let part := s.niPart r.unit
  let r1 := { r with part := part.getD 255 }
  if due then s.record false part r1 else s.withhold r1

/-- A message is dropped under R326. -/
def State.tagDrop (s : State) (k : Nat) (data : List Byte) (due : Bool) : State :=
  (s.addF (Csr.niRcStat_TAG_DROP k) 1).limited due
    ⟨0x0604, 2, 255, 4, k, 0xFFFF, 0, [(2, msgJob data), (2, msgDest data)]⟩

/-- MESSAGE_DISPATCH (R321, R325, R326): the oldest message of class `cls` at port `k` that has not been dispatched.
Chunks stay in the class's buffer until the Prefect takes them; a forwarded message waits there for its out port. The monitor
exchange is taken whatever the port's state (R316); a record waits for ROLL_CALL_RECORD. `due`: no JOB_TAG_DROP record of the port in the last 10 ms. -/
def execMessageDispatch (k : Fin 32) (cls : Fin 4) (due : Bool) (s : State) : Host.Outcome State Fault Refusal :=
  let n := s.ni k
  match n.nextIn cls with
  | none => .next s
  | some (m, r) =>
    let gone := s.setNi k ({ n with msgs := r }.free m.cls m.flits)
    if isRcRecord m then .next s
    else if m.cls = 0 ∧ Config.isMonitor m.data then .next (gone.hearMonitor k m.data)
    else if !m.enabled then .next (gone.addF (Csr.niRcStat_TAG_DROP k) 1)
    else if msgDest m.data = s.getF Csr.sysNode_NODE then
      if msgJob m.data = s.getF (Csr.niPmap_JOB k) ∧ msgJob m.data ≠ 0 then
        if m.cls = 2 ∨ m.cls = 3 then .next (s.setNi k { n with msgs := r, inbox := n.inbox ++ [m] })
        else .next gone
      else .next (gone.tagDrop k m.data due)
    else
      match s.route k (msgDest m.data) (msgJob m.data) with
      | some o => .next (s.setNi k { n with msgs := r ++ [{ m with out := some o }] })
      | none => .next (gone.tagDrop k m.data due)

/-- TRANSIT_FORWARD (R327): the oldest message of class `cls` that waits at port `k` for its out port. The out port
accepts one forwarded message of a class at a time. -/
def execTransitForward (k : Fin 32) (cls : Fin 4) (due : Bool) (s : State) : Host.Outcome State Fault Refusal :=
  let n := s.ni k
  match takeMsg n.msgs (fun m => decide (m.cls = cls) && m.out.isSome) with
  | none => .next s
  | some (m, r) =>
    let o := m.out.getD k
    let gone := s.setNi k ({ n with msgs := r }.free m.cls m.flits)
    if !s.dataOn o then
      .next ((gone.addF (Csr.niRcStat_XDROP k) 1).limited due
        ⟨0x0605, 2, 255, 4, k, 0xFFFF, 0, [(1, k), (1, o), (2, msgJob m.data)]⟩)
    else if (s.ni o).txq.any (fun t => t.fwd && decide (t.cls = m.cls)) then .next s
    else .next (gone.sendMsg o m.cls m.data true none)

end Sys2Proof.Machine
end

