-- ==== Sys2Proof/Machine/Prefect.lean ====
section
/-! DEFINITION. The Prefect: posting, firing, running and completing operations, and their chunks (R337 to R359). -/

namespace Sys2Proof.Machine

/-! ## Registers that show the Prefect (R359, R360) -/

/-- Operations that are posted and not complete. -/
def State.posts (s : State) : List PftOp := s.ops.filter (fun o => !o.gone)

/-- The OP that marks the verification exchange of a snapshot, which takes part like a posted operation (R375). -/
def exchangeOp : Nat := 128

/-- Posted entries: the posted operations but for verification exchanges. -/
def State.entries (s : State) : List PftOp := s.posts.filter (fun o => decide (o.code ≠ exchangeOp))

/-- Early chunks of an NI, oldest first. -/
def State.earlyAt (s : State) (k : Nat) : List EarlyChunk := s.early.filter (fun c => decide (c.ni = k))

/-- The registers of NI `k` and PFT.STAT follow. -/
def State.showPft (s : State) (k : Nat) : State :=
  let e := s.earlyAt k
  let s1 := s.setFs
    [(Csr.pftStat_POSTED, s.entries.length), (Csr.pftStat_EARLY, s.early.length),
     (Csr.niPftOcc_POSTED k, (s.entries.filter (fun o => decide (o.home = k))).length), (Csr.niPftOcc_EARLY k, e.length)]
  match e with
  | [] => s1.wr (Csr.niEarlyOld k) 0
  | c :: _ => s1.setFs [(Csr.niEarlyOld_GID k, fieldAt c.bytes 0x0A 2), (Csr.niEarlyOld_SEQ k, fieldAt c.bytes 0x0C 2),
      (Csr.niEarlyOld_SRCNODE k, fieldAt c.bytes 8 2), (Csr.niEarlyOld_VALID k, 1)]

/-! ## Completions (R339, R343) -/

/-- Write a completion record into partition `p`'s ring and advance CQ_TAIL. -/
def State.pftCq (s : State) (p tag st op ni gid other poisons : Nat) : State :=
  let n := s.getF (Csr.pftPartCqTail_TAIL p)
  let size := 2 ^ s.getF (Csr.pftPartQBase_LOG2 p)
  let ph := phaseOf size n
  let bs := leBytes 4 tag ++ leBytes 1 st ++ leBytes 1 op ++ leBytes 1 ni ++ leBytes 1 ph ++ leBytes 2 gid ++
    leBytes 2 other ++ leBytes 4 poisons
  (s.writeRing p (s.getF (Csr.pftPartCqBase_DVA p) + 16 * (n % size)) bs).setFs
    [(Csr.pftPartCqTail_TAIL p, n + 1), (Csr.pftPartCqTail_PHASE p, ph)]

/-- The bytes of the next `n` completion records of partition `p`. -/
def State.pftSlots (s : State) (p n : Nat) : List Nat :=
  let size := 2 ^ s.getF (Csr.pftPartQBase_LOG2 p)
  (List.range n).flatMap (fun i => spread (s.getF (Csr.pftPartCqBase_DVA p) + 16 * ((s.getF (Csr.pftPartCqTail_TAIL p) + i) % size)) 16)

/-- A record of the next `n` waits for a tile (R205, R208, R339, R367). -/
def State.pftCqWaits (s : State) (p n : Nat) : Bool :=
  (List.range n).any (fun i =>
    s.ringWaits p (s.getF (Csr.pftPartCqBase_DVA p) + 16 * ((s.getF (Csr.pftPartCqTail_TAIL p) + i) % 2 ^ s.getF (Csr.pftPartQBase_LOG2 p))) 16)

/-- The writer of the completion records waits. -/
def State.pftStall (s : State) (p n : Nat) : State := s.stall (.record 2 p) p (s.pftSlots p n)

/-- The increments of CHUNK_CTR that waited for bytes in held writes (R343). -/
def State.payOwed (s : State) (o : PftOp) : State :=
  if o.owed = 0 || noCtr o.chunkCtr then s else s.trigger (o.chunkCtr % 4096) o.owed

/-- A posted operation completes (R343): counter increments still owed, DONE_CTR of a fired one, then the record. -/
def State.endOp (s : State) (o : PftOp) (st other : Nat) : State :=
  let d := fieldAt o.bytes 0x0C 2
  let s0 := s.payOwed o
  let s1 := if o.fired && !noCtr d then s0.trigger (d % 4096) (fieldAt o.bytes 0x0E 2) else s0
  s1.pftCq o.part (fieldAt o.bytes 4 4) st o.code o.home o.gid other o.poisons

/-- Forget an operation. -/
def State.dropOp (s : State) (o : PftOp) : State :=
  ({ s with ops := s.ops.filter (fun x => decide (x.stamp ≠ o.stamp)) }).showPft o.home

/-! ## Reading and writing memory (R353, R354) -/

/-- Elements of memory as stored; none where they cannot be read. -/
def State.srcElems (s : State) (p dva n esz : Nat) : List (Option Nat) :=
  (List.range n).map (fun i => match s.readBytes p (dva + i * esz) esz with
    | .ok bs => some (leNat bs)
    | .error _ => none)

/-- Why elements of memory cannot be read, where they cannot. -/
def State.srcErrors (s : State) (p dva n esz : Nat) : List AccErr :=
  (List.range n).filterMap (fun i => match s.readBytes p (dva + i * esz) esz with
    | .ok _ => none
    | .error e => some e)

/-- The access was refused, not poisoned. -/
def AccErr.denied (e : AccErr) : Bool :=
  match e with
  | .access _ => true
  | .poison _ => false

/-- An operation reads elements: their tiles are marked accessed (R198), a poisoned one is counted (R210), and the operation has met
what it could not read, whether it sends it or not (R353). -/
def State.meetSrc (s : State) (o : PftOp) (dva n esz : Nat) : State × PftOp :=
  let es := s.srcErrors o.part dva n esz
  let s1 := s.touch o.part (spread dva (n * esz))
  (match es.find? (fun e => !e.denied) with
    | some e => s1.countHit e
    | none => s1,
   { o with refused := o.refused || es.any (fun e => e.denied), hit := o.hit || es.any (fun e => !e.denied) })

/-- The bytes of elements; none when one is missing. -/
def elemsBytes (esz : Nat) (l : List (Option Nat)) : Option (List Byte) :=
  match l with
  | [] => some []
  | none :: _ => none
  | some v :: r => (elemsBytes esz r).map (fun bs => leBytes esz v ++ bs)

/-- The elements of a payload of `n` elements; none each when it is poisoned. -/
def payloadElems (a : Arrived) (esz n : Nat) : List (Option Nat) :=
  if a.poison then List.replicate n none
  else (List.range n).map (fun i => some (leNat ((a.data.drop (i * esz)).take esz)))

/-- A held write of the operation still waits for its tile. -/
def State.opHeld (s : State) (o : PftOp) : Bool := s.held.any (fun h => decide (h.src = .prefect o.part o.stamp))

/-- Bytes of an operation written into memory, or why they are not: refused, or a poisoned tile (R353). -/
def State.putDst (s : State) (o : PftOp) (dva : Nat) (bs : List Byte) : State × PftOp × Bool :=
  let ws := bytesAt dva bs
  match s.writableAll o.part ws with
  | .error (.access _) => (s, { o with refused := true }, false)
  | .error (.poison d) => (s.countHit (.poison d), { o with hit := true }, false)
  | .ok _ => (s.writeFrom (.prefect o.part o.stamp) o.part ws, o, true)

/-- A chunk written into DST: counted once its bytes are in place (R343, R353). -/
def State.writeDst (s : State) (o : PftOp) (dva : Nat) (l : List (Option Nat)) (esz : Nat) : State × PftOp :=
  match elemsBytes esz l with
  | none => (s, o)
  | some bs =>
    let t := s.putDst o dva bs
    if !t.2.2 then (t.1, t.2.1)
    else if t.1.opHeld o then (t.1, { t.2.1 with owed := o.owed + 1 })
    else if noCtr o.chunkCtr then (t.1, t.2.1)
    else (t.1.trigger (o.chunkCtr % 4096) 1, t.2.1)

/-- A list of elements written into DST chunk by chunk. -/
def State.writeChunks (s : State) (o : PftOp) (dva : Nat) (l : List (Option Nat)) (esz per : Nat) (fuel : Nat) : State × PftOp :=
  match fuel, l with
  | 0, _ => (s, o)
  | _, [] => (s, o)
  | f + 1, x :: r =>
    let xs := x :: r
    let t := s.writeDst o dva (xs.take per) esz
    t.1.writeChunks t.2 (dva + per * esz) (xs.drop per) esz per f

/-! ## Sending (R350, R351, R353) -/

/-- A chunk's header, with CRC, and its payload. -/
def chunkBytes (ver kind flags dest job src gid seq step off len posd : Nat) (payload : List Byte) : List Byte :=
  let h := leBytes 1 ver ++ leBytes 1 kind ++ leBytes 1 flags ++ leBytes 1 0 ++ leBytes 2 dest ++ leBytes 2 job ++
    leBytes 2 src ++ leBytes 2 gid ++ leBytes 2 seq ++ leBytes 2 step ++ leBytes 4 off ++ leBytes 4 len ++ leBytes 4 posd
  h ++ leBytes 4 (crc32c (h ++ payload)) ++ payload

/-- The payload that a poisoned chunk carries is not valid data: free bytes. -/
def State.anyBytes (s : State) (n : Nat) : List Byte := (List.range n).map (fun i => Config.freeByte (2 * s.drawn) i)

/-- A chunk of the operation is formed and waits for its port; one that has been formed before is not formed again. -/
def State.emit (s : State) (o : PftOp) (g : Group) (key : Nat × Nat × Nat) (l : List (Option Nat)) (esz : Nat) : State × PftOp :=
  if key ∈ o.emitted then (s, o)
  else
    match (o.hops g).find? (fun h => decide ((h.half, h.step, h.off) = key)) with
    | none => (s, o)
    | some h =>
      let body := elemsBytes esz l
      let payload := body.getD (s.anyBytes h.len)
      let s1 := if body.isSome then s else { s with drawn := s.drawn + 1 }
      let bs := chunkBytes g.ver h.kind (body.isNone.toNat + 2 * h.half) (g.node h.rank) g.job (s.getF Csr.sysNode_NODE) o.gid
        o.label h.hstep (if h.kind = 3 then o.slot else h.off) (if h.kind = 3 then o.count else h.len)
        (fieldAt o.bytes 0x30 4 + o.dtype * 2 ^ 24) payload
      (s1, { o with
        out := o.out ++ [⟨h.axis, h.minus, h.wrap, h.idx, h.cls, bs⟩]
        emitted := key :: o.emitted
        poisons := o.poisons + body.isNone.toNat
        hit := o.hit || body.isNone })

/-- The chunks of a list of elements, as steps `st` of half `h`, formed in order. -/
def State.emitAll (s : State) (o : PftOp) (g : Group) (h st : Nat) (l : List (Option Nat)) (esz per off : Nat) (fuel : Nat) :
    State × PftOp :=
  match fuel, l with
  | 0, _ => (s, o)
  | _, [] => (s, o)
  | f + 1, x :: r =>
    let xs := x :: r
    let t := s.emit o g (h, st, off) (xs.take per) esz
    t.1.emitAll t.2 g h st (xs.drop per) esz per (off + per * esz) f

/-! ## Reduction (R346) -/

/-- red(a, b) of two elements as stored; poisoned when one is. -/
def redElem (dtype : Nat) (mx : Bool) (a b : Option Nat) : Option Nat :=
  match a, b, floatFmt dtype with
  | some x, some y, some f =>
    if mx then some (encodeFloat f (maxNum (decodeFloat f x) (decodeFloat f y)))
    else some (convertTo f (add32 (decodeFloat f x) (decodeFloat f y)).1).1
  | some _, some _, none => some 0
  | _, _, _ => none

/-- red of two lists. -/
def redList (dtype : Nat) (mx : Bool) (a b : List (Option Nat)) : List (Option Nat) :=
  List.zipWith (redElem dtype mx) a b

/-- A list with the elements from `i` on replaced. -/
def splice {α : Type} (l : List α) (i : Nat) (x : List α) : List α := l.take i ++ x ++ l.drop (i + x.length)

/-! ## Ring operations (R344, R345) -/

/-- Where half `h` begins in SRC and DST, in elements. -/
def PftOp.srcBase (o : PftOp) (g : Group) (h : Nat) : Nat :=
  if h = 0 then 0 else if o.code = 5 then blockSize g.record (o.count / 2) else o.count / 2
def PftOp.dstBase (o : PftOp) (g : Group) (h : Nat) : Nat :=
  if h = 0 then 0 else if o.code = 4 then blockSize g.record (o.count / 2) else o.count / 2

/-- Replace a half's run. -/
def PftOp.setHalf (o : PftOp) (h : Nat) (r : HalfRun) : PftOp := { o with halves := o.halves.set h r }

/-- The half's run. -/
def PftOp.half (o : PftOp) (h : Nat) : HalfRun := o.halves.getD h ⟨0, [], [], true⟩

/-- Elements of a chunk. -/
def PftOp.per (o : PftOp) : Nat := o.chunk / max 1 o.esz

/-- A half enters its phase `i` with the vector `v`: first sends; a first gathering phase writes the own block; phases
of one member pass. -/
def State.enterPhase (s : State) (o : PftOp) (g : Group) (h i : Nat) (v : List (Option Nat)) (ps : List Phase) (fuel : Nat) :
    State × PftOp :=
  match fuel with
  | 0 => (s, o)
  | f + 1 =>
    match ps[i]? with
    | none =>
      let t := if o.code = 4 then s.writeChunks o (o.dst + o.dstBase g h * o.esz) v o.esz o.per v.length else (s, o)
      (t.1, t.2.setHalf h ⟨i, v, [], true⟩)
    | some p =>
      if p.reduce then
        if p.n = 1 then s.enterPhase o g h (i + 1) v ps f
        else
          let x := p.sends h 0
          let o1 := o.setHalf h ⟨i, v, List.replicate (shardSize p.elems p.n p.r) none, false⟩
          let piece := (v.drop (shardStart p.elems p.n x)).take (shardSize p.elems p.n x)
          s.emitAll o1 g h p.base piece o.esz o.per 0 piece.length
      else
        let first := decide (i = 0) || (match ps[i - 1]? with
          | some q => q.reduce
          | none => false)
        let own := shardStart p.elems p.n p.r
        let t := if first then s.writeChunks o (o.dst + (o.dstBase g h + p.off + own) * o.esz) v o.esz o.per v.length else (s, o)
        if p.n = 1 then t.1.enterPhase t.2 g h (i + 1) v ps f
        else
          let o1 := t.2.setHalf h ⟨i, v, splice (List.replicate p.elems none) own v, false⟩
          t.1.emitAll o1 g h p.base v o.esz o.per 0 v.length

/-- A half goes on to its next phase once everything that its phase expects has arrived. -/
def State.endPhase (s : State) (o : PftOp) (g : Group) (h : Nat) (ps : List Phase) : State × PftOp :=
  let r := o.half h
  match ps[r.phase]? with
  | none => (s, o)
  | some p =>
    let want := (o.expects g).filter (fun x => decide (x.1 = h) && decide (p.base ≤ x.2.1) && decide (x.2.1 < p.base + (p.n - 1)))
    if r.ended || !want.all (fun x => decide ((x.1, x.2.1, x.2.2.1) ∈ o.got)) then (s, o)
    else s.enterPhase o g h (r.phase + 1) r.res ps (ps.length + 1)

/-- A chunk of the half's present phase is used: reduced and sent on or kept, or gathered and sent on. -/
def State.ringChunk (s : State) (o : PftOp) (g : Group) (a : Arrived) (p : Phase) (n : Nat) : State × PftOp :=
  let r := o.half a.half
  let t := a.step - p.base
  let y := p.takes a.half t
  let at0 := shardStart p.elems p.n y
  let e := a.off / max 1 o.esz
  let xs := payloadElems a o.esz n
  let next := (a.half, a.step + 1, a.off)
  if p.reduce then
    let q := redList o.dtype o.isMax xs ((r.vec.drop (at0 + e)).take n)
    if t + 2 < p.n then s.emit o g next q o.esz
    else (s, o.setHalf a.half { r with res := splice r.res e q })
  else
    let w := s.writeDst o (o.dst + (o.dstBase g a.half + p.off + at0 + e) * o.esz) xs o.esz
    let o1 := w.2.setHalf a.half { r with res := splice r.res (at0 + e) xs }
    if t + 2 < p.n then w.1.emit o1 g next xs o.esz else (w.1, o1)

/-! ## Bell operations (R348) -/

/-- The vector of a Bell operation is written where it belongs (R348, R349). -/
def State.bellEnd (s : State) (o : PftOp) (v : List (Option Nat)) : State × PftOp :=
  match o.code with
  | 3 => s.writeDst o o.dst v o.esz
  | 9 => s.writeDst o (s.memNat o.part (o.src + 0x28) 6) v 4
  | _ => (s, o)

/-- Elements of message number `off / 216` of a vector. -/
def PftOp.bellPiece (o : PftOp) (v : List (Option Nat)) (off : Nat) : List (Option Nat) :=
  (v.drop (off / 216 * o.bellPer)).take o.bellPer

/-- A Bell message is formed. -/
def State.emitBell (s : State) (o : PftOp) (g : Group) (step off : Nat) (l : List (Option Nat)) : State × PftOp :=
  s.emit o g (0, step, off) (l.map o.wide) o.bellSize

/-- A Bell operation enters the phase of its `i`-th axis with the vector `v`. -/
def State.enterBell (s : State) (o : PftOp) (g : Group) (i : Nat) (v : List (Option Nat)) (axes : List Nat) : State × PftOp :=
  match axes with
  | [] =>
    let t := s.bellEnd o v
    (t.1, t.2.setHalf 0 ⟨i, v, [], true⟩)
  | a :: r =>
    if recExt g.record a = 1 then s.enterBell o g (i + 1) v r
    else
      let o1 := o.setHalf 0 ⟨i, v, List.replicate v.length none, false⟩
      if recPos g.record a ≠ 0 then (s, o1)
      else (o1.bellChunks v.length).foldl (fun t c => t.1.emitBell t.2 g (2 * i) c.2.1 (o.bellPiece v c.2.1)) (s, o1)

/-- The phase of a Bell operation ends once its messages have arrived. -/
def State.endBell (s : State) (o : PftOp) (g : Group) : State × PftOp :=
  let r := o.half 0
  let want := (o.expects g).filter (fun x => decide (x.2.1 / 2 = r.phase))
  if r.ended || !want.all (fun x => decide ((x.1, x.2.1, x.2.2.1) ∈ o.got)) then (s, o)
  else s.enterBell o g (r.phase + 1) r.res ((recAxes g.record).drop (r.phase + 1))

/-- A Bell message of the present phase; NORM's vector is summed (R349). -/
def State.bellChunk (s : State) (o : PftOp) (g : Group) (a : Arrived) (n : Nat) : State × PftOp :=
  let r := o.half 0
  let axis := (recAxes g.record).getD r.phase 0
  let last := decide (recPos g.record axis + 1 = recExt g.record axis)
  let e := a.off / 216 * o.bellPer
  let xs := (payloadElems a o.bellSize n).map o.narrow
  if a.step % 2 = 0 then
    let q := if o.code = 8 then (if a.poison then [none] else [some 0])
      else redList (if o.code = 9 then 0 else o.dtype) (decide (o.code ≠ 9) && o.isMax) xs (o.bellPiece r.vec a.off)
    if last then
      let o1 := o.setHalf 0 { r with res := splice r.res e q }
      s.emitBell o1 g (a.step + 1) a.off q
    else s.emitBell o g a.step a.off q
  else
    let q := if o.code = 8 then (if a.poison then [none] else [some 0]) else xs
    let o1 := o.setHalf 0 { r with res := splice r.res e q }
    s.emitBell o1 g a.step a.off q

/-! ## Chunks in turn -/

/-- May a running operation use an arrived chunk now: it is expected, and its phase has come. -/
def PftOp.ready (o : PftOp) (g : Group) (a : Arrived) : Bool :=
  match o.code with
  | 2 | 6 | 7 => true
  | _ =>
    let r := o.half a.half
    if r.ended then true
    else if o.bell then decide (a.step / 2 ≤ r.phase)
    else match (o.phases g (o.halfSizes.getD a.half 0))[r.phase]? with
      | some p => decide (a.step < p.base + (p.n - 1))
      | none => true

/-- One arrived chunk is used; one that is not expected, or has been used before, is dropped. -/
def State.useChunk (s : State) (o : PftOp) (g : Group) (a : Arrived) : State × PftOp :=
  let key := (a.half, a.step, a.off)
  match (o.expects g).find? (fun x => decide ((x.1, x.2.1, x.2.2.1) = key)) with
  | none => (s, o)
  | some x =>
    if key ∈ o.got then (s, o)
    else
      let o1 := { o with
        got := key :: o.got, poisons := o.poisons + (a.poison && !a.wrong).toNat, hit := o.hit || (a.poison && !a.wrong),
        pos := a.pos }
      let n := if o.bell then (if o.code = 8 then 1 else x.2.2.2 / max 1 o.bellSize) else x.2.2.2 / max 1 o.esz
      match o.code with
      | 2 => s.writeDst o1 (o.dst + a.off) (payloadElems a o.esz n) o.esz
      | 6 => s.writeDst o1 (o.dst + a.step * (o.count / recSize g.record * o.esz) + a.off) (payloadElems a o.esz n) o.esz
      | 7 =>
        let xs := payloadElems a o.esz n
        let w := s.writeDst o1 (o.dst + o.dstBase g a.half * o.esz + a.off) xs o.esz
        ((o.hops g).filter (fun h => decide (h.half = a.half) && decide (h.off = a.off))).foldl
          (fun t h => t.1.emit t.2 g (h.half, h.step, h.off) xs o.esz) w
      | _ =>
        if o.bell then
          let t := s.bellChunk o1 g a n
          t.1.endBell t.2 g
        else
          let ps := o.phases g (o.halfSizes.getD a.half 0)
          match ps[(o.half a.half).phase]? with
          | some p =>
            let t := s.ringChunk o1 g a p n
            t.1.endPhase t.2 g a.half ps
          | none => (s, o1)

/-- A running operation uses every arrived chunk whose turn has come. -/
def State.runOp (s : State) (o : PftOp) (g : Group) (fuel : Nat) : State × PftOp :=
  match fuel with
  | 0 => (s, o)
  | f + 1 =>
    if !o.running then (s, o)
    else
      match o.arrived.find? (o.ready g) with
      | none => (s, o)
      | some a =>
        let t := s.useChunk { o with arrived := o.arrived.erase a } g a
        t.1.runOp t.2 g f

/-- The operation goes on and its chunks go to their ports. -/
def State.goOn (s : State) (o : PftOp) : State :=
  match s.group o.part o.gid with
  | none => s
  | some g =>
    let t := s.runOp o g (o.arrived.length + 1)
    (t.1.setOp t.2).pump

/-! ## Groups (R335, R336) -/

/-- The checks of R335: a status, or none with the member table. A table that cannot be read leaves one check undone: the statuses that
R335 names come first. -/
def State.joinCheck (s : State) (p : Nat) (b : List Byte) : Except Nat (List Nat) :=
  let axes := recAxes b
  let gid := fieldAt b 0 2
  let mem := fieldAt b 0x28 8
  let bad := decide (4096 ≤ gid) || decide (2 ^ 48 ≤ mem) || !zeroFrom b 0x30 || decide (fieldAt b 2 2 = 0) || axes.isEmpty
    || (List.range 8).any (fun a => if a ∈ axes then
        decide (recExt b a = 0) || decide (32768 < recExt b a) || decide (recExt b a ≤ recPos b a)
      else decide (recExt b a ≠ 0))
    || decide (32768 < recSize b)
  let late := decide (fieldAt b 4 1 = 0) || decide (s.getF Csr.sysNode_PROTO < fieldAt b 4 1)
  if bad || (s.group p gid).isSome then .error 0x0E
  else match s.readBytes p mem (2 * recSize b) with
    | .error e => .error (if late then 0x11 else accStatus e)
    | .ok t =>
      let table := (List.range (recSize b)).map (fun i => fieldAt t (2 * i) 2)
      if table.getD (ownRank b) 0 ≠ s.getF Csr.sysNode_NODE then .error 0x0E
      else if late then .error 0x11
      else .ok table

/-- GROUP_JOIN (R333, R335). -/
def execGroupJoin (x : Fin 65536) (s : State) : Host.Outcome State Fault Refusal :=
  match s.freshCmd x 0x10, s.ctxPart x with
  | some c, some p =>
    match s.readBytes p (fieldAt c.bytes 8 8) 64 with
    | .error e => .next ((s.countHit e).complete x c (accStatus e) 0 0)
    | .ok b =>
      let gid := fieldAt b 0 2
      match s.joinCheck p b with
      | .error st => .next (s.complete x c st gid 0)
      | .ok table =>
        let s0 := s.touch p (tileSpan (fieldAt c.bytes 8 8) 64 ++ tileSpan (fieldAt b 0x28 8) (2 * recSize b))
        let s1 := (s0.setGroup p gid (some ⟨x, b, table, fieldAt b 6 2⟩)).addF (Csr.pftPartGroups_JOINED p) 1
        .next (s1.complete x c 0 gid 0)
  | _, _ => .next s

/-- Completing the operations of a group waits: for bytes of theirs that are not in place yet, which their counters announce (R343), or for
the ring that takes the records. -/
def State.groupWaits (s : State) (p gid : Nat) : Bool :=
  let mine := s.entries.filter (fun o => decide (o.part = p) && decide (o.gid = gid))
  mine.any (fun o => s.opHeld o) || s.pftCqWaits p mine.length

/-- The effect of GROUP_LEAVE on a joined group (R336). -/
def State.leaveGroup (s : State) (p gid : Nat) : State :=
  let mine (o : PftOp) : Bool := decide (o.part = p) && decide (o.gid = gid)
  let s1 := (s.entries.filter mine).foldl (fun t o => (t.endOp o 0x13 0).dropOp o) s
  let early (c : EarlyChunk) : Bool := decide (c.part = p) && decide (fieldAt c.bytes 0x0A 2 = gid)
  let nis := (s1.early.filter early).map (fun c => c.ni)
  let s2 := { s1 with early := s1.early.filter (fun c => !early c), ops := s1.ops.filter (fun o => !mine o) }
  ((nis.foldl (fun t k => t.showPft k) s2).setGroup p gid none).subF (Csr.pftPartGroups_JOINED p) 1

/-- GROUP_LEAVE (R336). -/
def execGroupLeave (x : Fin 65536) (s : State) : Host.Outcome State Fault Refusal :=
  match s.freshCmd x 0x11, s.ctxPart x with
  | some c, some p =>
    let gid := fieldAt c.bytes 8 2
    match s.group p gid with
    | none => .next (s.complete x c 0x0E 0 0)
    | some _ => .next (if s.groupWaits p gid then s else (s.leaveGroup p gid).complete x c 0 0 0)
  | _, _ => .next s

/-- The groups that context `x` joined: partition and GID. -/
def State.groupsJoined (s : State) (x : Nat) : List (Nat × Nat) :=
  s.groups.filterMap (fun e => match e.2 with
    | some g => if g.ctx = x then some (e.1 / 4096, e.1 % 4096) else none
    | none => none)

/-- CTX_CLOSE (R261): lessons freed, binding cleared, groups left, completion, CLOSED. -/
def execCtxClose (x : Fin 65536) (s : State) : Host.Outcome State Fault Refusal :=
  match s.freshCmd x 8 with
  | none => .next s
  | some c =>
    let s1 := (List.range 64).foldl (fun t k => t.freeLessons k (fun l => decide (l.ctx = x.val))) s
    let joined := s.groupsJoined x
    if joined.any (fun y => s.groupWaits y.1 y.2) then .next s
    else
    let s2 := joined.foldl (fun t y => t.leaveGroup y.1 y.2) (s1.setCtx x { s1.ctx x with bound := 0 })
    let s3 := (s2.complete x c 0 0 0).subF (Csr.prcCoreStatus_CTXS (s2.getF (Csr.ctxState_PRC x))) 1
    .next ((s3.setCtx x { s3.ctx x with bound := 0, launch := none, lastMask := 0 }).setCtxSt x 0)

/-! ## Posting (R339, R340, R342) -/

/-- PFT.PART[p].Q_TAIL written (R205, R339). -/
def pftTailWrite (p : Nat) (s : State) (v m : Nat) : State :=
  let f := Csr.pftPartQTail_TAIL p
  if wroteF v m f = none then s
  else
    let new := s.merged v m f
    if tailOk (2 ^ s.getF (Csr.pftPartQBase_LOG2 p)) (s.getF (Csr.pftPartQHead_HEAD p)) (s.getF f) new then s.setF f new
    else s.setF (Csr.pftPartQHead_Q_ERR p) 1

/-- PFT_Q_TAIL_WRITE (R339). -/
def execPftQTailWrite (port : Fin 4) (p : Fin 8) (w : AccWidth) (v : Word) (s : State) : Host.Outcome State Fault Refusal :=
  .next (s.hostWrite port (Csr.pftPartQTail p) w v (pftTailWrite p))

/-- A write of PFT's Q_BASE or CQ_BASE (R339). -/
def pftBaseWrite (p : Nat) (cq : Bool) (s : State) (v m : Nat) : State :=
  if s.getF (Csr.pftPartQHead_HEAD p) ≠ s.getF (Csr.pftPartQTail_TAIL p) then s.setF (Csr.pftPartQHead_Q_ERR p) 1
  else s.store (if cq then Csr.pftPartCqBase p else Csr.pftPartQBase p) v m

/-- A write of PFT.CTR[n] (R338). -/
def pftCtrWrite (n : Nat) (s : State) (v m : Nat) : State := s.store (Csr.pftCtr n) v m

/-- TRIGGER_COUNTER_WRITE (R338). -/
def execTriggerCounterWrite (port : Fin 4) (n : Fin 4096) (w : AccWidth) (v : Word) (s : State) : Host.Outcome State Fault Refusal :=
  .next (s.hostWrite port (Csr.pftCtr n) w v (pftCtrWrite n))

/-- A counter field is well formed (R340). -/
def ctrFieldOk (f : Nat) : Bool := if noCtr f then decide (f = 2 ^ 15) else decide (f < 4096)

/-- The format of an element is one that R341 accepts. -/
def dtypeOk (op red dtype : Nat) : Bool :=
  match op with
  | 3 | 4 => if red = 0 then decide (dtype ≤ 2) else decide (dtype ≤ 4)
  | 9 => decide (dtype = 0)
  | 8 | 10 => decide (dtype ≤ 6)
  | _ => decide (dtype ≤ 4) || decide (dtype = 6)

/-- The fields of an entry that stand for themselves (R340, R342). -/
def entryFieldsOk (b : List Byte) : Bool :=
  let op := fieldAt b 0 1
  let red := fieldAt b 0x25 1
  decide (1 ≤ op) && decide (op ≤ 10) && decide (fieldAt b 1 1 < 8) && decide (fieldAt b 2 2 < 4096)
    && ctrFieldOk (fieldAt b 8 2) && ctrFieldOk (fieldAt b 0x0C 2) && ctrFieldOk (fieldAt b 0x2C 2)
    && (noCtr (fieldAt b 0x0C 2) || decide (0 < fieldAt b 0x0E 2))
    && decide (fieldAt b 0x10 8 < 2 ^ 48) && decide (fieldAt b 0x18 8 < 2 ^ 48) && decide (fieldAt b 0x38 8 < 2 ^ 48)
    && (decide (op = 8) || decide (op = 9) || decide (0 < fieldAt b 0x20 4))
    && (decide (op ≠ 10) || (decide (fieldAt b 0x20 4 < 65536) && decide (fieldAt b 0x2A 2 < 4096)))
    && decide (red ≤ 1) && dtypeOk op red (fieldAt b 0x24 1)
    && decide (10 ≤ fieldAt b 0x26 1) && decide (fieldAt b 0x26 1 ≤ 14)
    && decide (fieldAt b 0x27 1 = 0) && decide (fieldAt b 0x2E 2 = 0) && decide (fieldAt b 0x34 4 = 0)
    && decide (fieldAt b 0x30 4 < 2 ^ 24)

/-- The operations of one axis (R341). -/
def oneAxis (op : Nat) : Bool := decide (op ∈ [1, 2, 6, 10])

/-- The checks of R342: a status, or none with the group. -/
def State.postCheck (s : State) (p : Nat) (b : List Byte) : Except Nat Group :=
  let op := fieldAt b 0 1
  if !entryFieldsOk b then .error 0x0E
  else match s.group p (fieldAt b 2 2) with
    | none => .error 0x0E
    | some g =>
      let n := recSize g.record
      if (oneAxis op && decide ((recAxes g.record).length ≠ 1)) || decide (n ≤ fieldAt b 0x28 2)
        || (decide (op = 6) && decide (fieldAt b 0x20 4 % n ≠ 0)) then .error 0x0E
      else if [fieldAt b 8 2, fieldAt b 0x0C 2, fieldAt b 0x2C 2].all (fun f => noCtr f || s.ownsCtr p f) then .ok g
      else .error 0x0D

/-- The arrived form of a chunk for an operation: ALL_TO_ALL keys it by its sender's rank, SEND by offset alone. A
chunk that is lost, or of another wire version, brings no data (R352). -/
def asArrived (g : Group) (o : PftOp) (b : List Byte) (lost wrong : Bool) : Arrived :=
  let step := match o.code with
    | 2 => 0
    | 6 => (g.table.findIdx? (fun n => decide (n = fieldAt b 8 2))).getD 0
    | _ => fieldAt b 0x0E 2
  { half := fieldAt b 2 1 / 2 % 2, step := step, off := fieldAt b 0x10 4, poison := lost || wrong || bitOf (fieldAt b 2 1) 0
    wrong := wrong
    pos := fieldAt b 0x18 4 % 2 ^ 24, data := b.drop 32 }

/-- The chunk belongs to the operation (R352). -/
def State.matchesOp (s : State) (p : Nat) (b : List Byte) (o : PftOp) : Bool :=
  let kind := fieldAt b 1 1
  !o.gone && decide (o.part = p) && decide (o.gid = fieldAt b 0x0A 2) &&
  (if kind = 1 ∨ kind = 4 then !bySlot o.code && decide (o.seq = fieldAt b 0x0C 2)
  else decide (kind = 2) &&
    decide (o.code = 2) && decide (o.slot = fieldAt b 0x0C 2) && (match s.group p o.gid with
      | some g => decide (g.node o.peer = fieldAt b 8 2)
      | none => false))

/-- An operation receives a chunk: one of another wire version is discarded and counted (R352). -/
def State.receiveFor (s : State) (o : PftOp) (g : Group) (b : List Byte) (lost : Bool) : State × PftOp :=
  let wrong := !lost && decide (fieldAt b 0 1 ≠ g.ver)
  let s1 := if wrong then s.addF Csr.pftErr_VER 1 else s
  (s1, { o with arrived := o.arrived ++ [asArrived g o b lost wrong], version := o.version || wrong })

/-- A newly posted operation takes its chunks from every early-arrival buffer (R356). -/
def State.takeEarly (s : State) (o : PftOp) (g : Group) : State × PftOp :=
  let mine := s.early.filter (fun c => s.matchesOp c.part c.bytes o)
  let s1 := { s with early := s.early.filter (fun c => !s.matchesOp c.part c.bytes o) }
  let t := mine.foldl (fun (t : State × PftOp) c => t.1.receiveFor t.2 g c.bytes false) (s1, o)
  (mine.foldl (fun u c => u.showPft c.ni) t.1, t.2)

/-- The operation of an entry as it would be posted, for its trunks. -/
def draftOp (p : Nat) (b : List Byte) : PftOp := ⟨0, p, b, 0, 0, false, false, [], [], [], [], [], [], 0, false, false, false, 0, 0, false⟩

/-- An entry is refused (R342): it completes without firing. The home NI of one whose group is not joined is not given (a free
value). -/
def State.refuseEntry (s : State) (p st : Nat) (b : List Byte) : State :=
  match s.group p (fieldAt b 2 2) with
  | some g => s.pftCq p (fieldAt b 4 4) st (fieldAt b 0 1) (s.homeNi p (draftOp p b) g) (fieldAt b 2 2) 0 0
  | none =>
    let d := s.draw 12
    d.2.pftCq p (fieldAt b 4 4) st (fieldAt b 0 1) d.1 (fieldAt b 2 2) 0 0

/-- An entry is posted (R342, R343). -/
def State.postOp (s : State) (p : Nat) (b : List Byte) (g : Group) : State :=
  let op := fieldAt b 0 1
  let o0 : PftOp := { draftOp p b with stamp := s.posted, seq := g.nextSeq, fired := noCtr (fieldAt b 8 2) }
  let o := { o0 with home := s.homeNi p o0 g }
  let s1 := if bySlot op then s else s.setGroup p (fieldAt b 2 2) (some { g with nextSeq := (g.nextSeq + 1) % 65536 })
  let t := { s1 with posted := s.posted + 1 }.takeEarly o g
  ({ t.1 with ops := t.1.ops ++ [t.2] }).showPft o.home

/-- The bytes of the next entry of partition `p`'s posting ring, or why they cannot be read. -/
def State.nextEntry (s : State) (p : Nat) : Except AccErr (List Byte) :=
  s.readObjs p (s.getF (Csr.pftPartQBase_DVA p) + 64 * (s.getF (Csr.pftPartQHead_HEAD p) % 2 ^ s.getF (Csr.pftPartQBase_LOG2 p))) 64

/-- OPERATION_POST (R339, R340, R342): the next entry of partition `p`'s posting ring. One that cannot be read completes with every
other field of its record 0 (R205). -/
def execOperationPost (p : Fin 8) (s : State) : Host.Outcome State Fault Refusal :=
  let i := s.getF (Csr.pftPartQHead_HEAD p)
  let slot := s.getF (Csr.pftPartQBase_DVA p) + 64 * (i % 2 ^ s.getF (Csr.pftPartQBase_LOG2 p))
  if s.fatal ∨ i = s.getF (Csr.pftPartQTail_TAIL p) then .next s
  else
    let step (t : State) : State := t.setF (Csr.pftPartQHead_HEAD p) (i + 1)
    match s.nextEntry p with
    | .error e => .next (if s.pftCqWaits p 1 then s.pftStall p 1 else (step (s.countHit e)).pftCq p 0 (accStatus e) 0 0 0 0 0)
    | .ok b =>
      let s0 := s.touch p (spread slot 64)
      match s.postCheck p b with
      | .error st => .next (if s.pftCqWaits p 1 then s.pftStall p 1 else (step s0).refuseEntry p st b)
      | .ok g =>
        let home := s.homeNi p (draftOp p b) g
        if 256 ≤ (s.entries.filter (fun o => decide (o.home = home))).length then .next s
        else .next ((step s0).postOp p b g)

/-! ## Firing (R341, R343) -/

/-- The operation's trigger has reached its threshold and `extra` more. -/
def State.trigHolds (s : State) (o : PftOp) (extra : Nat) : Bool :=
  noCtr o.trig || serialHolds (s.getF (Csr.pftCtr_VALUE (o.trig % 4096))) ((o.thresh + extra) % 65536)

/-- The next chunk of a STREAM send is due: its number. -/
def State.streamDue (s : State) (o : PftOp) : Bool :=
  decide (o.code = 1) && o.stream && o.running && decide (o.emitted.length < ceilDiv (o.count * o.esz) o.chunk)
    && s.trigHolds o o.emitted.length

/-- Read and form chunk `i` of a SEND. -/
def State.sendChunk (s : State) (o : PftOp) (g : Group) (i : Nat) : State × PftOp :=
  let off := i * o.chunk
  let n := min o.per (o.count - i * o.per)
  let t := s.meetSrc o (o.src + off) n o.esz
  t.1.emit t.2 g (0, 0, off) (s.srcElems o.part (o.src + off) n o.esz) o.esz

/-- OPERATION_FIRE (R343): the first operation, in posting order, whose trigger has come to hold fires; a STREAM send
takes its next chunk (R341). -/
def execOperationFire (s : State) : Host.Outcome State Fault Refusal :=
  if s.fatal then .next s
  else
    match s.posts.find? (fun o => (!o.fired && s.trigHolds o 0) || s.streamDue o) with
    | none => .next s
    | some o =>
      if !o.fired then .next (s.setOp { o with fired := true })
      else
        match s.group o.part o.gid with
        | none => .next s
        | some g =>
          let t := s.sendChunk o g o.emitted.length
          .next ((t.1.setOp t.2).pump)

/-! ## The operations (R341, R344 to R349) -/

/-- The fired operation of an OP that has not begun, oldest first, with its group. -/
def State.toStart (s : State) (op : Nat) : Option (PftOp × Group) :=
  if s.fatal then none
  else match s.posts.find? (fun o => o.fired && !o.running && decide (o.code = op)) with
    | none => none
    | some o => (s.group o.part o.gid).map (fun g => (o, g))

/-- Begin a ring operation: each half reads its source and enters its first phase. -/
def State.startRing (s : State) (o : PftOp) (g : Group) : State × PftOp :=
  let o0 := { o with running := true, halves := o.halfSizes.map (fun _ => ⟨0, [], [], false⟩) }
  (o.halfSizes.mapIdx (fun h e => (h, e))).foldl (fun (t : State × PftOp) x =>
    let n := if o.code = 5 then blockSize g.record x.2 else x.2
    let at0 := o.src + o.srcBase g x.1 * o.esz
    let m := t.1.meetSrc t.2 at0 n o.esz
    let ps := o.phases g x.2
    m.1.enterPhase m.2 g x.1 0 (t.1.srcElems o.part at0 n o.esz) ps (ps.length + 1)) (s, o0)

/-- Begin a Bell operation with its vector. -/
def State.startBell (s : State) (o : PftOp) (g : Group) (v : List (Option Nat)) : State × PftOp :=
  s.enterBell { o with running := true, halves := [⟨0, v, [], false⟩] } g 0 v (recAxes g.record)

/-- Begin the first operation of an OP. -/
def State.startOp (s : State) (op : Nat) (f : State → PftOp → Group → State × PftOp) : State :=
  match s.toStart op with
  | none => s
  | some (o, g) =>
    let t := f s o g
    (t.1.setOp t.2).goOn t.2

/-- PREFECT_SEND (R341): every chunk, or the first of a STREAM. -/
def execPrefectSend (s : State) : Host.Outcome State Fault Refusal :=
  .next (s.startOp 1 (fun s o g =>
    let n := ceilDiv (o.count * o.esz) o.chunk
    (List.range (if o.stream && !noCtr o.trig then 1 else n)).foldl (fun t i => t.1.sendChunk t.2 g i) (s, { o with running := true })))

/-- RECV (R341). -/
def execRecv (s : State) : Host.Outcome State Fault Refusal :=
  .next (s.startOp 2 (fun s o _ => (s, { o with running := true })))

/-- ALL_REDUCE (R341, R344, R348). -/
def execAllReduce (s : State) : Host.Outcome State Fault Refusal :=
  .next (s.startOp 3 (fun s o g =>
    if o.bell then
      let m := s.meetSrc o o.src o.count o.esz
      m.1.startBell m.2 g (s.srcElems o.part o.src o.count o.esz)
    else s.startRing o g))

/-- REDUCE_SCATTER (R341, R344, R345). -/
def execReduceScatter (s : State) : Host.Outcome State Fault Refusal := .next (s.startOp 4 State.startRing)

/-- ALL_GATHER (R341, R344). -/
def execAllGather (s : State) : Host.Outcome State Fault Refusal := .next (s.startOp 5 State.startRing)

/-- ALL_TO_ALL (R341, R346): a block to every other rank; its own block is copied. -/
def execAllToAll (s : State) : Host.Outcome State Fault Refusal :=
  .next (s.startOp 6 (fun s o g =>
    let n := recSize g.record
    let blk := o.count / n
    (List.range n).foldl (fun (t : State × PftOp) j =>
      let v := t.1.srcElems o.part (o.src + j * blk * o.esz) blk o.esz
      let m := t.1.meetSrc t.2 (o.src + j * blk * o.esz) blk o.esz
      if j = ownRank g.record then m.1.writeChunks m.2 (o.dst + j * blk * o.esz) v o.esz o.per blk
      else m.1.emitAll m.2 g 0 j v o.esz o.per 0 blk) (s, { o with running := true })))

/-- BROADCAST (R341, R346): the root writes its own DST and sends; the others wait for chunks. -/
def execBroadcast (s : State) : Host.Outcome State Fault Refusal :=
  .next (s.startOp 7 (fun s o g =>
    let o0 := { o with running := true }
    if ownRank g.record ≠ o.peer then (s, o0)
    else
      (o.halfSizes.mapIdx (fun h e => (h, e))).foldl (fun (t : State × PftOp) x =>
        let at0 := o.dstBase g x.1 * o.esz
        let v := t.1.srcElems o.part (o.src + at0) x.2 o.esz
        let m := t.1.meetSrc t.2 (o.src + at0) x.2 o.esz
        let w := m.1.writeChunks m.2 (o.dst + at0) v o.esz o.per x.2
        ((o.hops g).filter (fun h => decide (h.half = x.1))).foldl (fun u h =>
          u.1.emit u.2 g (h.half, h.step, h.off) ((v.drop (h.off / max 1 o.esz)).take (h.len / max 1 o.esz)) o.esz) w) (s, o0)))

/-- BARRIER (R341, R348). -/
def execBarrier (s : State) : Host.Outcome State Fault Refusal :=
  .next (s.startOp 8 (fun s o g => s.startBell o g [some 0]))

/-- What NORM reads (R349): the step record, column 1 of each scratch row of each classroom, the loss sum; address, elements, bytes of
each. -/
def State.normReads (s : State) (o : PftOp) : List (Nat × Nat × Nat) :=
  let cs := setBits (s.memNat o.part (o.src + 0x20) 8) 64
  (o.src, 80, 1) :: (List.range (s.memNat o.part (o.src + 0x38) 2)).flatMap (fun l =>
    cs.map (fun c => (s.getF (Csr.clsRcBase_DVA c) + 16 * l + 4, 1, 4))) ++ [(o.dst, 1, 4)]

/-- The input vector of NORM (R349): column 1 of each scratch row summed over the classrooms, then the loss sum. -/
def State.normVector (s : State) (o : PftOp) : List (Option Nat) :=
  let p := o.part
  let cs := setBits (s.memNat p (o.src + 0x20) 8) 64
  if (s.srcElems p o.src 80 1).any (fun e => e.isNone) then [none]
  else
    (List.range (s.memNat p (o.src + 0x38) 2)).map (fun l =>
      if cs.any (fun c => (s.srcElems p (s.getF (Csr.clsRcBase_DVA c) + 16 * l + 4) 1 4).any (fun e => e.isNone)) then none
      else some (s.cardSum p cs l 1)) ++ s.srcElems p o.dst 1 4

/-- NORM (R349). -/
def execNorm (s : State) : Host.Outcome State Fault Refusal :=
  .next (s.startOp 9 (fun s o g =>
    let m := (s.normReads o).foldl (fun t x => t.1.meetSrc t.2 x.1 x.2.1 x.2.2) (s, o)
    m.1.startBell m.2 g (s.normVector o)))

/-- CTR_ADD (R341): one counter-add message to the peer. -/
def execCtrAdd (s : State) : Host.Outcome State Fault Refusal :=
  .next (s.startOp 10 (fun s o g => s.emit { o with running := true } g (0, 0, 0) [] 1))

/-! ## Completion (R343, R353, R358) -/

/-- POS_WB: the word at POS_DVA receives POS (R358). -/
def PftOp.writesPos (o : PftOp) : Bool := decide (o.code = 2) && bitOf (fieldAt o.bytes 1 1) 1

/-- Everything that the operation sends has been accepted, everything that it expects has landed (R343). -/
def State.opDone (s : State) (o : PftOp) (g : Group) : Bool :=
  o.running && !(o.writesPos && (List.range 4).any (fun i => s.writeWaits o.part (fieldAt o.bytes 0x38 8 + i))) && o.out.isEmpty && o.flight.isEmpty && !s.opHeld o && o.halves.all (fun h => h.ended)
    && (o.hops g).all (fun h => decide ((h.half, h.step, h.off) ∈ o.emitted))
    && (o.expects g).all (fun x => decide ((x.1, x.2.1, x.2.2.1) ∈ o.got))

/-- The status of an operation that ran to its end. -/
def PftOp.status (o : PftOp) : Nat :=
  if o.version then 0x11 else if o.refused then 0x0D else if o.hit then 0x10 else 0

/-- OPERATION_COMPLETE (R343, R358): the first operation, in posting order, that has done all of its part. -/
def execOperationComplete (s : State) : Host.Outcome State Fault Refusal :=
  if s.fatal then .next s
  else
    match s.posts.find? (fun o => match s.group o.part o.gid with
      | some g => s.opDone o g
      | none => false) with
    | none => .next s.pump
    | some o =>
      if s.pftCqWaits o.part 1 then .next (s.pftStall o.part 1)
      else
        let t := if o.writesPos then s.putDst o (fieldAt o.bytes 0x38 8) (leBytes 4 o.pos) else (s, o, true)
        .next ((t.1.endOp o t.2.1.status 0).dropOp o)

/-! ## Chunks that arrive (R350 to R352, R356) -/

/-- The CRC of a chunk agrees (R351). -/
def chunkCrcOk (b : List Byte) : Bool :=
  decide (crc32c (b.take 0x1C ++ b.drop 32) = fieldAt b 0x1C 4)

/-- The chunk is older than the group's oldest incomplete operation (R352). -/
def State.stale (s : State) (p : Nat) (b : List Byte) : Bool :=
  let gid := fieldAt b 0x0A 2
  match s.group p gid with
  | none => false
  | some g =>
    let oldest := match s.posts.find? (fun o => decide (o.part = p) && decide (o.gid = gid) && !bySlot o.code) with
      | some o => o.seq
      | none => g.nextSeq
    decide (fieldAt b 1 1 ≠ 2) && decide (32768 ≤ (fieldAt b 0x0C 2 + 65536 - oldest) % 65536)

/-- The reserved bits of a chunk's header are 0 and its KIND is one of R350. -/
def chunkFieldsOk (b : List Byte) : Bool :=
  decide (1 ≤ fieldAt b 1 1) && decide (fieldAt b 1 1 ≤ 4) && decide (fieldAt b 2 1 < 4) && decide (fieldAt b 3 1 = 0)
    && decide (fieldAt b 0x18 4 < 2 ^ 28)

/-- A chunk reaches its operation, which goes on. -/
def State.handOver (s : State) (o : PftOp) (b : List Byte) (lost : Bool) : State :=
  match s.group o.part o.gid with
  | none => s
  | some g =>
    let t := s.receiveFor o g b lost
    (t.1.setOp t.2).goOn t.2

/-- The chunk at the head of a class's queue at port `k`: what it does, or none while the early-arrival buffer has no
place for it (R352, R356). One with a reserved encoding has no meaning and is discarded (R12; DESIGN CHOICE,
notes/assumptions/90.md: no rule names its error). -/
def State.takeChunk (s : State) (k p : Nat) (b : List Byte) : Option State :=
  let mine := s.posts.find? (s.matchesOp p b)
  let s0 := s.addF (Csr.niPftChunks_RECEIVED k) 1
  let kind := fieldAt b 1 1
  if !chunkCrcOk b then
    let s1 := (s0.addF Csr.pftErr_CRC 1).recordP (some p) 0x0701 2 4 k 0xFFFF 0
      [(2, fieldAt b 0x0A 2), (2, fieldAt b 0x0C 2), (2, fieldAt b 0x0E 2)]
    let s2 := s1.setNi k { s1.ni k with crcFails := (s1.ni k).crcFails + 1 }
    match mine with
    | some o => some (s2.handOver o b true)
    | none => some s2
  else if !chunkFieldsOk b then some s0
  else if kind = 3 then
    if fieldAt b 0x10 4 < 4096 && s.ownsCtr p (fieldAt b 0x10 4) then some (s0.trigger (fieldAt b 0x10 4) (fieldAt b 0x14 4))
    else some (s0.addF Csr.pftErr_STALE 1)
  else if s.stale p b then some (s0.addF Csr.pftErr_STALE 1)
  else
    match mine with
    | some o => some (s0.handOver o b false)
    | none => if 64 ≤ (s.earlyAt k).length then none else some (State.showPft { s0 with early := s0.early ++ [⟨k, p, b⟩] } k)

/-- The first chunk of a class at port `k` is taken from its receive buffer, if it can be. -/
def State.takeClass (s : State) (k c : Nat) : Option State :=
  let n := s.ni k
  match takeMsg n.inbox (fun m => decide (m.cls = c)), s.niPart k with
  | some (m, r), some p => (s.setNi k ({ n with inbox := r }.free c m.flits)).takeChunk k p m.data
  | _, _ => none

/-- CHUNK_ARRIVAL (R352, R356): the next chunk at port `k`, Bell messages first. -/
def execChunkArrival (k : Fin 32) (s : State) : Host.Outcome State Fault Refusal :=
  if s.fatal then .next s
  else
    match s.takeClass k 3 with
    | some t => .next t
    | none =>
      match s.takeClass k 2 with
      | some t => .next t
      | none => .next s

/-! ## The watchdog (R357) -/

/-- The oldest early chunk of another group with the operation's job tag. -/
def State.otherGroup (s : State) (o : PftOp) (g : Group) : Option EarlyChunk :=
  s.early.find? (fun c => decide (fieldAt c.bytes 6 2 = g.job)
    && (decide (fieldAt c.bytes 0x0A 2 ≠ o.gid) || decide (c.part ≠ o.part)))

/-- Why an operation makes no progress: 0 no port enabled for data, 1 a peer's trigger, 2 frames discarded. -/
def PftOp.cause (o : PftOp) : Nat := if !o.out.isEmpty then 0 else if o.flight.isEmpty then 1 else 2

/-- Every chunk not yet formed is formed poisoned (R353, R357). -/
def State.poisonRest (s : State) (o : PftOp) (g : Group) : State × PftOp :=
  ((o.hops g).filter (fun h => !decide ((h.half, h.step, h.off) ∈ o.emitted))).foldl
    (fun t h => t.1.emit t.2 g (h.half, h.step, h.off) [none] 1) (s, o)

/-- PREFECT_WATCHDOG (R357): the `n`-th posted operation has made no progress for WD_TMO. It completes once the bytes that its counters
announce are in place (R343). -/
def execPrefectWatchdog (n : Nat) (s : State) : Host.Outcome State Fault Refusal :=
  match s.posts[n]? with
  | none => .next s
  | some o =>
    match s.group o.part o.gid with
    | none => .next s
    | some g =>
      if s.fatal || !o.running || decide (s.getF Csr.pftCtrl_WD_TMO = 0) || s.opHeld o then .next s
      else if s.pftCqWaits o.part 1 then .next (s.pftStall o.part 1)
      else
        let s1 := match s.otherGroup o g with
          | some c =>
            (((s.addF Csr.pftErr_ORDER 1).recordP (some o.part) 0x0702 2 10 0 0xFFFF 0
              [(2, o.gid), (2, o.label), (2, fieldAt c.bytes 0x0A 2), (2, fieldAt c.bytes 0x0C 2)]).endOp o 0x12
                (fieldAt c.bytes 0x0A 2))
          | none =>
            (s.recordP (some o.part) 0x0703 2 10 0 0xFFFF 0
              [(2, o.gid), (2, o.label), (1, Config.freeNat 13 o.cause)]).endOp o 0x13 0
        let t := s1.poisonRest o g
        .next (((t.1.setOp { t.2 with gone := true }).showPft o.home).pump)

end Sys2Proof.Machine
end

