-- ==== Sys2Proof/Machine/Fatal.lean ====
section
/-! DEFINITION. Fatal faults: DEVICE_FATAL and PARTITION_FATAL (R383, R391, R392) and failed Proctor cores (R245, R491). -/

namespace Sys2Proof.Machine

/-- A DEVICE_FATAL record (R392): written, captured in ERR.FATAL, and the device stops; every open context enters
FAULTED, with a STATUS in its event that the spec does not give (a free value). -/
def State.deviceFatal (s : State) (r : Rec) : State :=
  let d := (((s.record true none r).captureFatal r).draw 10)
  let s1 := { d.2 with fatal := true }
  (s1.openCtxs.filter (fun x => decide (s1.ctxSt x ≠ 6))).foldl (fun t x => t.faultCtx x (d.1 % 256)) s1

/-- A PARTITION_FATAL record of partition `p` (R383): its contexts enter FAULTED. -/
def State.partitionFatal (s : State) (p : Nat) (r : Rec) : State :=
  let d := (s.record true (some p) r).draw 10
  let s1 := { d.2 with partFatal := if p ∈ d.2.partFatal then d.2.partFatal else d.2.partFatal ++ [p] }
  (s1.openCtxs.filter (fun x => decide (s1.ctxPart x = some p) && decide (s1.ctxSt x ≠ 6))).foldl
    (fun t x => t.faultCtx x (d.1 % 256)) s1

/-- RESERVED_UE (R200, R391): an uncorrectable error in a frame of the reserved area, which holds data of partition
`part`, or device firmware or tables. -/
def execReservedUe (ch : Fin 48) (frame : Fin 262144) (part : Option (Fin 8)) (s : State) : Host.Outcome State Fault Refusal :=
  if frame.val < 261120 then .next s
  else
    let d : List (Nat × Nat) := [(1, ch.val), (4, frame.val)]
    match part with
    | some p => .next ((s.captureUe ch frame p false).partitionFatal p ⟨0x0205, 4, p, 2, ch, 0xFFFF, 0, d⟩)
    | none => .next ((s.captureUe ch frame 0 false).deviceFatal ⟨0x0205, 5, 255, 2, ch, 0xFFFF, 0, d⟩)

/-! ## Proctor cores (R245, R491) -/

/-- A context loses its core (R245): CTX_LOST, the context is FAULTED, and every started command completes with TIMEOUT; the record
of a LAUNCH has the classrooms that have faulted (R253). -/
def State.loseCtx (s : State) (x core : Nat) : State :=
  let s1 := s.recordP (s.ctxPart x) 0x0303 3 8 core x 0 [(1, core)]
  let s2 := if s1.ctxSt x = 6 then s1 else s1.faultCtx x 0x13
  let info (c : Cmd) : Nat := if c.op = 4 then ((s.ctx x).launch.map (fun l => l.faulted)).getD 0 else 0
  let s3 := (s2.ctx x).started.foldl (fun t c => t.putDone x c 0x13 0 (info c)) s2
  s3.setCtx x { s3.ctx x with launch := none }

/-- A core fails: PROCTOR_FAILED, then what R245 does to its contexts. -/
def State.failCore (s : State) (i : Nat) (wdog : Bool) : State :=
  let s1 := s.setFs [(Csr.prcCoreStatus_STATE i, 2), (if wdog then Csr.prcCoreStatus_WDOG i else Csr.prcCoreStatus_CACHE_UE i, 1)]
  let xs := s1.openCtxs.filter (fun x => decide (s1.getF (Csr.ctxState_PRC x) = i))
  xs.foldl (fun t x => t.loseCtx x i) (s1.recordD 0x0302 1 8 i [(4, xs.length)])

/-- PROCTOR_FAILED (R245, R394): an uncorrectable error in a cache of core `k`. -/
def execProctorFailed (k : Fin 16) (s : State) : Host.Outcome State Fault Refusal :=
  if s.coreWorks k then .next ((s.addF (Csr.prcCoreEcc_UE k) 1).failCore k false) else .next s

/-- PROCTOR_WATCHDOG (R491): HEART.COUNT of core `k` has not changed for WDOG_MS. -/
def execProctorWatchdog (k : Fin 16) (s : State) : Host.Outcome State Fault Refusal :=
  if s.coreWorks k then .next (s.failCore k true) else .next s

end Sys2Proof.Machine
end

