-- ==== Sys2Proof/Machine/Digest.lean ====
section
/-! DEFINITION. SHA-256, and the keys and signatures of ECDSA P-256 (R458 to R462, R466). -/

namespace Sys2Proof.Machine

/-! ## SHA-256

A run keeps two sequences of words, newest first: the last four values that `a` took (`a`, `b`, `c`, `d`) and the last four that
`e` took (`e`, `f`, `g`, `h`); and the last sixteen words of the message schedule, newest first. -/

/-- `v` cut to 32 bits. -/
def word32 (v : Nat) : Nat := v % 2 ^ 32

/-- The exclusive or of `x` turned right by each of the counts. -/
def turned (x : Nat) (counts : List Nat) : Nat :=
  counts.foldl (fun acc n => acc ^^^ word32 ((x + x * 2 ^ 32) / 2 ^ n)) 0

/-- The constants of the 64 rounds: the n-th number holds those of rounds 8 n to 8 n + 7, the first the most significant. -/
def roundRows : List Nat :=
  [0x428a2f9871374491b5c0fbcfe9b5dba53956c25b59f111f1923f82a4ab1c5ed5,
   0xd807aa9812835b01243185be550c7dc372be5d7480deb1fe9bdc06a7c19bf174,
   0xe49b69c1efbe47860fc19dc6240ca1cc2de92c6f4a7484aa5cb0a9dc76f988da,
   0x983e5152a831c66db00327c8bf597fc7c6e00bf3d5a7914706ca635114292967,
   0x27b70a852e1b21384d2c6dfc53380d13650a7354766a0abb81c2c92e92722c85,
   0xa2bfe8a1a81a664bc24b8b70c76c51a3d192e819d6990624f40e3585106aa070,
   0x19a4c1161e376c082748774c34b0bcb5391c0cb34ed8aa4a5b9cca4f682e6ff3,
   0x748f82ee78a5636f84c878148cc7020890befffaa4506cebbef9a3f7c67178f2]

def roundConst (t : Nat) : Nat := word32 (roundRows.getD (t / 8) 0 / 2 ^ (32 * (7 - t % 8)))

/-- The starting words: `a` to `d`, then `e` to `h`, each four as one number. -/
def startWords : Nat × Nat := (0x6a09e667bb67ae853c6ef372a54ff53a, 0x510e527f9b05688c1f83d9ab5be0cd19)

/-- The four words of a number, the most significant first. -/
def quad (v : Nat) : List Nat := (List.range 4).map (fun i => word32 (v / 2 ^ (32 * (3 - i))))

/-- The number that bytes spell, most significant first. -/
def beNat (bs : List Byte) : Nat := bs.foldl (fun acc b => 256 * acc + b.toNat) 0

/-- One round on the newest words, with the schedule's oldest word added. -/
def digestRound (t : Nat) (x : List Nat × List Nat × List Nat) : List Nat × List Nat × List Nat :=
  let p (i : Nat) : Nat := x.1.getD i 0
  let q (i : Nat) : Nat := x.2.1.getD i 0
  let w (i : Nat) : Nat := x.2.2.getD (15 - i) 0
  let most := (p 0 &&& (p 1 ||| p 2)) ||| (p 1 &&& p 2)
  let enter := q 3 + turned (q 0) [6, 11, 25] + (q 0 &&& q 1) + ((q 0 ^^^ 0xFFFFFFFF) &&& q 2) + roundConst t + w 0
  let next := w 0 + (turned (w 1) [7, 18] ^^^ w 1 / 2 ^ 3) + w 9 + (turned (w 14) [17, 19] ^^^ w 14 / 2 ^ 10)
  (word32 (enter + turned (p 0) [2, 13, 22] + most) :: x.1.take 3, word32 (p 3 + enter) :: x.2.1.take 3, word32 next :: x.2.2.take 15)

/-- A 64-byte block into the eight words. -/
def digestBlock (x : List Nat × List Nat) (block : List Byte) : List Nat × List Nat :=
  let words := (List.range 16).map (fun i => beNat ((block.drop (4 * i)).take 4))
  let y := (List.range 64).foldl (fun acc t => digestRound t acc) (x.1, x.2, words.reverse)
  (x.1.zipWith (fun u v => word32 (u + v)) y.1, x.2.zipWith (fun u v => word32 (u + v)) y.2.1)

def digestBlocks (n : Nat) (x : List Nat × List Nat) (bs : List Byte) : List Nat × List Nat :=
  match n with
  | 0 => x
  | k + 1 => digestBlocks k (digestBlock x (bs.take 64)) (bs.drop 64)

/-- The low `n` bytes of `v`, most significant first. -/
def beBytes (n v : Nat) : List Byte :=
  match n with
  | 0 => []
  | k + 1 => BitVec.ofNat 8 (v / 2 ^ (8 * k)) :: beBytes k v

/-- SHA-256 of a byte string: 32 bytes, first byte at the lowest offset (R458). -/
def sha256 (bs : List Byte) : List Byte :=
  let whole := bs ++ 0x80 :: List.replicate ((119 - bs.length % 64) % 64) 0 ++ beBytes 8 (8 * bs.length)
  let z := digestBlocks (whole.length / 64) (quad startWords.1, quad startWords.2) whole
  (z.1 ++ z.2).flatMap (beBytes 4)

/-! ## ECDSA P-256 (R458, R461, R462, R466)

The spec names the algorithm; the curve and the equations are the published standard's (notes/assumptions/6.md). -/

/-- The field's prime, the order of the base point, the curve's constant term, the base point. -/
def curveP : Nat := 2 ^ 256 - 2 ^ 224 + 2 ^ 192 + 2 ^ 96 - 1
def curveN : Nat := 0xFFFFFFFF00000000FFFFFFFFFFFFFFFFBCE6FAADA7179E84F3B9CAC2FC632551
def curveB : Nat := 0x5AC635D8AA3A93E7B3EBBD55769886BC651D06B0CC53B0F63BCE3C3E27D2604B
def curveG : Nat × Nat :=
  (0x6B17D1F2E12C4247F8BCE6E563A440F277037D812DEB33A0F4A13945D898C296,
   0x4FE342E2FE1A7F9B8EE7EB4A7C0F9E162BCE33576B315ECECBB6406837BF51F5)

/-- `b` to the power that the low `bits` bits of `e` spell, modulo `m`. -/
def powMod (m b e bits : Nat) : Nat :=
  (List.range bits).foldl (fun acc i => acc * acc % m * (if e.testBit (bits - 1 - i) then b else 1) % m) 1

/-- The inverse of `a` modulo the prime `m` of 256 bits. -/
def invMod (m a : Nat) : Nat := powMod m (a % m) (m - 2) 256

/-- `a - b` in the curve's field. -/
def subP (a b : Nat) : Nat := (a + (curveP - b % curveP)) % curveP

/-- A point as x / z^2 and y / z^3; infinity where z is 0. -/
structure Point where
  x : Nat
  y : Nat
  z : Nat
deriving DecidableEq, Repr

def Point.infinity : Point := ⟨1, 1, 0⟩

/-- Twice a point. -/
def Point.twice (u : Point) : Point :=
  let yy := u.y * u.y % curveP
  let t := 4 * u.x * yy % curveP
  let zz := u.z * u.z % curveP
  let m := 3 * (u.x + zz) * subP u.x zz % curveP
  let x := subP (m * m) (2 * t)
  ⟨x, subP (m * subP t x) (8 * yy * yy), 2 * u.y * u.z % curveP⟩

/-- The sum of two points. -/
def Point.add (u v : Point) : Point :=
  if u.z = 0 then v
  else if v.z = 0 then u
  else
    let uu := u.z * u.z % curveP
    let vv := v.z * v.z % curveP
    let a := u.x * vv % curveP
    let b := u.y * vv % curveP * v.z % curveP
    let h := subP (v.x * uu) a
    let r := subP (v.y * uu % curveP * u.z) b
    if h = 0 then (if r = 0 then u.twice else Point.infinity)
    else
      let hh := h * h % curveP
      let hhh := h * hh % curveP
      let x := subP (r * r) (hhh + 2 * a * hh)
      ⟨x, subP (r * subP (a * hh) x) (b * hhh), h * u.z % curveP * v.z % curveP⟩

/-- The low 256 bits of `k` times a point. -/
def Point.mul (k : Nat) (u : Point) : Point :=
  (List.range 256).foldl (fun acc i => if k.testBit (255 - i) then acc.twice.add u else acc.twice) Point.infinity

/-- The two coordinates of a point; none at infinity. -/
def Point.coordinates (u : Point) : Option (Nat × Nat) :=
  if u.z = 0 then none
  else
    let w := invMod curveP u.z
    some (u.x * (w * w % curveP) % curveP, u.y * (w * w % curveP * w % curveP) % curveP)

/-- `k` times the base point. -/
def baseTimes (k : Nat) : Point := Point.mul k ⟨curveG.1, curveG.2, 1⟩

/-- The point is on the curve. -/
def onCurve (x y : Nat) : Bool :=
  decide (x < curveP) && decide (y < curveP) && decide (y * y % curveP = (x * x * x + (curveP - 3) * x + curveB) % curveP)

/-- A public key or a signature as its two little-endian halves (R458). -/
def halves (bs : List Byte) : Nat × Nat := (leNat (bs.take 32), leNat ((bs.drop 32).take 32))

/-- The signature `sig` over a digest verifies under the public key. -/
def ecdsaVerify (digest key sig : List Byte) : Bool :=
  let q := halves key
  let rs := halves sig
  decide (key.length = 64) && decide (sig.length = 64) && onCurve q.1 q.2
    && decide (0 < rs.1) && decide (rs.1 < curveN) && decide (0 < rs.2) && decide (rs.2 < curveN)
    && (let w := invMod curveN rs.2
        match ((baseTimes (beNat digest * w % curveN)).add (Point.mul (rs.1 * w % curveN) ⟨q.1, q.2, 1⟩)).coordinates with
        | some p => decide (p.1 % curveN = rs.1)
        | none => false)

/-- The number of a private key: 1 to the order less 1. -/
def privateNumber (key : List Byte) : Nat := leNat key % (curveN - 1) + 1

/-- The public key of a private key: X, then Y. -/
def publicKey (key : List Byte) : List Byte :=
  match (baseTimes (privateNumber key)).coordinates with
  | some p => leBytes 32 p.1 ++ leBytes 32 p.2
  | none => List.replicate 64 0

/-- The signature over a digest with the drawn nonce: r, then s. -/
def ecdsaSign (key digest : List Byte) : List Byte :=
  let k := Config.ecdsaNonce key digest % (curveN - 1) + 1
  match (baseTimes k).coordinates with
  | some p =>
    let r := p.1 % curveN
    leBytes 32 r ++ leBytes 32 ((beNat digest + r * privateNumber key) * invMod curveN k % curveN)
  | none => List.replicate 64 0

end Sys2Proof.Machine
end

