-- ==== Sys2Proof/Machine/Firmware.lean ====
section
/-! DEFINITION. Firmware slots, the anti-rollback counter, owner fuses, the boot flash, attestation, JTAG and debug
(R379, R380, R452 to R457, R462 to R467). -/

namespace Sys2Proof.Machine

/-- The state with the security part replaced. -/
def State.withSec (s : State) (f : Security → Security) : State := { s with security := f s.security }

/-- `n` words written at register addresses `f 0`, `f 1` and on, from bytes. -/
def State.putWords (s : State) (f : Nat → Nat) (n : Nat) (bs : List Byte) : State :=
  (List.range n).foldl (fun t i => t.wr (f i) (BitVec.ofNat 64 (fieldAt bs (8 * i) 8))) s

/-- The bytes of `n` words at register addresses `f 0`, `f 1` and on. -/
def State.getWords (s : State) (f : Nat → Nat) (n : Nat) : List Byte :=
  (List.range n).flatMap (fun i => leBytes 8 (s.rd (f i)).toNat)

/-- `n` free bytes, and the state with the counter advanced. -/
def State.freeBytes (s : State) (n : Nat) : List Byte × State :=
  ((List.range n).map (Config.freeByte (2 * s.drawn)), { s with drawn := s.drawn + 1 })

/-! ## Slot control (R379, R453) -/

/-- Slot control as RGS.FW shows it is written to the flash, when it has changed. -/
def State.saveSlots (s : State) : State :=
  let o := s.security.slots
  let a := s.getF Csr.rgsFw_ACTIVE
  let n := s.getF Csr.rgsFw_NEXT
  let t := s.flag Csr.rgsFw_TRY
  if o.active = a ∧ o.next = n ∧ o.tryNext = t then s
  else s.withSec (fun x => { x with slots := ⟨(o.seq + 1) % 2 ^ 32, a, n, t⟩ })

/-- A write of RGS.FW (R379, R381). -/
def fwWrite (s : State) (v m : Nat) : State :=
  let s1 := s.storeBut Csr.rgsFw v m [Csr.rgsFw_CONFIRM]
  (if wrote1 v m Csr.rgsFw_CONFIRM then s1.setF Csr.rgsFw_ACTIVE (s1.getF Csr.rgsFw_BOOTED) else s1).saveSlots

/-- CONFIRM (R379): a write of RGS.FW. -/
def execConfirm (port : Fin 4) (w : AccWidth) (v : Word) (s : State) : Host.Outcome State Fault Refusal :=
  .next (s.hostWrite port Csr.rgsFw w v fwWrite)

/-! ## Anti-rollback (R380) -/

/-- RGS.FW_A or RGS.FW_B by slot: version, SVN, VALID. -/
def slotVer (b : Nat) : Fld := if b = 0 then Csr.rgsFwA_VER else Csr.rgsFwB_VER
def slotSvn (b : Nat) : Fld := if b = 0 then Csr.rgsFwA_SVN else Csr.rgsFwB_SVN
def slotValid (b : Nat) : Fld := if b = 0 then Csr.rgsFwA_VALID else Csr.rgsFwB_VALID

/-- A raise to `v` is accepted. -/
def State.raiseOk (s : State) (v : Nat) : Bool :=
  decide (s.getF Csr.rgsFw_BOOTED = s.getF Csr.rgsFw_ACTIVE) && decide (s.getF Csr.rgsArb_VALUE < v)
    && decide (v ≤ s.getF (slotSvn (s.getF Csr.rgsFw_ACTIVE)))

/-- A write of RGS.ARB (R380, R381). RAISE = 0 asks for nothing; it lets ARB_IGN be cleared (notes/assumptions/36.md). -/
def arbWrite (s : State) (v m : Nat) : State :=
  let s1 := s.storeBut Csr.rgsArb v m [Csr.rgsArb_RAISE]
  match wroteF v m Csr.rgsArb_RAISE with
  | none => s1
  | some 0 => s1
  | some r =>
    if s1.raiseOk r then
      s1.setFs [(Csr.rgsArb_RAISE, if s1.flag Csr.rgsArb_BUSY then max r (s1.getF Csr.rgsArb_RAISE) else r), (Csr.rgsArb_BUSY, 1)]
    else s1.setF Csr.rgsArb_ARB_IGN 1

/-- ARB_RAISE (R380): a write of RGS.ARB. -/
def execArbRaise (port : Fin 4) (w : AccWidth) (v : Word) (s : State) : Host.Outcome State Fault Refusal :=
  .next (s.hostWrite port Csr.rgsArb w v arbWrite)

/-- ARB_BLOW_DONE (R380): the counter's fuses are blown. -/
def execArbBlowDone (s : State) : Host.Outcome State Fault Refusal :=
  if s.flag Csr.rgsArb_BUSY then
    let n := s.getF Csr.rgsArb_RAISE
    .next ((s.withSec (fun x => { x with arb := n })).setFs [(Csr.rgsArb_VALUE, n), (Csr.rgsArb_RAISE, 0), (Csr.rgsArb_BUSY, 0)])
  else .next s

/-! ## Owner fuses (R455 to R457) -/

/-- Bits of an owner field by FUSE_PROG.FIELD. -/
def ownerBits (field : Nat) : Nat :=
  match field with
  | 1 => 3
  | 2 => 2
  | 3 => 256
  | 4 => 1
  | 5 => 1
  | 6 => 1
  | _ => 0

/-- An owner field's bits. -/
def OwnerFuses.get (o : OwnerFuses) (field : Nat) : Nat :=
  match field with
  | 1 => o.partMax
  | 2 => o.mgmtPort
  | 3 => o.okeyHash
  | 4 => o.dbgOff
  | 5 => o.rmaOk
  | 6 => o.olock
  | _ => 0

/-- The fuses with bits of a field blown. -/
def OwnerFuses.blow (o : OwnerFuses) (field bits : Nat) : OwnerFuses :=
  match field with
  | 1 => { o with partMax := o.partMax ||| bits }
  | 2 => { o with mgmtPort := o.mgmtPort ||| bits }
  | 3 => { o with okeyHash := o.okeyHash ||| bits }
  | 4 => { o with dbgOff := o.dbgOff ||| bits }
  | 5 => { o with rmaOk := o.rmaOk ||| bits }
  | 6 => { o with olock := o.olock ||| bits }
  | _ => o

/-- SEC.OKEY_HASH and SEC.STATUS show the owner fuses as blown (R457). -/
def State.showOwner (s : State) : State :=
  let o := s.security.owner
  (s.putWords Csr.secOkeyHash 4 (leBytes 32 o.okeyHash)).setFs
    [(Csr.secStatus_OLOCK, o.olock), (Csr.secStatus_DBG_OFF, o.dbgOff), (Csr.secStatus_RMA_OK, o.rmaOk),
     (Csr.secStatus_OKEY_SET, (decide (o.okeyHash ≠ 0)).toNat)]

/-- Flash offset of slot `b` (R452). -/
def slotOffset (b : Nat) : Nat := if b = 0 then 0x400000 else 0x1400000

/-- The header of slot `b` (R458). -/
def State.slotHeader (s : State) (b : Nat) : List Byte := s.peekN (flashBase + slotOffset b) 512

/-- The booted image carries an owner key whose digest is `h` (R456). -/
def State.ownerKeyMatches (s : State) (h : Nat) : Bool :=
  let k := ((s.slotHeader (s.getF Csr.rgsFw_BOOTED)).drop 0xC0).take 64
  k.any (fun b => decide (b ≠ 0)) && decide (leNat (sha256 k) = h)

/-- The number of set bits. -/
def countBits (v n : Nat) : Nat := (setBits v n).length

/-- The request of R456 is ignored. -/
def State.progIgnored (s : State) (field staged : Nat) : Bool :=
  !s.flag Csr.secStatus_VLOCK || decide (s.security.live.olock = 1) || decide (s.getF Csr.secStatus_MODE ≠ 0)
    || decide (2 ^ ownerBits field ≤ staged)
    || (decide (field = 3) && (decide (s.security.owner.okeyHash ≠ 0) || !s.ownerKeyMatches staged))

/-- A write of SEC.FUSE_PROG (R456, R469). -/
def fuseProgWrite (s : State) (v m : Nat) : State :=
  let busy := s.flag Csr.secFuseProg_GO
  let s1 := s.storeBut Csr.secFuseProg v m [Csr.secFuseProg_GO]
  if wrote1 v m Csr.secFuseProg_GO && !busy then
    let f := s1.getF Csr.secFuseProg_FIELD
    let staged := leNat (s1.getWords Csr.secFuseStage 4)
    if s1.progIgnored f staged then s1.setF Csr.secFuseProg_PROG_IGN 1
    else
      let bits := staged - (staged &&& s1.security.owner.get f)
      (s1.withSec (fun x => { x with prog := some (f, bits) })).setFs
        [(Csr.secFuseProg_GO, 1), (Csr.secFuseProg_BITS_LEFT, countBits bits 256)]
  else s1

/-- FUSE_PROG (R456): a write of SEC.FUSE_PROG. -/
def execFuseProg (port : Fin 4) (w : AccWidth) (v : Word) (s : State) : Host.Outcome State Fault Refusal :=
  .next (s.hostWrite port Csr.secFuseProg w v fuseProgWrite)

/-- FUSE_PROGRAMMING_DONE (R456): every staged bit is blown. -/
def execFuseProgrammingDone (s : State) : Host.Outcome State Fault Refusal :=
  match s.security.prog with
  | none => .next s
  | some p => .next (((s.withSec (fun x => { x with owner := x.owner.blow p.1 p.2, prog := none })).setFs
      [(Csr.secFuseProg_GO, 0), (Csr.secFuseProg_BITS_LEFT, 0)]).showOwner)

/-! ## The boot flash (R452, R454) -/

/-- A flash offset lies in a region that FLASH_CMD may not change: slot control, reserved, calibration. -/
def flashProtected (o : Nat) : Bool := decide (o < 0x400000) || (decide (0x2400000 ≤ o) && decide (o < 0x3C00000))

/-- The device's own records, whose layout is not given: slot control and the calibration region. -/
def flashOwn (o : Nat) : Bool := decide (o < 0x400000) || (decide (0x3400000 ≤ o) && decide (o < 0x3C00000))

/-- Bytes that an operation covers: OP 1 erases a sector, 2 and 3 write and read a page. -/
def flashSpan (op : Nat) : Nat := if op = 1 then 65536 else 4096

/-- The flash offset of an operation: ADDR aligned down (notes/assumptions/37.md). -/
def flashAddr (op a : Nat) : Nat := a / flashSpan op * flashSpan op

/-- An operation is ignored (R454). -/
def State.flashIgnored (s : State) (op o : Nat) : Bool :=
  s.security.flash.isSome || (decide (op ≠ 3) && (flashProtected o ||
    (!s.inRecovery && inWindow o (slotOffset (s.getF Csr.rgsFw_BOOTED)) (slotOffset (s.getF Csr.rgsFw_BOOTED) + 0x1000000))))

/-- A write of SEC.FLASH_CMD (R454, R469). -/
def flashCmdWrite (s : State) (v m : Nat) : State :=
  let s1 := s.storeBut Csr.secFlashCmd v m [Csr.secFlashCmd_GO]
  let op := s1.getF Csr.secFlashCmd_OP
  if wrote1 v m Csr.secFlashCmd_GO && decide (op ≠ 0) then
    let o := flashAddr op (s1.getF Csr.secFlashCmd_ADDR)
    if s1.flashIgnored op o then s1.setF Csr.secFlashCmd_FLASH_IGN 1
    else (s1.withSec (fun x => { x with flash := some (op, o) })).setF Csr.secFlashCmd_GO 1
  else s1

/-- ERASE_64K (R454): a write of SEC.FLASH_CMD. -/
def execErase64k (port : Fin 4) (w : AccWidth) (v : Word) (s : State) : Host.Outcome State Fault Refusal :=
  .next (s.hostWrite port Csr.secFlashCmd w v flashCmdWrite)

/-- PROGRAM_4K (R454): a write of SEC.FLASH_CMD. -/
def execProgram4k (port : Fin 4) (w : AccWidth) (v : Word) (s : State) : Host.Outcome State Fault Refusal :=
  .next (s.hostWrite port Csr.secFlashCmd w v flashCmdWrite)

/-- READ_4K (R454): a write of SEC.FLASH_CMD. -/
def execRead4k (port : Fin 4) (w : AccWidth) (v : Word) (s : State) : Host.Outcome State Fault Refusal :=
  .next (s.hostWrite port Csr.secFlashCmd w v flashCmdWrite)

/-- A sector erased: its entries are dropped, since it then reads as 0xFF. -/
def State.eraseFlash (s : State) (o n : Nat) : State :=
  { s with mem := s.mem.filter (fun c => !(decide (flashBase + o ≤ c.1) && decide (c.1 < flashBase + o + n))) }

/-- Flash bytes whose content is undefined (R446; DESIGN CHOICE after an error, notes/assumptions/37.md). -/
def State.loseFlash (s : State) (o n : Nat) : State :=
  let d := s.freeBytes n
  d.2.pokeN (flashBase + o) d.1

/-- A page reaches FLASH_BUF: as stored, or free where the record's layout is not given or the read failed. -/
def State.flashToBuf (s : State) (o : Nat) (fail : Bool) : State :=
  if fail || flashOwn o then
    let d := s.freeBytes 4096
    d.2.putWords Csr.secFlashBuf 512 d.1
  else s.putWords Csr.secFlashBuf 512 (s.peekN (flashBase + o) 4096)

/-- What an operation leaves when it ends without an error. -/
def State.flashEffect (s : State) (op o : Nat) : State :=
  match op with
  | 1 => s.eraseFlash o 65536
  | 2 => s.pokeN (flashBase + o) (s.getWords Csr.secFlashBuf 512)
  | _ => s.flashToBuf o false

/-- FLASH_OPERATION_DONE (R454): the operation ends, with an error or without. -/
def execFlashOperationDone (fail : Bool) (s : State) : Host.Outcome State Fault Refusal :=
  match s.security.flash with
  | none => .next s
  | some p =>
    let s1 := (s.withSec (fun x => { x with flash := none })).setF Csr.secFlashCmd_GO 0
    if fail then
      .next ((if p.1 = 3 then s1.flashToBuf p.2 true else s1.loseFlash p.2 (flashSpan p.1)).setF Csr.secFlashCmd_FAIL 1)
    else .next (s1.flashEffect p.1 p.2)

/-! ## Attestation (R462) -/

/-- A write of a word of SEC.ATT_NONCE. -/
def attNonceWrite (i : Nat) (s : State) (v m : Nat) : State :=
  if s.flag Csr.secAttCtrl_GO then s.setF Csr.secAttCtrl_ATT_IGN 1 else s.store (Csr.secAttNonce i) v m

/-- A write of SEC.ATT_CTRL. -/
def attCtrlWrite (s : State) (v m : Nat) : State :=
  let busy := s.flag Csr.secAttCtrl_GO
  let s1 := s.storeBut Csr.secAttCtrl v m [Csr.secAttCtrl_GO]
  if wrote1 v m Csr.secAttCtrl_GO then
    if busy then s1.setF Csr.secAttCtrl_ATT_IGN 1
    else if s1.flag Csr.secStatus_AK_VALID then s1.setF Csr.secAttCtrl_GO 1
    else s1.setF Csr.secAttCtrl_NOKEY 1
  else s1

/-- ATT_GO (R462): a write of SEC.ATT_CTRL. -/
def execAttGo (port : Fin 4) (w : AccWidth) (v : Word) (s : State) : Host.Outcome State Fault Refusal :=
  .next (s.hostWrite port Csr.secAttCtrl w v attCtrlWrite)

/-- A signature's 64 bytes. -/
def signature (key msg : List Byte) : List Byte :=
  ecdsaSign key (sha256 msg)

/-- CFG_MEAS (R462). -/
def State.cfgMeas (s : State) : List Byte :=
  let w (a : Nat) : List Byte := leBytes 8 (s.rd a).toNat
  sha256 (w Csr.sysPartCap ++ (List.range 8).flatMap (fun p => (List.range 4).flatMap (fun i => w (Csr.sysPartCfg p + 8 * i)))
    ++ w Csr.sysNode ++ w Csr.errPolicy ++ (List.range 8).flatMap (fun p => w (Csr.errPartPolicy p)))

/-- The first 192 bytes of a report (R462). -/
def State.reportBody (s : State) : List Byte :=
  let b := s.getF Csr.rgsFw_BOOTED
  leBytes 4 0x54525441 ++ leBytes 2 1 ++
  leBytes 1 (s.getF Csr.secStatus_DEBUG + 2 * s.getF Csr.rgsFw_FALLBACK + 4 * s.security.live.olock + 8 * s.getF Csr.secStatus_VLOCK) ++
  leBytes 1 (s.getF Csr.sysId_GRADE) ++ leBytes 8 (s.getF Csr.sysSerial_SERIAL) ++ leBytes 1 (s.getF Csr.sysId_STEPPING) ++
  leBytes 1 b ++ leBytes 1 (s.getF (slotSvn b)) ++ leBytes 1 (s.getF Csr.rgsArb_VALUE) ++ leBytes 4 (s.getF (slotVer b)) ++
  leBytes 8 (s.rd Csr.clkTime).toNat ++ s.getWords Csr.secAttNonce 4 ++ ((s.getWords Csr.secAkcert 24).drop 64).take 32 ++
  leBytes 32 s.security.live.okeyHash ++ s.cfgMeas ++ List.replicate 32 0

/-- ATT_REPORT_DONE (R462): the report is written; an AK erased meanwhile (R467) leaves NOKEY. -/
def execAttReportDone (s : State) : Host.Outcome State Fault Refusal :=
  if s.flag Csr.secAttCtrl_GO then
    let s1 := s.setF Csr.secAttCtrl_GO 0
    match s.security.ak with
    | none => .next (s1.setF Csr.secAttCtrl_NOKEY 1)
    | some ak =>
      let body := s1.reportBody
      .next (s1.putWords Csr.secAttReport 32 (body ++ signature ak body))
  else .next s

/-! ## The I3C management port (R463) -/

/-- A private read of 8 bytes at an offset. -/
def State.i3cRead (s : State) (off : Nat) : Word :=
  match off with
  | 0x00 => s.rd Csr.sysId
  | 0x08 => s.rd Csr.sysSerial
  | 0x10 => s.rd Csr.sysBoot
  | 0x18 => s.rd Csr.errFatal
  | 0x20 => s.rd Csr.pwrThermStat
  | 0x28 => s.rd Csr.pwrRails
  | _ => 0

/-! ## JTAG (R464 to R467) -/

/-- The state with the JTAG port replaced. -/
def State.jtagInsn (s : State) (i : JtagInstr) (lands : Lands) (out : List Byte) : State :=
  { s with jtag := { s.jtag with instr := i, lands := lands, out := out } }

/-- Bits as bytes, the first shifted out lowest. -/
def packBits (n : Nat) (l : List Bool) : List Byte :=
  leBytes n (l.foldr (fun b a => 2 * a + b.toNat) 0)

/-- BYPASS (R464). -/
def execBypass (s : State) : Host.Outcome State Fault Refusal := .next (s.jtagInsn .bypass .function [])

/-- IDCODE (R464). -/
def execIdcode (s : State) : Host.Outcome State Fault Refusal := .next (s.jtagInsn .idcode .function (leBytes 4 0x1240014B))

/-- The boundary register captures the lands, shifts them out and takes new bits. -/
def State.boundaryScan (s : State) (i : JtagInstr) (lands : Lands) (captured shifted : List Bool) : State :=
  let t := s.jtagInsn i lands (packBits (ceilDiv captured.length 8) captured)
  { t with jtag := { t.jtag with boundary := shifted } }

/-- SAMPLE_PRELOAD (R464): the lands as captured, and the bits shifted in. -/
def execSamplePreload (captured shifted : List Bool) (s : State) : Host.Outcome State Fault Refusal :=
  .next (s.boundaryScan .samplePreload .function captured shifted)

/-- EXTEST (R465): while PORn or WRSTn is low (`inReset`), the boundary register drives the lands; else BYPASS. -/
def execExtest (inReset : Bool) (captured shifted : List Bool) (s : State) : Host.Outcome State Fault Refusal :=
  if inReset then .next (s.boundaryScan .extest .boundary captured shifted) else .next (s.jtagInsn .bypass .function [])

/-- CLAMP (R465). -/
def execClamp (inReset : Bool) (s : State) : Host.Outcome State Fault Refusal :=
  if inReset then .next (s.jtagInsn .clamp .boundary []) else .next (s.jtagInsn .bypass .function [])

/-- HIGHZ (R465). -/
def execHighz (inReset : Bool) (s : State) : Host.Outcome State Fault Refusal :=
  if inReset then .next (s.jtagInsn .highz .released []) else .next (s.jtagInsn .bypass .function [])

/-- DBG_CHAL (R466): a fresh nonce and SYS.SERIAL. -/
def execDbgChal (s : State) : Host.Outcome State Fault Refusal :=
  let d := s.freeBytes 32
  let ch := d.1 ++ leBytes 8 (s.getF Csr.sysSerial_SERIAL)
  .next ((d.2.withSec (fun x => { x with challenge := some ch })).jtagInsn .dbgChal .function ch)

/-- The response of R466 unlocks debug. -/
def State.unlocks (s : State) (sel : Nat) (key sig : List Byte) : Bool :=
  let o := s.security.live
  let h := sha256 key
  decide (o.dbgOff = 0) &&
    ((decide (sel = 0) && decide (o.okeyHash ≠ 0) && decide (leNat h = o.okeyHash))
      || (decide (sel = 1) && decide (o.rmaOk = 1) && decide (h = s.security.vendor.vkeyHash)))
    && (match s.security.challenge with
      | some ch => ecdsaVerify (sha256 ch) key sig
      | none => false)

/-- What an unlock does (R467); BOOT and RECOVERY are left as R447 gives. -/
def State.unlock (s : State) : State :=
  let s1 := (s.withSec (fun x => { x with ak := none })).setFs [(Csr.secStatus_DEBUG, 1), (Csr.secStatus_AK_VALID, 0)]
  if s.getF Csr.secStatus_MODE = 0 then s1.setFs [(Csr.secStatus_MODE, 2), (Csr.pmuStatus_MODE, 2)] else s1

/-- DBG_RESP (R466, R467): 129 bytes shifted in: key selector, public key, signature. -/
def execDbgResp (resp : List Byte) (s : State) : Host.Outcome State Fault Refusal :=
  let s1 := s.jtagInsn .dbgResp .function []
  if resp.length = 129 ∧ s.unlocks (fieldAt resp 0 1) ((resp.drop 1).take 64) (resp.drop 65) then .next s1.unlock
  else .next (s1.withSec (fun x => { x with challenge := none }))

end Sys2Proof.Machine
end

