-- ==== Sys2Proof/Machine/Fec.lean ====
section
/-! DEFINITION. The error correction of the optical lanes (R295, R296): RS(544,514) over GF(2¹⁰) as in IEEE 802.3. The field's polynomial
x¹⁰ + x³ + 1, the generator with the roots α⁰ to α²⁹ and the order of symbols, the first sent that of the highest power, are the
standard's (PRESUMED, notes/assumptions/89.md). Polynomials of the decoder are lists of coefficients, lowest power first. -/

namespace Sys2Proof.Machine

/-! ## The field -/

/-- Times α. -/
def gfStep (a : Nat) : Nat := if a < 512 then 2 * a else (2 * a - 1024) ^^^ 9

/-- The product, by the bits of the second factor from the highest of `n` down. -/
def gfMulFrom (a b n : Nat) : Nat :=
  match n with
  | 0 => 0
  | k + 1 => gfMulFrom (gfStep a) (b / 2) k ^^^ (if b % 2 = 1 then a else 0)

/-- The product of two elements. -/
def gfMul (a b : Nat) : Nat := gfMulFrom a b 10

/-- A power, by squaring over the `n` low bits of the exponent. -/
def gfPowFrom (a e n : Nat) : Nat :=
  match n with
  | 0 => 1
  | k + 1 => gfMul (if e % 2 = 1 then a else 1) (gfPowFrom (gfMul a a) (e / 2) k)

/-- α to a power. -/
def gfAlpha (e : Nat) : Nat := gfPowFrom 2 (e % 1023) 10

/-- The inverse of an element that is not 0. -/
def gfInv (a : Nat) : Nat := gfPowFrom a 1022 10

/-- A polynomial's value. -/
def polyAt (p : List Nat) (x : Nat) : Nat := p.foldr (fun c v => c ^^^ gfMul v x) 0

/-- A sum of polynomials. -/
def polyAdd (p q : List Nat) : List Nat :=
  match p, q with
  | [], r => r
  | r, [] => r
  | a :: p', b :: q' => (a ^^^ b) :: polyAdd p' q'

/-- A polynomial times an element. -/
def polyScale (a : Nat) (p : List Nat) : List Nat := p.map (gfMul a)

/-- A product of polynomials. -/
def polyMul (p q : List Nat) : List Nat :=
  match p with
  | [] => []
  | a :: p' => polyAdd (polyScale a q) (0 :: polyMul p' q)

/-! ## Encoding -/

/-- Symbols of 10 bits, the first sent first. -/
def symbolsOf (v n : Nat) : List Nat :=
  match n with
  | 0 => []
  | k + 1 => v % 1024 :: symbolsOf (v / 1024) k

/-- The bits of symbols, the first sent first. -/
def symbolBits (l : List Nat) : Nat :=
  match l with
  | [] => 0
  | a :: r => a + 1024 * symbolBits r

/-- The generator without its leading 1, highest power first. -/
def rsGenerator : List Nat := (((List.range 30).foldl (fun g j => polyMul [gfAlpha j, 1] g) [1]).take 30).reverse

/-- The generator's symbols packed, that of the highest power at the top, times α to the powers 0 to 9. -/
def rsTaps : List Nat := (List.range 10).map (fun b => symbolBits ((polyScale (gfAlpha b) rsGenerator).reverse))

/-- The packed generator times an element. -/
def tapSum (taps : List Nat) (a : Nat) : Nat :=
  match taps with
  | [] => 0
  | t :: r => (if a % 2 = 1 then t else 0) ^^^ tapSum r (a / 2)

/-- The remainder of a division by the generator, packed with the highest power at the top, after the symbols `l`. -/
def rsRemainder (taps : List Nat) (l : List Nat) (r : Nat) : Nat :=
  match l with
  | [] => r
  | a :: rest =>
    let f := (r / 2 ^ 290) ^^^ a
    rsRemainder taps rest ((r % 2 ^ 290) * 1024 ^^^ tapSum taps f)

/-- The 30 parity symbols of 514 information symbols, the first sent first. -/
def rsParity (info : List Nat) : List Nat := (symbolsOf (rsRemainder rsTaps info 0) 30).reverse

/-! ## Decoding: every word within 15 symbols of a codeword is corrected to it, no other is (R296) -/

/-- The error locator after the syndromes `later` (Berlekamp and Massey): it, the last one of another length, that length's
discrepancy, the steps since, the length; `seen` holds the syndromes before, the latest first. -/
def locatorFrom (later seen c b : List Nat) (bd m len : Nat) : List Nat × Nat :=
  match later with
  | [] => (c, len)
  | s :: rest =>
    let seen1 := s :: seen
    let d := ((c.take (len + 1)).zip seen1).foldl (fun v x => v ^^^ gfMul x.1 x.2) 0
    if d = 0 then locatorFrom rest seen1 c b bd (m + 1) len
    else
      let t := polyAdd c (List.replicate m 0 ++ polyScale (gfMul d (gfInv bd)) b)
      if 2 * len ≤ seen.length then locatorFrom rest seen1 t c d 1 (seen.length + 1 - len)
      else locatorFrom rest seen1 t b bd (m + 1) len

/-- The powers, below 544, at which a locator says that a symbol is wrong. -/
def errorPlaces (loc : List Nat) : List Nat := (List.range 544).filter (fun e => decide (polyAt loc (gfAlpha (1023 - e)) = 0))

/-- The formal derivative. -/
def polyDerive (p : List Nat) : List Nat := (p.drop 1).mapIdx (fun i a => if i % 2 = 0 then a else 0)

/-- The error at the power `e` (Forney). -/
def errorAt (syn loc : List Nat) (e : Nat) : Nat :=
  let x := gfAlpha (1023 - e)
  let omega := (polyMul syn loc).take 30
  gfMul (gfAlpha e) (gfMul (polyAt omega x) (gfInv (polyAt (polyDerive loc) x)))

/-- Decode 544 received symbols, the first sent first: corrected, with the number of symbols that were wrong; none where the codeword
is uncorrectable. -/
def rsDecode (w : List Nat) : Option (List Nat × Nat) :=
  let rem (l : List Nat) : List Nat := polyAdd (symbolsOf (rsRemainder rsTaps (l.take 514) 0) 30) (l.drop 514).reverse
  let r := rem w
  if r.all (fun a => decide (a = 0)) then some (w, 0)
  else
    let syn := (List.range 30).map (fun j => polyAt r (gfAlpha j))
    let c := locatorFrom syn [] [1] [1] 1 1 0
    let at_ := errorPlaces c.1
    if 15 < c.2 ∨ at_.length ≠ c.2 then none
    else
      let fixed := at_.foldl (fun l e => l.set (543 - e) ((l.getD (543 - e) 0) ^^^ errorAt syn c.1 e)) w
      if (rem fixed).all (fun a => decide (a = 0)) then some (fixed, c.2) else none

/-! ## Frames on the wire -/

/-- The 5,440 wire bits of a codeword that carries 5,140 information bits. -/
def encodeWord (v : Nat) : Nat := v + symbolBits (rsParity (symbolsOf v 514)) * 2 ^ 5140

/-- The 38,080 wire bits of a frame. -/
def encodeFrame (bits : BitVec 35980) : BitVec 38080 :=
  BitVec.ofNat 38080 ((List.range 7).foldr (fun j v => encodeWord (bits.toNat / 2 ^ (5140 * j) % 2 ^ 5140) + v * 2 ^ 5440) 0)

/-- The information bits of 5,440 wire bits, corrected, and the number of symbols corrected; the bits as they came where the codeword
is uncorrectable. -/
def decodeWord (v : Nat) : Nat × Option Nat :=
  match rsDecode (symbolsOf v 544) with
  | some (l, n) => (symbolBits (l.take 514), some n)
  | none => (v % 2 ^ 5140, none)

/-- A frame as its receive lane decodes it: the information bits, the number of symbols corrected by codeword, none where one is
uncorrectable. -/
structure Decoded where
  bits : BitVec 35980
  words : List (Option Nat)
deriving DecidableEq, Repr

/-- Decode the wire bits of a frame. -/
def decodeFrame (w : BitVec 38080) : Decoded :=
  let l := (List.range 7).map (fun j => decodeWord (w.toNat / 2 ^ (5440 * j) % 2 ^ 5440))
  ⟨BitVec.ofNat 35980 (l.foldr (fun x v => x.1 + v * 2 ^ 5140) 0), l.map (fun x => x.2)⟩

/-- Symbols corrected in a frame. -/
def Decoded.corrected (d : Decoded) : Nat := (d.words.map (fun x => x.getD 0)).foldl (fun a b => a + b) 0

/-- Uncorrectable codewords of a frame. -/
def Decoded.lost (d : Decoded) : Nat := (d.words.filter (fun x => x.isNone)).length

/-- Every codeword is whole. -/
def Decoded.clean (d : Decoded) : Bool := d.words.all (fun x => x.isSome)

end Sys2Proof.Machine
end

