-- ==== Sys2Proof/Machine/Frame.lean ====
section
/-! DEFINITION. Frames and flits (R295 to R298): their bits, and what a receiver reads from them. -/

namespace Sys2Proof.Machine

/-! ## Checks -/

/-- A reflected CRC over the low `n` bits of `v`, bit 0 first. -/
def crcStream (poly n v c : Nat) : Nat :=
  match n with
  | 0 => c
  | k + 1 =>
    let x := c ^^^ (v % 2)
    crcStream poly k (v / 2) (if x % 2 = 1 then (x / 2) ^^^ poly else x / 2)

/-- FCHK over the 32 header bits and the 250 data bytes (R298). The start value 0 and the order, bit 0 first, are not
given (DESIGN CHOICE, notes/assumptions/30.md). -/
def fchk (v : Nat) : Nat := crcStream 0x8408 2032 v 0

/-- CCRC over control bits [1131:0] (R297), in the bit order of CRC-32C. -/
def ccrc (v : Nat) : Nat := crcStream 0x82F63B78 1132 v 0xFFFFFFFF ^^^ 0xFFFFFFFF

/-! ## Flits (R298) -/

/-- The header bits [31:0] of a flit. -/
def flitHeader (f : Flit) : Nat :=
  f.cls + 4 + 8 * f.som.toNat + 16 * f.eom.toNat + 32 * f.data.length + 8192 * f.cseq

/-- The 2,048 bits of a flit; an idle flit is all 0. -/
def flitBits (f : Option Flit) : Nat :=
  match f with
  | none => 0
  | some x =>
    let d := leNat x.data
    let h := flitHeader x
    h + fchk (h + d * 2 ^ 32) * 2 ^ 32 + d * 2 ^ 48

/-- A flit as received: what its header says, and whether FCHK agrees. -/
structure RawFlit where
  flit : Flit
  valid : Bool
  reserved : Bool
  len : Nat
  good : Bool
deriving DecidableEq, Repr

/-- Read the 2,048 bits of a flit. -/
def readFlit (v : Nat) : RawFlit :=
  let len := v / 32 % 256
  let d := v / 2 ^ 48
  { flit := ⟨v % 4, bitOf v 3, bitOf v 4, v / 2 ^ 13 % 4096, leBytes len (d % 2 ^ (8 * len))⟩
    valid := bitOf v 2
    reserved := decide (v / 2 ^ 25 % 128 ≠ 0)
    len := len
    good := decide (fchk (v % 2 ^ 32 + d * 2 ^ 32) = v / 2 ^ 32 % 65536) }

/-- R298 discards the flit: a TC3 flit that is not a whole message, no data, too much data, a reserved bit set. -/
def RawFlit.bad (r : RawFlit) : Bool :=
  (decide (r.flit.cls = 3) && !(r.flit.som && r.flit.eom)) || decide (r.len = 0) || decide (250 < r.len) || r.reserved

/-! ## Control block (R297) -/

/-- The fields of a control block. -/
structure Control where
  lane : Nat
  fseq : Nat
  ack : Nat
  nak : Option Nat
  last : Bool
  credit : SMap Nat
  ver : Nat
  rxAdmit : Nat
  ping : Nat
  echo : Nat
  dly : Nat
deriving DecidableEq, Repr

/-- Bits [1131:0]. -/
def controlBits (c : Control) : Nat :=
  0x7A1E93C45B0DE862 + c.lane * 2 ^ 64 + c.fseq * 2 ^ 72 + c.ack * 2 ^ 88 + c.nak.getD 0 * 2 ^ 104 +
  c.nak.isSome.toNat * 2 ^ 120 + c.last.toNat * 2 ^ 121 + cnt c.credit 0 * 2 ^ 128 + cnt c.credit 1 * 2 ^ 144 +
  cnt c.credit 2 * 2 ^ 160 + cnt c.credit 3 * 2 ^ 176 + c.ver * 2 ^ 192 + c.rxAdmit * 2 ^ 200 + c.ping * 2 ^ 208 +
  c.echo * 2 ^ 216 + c.dly * 2 ^ 224

/-- The flits' bits, flit 0 lowest. -/
def flitsBits (fs : List (Option Flit)) : Nat :=
  match fs with
  | [] => 0
  | f :: r => flitBits f + flitsBits r * 2 ^ 2048

/-- The information bits of a frame (R295, R297). -/
def frameBits (c : Control) (fs : List (Option Flit)) : BitVec 35980 :=
  let b := controlBits c
  BitVec.ofNat 35980 (b + ccrc b * 2 ^ 1132 + flitsBits fs * 2 ^ 1164)

/-- Read a control block. -/
def readControl (v : Nat) : Control :=
  let f (lo n : Nat) : Nat := v / 2 ^ lo % 2 ^ n
  { lane := f 64 3, fseq := f 72 16, ack := f 88 16
    nak := if f 120 1 = 1 then some (f 104 16) else none
    last := decide (f 121 1 = 1)
    credit := (List.range 4).foldl (fun m c => setCnt m c (f (128 + 16 * c) 16)) []
    ver := f 192 8, rxAdmit := f 200 8, ping := f 208 8, echo := f 216 8, dly := f 224 10 }

/-- CCRC agrees. -/
def controlOk (v : Nat) : Bool := decide (ccrc (v % 2 ^ 1132) = v / 2 ^ 1132 % 2 ^ 32)

/-- The 17 flits of a frame. -/
def readFlits (v : Nat) : List RawFlit := (List.range 17).map (fun i => readFlit (v / 2 ^ (1164 + 2048 * i) % 2 ^ 2048))

end Sys2Proof.Machine
end

