-- ==== Sys2Proof/Machine/Link.lean ====
section
/-! DEFINITION. The link layer of the optical ports (R299 to R312). -/

namespace Sys2Proof.Machine

/-! ## Port states (R299) -/

/-- Leave UP, or a state below it, for `st`: no version, no lanes, training starts over. -/
def State.portTo (s : State) (k st : Nat) : State :=
  let was := s.niSt k
  let n := s.ni k
  let s1 := (s.setNi k { n with
    runs := [], farAdmit := 0, stale := 0, retry := n.retry.map (fun f => { f with resends := 0 }) }).setFs
    [(Csr.niStatus_STATE k, st), (Csr.niVer_NEG k, 0), (Csr.niStatus_TX_ADMIT k, 0), (Csr.niStatus_RX_ADMIT k, 0)]
  let s2 := if was = 4 then s1.linkChange k else s1
  s2.bound k

/-- The port enters DOWN: roll call starts over (R320). -/
def State.portDown (s : State) (k : Nat) : State := (s.portTo k 1).rcDown k

/-- Every receive lane of the port is DARK: DOWN (R299). -/
def State.darkCheck (s : State) (k : Nat) : State :=
  if 2 ≤ s.niSt k ∧ (List.range 8).all (fun i => decide (s.rxLane k i = 0)) then s.portDown k else s

/-- The retry buffer is discarded and counted (R299). -/
def State.dropRetry (s : State) (k : Nat) : State :=
  let n := s.ni k
  (s.setNi k { n with retry := [] }).addF (Csr.niDrop_DISCARD k) n.retry.length

/-- Sequences, credits and buffers as at the start of an epoch (R299, R307); a message that had begun is lost. -/
def NiPort.fresh (n : NiPort) : NiPort :=
  { n with
    fseq := 0, cseq := [], sent := [], credit := [], txq := n.txq.filter (fun m => !m.started), ack := 65535, got := [],
    naks := [], blind := none, rnext := [], rbuf := [], msgs := [], inbox := [], freed := [], ping := 0, pingDue := false,
    echo := 0 }

/-- EN = 0 (R299): retry buffer and class buffers are discarded. -/
def State.portOff (s : State) (k : Nat) : State :=
  if s.niSt k = 0 then s
  else
    let t := (s.dropRetry k).portTo k 0
    ((t.setNi k (t.ni k).fresh).rcDown k).showCredits k

/-- In NEGOTIATE this end sends its MIN, its MAX and its epoch (R304). The frames that carry them are not given: what is sent is listed. -/
def State.sendOffer (s : State) (k : Nat) : State :=
  let n := s.ni k
  s.setNi k { n with offers := n.offers ++ [(s.getF (Csr.niVer_MIN k), s.getF (Csr.niVer_MAX k), n.epoch)] }

/-- A renegotiation that was asked for starts once the retry buffer is acknowledged (R299). -/
def State.renegCheck (s : State) (k : Nat) : State :=
  if s.niSt k = 4 && s.flag (Csr.niCtrl_RENEG k) && (s.ni k).retry.isEmpty then
    (((s.setFs [(Csr.niStatus_STATE k, 3), (Csr.niVer_NEG k, 0)]).linkChange k).sendOffer k).bound k
  else s

/-- The Bell bucket holds at most `burst` tokens (R306). -/
def NiPort.capBell (n : NiPort) (burst : Nat) : NiPort := { n with bell := min n.bell burst }

/-- A write of NI.CTRL (R299, R304, R306, R313). -/
def niCtrlWrite (k : Nat) (s : State) (v m : Nat) : State :=
  let b := Csr.niCtrl_BELL_BURST k
  let s1 := s.storeBut (Csr.niCtrl k) v m [b]
  let nb := s.merged v m b
  let s2 := if wroteF v m b ≠ none ∧ 1 ≤ nb ∧ nb ≤ 16 then (s1.setNi k ((s1.ni k).capBell nb)).setF b nb else s1
  let s3 := if s2.flag (Csr.niCtrl_EN k) then (if s2.niSt k = 0 then s2.setF (Csr.niStatus_STATE k) 1 else s2)
    else s2.portOff k
  s3.renegCheck k

/-- NI_ENABLE (R299): a write of NI.CTRL. -/
def execNiEnable (port : Fin 4) (k : Fin 32) (w : AccWidth) (v : Word) (s : State) : Host.Outcome State Fault Refusal :=
  .next (s.hostWrite port (Csr.niCtrl k) w v (niCtrlWrite k))

/-- RENEG (R304): a write of NI.CTRL. -/
def execReneg (port : Fin 4) (k : Fin 32) (w : AccWidth) (v : Word) (s : State) : Host.Outcome State Fault Refusal :=
  .next (s.hostWrite port (Csr.niCtrl k) w v (niCtrlWrite k))

/-- PORT_ALIGN (R299, R304): receive lane `lane` is LOCKED with its own tone. The port leaves DOWN with an epoch drawn
at random; frames of the previous epoch are discarded. -/
def execPortAlign (k : Fin 32) (lane : Fin 8) (s : State) : Host.Outcome State Fault Refusal :=
  if s.niSt k = 1 ∧ !s.fatal ∧ s.rxLane k lane = 2 ∧ s.flag (Csr.glvRxMon_TONE_OK (gloveOf k) (gloveLane k lane)) then
    let d := s.draw 7
    let s1 := d.2.dropRetry k
    .next ((s1.setNi k { s1.ni k with epoch := d.1 % 2 ^ 32 }).setF (Csr.niStatus_STATE k) 2)
  else .next s

/-- In ALIGN with a lane trained each way: NEGOTIATE (R299). -/
def State.alignCheck (s : State) (k : Nat) : State :=
  if s.niSt k = 2 ∧ s.getF (Csr.niStatus_RX_ADMIT k) ≠ 0 ∧ (s.ni k).accepts &&& s.txOffers k ≠ 0 then
    ((s.setF (Csr.niStatus_STATE k) 3).setNi k { s.ni k with versionSaid := false }).sendOffer k
  else s

/-- The version that both ends support, or none (R304). -/
def State.commonVersion (s : State) (k farMin farMax : Nat) : Option Nat :=
  let v := min (s.getF (Csr.niVer_MAX k)) farMax
  if v < s.getF (Csr.niVer_MIN k) ∨ v < farMin then none else some v

/-- NEGOTIATE (R299, R304): the far end's MIN, MAX and epoch arrive. With no common version this end's go out again. -/
def execNegotiate (k : Fin 32) (farMin farMax : BitVec 8) (farEpoch : BitVec 32) (s : State) : Host.Outcome State Fault Refusal :=
  if s.niSt k ≠ 3 ∨ s.fatal then .next s
  else
    let s0 := s.setF (Csr.niVer_FAR_MAX k) farMax.toNat
    match s.commonVersion k farMin.toNat farMax.toNat with
    | none => .next (s0.sendOffer k)
    | some v =>
      let n := s.ni k
      let pair := some (n.epoch, farEpoch.toNat)
      let same := decide (n.held = pair)
      let s1 := if same then s0 else
        let t := s0.dropRetry k
        t.setNi k (t.ni k).fresh
      let s2 := (s1.setNi k { s1.ni k with held := pair, versionSaid := false }).setFs
        [(Csr.niStatus_STATE k, 4), (Csr.niVer_NEG k, v), (Csr.niCtrl_RENEG k, 0)]
      let s3 := ((s2.linkChange k).dealLanes k).showCredits k
      .next ((if same then s3.sendOwed k else s3.rcUp k).bound k)

/-- LINK_VERSION (R299): no common version; one record for each stay in NEGOTIATE. -/
def execLinkVersion (k : Fin 32) (farMin farMax : BitVec 8) (s : State) : Host.Outcome State Fault Refusal :=
  if s.niSt k = 3 && (s.commonVersion k farMin.toNat farMax.toNat).isNone && !(s.ni k).versionSaid then
    let s1 := (s.setF (Csr.niVer_FAR_MAX k) farMax.toNat).setNi k { s.ni k with versionSaid := true }
    .next (s1.recordD 0x0501 1 4 k [(1, s.getF (Csr.niVer_MIN k)), (1, s.getF (Csr.niVer_MAX k)), (1, farMin.toNat), (1, farMax.toNat)])
  else .next s

/-- LINK_RETRAIN (R299): a frame has been resent 16 times, or (`dark`) no lane has decoded a frame for 100 µs. -/
def execLinkRetrain (k : Fin 32) (dark : Bool) (s : State) : Host.Outcome State Fault Refusal :=
  let worn := (s.ni k).retry.find? (fun f => decide (16 ≤ f.resends))
  if s.niSt k = 4 ∧ (dark ∨ worn.isSome) then
    let d := s.draw 10
    let fseq := match worn with
      | some f => f.fseq
      | none => d.1
    .next (((d.2.addF (Csr.niRetry_RETRAIN k) 1).recordD 0x0502 1 4 k [(2, fseq)]).portTo k 2)
  else .next s

/-- PORT_ALIGN_TIMEOUT (R299): 10 ms in ALIGN or NEGOTIATE without an admitted lane in either direction. -/
def execPortAlignTimeout (k : Fin 32) (s : State) : Host.Outcome State Fault Refusal :=
  let tx := (s.ni k).accepts &&& s.txOffers k
  if (s.niSt k = 2 ∨ s.niSt k = 3) ∧ tx = 0 ∧ s.getF (Csr.niStatus_RX_ADMIT k) = 0 then .next (s.portDown k) else .next s

/-- LANE_READMIT (R299, R303): a lane that is offered and has decoded 4 consecutive frames joins RX_ADMIT. -/
def execLaneReadmit (k : Fin 32) (lane : Fin 8) (s : State) : Host.Outcome State Fault Refusal :=
  if 2 ≤ s.niSt k ∧ 4 ≤ cnt (s.ni k).runs lane ∧ s.rxOffered k lane then
    let f := Csr.niStatus_RX_ADMIT k
    .next (((s.setF f (setBit (s.getF f) lane)).alignCheck k).bound k)
  else .next s

/-! ## Flits chosen for a frame (R306, R328) -/

/-- A frame in the making: the NI, its flits, the operations whose chunks end in it, Bell flits sent, Bell flits that
met an empty bucket, forwarded flits. -/
structure Packing where
  ni : NiPort
  flits : List (Option Flit)
  ops : List Nat
  bell : Nat
  late : Nat
  fwd : Nat
deriving DecidableEq, Repr

/-- The buckets gain their tokens at a flit position. -/
def NiPort.tick (n : NiPort) (burst cap : Nat) : NiPort :=
  let full3 := decide (n.bellPos + 1 = 25)
  let fullT := decide (n.transitPos + 1 = 64)
  { n with
    bellPos := if full3 then 0 else n.bellPos + 1
    bell := if full3 then min burst (n.bell + 1) else n.bell
    transitPos := if fullT then 0 else n.transitPos + 1
    transit := if fullT then min 64 (n.transit + cap) else n.transit }

/-- The buckets gain their tokens over the flit positions of a frame. -/
def NiPort.ticks (n : NiPort) (burst cap j : Nat) : NiPort :=
  match j with
  | 0 => n
  | i + 1 => (n.tick burst cap).ticks burst cap i

/-- The message of class `c` whose flit may go now, by its place in the queue: one that has begun goes on; else the
first that may begin. Forwarded ones of TC0 to TC2 need a transit token (R328); all but this device's own of TC0, records and the
monitor exchange, need an enabled port (R316, R321). -/
def NiPort.nextOf (n : NiPort) (c : Nat) (on : Bool) : Option Nat :=
  let may (m : TxMsg) : Bool := !m.fwd || decide (c = 3) || decide (0 < n.transit)
  if n.credits c = 0 then none
  else
    match n.txq.findIdx? (fun m => decide (m.cls = c) && m.started) with
    | some i => if (n.txq[i]?.map may).getD false then some i else none
    | none => n.txq.findIdx? (fun m => decide (m.cls = c) && (on || (decide (c = 0) && !m.fwd)) && may m)

/-- The next flit of message `i` leaves: the NI after it, the flit, the operation that the message ends, forwarded. -/
def NiPort.takeFlit (n : NiPort) (i : Nat) : Option (NiPort × Flit × Option Nat × Bool) :=
  match n.txq[i]? with
  | none => none
  | some m =>
    let rest := m.data.drop 250
    let f : Flit := ⟨m.cls, !m.started, rest.isEmpty, cnt n.cseq m.cls, m.data.take 250⟩
    let q := if rest.isEmpty then n.txq.eraseIdx i else n.txq.set i { m with data := rest, started := true }
    some ({ n with
      txq := q
      cseq := setCnt n.cseq m.cls ((cnt n.cseq m.cls + 1) % 4096)
      sent := setCnt n.sent m.cls ((cnt n.sent m.cls + 1) % 65536)
      transit := if m.fwd then n.transit - 1 else n.transit }, f, if rest.isEmpty then m.op else none, m.fwd)

/-- The class after `c` in the round of TC2, TC1, TC0. -/
def nextClass (c : Nat) : Nat :=
  match c with
  | 2 => 1
  | 1 => 0
  | _ => 2

/-- The weighted classes: whose turn it is, with the positions left to it (R306). -/
def NiPort.choose (n : NiPort) (w : Nat → Nat) (on : Bool) (fuel : Nat) (c left : Nat) : Option (Nat × Nat × Nat) :=
  match fuel with
  | 0 => none
  | g + 1 =>
    let later := n.choose w on g (nextClass c) (w (nextClass c))
    if left = 0 then later
    else match n.nextOf c on with
      | some i => some (i, c, left - 1)
      | none => later

/-- A flit taken into a packing. -/
def Packing.add (p : Packing) (n : NiPort) (i : Nat) (turn left : Nat) : Packing :=
  match n.takeFlit i with
  | none => { p with ni := n, flits := p.flits ++ [none] }
  | some (n1, f, op, fwd) =>
    { ni := { n1 with turn := turn, left := left }
      flits := p.flits ++ [some f]
      ops := p.ops ++ op.toList
      bell := p.bell + (decide (f.cls = 3)).toNat
      late := p.late
      fwd := p.fwd + fwd.toNat }

/-- One flit position (R306). -/
def Packing.position (p : Packing) (w : Nat → Nat) (burst cap : Nat) (on : Bool) : Packing :=
  let n := p.ni.tick burst cap
  let weighted (q : Packing) (n : NiPort) : Packing :=
    match n.choose w on 4 n.turn n.left with
    | some (i, c, l) => q.add n i c l
    | none => { q with ni := n, flits := q.flits ++ [none] }
  match n.nextOf 3 on with
  | none => weighted p n
  | some i =>
    if 0 < n.bell then p.add { n with bell := n.bell - 1 } i n.turn n.left
    else
      match n.txq[i]? with
      | none => weighted p n
      | some m =>
        if m.late then weighted p n
        else weighted { p with late := p.late + 1 } { n with txq := n.txq.set i { m with late := true } }

/-- Seventeen positions. -/
def Packing.fill (p : Packing) (w : Nat → Nat) (burst cap : Nat) (on : Bool) (k : Nat) : Packing :=
  match k with
  | 0 => p
  | j + 1 => (p.position w burst cap on).fill w burst cap on j

/-- The weight of a class (R313): 0 is treated as 1. -/
def State.weight (s : State) (k c : Nat) : Nat :=
  max 1 (match c with
    | 2 => s.getF (Csr.niArb_W_TC2 k)
    | 1 => s.getF (Csr.niArb_W_TC1 k)
    | _ => s.getF (Csr.niArb_W_TC0 k))

/-- A new frame of port `k`: its flits are chosen and it enters the retry buffer. -/
def State.newFrame (s : State) (k : Nat) : State × TxFrame :=
  let p := Packing.fill ⟨s.ni k, [], [], 0, 0, 0⟩ (s.weight k) (s.getF (Csr.niCtrl_BELL_BURST k))
    (s.getF (Csr.niXcap_CAP k)) (s.dataOn k) 17
  let f : TxFrame := ⟨p.ni.fseq, p.flits, 0, false, p.ops⟩
  let n := { p.ni with fseq := (p.ni.fseq + 1) % 65536, retry := p.ni.retry ++ [f] }
  (((((s.setNi k n).addF (Csr.niBell_SENT k) p.bell).addF (Csr.niBell_LATE_SHARE k) p.late).addF (Csr.niXcap_FWD k) p.fwd).showCredits k, f)

/-! ## FRAME_SEND (R300, R301, R303, R311) -/

/-- Put a frame on a lane with its control block; `train` marks a training or negotiation frame, which carries no
version, no NAK and no probe. -/
def State.putFrame (s : State) (k lane dly : Nat) (fseq : Nat) (flits : List (Option Flit)) (last train : Bool) : State :=
  let n := s.ni k
  let nak := if train then none else n.naks.head?
  let c : Control := ⟨lane, fseq, n.ack, nak, last, n.freed, if train then 0 else s.getF (Csr.niVer_NEG k),
    s.getF (Csr.niStatus_RX_ADMIT k), if n.pingDue && !train then n.ping else 0, n.echo, dly⟩
  let s1 := if nak.isSome then s.addF (Csr.niRetry_NAK_SENT k) 1 else s
  let s2 := s1.setNi k (if train then n else { n with naks := n.naks.drop 1, pingDue := false })
  { s2 with wire := s2.wire ++ [⟨k, lane, encodeFrame (frameBits c flits)⟩] }

/-- A training frame: every flit idle. -/
def State.trainFrame (s : State) (k lane dly : Nat) : State := s.putFrame k lane dly 0 [] false true

/-- Bell flits of a frame. -/
def bellFlits (fs : List (Option Flit)) : Nat := (fs.filter (fun f => decide ((f.map Flit.cls) = some 3))).length

/-- The frame that goes next: one that is due again, else a new one, else none. -/
def State.nextFrame (s : State) (k : Nat) : Option (State × TxFrame) :=
  let n := s.ni k
  match n.retry.find? (fun f => f.due) with
  | some f =>
    let g := { f with resends := f.resends + 1, due := false }
    let n1 := n.ticks (s.getF (Csr.niCtrl_BELL_BURST k)) (s.getF (Csr.niXcap_CAP k)) 17
    let s1 := s.setNi k { n1 with retry := n.retry.map (fun x => if x.fseq = f.fseq then g else x) }
    some ((s1.addF (Csr.niRetry_RESENT k) 1).addF (Csr.niBell_LATE_RETRY k) (bellFlits f.flits), g)
  | none => if n.retry.length < 128 ∧ !s.flag (Csr.niCtrl_RENEG k) then some (s.newFrame k) else none

/-- A frame start withheld because the retry buffer is full, counted in units of 64 (R301). -/
def State.withheldFrame (s : State) (k : Nat) : State :=
  let n := s.ni k
  if n.retry.length < 128 then s
  else if n.full + 1 = 64 then (s.setNi k { n with full := 0 }).addF (Csr.niRetry_FULL k) 1
  else s.setNi k { n with full := n.full + 1 }

/-- FRAME_SEND (R303): the next frame starts on lane `lane`; `dly` is the time since the last PING was decoded. -/
def execFrameSend (k : Fin 32) (lane : Fin 8) (dly : BitVec 10) (s : State) : Host.Outcome State Fault Refusal :=
  let locked := s.txLane k lane = 2 ∨ s.txLane k lane = 3
  if s.fatal then .next s
  else if s.niSt k = 4 ∧ bitOf (s.getF (Csr.niStatus_TX_ADMIT k)) lane then
    let last := s.closing k lane
    match s.pump.nextFrame k with
    | none => .next (s.pump.withheldFrame k)
    | some (s1, f) =>
      let s2 := s1.putFrame k lane dly.toNat f.fseq f.flits last false
      let t := Csr.niStatus_TX_ADMIT k
      .next (if last then ((s2.setNi k ((s2.ni k).leave (2 ^ lane.val))).setF t (clearBit (s2.getF t) lane)).bound k else s2)
  else if locked ∧ (s.niSt k = 2 ∨ s.niSt k = 3 ∨ (s.niSt k = 4 ∧ s.txOffered k lane)) then
    .next (s.trainFrame k lane dly.toNat)
  else .next s

/-! ## FRAME_RECEIVE (R300 to R303, R307, R311) -/

/-- Frames that an ACK covers leave the retry buffer; the chunks that end in them are accepted (R343). -/
def State.ackFrames (s : State) (k ack : Nat) : State :=
  let n := s.ni k
  let done (f : TxFrame) : Bool := decide ((ack + 65536 - f.fseq) % 65536 < 32768)
  let stamps := (n.retry.filter done).flatMap (fun f => f.ops)
  let s1 := s.setNi k { n with retry := n.retry.filter (fun f => !done f) }
  { s1 with ops := s1.ops.map (fun o => { o with flight := (stamps.filter (fun x => decide (x = o.stamp))).foldl (fun l _ => l.erase k) o.flight }) }

/-- A frame becomes due to be resent. -/
def NiPort.makeDue (n : NiPort) (fseq : Nat) : NiPort :=
  { n with retry := n.retry.map (fun f => if f.fseq = fseq then { f with due := true } else f) }

/-- FIBRE from a round trip (R311). -/
def fibreOf (rtt dly : Nat) : Nat := ceilDiv (rtt - dly - 480) 2

/-- The measurement of a round trip (R311). -/
def State.measure (s : State) (k rtt dly : Nat) : State :=
  let fib := fibreOf rtt dly
  (s.setFs [(Csr.niLink_RTT k, rtt), (Csr.niLink_ECHO_DLY k, dly), (Csr.niLink_FIBRE k, fib),
    (Csr.niStatus_LONG k, (decide (576 < fib)).toNat)]).bound k

/-- What a good frame's control block says is applied. -/
def State.applyControl (s : State) (k : Nat) (c : Control) (rtt : Nat) : State :=
  let s1 := s.ackFrames k c.ack
  let n := s1.ni k
  let n1 := match c.nak with
    | some f => n.makeDue f
    | none => n
  let hit := decide (c.echo ≠ 0) && decide (c.echo = n.ping)
  let s2 := s1.setNi k { n1.hearAdmit c.rxAdmit with
    credit := c.credit
    echo := if c.ping = 0 then n1.echo else c.ping
    ping := if hit then 0 else n1.ping }
  let s3 := (s2.dealLanes k).showCredits k
  if hit then s3.measure k rtt c.dly else s3

/-- A flit delivered in CSEQ order: it begins a message or goes on with the one of its class that is not whole. -/
def NiPort.deliver (n : NiPort) (f : Flit) (on : Bool) : NiPort :=
  let n1 := { n with rnext := setCnt n.rnext f.cls ((cnt n.rnext f.cls + 1) % 4096) }
  if f.data.isEmpty then n1.free f.cls 1
  else
    match n1.msgs.findIdx? (fun m => decide (m.cls = f.cls) && !m.whole) with
    | some i =>
      match n1.msgs[i]? with
      | some m => { n1 with msgs := n1.msgs.set i { m with data := m.data ++ f.data, flits := m.flits + 1, whole := f.eom } }
      | none => n1
    | none => { n1 with msgs := n1.msgs ++ [⟨f.cls, f.data, 1, on, f.eom, none⟩] }

/-- Deliver every flit that is next in its class (R302). -/
def NiPort.drain (n : NiPort) (on : Bool) (fuel : Nat) : NiPort :=
  match fuel with
  | 0 => n
  | g + 1 =>
    match n.rbuf.find? (fun f => decide (f.cseq = cnt n.rnext f.cls)) with
    | none => n
    | some f => ({ n with rbuf := n.rbuf.erase f }.deliver f on).drain on g

/-- The cumulative ACK advances over frames received out of order. -/
def NiPort.advanceAck (n : NiPort) (fuel : Nat) : NiPort :=
  match fuel with
  | 0 => n
  | g + 1 =>
    let x := (n.ack + 1) % 65536
    if x ∈ n.got then { n with ack := x, got := n.got.erase x }.advanceAck g else n

/-- The frame with this FSEQ has not been received and lies in the window of 128 (R300). -/
def NiPort.isNew (n : NiPort) (fseq : Nat) : Bool :=
  decide ((fseq + 65536 - (n.ack + 1)) % 65536 < 128) && !decide (fseq ∈ n.got)

/-- The distance of an FSEQ beyond the last ACK; 0 of one that the ACK covers. -/
def NiPort.ahead (n : NiPort) (fseq : Nat) : Nat :=
  let d := (fseq + 65536 - (n.ack + 1)) % 65536
  if d < 32768 then d else 0

/-- After a frame without readable FSEQ: once every admitted lane has delivered a frame, NAK every missing FSEQ below
the lowest of the highest FSEQs that they have delivered (R300). -/
def NiPort.blindStep (n : NiPort) (lane fseq admitted : Nat) : NiPort :=
  match n.blind with
  | none => n
  | some m =>
    let m1 := match m.find? (fun e => decide (e.1 = lane)) with
      | some e => if n.ahead e.2 < n.ahead fseq then m.insert lane fseq else m
      | none => m.insert lane fseq
    let lanes := setBits admitted 8
    if lanes.all (fun i => m1.any (fun e => decide (e.1 = i))) then
      let top := (m1.map (fun e => n.ahead e.2)).foldl min 128
      let miss := (List.range top).filterMap (fun d =>
        let f := (n.ack + 1 + d) % 65536
        if f ∈ n.got ∨ f ∈ n.naks then none else some f)
      { n with blind := none, naks := n.naks ++ miss }
    else { n with blind := some m1 }

/-- A new good frame's flits enter the class buffers; those that R298 discards leave a gap that holds no data. -/
def State.takeFlits (s : State) (k lane fseq : Nat) (raw : List RawFlit) : State :=
  let n := s.ni k
  let vs := raw.filter (fun r => r.valid)
  let fs := vs.map (fun r => if r.bad then { r.flit with som := false, eom := false, data := [] } else r.flit)
  let n1 := { n with rbuf := n.rbuf ++ fs, got := fseq :: n.got, naks := n.naks.erase fseq }
  let n2 := (n1.advanceAck 129).drain (s.dataOn k) (n1.rbuf.length)
  (s.setNi k (n2.blindStep lane fseq (s.getF (Csr.niStatus_RX_ADMIT k)))).addF (Csr.niDrop_BAD_FLIT k)
    (vs.filter (fun r => r.bad)).length

/-- A frame that fails R300: counted, and a NAK is due when its FSEQ can be read. -/
def State.failFrame (s : State) (k : Nat) (readable : Bool) (fseq : Nat) : State :=
  let n := s.ni k
  let n1 := if readable then (if fseq ∈ n.naks then n else { n with naks := n.naks ++ [fseq] }) else { n with blind := some [] }
  (s.setNi k n1).addF (Csr.niDrop_BAD_FRAME k) 1

/-- A frame on a lane in training: the run of good frames, and the far RX_ADMIT (R299, R303). -/
def State.trainRx (s : State) (k lane : Nat) (good : Bool) (c : Control) : State :=
  let n := s.ni k
  if good then
    ((s.setNi k ({ n with runs := setCnt n.runs lane (cnt n.runs lane + 1) }.hearAdmit c.rxAdmit)).dealLanes k).alignCheck k
  else s.setNi k { n with runs := setCnt n.runs lane 0 }

/-- FRAME_RECEIVE (R296, R300 to R303): the bits of a frame on receive lane `lane`, and the round trip that an ECHO in it ends. A
good frame with LAST set ends the lane's frames: it is trained before it carries more. -/
def execFrameReceive (k : Fin 32) (lane : Fin 8) (wire : BitVec 38080) (rtt : BitVec 16) (s : State) : Host.Outcome State Fault Refusal :=
  if s.niSt k < 2 ∨ s.fatal then .next s
  else
    let d := decodeFrame wire
    let v := d.bits.toNat
    let s0 := (s.addF (Csr.niLaneErr_SYM_CE k lane) d.corrected).addF (Csr.niLaneErr_UCW k lane) d.lost
    let readable := d.words.head? ≠ some none && controlOk v
    let c := readControl v
    if s.niSt k ≠ 4 ∨ !bitOf (s.getF (Csr.niStatus_RX_ADMIT k)) lane then
      .next (s0.trainRx k lane (readable && d.clean) c)
    else
      let raw := readFlits v
      let good := readable && d.clean && decide (c.ver = s.getF (Csr.niVer_NEG k))
        && raw.all (fun r => !r.valid || r.good)
      if !good then .next (s0.failFrame k readable c.fseq)
      else
        let s1 := s0.applyControl k c rtt.toNat
        let s2 := if (s1.ni k).isNew c.fseq then s1.takeFlits k lane c.fseq raw else s1.addF (Csr.niDrop_DUP k) 1
        let s3 := if c.last then s2.keepRx k (255 - 2 ^ lane.val) else s2
        .next (s3.pump.renegCheck k)

/-- RETRY_TIMEOUT (R301): the frame with this FSEQ has not been acknowledged in time. -/
def execRetryTimeout (k : Fin 32) (fseq : BitVec 16) (s : State) : Host.Outcome State Fault Refusal :=
  if s.niSt k = 4 then .next (s.setNi k ((s.ni k).makeDue fseq.toNat)) else .next s

/-! ## PING and LANE_ERRORS (R311, R312) -/

/-- PING (R311): a new probe goes with the next frame; identifiers run from 1 to 255. -/
def execPing (k : Fin 32) (id : Fin 255) (s : State) : Host.Outcome State Fault Refusal :=
  if s.niSt k = 4 ∧ !s.fatal then .next (s.setNi k { s.ni k with ping := id.val + 1, pingDue := true }) else .next s

/-- LANE_ERRORS (R312): `count` uncorrectable codewords of a receive lane in a second; `due`: no record of the lane in
the last 10 s. -/
def execLaneErrors (k : Fin 32) (lane : Fin 8) (count : BitVec 32) (due : Bool) (s : State) : Host.Outcome State Fault Refusal :=
  let r : Rec := ⟨0x0504, 0, 255, 4, k, 0xFFFF, 0, [(1, lane.val), (4, count.toNat)]⟩
  if count.toNat ≤ 16 then .next s
  else if due then .next (s.record true none r)
  else .next (s.withhold r)

end Sys2Proof.Machine
end

