-- ==== Sys2Proof/Machine/Glove.lean ====
section
/-! DEFINITION. Gloves: lanes, rings, monitors and loss location (R276 to R285, R290, R291). -/

namespace Sys2Proof.Machine

/-- The optical calibration service runs: it starts as boot ends (R448). -/
def State.service (s : State) : Bool := s.booted

/-! ## A lane of a glove: `tx` true for the transmit direction (R270, R293) -/

def laneState (g : Nat) (tx : Bool) (l : Nat) : Fld := if tx then Csr.glvTxLanes_STATE g l else Csr.glvRxLanes_STATE g l
def laneAdmit (g : Nat) (tx : Bool) (l : Nat) : Fld := if tx then Csr.glvTxLanes_ADMIT g l else Csr.glvRxLanes_ADMIT g l
def laneCause (g : Nat) (tx : Bool) (l : Nat) : Fld := if tx then Csr.glvRcause_TX g l else Csr.glvRcause_RX g l
def laneRetired (g : Nat) (tx : Bool) : Fld := if tx then Csr.glvRetire_TX g else Csr.glvRetire_RX g
def lanePower (g : Nat) (tx : Bool) (l : Nat) : Fld := if tx then Csr.glvTxMon_POWER g l else Csr.glvRxMon_POWER g l
def lanePilot (g : Nat) (tx : Bool) (l : Nat) : Fld := if tx then Csr.glvTxMon_PILOT g l else Csr.glvRxMon_PILOT g l
def laneHeater (g : Nat) (tx : Bool) (l : Nat) : Fld := if tx then Csr.glvTxMon_HEATER g l else Csr.glvRxMon_HEATER g l
def laneToneWl (g : Nat) (tx : Bool) (l : Nat) : Fld := if tx then Csr.glvTxMon_TONE_WL g l else Csr.glvRxMon_TONE_WL g l
def laneToneOk (g : Nat) (tx : Bool) (l : Nat) : Fld := if tx then Csr.glvTxMon_TONE_OK g l else Csr.glvRxMon_TONE_OK g l

/-- Key of a lane. -/
def laneKey (g : Nat) (tx : Bool) (l : Nat) : Nat := (g * 2 + dirCode tx) * 16 + l

/-- The port that lane `l` of glove `g` belongs to (R270). -/
def portOfLane (g l : Nat) : Nat := 2 * g + l / 8

/-- Both directions. -/
def bothDirs : List Bool := [true, false]

/-! ## Admission (R282 to R284) -/

/-- A lane suspends the Bell bound of its port (R284). -/
def State.laneSuspends (s : State) (g : Nat) (tx : Bool) (l : Nat) : Bool :=
  let st := s.getF (laneState g tx l)
  let c := s.getF (laneCause g tx l)
  decide (st = 3) || decide (st = 4) || (!s.flag (laneAdmit g tx l) && (decide (c = 1) || decide (c = 2)))

/-- Some lane of port `k` suspends the bound. -/
def State.portSuspends (s : State) (k : Nat) : Bool :=
  (List.range 8).any (fun i => bothDirs.any (fun tx => s.laneSuspends (gloveOf k) tx (gloveLane k i)))

/-- The suspension field of a port. -/
def suspField (k : Nat) : Fld := if k % 2 = 0 then Csr.glvPort_SUSP_A (gloveOf k) else Csr.glvPort_SUSP_B (gloveOf k)

/-- Lanes of port `k` admitted in a direction. -/
def State.admitted (s : State) (k : Nat) (tx : Bool) : Nat :=
  ((List.range 8).filter (fun i => s.flag (laneAdmit (gloveOf k) tx (gloveLane k i)))).length

/-- GLV.PORT's lane counts follow. -/
def State.showLanes (s : State) (k : Nat) : State :=
  let g := gloveOf k
  if k % 2 = 0 then s.setFs [(Csr.glvPort_TX_A g, s.admitted k true), (Csr.glvPort_RX_A g, s.admitted k false)]
  else s.setFs [(Csr.glvPort_TX_B g, s.admitted k true), (Csr.glvPort_RX_B g, s.admitted k false)]

/-- The port of a lane follows a change of the lane: counts, suspension, lanes dealt and accepted (R284, R303). -/
def State.laneChanged (s : State) (g : Nat) (tx : Bool) (l : Nat) : State :=
  let k := portOfLane g l
  let s1 := s.showLanes k
  let s2 := if s1.portSuspends k then s1.setF (suspField k) 1 else s1
  (if tx then s2.dealLanes k else s2.acceptLanes k).bound k

/-- Whether LANE_RETIRE holds a lane back: 0 no, 1 it does, 2 the lane has since been LOCKED for 1 ms (R283). -/
def State.heldBack (s : State) (g : Nat) (tx : Bool) (l : Nat) : Nat := cnt s.optics.retired (laneKey g tx l)

/-- The state with that replaced. -/
def State.setHeldBack (s : State) (g : Nat) (tx : Bool) (l v : Nat) : State :=
  s.withOptics (fun o => { o with retired := setCnt o.retired (laneKey g tx l) v })

/-- A lane's optical state. A lane that enters SWEEP starts to count its sweeps; one that leaves LOCKED has to be LOCKED for 1 ms
again (R282, R283). -/
def State.setLane (s : State) (g : Nat) (tx : Bool) (l st : Nat) : State :=
  let s1 := if st = 1 then s.withOptics (fun o => { o with sweeps := setCnt o.sweeps (laneKey g tx l) 0 }) else s
  let s2 := if st ≠ 2 ∧ s.heldBack g tx l = 2 then s1.setHeldBack g tx l 1 else s1
  (s2.setF (laneState g tx l) st).laneChanged g tx l

/-- Withdraw a lane for a cause: 1 LANE_RETIRE, 2 spare switch, 3 software (R283). A lane withdrawn before takes the
later cause, but not that of a switch (R288). What LANE_RETIRE asks for readmission is asked whatever cause follows it. -/
def State.withdraw (s : State) (g : Nat) (tx : Bool) (l cause : Nat) : State :=
  if s.flag (laneAdmit g tx l) then
    (((((if cause = 1 then s.setHeldBack g tx l 1 else s).setFs [(laneAdmit g tx l, 0), (laneCause g tx l, cause)]).addF (Csr.glvCnt_WITHDRAWN g) 1).recordD 0x040C 0 5 g
      [(1, dirCode tx), (1, l), (1, cause)])).laneChanged g tx l
  else if cause = 2 ∧ s.getF (laneCause g tx l) ≠ 0 then s
  else (s.setF (laneCause g tx l) cause).laneChanged g tx l

/-- Admit a LOCKED lane: a readmission is counted and recorded (R283). -/
def State.admitLane (s : State) (g : Nat) (tx : Bool) (l : Nat) : State :=
  if s.flag (laneAdmit g tx l) ∨ s.getF (laneState g tx l) ≠ 2 then s
  else
    let s1 := (s.setHeldBack g tx l 0).setFs [(laneAdmit g tx l, 1), (laneCause g tx l, 0)]
    let s2 := if s.getF (laneCause g tx l) = 0 then s1
      else (s1.addF (Csr.glvCnt_READMITTED g) 1).recordD 0x040D 0 5 g [(1, dirCode tx), (1, l)]
    s2.laneChanged g tx l

/-- The lane is retired by software. -/
def State.softRetired (s : State) (g : Nat) (tx : Bool) (l : Nat) : Bool := bitOf (s.getF (laneRetired g tx)) l

/-- A switch of the lane's wavelength runs on the module that feeds it (R288). -/
def State.switching (s : State) (g : Nat) (tx : Bool) (l : Nat) : Bool :=
  tx && decide (s.getF (Csr.elsModSw_STATE (g / 8)) ≠ 0) && decide (s.getF (Csr.elsModSw_WL (g / 8)) = l % 8)

/-- A LOCKED lane is offered for admission, unless a cause still holds it back: its own software retirement, a switch of its
wavelength, a withdrawal under LANE_RETIRE less than 1 ms LOCKED ago (R282, R283, R288). -/
def State.offer (s : State) (g : Nat) (tx : Bool) (l : Nat) : State :=
  if s.softRetired g tx l || s.switching g tx l || decide (s.heldBack g tx l = 1) then s else s.admitLane g tx l

/-- LANE_RETIRE withdraws an admitted lane that enters UNLOCKED or DARK (R283). -/
def State.retireStep (s : State) (g : Nat) (tx : Bool) (l : Nat) : State :=
  if s.devArmed 1 && s.flag (laneAdmit g tx l) then s.withdraw g tx l 1 else s

/-! ## Ring tables (R279, R280, R281) -/

/-- Ring number of a lane. -/
def ringOf (tx : Bool) (l : Nat) : Nat := if tx then l else 16 + l

/-- The 64 bytes of a tuning record. -/
def State.ringRec (s : State) (g r : Nat) : List Byte :=
  (List.range 8).flatMap (fun w => leBytes 8 (s.rd (Csr.glvRtabW g r w)).toNat)

/-- Write a tuning record's fields with a new UPDATED and CRC. -/
def State.putRing (s : State) (g r : Nat) (b : List Byte) : State :=
  let b1 := b.take 0x30 ++ leBytes 8 (s.rd Csr.clkTime).toNat ++ List.replicate 8 0
  s.writeRecWords (Csr.glvRtabW g r) (b1.take 0x3C ++ leBytes 4 (crc32c b1))

/-- The record may be used (R280). -/
def ringOk (b : List Byte) : Bool :=
  bitOf (fieldAt b 1 1) 0 && decide (crc32c (b.take 0x3C ++ List.replicate 4 0) = fieldAt b 0x3C 4)
    && decide (1 ≤ fieldAt b 4 2) && decide (fieldAt b 4 2 ≤ 0x100)

/-- table(T): linear between the entries around `t`, to the nearest code. -/
def ringTable (b : List Byte) (t : Int) : Int :=
  let t0 := signed 16 (fieldAt b 2 2)
  let step := Int.ofNat (fieldAt b 4 2)
  let h (k : Nat) : Int := Int.ofNat (fieldAt b (8 + 2 * k) 2)
  if t < t0 then h 0
  else if t0 + 15 * step ≤ t then h 15
  else
    let k := ((t - t0) / step).toNat
    let f := (t - t0) % step
    h k + (2 * (h (k + 1) - h k) * f + step) / (2 * step)

/-- P_die in mW: voltage times current of the VCORE rail of the die that carries glove `g`, as last read (R427, R429); gloves 0 to 7
lie on die W (R16). -/
def State.diePower (s : State) (g : Nat) : Nat :=
  if g < 8 then s.getF Csr.pwrVcoreW_MV * s.getF Csr.pwrVcoreW_AMPS else s.getF Csr.pwrVcoreE_MV * s.getF Csr.pwrVcoreE_AMPS

/-- The feedforward term for a die power in mW, to the nearest code (DESIGN CHOICE, notes/assumptions/86.md: R279 says no rounding). -/
def feedForward (b : List Byte) (die : Nat) : Int :=
  (signed 16 (fieldAt b 0x28 2) * (Int.ofNat die - 1000 * Int.ofNat (fieldAt b 0x2A 2)) + 500) / 1000

/-- The glove temperature, 1/16 °C. -/
def State.gloveTemp (s : State) (g : Nat) : Int := signed 12 (s.getF (Csr.glvStatus_TEMP g))

/-- Clamp to a heater code. -/
def heaterCode (h : Int) : Nat := min h.toNat 65535

/-- HEATER_UPDATE (R279, R282): the setpoint of ring `r` from its table, the die's power and the loop's correction;
a DARK lane is held at table(T). A ring without a usable record keeps its code. -/
def execHeaterUpdate (g : Fin 16) (r : Fin 32) (corr : BitVec 16) (s : State) : Host.Outcome State Fault Refusal :=
  let tx := decide (r.val < 16)
  let l := r.val % 16
  let b := s.ringRec g r
  if ringOk b then
    let base := ringTable b (s.gloveTemp g)
    let h := if s.getF (laneState g tx l) = 0 then base else base + feedForward b (s.diePower g) + signed 16 corr.toNat
    .next (s.setF (laneHeater g tx l) (heaterCode h))
  else .next s

/-- GLOVE_TEMP_SAMPLE (R285): the two sensors, signed 1/16 °C. T is their mean; the slope is T's change over the last
10 samples, 100 µs, scaled to a millisecond. -/
def execGloveTempSample (g : Fin 16) (a b : BitVec 12) (s : State) : Host.Outcome State Fault Refusal :=
  let t := (signed 12 a.toNat + signed 12 b.toNat) / 2
  let old := s.optics.temps.get (fun _ => []) g
  let hist := (toSigned 12 t :: old).take 11
  let slope := match hist[10]? with
    | some x => (t - signed 12 x) * 10
    | none => 0
  .next ((s.withOptics (fun o => { o with temps := o.temps.put (fun _ => []) g hist })).setFs
    [(Csr.glvStatus_TEMP g, toSigned 12 t), (Csr.glvStatus_SLOPE g, toSigned 16 slope)])

/-- RING_REFINE (R281): the entry nearest the present temperature moves an eighth of the way towards the code held, with
the feedforward term removed. -/
def execRingRefine (g : Fin 16) (r : Fin 32) (s : State) : Host.Outcome State Fault Refusal :=
  let tx := decide (r.val < 16)
  let l := r.val % 16
  let b := s.ringRec g r
  if s.getF (laneState g tx l) = 2 && ringOk b then
    let step := Int.ofNat (fieldAt b 4 2)
    let k := min ((2 * (s.gloveTemp g - signed 16 (fieldAt b 2 2)) + step) / (2 * step)).toNat 15
    let h := Int.ofNat (fieldAt b (8 + 2 * k) 2)
    let aim := Int.ofNat (s.getF (laneHeater g tx l)) - feedForward b (s.diePower g)
    let h1 := heaterCode (h + Int.tdiv (aim - h) 8)
    .next (s.putRing g r (b.take (8 + 2 * k) ++ leBytes 2 h1 ++ b.drop (10 + 2 * k)))
  else .next s

/-- A ring locks at a heater code: LOCK_LAST; a record that may not be used, or is recalibrated, is rebuilt from the
sweep (R280, R291), with entries that the spec does not give (free values). -/
def State.noteLock (s : State) (g : Nat) (tx : Bool) (l code : Nat) : State :=
  let r := ringOf tx l
  let b := s.ringRec g r
  if ringOk b && !s.flag (Csr.glvCtrl_CAL_REQ g) then s.putRing g r (b.take 0x2C ++ leBytes 2 code ++ b.drop 0x2E)
  else
    let f (i : Nat) : List Byte := leBytes 2 (Config.freeNat (100 + i) s.drawn)
    let b1 := leBytes 1 r ++ leBytes 1 1 ++ f 0 ++ leBytes 2 (1 + Config.freeNat 101 s.drawn % 256) ++ leBytes 2 0 ++
      (List.range 18).flatMap (fun i => f (2 + i)) ++ leBytes 2 code ++ leBytes 2 0 ++ List.replicate 16 0
    { s with drawn := s.drawn + 1 }.putRing g r b1

/-! ## Lane states (R282) -/

/-- The glove serves its lanes: enabled and brought up to CAL or READY (R290), and its light permitted for the transmit direction. -/
def State.laneLit (s : State) (g : Nat) (tx : Bool) : Bool :=
  s.flag (Csr.glvCtrl_EN g) && (decide (s.getF (Csr.glvStatus_STATE g) = 2) || decide (s.getF (Csr.glvStatus_STATE g) = 3)) && (!tx || s.flag (Csr.elsStatus_LIGHT (g / 8)))

/-- LANE_LIGHT_DETECT (R282): the power of a DARK lane as measured. -/
def execLaneLightDetect (g : Fin 16) (tx : Bool) (l : Fin 16) (power : BitVec 16) (s : State) : Host.Outcome State Fault Refusal :=
  let s1 := s.setF (lanePower g tx l) power.toNat
  if s.getF (laneState g tx l) = 0 ∧ s.laneLit g tx ∧ power.toNat ≠ noReading
      ∧ signed 16 (s.getF (Csr.glvCtrl_DARK_FLOOR g)) < signed 16 power.toNat then
    .next (s1.setLane g tx l 1)
  else .next s1

/-- SWEEP_DONE (R282, R291): a sweep ends with (`found`) or without a resonance; the code of its peak and the
wavelength of the strongest tone. The third sweep without resonance is recorded. With TONE_EN = 0 no ring locks (R293). -/
def execSweepDone (g : Fin 16) (tx : Bool) (l : Fin 16) (found : Bool) (code : BitVec 16) (tone : Fin 8) (s : State) :
    Host.Outcome State Fault Refusal :=
  let st := s.getF (laneState g tx l)
  if (st ≠ 1 ∧ st ≠ 4) ∨ !s.flag (Csr.glvCtrl_TONE_EN g) then .next s
  else if !found then
    if st ≠ 1 then .next s
    else
      let n := cnt s.optics.sweeps (laneKey g tx l) + 1
      let s1 := s.withOptics (fun o => { o with sweeps := setCnt o.sweeps (laneKey g tx l) n })
      .next (if n = 3 then s1.recordD 0x0409 1 5 g [(1, dirCode tx), (1, l.val)] else s1)
  else
    let ok := tx || decide (tone.val = l.val % 8)
    let s1 := s.setFs [(laneHeater g tx l, code.toNat), (laneToneWl g tx l, if tx then 0 else tone.val), (laneToneOk g tx l, ok.toNat)]
    if !ok then .next s1
    else
      .next (((s1.noteLock g tx l code.toNat).setLane g tx l 2).offer g tx l)

/-- The pilot deficit of a lane, 0.01 dB (R277): its pilot amplitude is held against its reference. With no pilot tones
it is not judged (R293). -/
def State.pilotDeficit (s : State) (g : Nat) (tx : Bool) (l : Nat) : Int :=
  let v := s.getF (lanePilot g tx l)
  if v = noReading ∨ !s.flag (Csr.glvCtrl_TONE_EN g) then 0 else -(signed 16 v)

/-- Slope above DRIFT_RATE. -/
def State.steep (s : State) (g : Nat) : Bool :=
  decide (Int.ofNat (s.getF (Csr.glvCtrl_DRIFT_RATE g)) < signed 16 (s.getF (Csr.glvStatus_SLOPE g)))

/-- LANE_DRIFT (R282): the pilot amplitude as measured; `due`: no LANE_DRIFT record of the port in the last 10 ms. -/
def execLaneDrift (g : Fin 16) (tx : Bool) (l : Fin 16) (pilot : BitVec 16) (due : Bool) (s : State) : Host.Outcome State Fault Refusal :=
  let s1 := s.setF (lanePilot g tx l) pilot.toNat
  if s.getF (laneState g tx l) = 2 ∧ (s1.steep g ∨ Int.ofNat (s.getF (Csr.glvCtrl_LOCK_TOL g)) < s1.pilotDeficit g tx l) then
    let s2 := (s1.addF (Csr.glvCnt_DRIFT g) 1).setLane g tx l 3
    let r : Rec := ⟨0x040A, 0, 255, 5, g, 0xFFFF, 0, [(1, portOfLane g l), (2, s.getF (Csr.glvStatus_SLOPE g))]⟩
    .next (if due then s2.record true none r else s2.withhold r)
  else .next s1

/-- DRIFT_CLEARED (R282). -/
def execDriftCleared (g : Fin 16) (tx : Bool) (l : Fin 16) (pilot : BitVec 16) (s : State) : Host.Outcome State Fault Refusal :=
  let s1 := s.setF (lanePilot g tx l) pilot.toNat
  if s.getF (laneState g tx l) = 3 ∧ !s1.steep g ∧ s1.pilotDeficit g tx l ≤ Int.ofNat (s.getF (Csr.glvCtrl_LOCK_TOL g)) then
    .next (s1.setLane g tx l 2)
  else .next s1

/-- The record of a lost lock. -/
def State.unlockRecord (s : State) (g : Nat) (tx : Bool) (l : Nat) : State := s.recordD 0x040B 1 5 g [(1, dirCode tx), (1, l)]

/-- LANE_UNLOCKED (R282, R283): deficit above 3 × LOCK_TOL or above 6 dB. -/
def execLaneUnlocked (g : Fin 16) (tx : Bool) (l : Fin 16) (pilot : BitVec 16) (s : State) : Host.Outcome State Fault Refusal :=
  let st := s.getF (laneState g tx l)
  let s1 := s.setF (lanePilot g tx l) pilot.toNat
  let d := s1.pilotDeficit g tx l
  if (st = 2 ∨ st = 3) ∧ (Int.ofNat (3 * s.getF (Csr.glvCtrl_LOCK_TOL g)) < d ∨ 600 < d) then
    .next ((((s1.addF (Csr.glvCnt_UNLOCK g) 1).setLane g tx l 4).unlockRecord g tx l).retireStep g tx l)
  else .next s1

/-- A lane goes DARK (R282, R283, R299). -/
def State.laneDark (s : State) (g : Nat) (tx : Bool) (l : Nat) (lost : Bool) : State :=
  let st := s.getF (laneState g tx l)
  if st = 0 then s
  else
    let s1 := s.setLane g tx l 0
    let s2 := if lost && (decide (st = 2) || decide (st = 3)) then s1.unlockRecord g tx l else s1
    let s3 := s2.retireStep g tx l
    if tx then s3 else s3.darkCheck (portOfLane g l)

/-- LANE_DARK (R282): the power as measured. -/
def execLaneDark (g : Fin 16) (tx : Bool) (l : Fin 16) (power : BitVec 16) (s : State) : Host.Outcome State Fault Refusal :=
  let s1 := s.setF (lanePower g tx l) power.toNat
  if power.toNat = noReading ∨ signed 16 power.toNat < signed 16 (s.getF (Csr.glvCtrl_DARK_FLOOR g)) then
    .next (s1.laneDark g tx l true)
  else .next s1

/-- LANE_READMITTED (R283): 1 ms LOCKED after a LANE_RETIRE withdrawal. A later cause still holds the lane back. -/
def execLaneReadmitted (g : Fin 16) (tx : Bool) (l : Fin 16) (s : State) : Host.Outcome State Fault Refusal :=
  if s.getF (laneState g tx l) = 2 ∧ s.heldBack g tx l ≠ 0 then .next ((s.setHeldBack g tx l 2).offer g tx l) else .next s

/-- BOUND_SUSPENSION_END (R284): 1 ms after the last condition. -/
def execBoundSuspensionEnd (k : Fin 32) (s : State) : Host.Outcome State Fault Refusal :=
  if s.portSuspends k then .next s else .next ((s.setF (suspField k) 0).bound k)

/-! ## Software retirement and service (R282, R283, R290, R291) -/

/-- Software retirement of a lane takes a new value (R283). -/
def State.softStep (s : State) (g : Nat) (tx : Bool) (l : Nat) (was now : Bool) : State :=
  if !was && now then s.withdraw g tx l 3
  else if was && !now then s.offer g tx l
  else s

/-- GLV.RETIRE takes a new value. -/
def State.setRetire (s : State) (g v : Nat) : State :=
  let old := (s.rd (Csr.glvRetire g)).toNat
  let s1 := s.setFs [(Csr.glvRetire_TX g, v), (Csr.glvRetire_RX g, v / 65536)]
  bothDirs.foldl (fun t tx => (List.range 16).foldl (fun u l =>
    let i := if tx then l else 16 + l
    u.softStep g tx l (bitOf old i) (bitOf v i)) t) s1

/-- A write of GLV.RETIRE. -/
def glvRetireWrite (g : Nat) (s : State) (v m : Nat) : State := s.setRetire g ((s.store (Csr.glvRetire g) v m).rd (Csr.glvRetire g)).toNat

/-- SOFTWARE_RETIRE (R283): a write of GLV.RETIRE. -/
def execSoftwareRetire (port : Fin 4) (g : Fin 16) (w : AccWidth) (v : Word) (s : State) : Host.Outcome State Fault Refusal :=
  .next (s.hostWrite port (Csr.glvRetire g) w v (glvRetireWrite g))

/-- Every lane of glove `g` as (transmit, lane). -/
def gloveLanes : List (Bool × Nat) := bothDirs.flatMap (fun tx => (List.range 16).map (fun l => (tx, l)))

/-- The glove leaves service: every lane DARK, its heater at table(T) (R282). -/
def State.gloveOff (s : State) (g st : Nat) : State :=
  let s1 := gloveLanes.foldl (fun t x =>
    let b := t.ringRec g (ringOf x.1 x.2)
    let t1 := if ringOk b then t.setF (laneHeater g x.1 x.2) (heaterCode (ringTable b (t.gloveTemp g))) else t
    t1.laneDark g x.1 x.2 false) s
  s1.setF (Csr.glvStatus_STATE g) st

/-- CAL_REQ (R291): every admitted lane is retired by software, lit lanes are swept, the tables are to be rebuilt. -/
def State.calStart (s : State) (g : Nat) : State :=
  let was := (s.rd (Csr.glvRetire g)).toNat
  let mask := gloveLanes.foldl (fun m x => if s.flag (laneAdmit g x.1 x.2) then setBit m (ringOf x.1 x.2) else m) 0
  let s1 := (s.setRetire g (was ||| mask)).withOptics (fun o => { o with calSet := setCnt o.calSet g (mask - (mask &&& was)) })
  let s2 := gloveLanes.foldl (fun t x => if t.getF (laneState g x.1 x.2) = 0 then t else t.setLane g x.1 x.2 1) s1
  s2.setFs [(Csr.glvStatus_STATE g, 2), (Csr.glvCtrl_CAL_REQ g, 1)]

/-- A write of GLV.CTRL (R282, R291, R293). -/
def glvCtrlWrite (g : Nat) (s : State) (v m : Nat) : State :=
  let rate := Csr.glvCtrl_DRIFT_RATE g
  let s1 := s.storeBut (Csr.glvCtrl g) v m [rate, Csr.glvCtrl_CAL_REQ g]
  let nr := s.merged v m rate
  let s2 := if wroteF v m rate ≠ none ∧ nr ≤ 0x80 then s1.setF rate nr else s1
  let s3 := if !s2.flag (Csr.glvCtrl_EN g) then s2.gloveOff g 0 else s2
  if wrote1 v m (Csr.glvCtrl_CAL_REQ g) && s3.flag (Csr.glvCtrl_EN g) && !s3.flag (Csr.glvCtrl_CAL_REQ g) then s3.calStart g else s3

/-- GLOVE_ENABLE (R282): a write of GLV.CTRL. -/
def execGloveEnable (port : Fin 4) (g : Fin 16) (w : AccWidth) (v : Word) (s : State) : Host.Outcome State Fault Refusal :=
  .next (s.hostWrite port (Csr.glvCtrl g) w v (glvCtrlWrite g))

/-- CAL_REQ (R291): a write of GLV.CTRL. -/
def execCalReq (port : Fin 4) (g : Fin 16) (w : AccWidth) (v : Word) (s : State) : Host.Outcome State Fault Refusal :=
  .next (s.hostWrite port (Csr.glvCtrl g) w v (glvCtrlWrite g))

/-! ## Monitors and loss location (R276 to R278) -/

/-- The second monitor of a stage that has two (R276): the module's output fibre, the fibre tap, the pilot amplitude. -/
def secondMonitor (stage : Nat) : Option Nat :=
  match stage with
  | 1 => some 6
  | 3 => some 7
  | 5 => some 0
  | _ => none

/-- A monitor's present reading along a lane. -/
def State.monitor (s : State) (k : Nat) (tx : Bool) (stage i : Nat) : Nat :=
  let g := gloveOf k
  let l := gloveLane k i
  let far := rdg s.optics.far (monKey k tx stage i)
  if tx then
    match stage with
    | 1 => s.getF (Csr.elsModWl_POWER (g / 8) i)
    | 2 => s.getF (Csr.glvTxMon_POWER g l)
    | 3 => s.getF (Csr.glvTxMon_PILOT g l)
    | 6 => s.getF (Csr.elsModOut_POWER (g / 8) (k % 16))
    | 7 => s.getF (Csr.glvFibMon_POWER g (k % 2))
    | _ => far
  else
    match stage with
    | 4 => s.getF (Csr.glvFibMon_POWER g (2 + k % 2))
    | 5 => s.getF (Csr.glvRxMon_POWER g l)
    | 0 => s.getF (Csr.glvRxMon_PILOT g l)
    | _ => far

/-- A monitor's deficit: reference minus reading; 0 where either is missing. -/
def State.monDeficit (s : State) (k : Nat) (tx : Bool) (stage i : Nat) : Int :=
  let v := s.monitor k tx stage i
  let r := rdg s.optics.refs (monKey k tx stage i)
  if v = noReading ∨ r = noReading then 0 else signed 16 r - signed 16 v

/-- The deficit of a stage: the larger of its monitors' (DESIGN CHOICE, notes/assumptions/86.md). -/
def State.deficit (s : State) (k : Nat) (tx : Bool) (stage i : Nat) : Int :=
  match secondMonitor stage with
  | none => s.monDeficit k tx stage i
  | some x => max (s.monDeficit k tx stage i) (s.monDeficit k tx x i)

/-- Every wavelength of a fibre is blamed on the same stage (R278). -/
def sameStage (l : List (Option Nat)) : Bool :=
  match l with
  | some x :: r => r.all (fun y => decide (y = some x))
  | _ => false

/-- The first stage whose deficit exceeds that of the stage before by LOC_STEP, with the step (R278). -/
def State.blame (s : State) (k : Nat) (tx : Bool) (i : Nat) : Option (Nat × Int) :=
  let step := Int.ofNat (10 * s.getF (Csr.glvCtrl_LOC_STEP (gloveOf k)))
  let d (st : Nat) : Int := if st = 0 then 0 else s.deficit k tx st i
  ((List.range 5).find? (fun j => decide (step ≤ d (j + 1) - d j))).map (fun j => (j + 1, d (j + 1) - d j))

/-- A deficit of the lane has risen by LOC_STEP since the last location. -/
def State.hasRisen (s : State) (k : Nat) (tx : Bool) (i : Nat) : Bool :=
  let step := Int.ofNat (10 * s.getF (Csr.glvCtrl_LOC_STEP (gloveOf k)))
  (List.range 5).any (fun j =>
    decide (step ≤ s.deficit k tx (j + 1) i - signed 16 (cnt s.optics.last (monKey k tx (j + 1) i))))

/-- Report a location (R278): GLV.LOSS and LOSS_LOCATED. -/
def State.located (s : State) (k : Nat) (tx : Bool) (i stage : Nat) (all : Bool) (step : Int) : State :=
  let g := gloveOf k
  let s1 := s.setFs [(Csr.glvLoss_STAGE g, stage), (Csr.glvLoss_DIR g, dirCode tx), (Csr.glvLoss_FIBRE g, k % 2),
    (Csr.glvLoss_WL g, i), (Csr.glvLoss_ALL_WL g, all.toNat), (Csr.glvLoss_DEFICIT g, min (step.toNat / 10) 255), (Csr.glvLoss_VALID g, 1)]
  s1.recordD 0x0408 0 5 g [(8, (s1.rd (Csr.glvLoss g)).toNat)]

/-- Locate losses on one direction of port `k`; `fresh`: the far end's readings came within 5 ms. -/
def State.locate (s : State) (k : Nat) (tx fresh : Bool) : State :=
  let risen := (List.range 8).filter (fun i => s.hasRisen k tx i)
  let stageOf (b : Nat × Int) : Nat := if !fresh && decide (4 ≤ b.1) then 6 else b.1
  let whole := sameStage ((List.range 8).map (fun i => (s.blame k tx i).map (fun b => b.1)))
  let s1 := (if whole then risen.take 1 else risen).foldl (fun t i => match s.blame k tx i with
    | some b => t.located k tx i (stageOf b) whole b.2
    | none => t) s
  risen.foldl (fun t i => (List.range 5).foldl (fun u j =>
    u.withOptics (fun o => { o with last := setCnt o.last (monKey k tx (j + 1) i) (toSigned 16 (s.deficit k tx (j + 1) i)) })) t) s1

/-- MONITOR_EXCHANGE (R277, R278): the fibre taps of port `k` are read, this device's readings go to the far end of the port as a
message of TC0, and losses are located. `fresh`: the far end's readings came within 5 ms. -/
def execMonitorExchange (k : Fin 32) (txTap rxTap : BitVec 16) (fresh : Bool) (s : State) : Host.Outcome State Fault Refusal :=
  let g := gloveOf k
  let s0 := s.setFs [(Csr.glvFibMon_POWER g (k.val % 2), txTap.toNat), (Csr.glvFibMon_POWER g (2 + k.val % 2), rxTap.toNat)]
  let own := (exchangeKeys true).flatMap (fun x => (List.range 8).map (fun i => s0.monitor k x.1 x.2 i))
  let s1 := if s.niSt k = 4 then
      (s0.withOptics (fun o => { o with sent := o.sent ++ [(k.val, own)] })).sendMsg k 0 (monitorMessage own) false none
    else s0
  if s.flag (Csr.glvCtrl_TONE_EN g) then .next ((s1.locate k true fresh).locate k false fresh) else .next s1

/-! ## Bring-up (R290, R291) -/

/-- Step 5 of a bring-up finds a deficit of LOC_STEP or more at stage 1 or 2 of a transmit lane: the stage and the deficit. -/
def State.bringupLoss (s : State) (k i : Nat) : Option (Nat × Int) :=
  let step := Int.ofNat (10 * s.getF (Csr.glvCtrl_LOC_STEP (gloveOf k)))
  ([1, 2].find? (fun j => decide (step ≤ s.deficit k true j i))).map (fun j => (j, s.deficit k true j i))

/-- The losses found on transmit port `k` are recorded: one record for a whole fibre that has lost at one stage. -/
def State.checkFibre (s : State) (k : Nat) : State :=
  let found := (List.range 8).map (fun i => s.bringupLoss k i)
  let whole := sameStage (found.map (fun x => x.map (fun b => b.1)))
  (if whole then [0] else List.range 8).foldl (fun t i => match s.bringupLoss k i with
    | some b => t.located k true i b.1 whole b.2
    | none => t) s

/-- GLOVE_BRINGUP (R290, R291): the glove's bring-up makes its next step, or fails. From POWERUP it goes on once its module answers,
is ready and has light (steps 1 to 4), with the check of step 5. The end of a recalibration clears CAL_REQ and the retirement
that it set. -/
def execGloveBringup (g : Fin 16) (ok : Bool) (s : State) : Host.Outcome State Fault Refusal :=
  let st := s.getF (Csr.glvStatus_STATE g)
  let m := g.val / 8
  if !s.flag (Csr.glvCtrl_EN g) ∨ !s.service ∨ 3 ≤ st then .next s
  else if !ok then .next (s.gloveOff g 4)
  else if st = 2 then
    let s1 := s.setFs [(Csr.glvStatus_STATE g, 3), (Csr.glvCtrl_CAL_REQ g, 0)]
    let mask := cnt s.optics.calSet g
    let now := (s1.rd (Csr.glvRetire g)).toNat
    .next ((s1.withOptics (fun o => { o with calSet := setCnt o.calSet g 0 })).setRetire g (now - (now &&& mask)))
  else if st = 0 then .next (s.setF (Csr.glvStatus_STATE g) 1)
  else if s.flag (Csr.elsStatus_PRESENT m) && s.flag (Csr.elsStatus_READY m) && s.flag (Csr.elsStatus_LIGHT m) then
    .next (((s.setF (Csr.glvStatus_STATE g) 2).checkFibre (2 * g.val)).checkFibre (2 * g.val + 1))
  else .next s

end Sys2Proof.Machine
end

