-- ==== Sys2Proof/Machine/Pmu.lean ====
section
/-! DEFINITION. Performance counters, top-down slots, aggregates and the sample writer (R401 to R417). -/

namespace Sys2Proof.Machine

/-! ## Counters: block 0 classroom, 1 NI, 2 memory controller, 3 partition aggregate (R401) -/

/-- Counters and units of a block. -/
def ctrCount (b : Nat) : Nat := if b = 0 then 16 else 8
def ctrUnits (b : Nat) : Nat :=
  match b with
  | 0 => 64
  | 1 => 32
  | 2 => 48
  | _ => 8

/-- The counter exists. -/
def ctrExists (b u k : Nat) : Bool := decide (b < 4) && decide (u < ctrUnits b) && decide (k < ctrCount b)

/-- Counter `k` of unit `u`. -/
def ctrValue (b u k : Nat) : Fld :=
  match b with
  | 0 => Csr.clsPmc_VALUE u k
  | 1 => Csr.niPmc_VALUE u k
  | 2 => Csr.memPmc_VALUE u k
  | _ => Csr.pmuPartAgg_VALUE u k

/-- Fields of its select register: EVENT, EN, CHAIN, and the field that qualifies an event. -/
def ctrEvent (b u k : Nat) : Fld :=
  match b with
  | 0 => Csr.clsPmcSel_EVENT u k
  | 1 => Csr.niPmcSel_EVENT u k
  | 2 => Csr.memPmcSel_EVENT u k
  | _ => Csr.pmuPartAggSel_EVENT u k
def ctrEn (b u k : Nat) : Fld :=
  match b with
  | 0 => Csr.clsPmcSel_EN u k
  | 1 => Csr.niPmcSel_EN u k
  | 2 => Csr.memPmcSel_EN u k
  | _ => Csr.pmuPartAggSel_EN u k
def ctrChain (b u k : Nat) : Fld :=
  match b with
  | 0 => Csr.clsPmcSel_CHAIN u k
  | 1 => Csr.niPmcSel_CHAIN u k
  | 2 => Csr.memPmcSel_CHAIN u k
  | _ => Csr.pmuPartAggSel_CHAIN u k
def ctrQual (b u k : Nat) : Fld :=
  match b with
  | 0 => Csr.clsPmcSel_QUEUE u k
  | 1 => Csr.niPmcSel_CLASS u k
  | 2 => Csr.memPmcSel_PART u k
  | _ => Csr.pmuPartAggSel_QUEUE u k

/-- The OVF field of a unit. -/
def ctrOvf (b u : Nat) : Fld :=
  match b with
  | 0 => Csr.clsPmcOvf_OVF u
  | 1 => Csr.niPmcOvf_OVF u
  | 2 => Csr.memPmcOvf_OVF u
  | _ => Csr.pmuPartAggOvf_OVF u

/-- The address is that of an OVF register. -/
def isOvf (a : Nat) : Bool := (List.range 4).any (fun b => (List.range (ctrUnits b)).any (fun u => decide (a = (ctrOvf b u).addr)))

/-- PMU.STATUS.OVF_ANY shows whether some OVF bit is set. -/
def State.showOvf (s : State) : State :=
  s.setF Csr.pmuStatus_OVF_ANY (s.csr.any (fun e => isOvf e.1 && decide (e.2 ≠ 0))).toNat

/-- The device is in NORMAL mode. -/
def State.normalMode (s : State) : Bool := decide (s.getF Csr.pmuStatus_MODE = 0)

/-- The pair with even counter `2 (k / 2)` is chained now (R403, R405). -/
def State.chained (s : State) (b u k : Nat) : Bool := s.normalMode && s.flag (ctrChain b u (2 * (k / 2)))

/-- A counter wraps or saturates: its OVF bit (R404, R405). -/
def State.setOvf (s : State) (b u k : Nat) : State := s.setF (ctrOvf b u) (setBit (s.getF (ctrOvf b u)) k)

/-- One counter that is not the even one of a chained pair rises by `n` (R404, R405). -/
def State.countPlain (s : State) (b u k n : Nat) : State :=
  let v := s.getF (ctrValue b u k) + n
  if s.normalMode then
    let s1 := s.setF (ctrValue b u k) v
    if v < 2 ^ 48 then s1
    else
      let s2 := s1.setOvf b u k
      if s2.flag Csr.pmuCtrl_FRZ_ON_OVF then s2.setF Csr.pmuCtrl_FREEZE 1 else s2
  else
    let s1 := s.setF (ctrValue b u k) (min v (2 ^ 48 - 1))
    if 0 < n ∧ 2 ^ 48 - 1 ≤ v then s1.setOvf b u k else s1

/-- Counter `k` rises by `n` (R402, R403). -/
def State.countUp (s : State) (b u k n : Nat) : State :=
  if s.chained b u k && decide (k % 2 = 0) then
    let v := s.getF (ctrValue b u k) + n
    let s1 := s.setF (ctrValue b u k) v
    if v < 2 ^ 48 then s1 else s1.countPlain b u (k + 1) (v / 2 ^ 48)
  else s.countPlain b u k n

/-- Every enabled counter of a unit rises by what `amount` gives for it; nothing counts under FREEZE (R406). -/
def State.countAll (s : State) (b u : Nat) (amount : Nat → Nat) : State :=
  if s.flag Csr.pmuCtrl_FREEZE then s
  else ((List.range (ctrCount b)).foldl (fun t k =>
    if s.flag (ctrEn b u k) && !(s.chained b u k && decide (k % 2 = 1)) then t.countUp b u k (amount k) else t) s).showOvf

/-! ## Events (R407 to R410) -/

/-- What happened in a cycle beside what the state shows: event code, qualifier (queue, class or partition), amount. -/
abbrev Amounts := List (Nat × Nat × Nat)

/-- The amounts of an event, of one qualifier or of all. -/
def Amounts.total (l : Amounts) (ev : Nat) (qual : Option Nat) : Nat :=
  (l.filter (fun x => decide (x.1 = ev) && (match qual with
    | some q => decide (x.2.1 = q)
    | none => true))).foldl (fun n x => n + x.2.2) 0

/-- A queue by its number. -/
def queueNo (q : Nat) : Queue :=
  match q with
  | 0 => .t
  | 1 => .v
  | 2 => .m
  | _ => .s

/-- The slot of queue `q` in a cycle (R407): 0 RETIRED, 1 WASTED, 2 STARVED_FRONT, 3 STARVED_BACK, in the order of their event
codes. `adv`: the engine advances; `empty`: it spends the cycle on an instruction with an EMPTY operand. -/
def State.slotClass (s : State) (c q : Nat) (adv empty : Bool) : Nat :=
  let ps := s.getF (Csr.clsArrStat_PSTATE c)
  let r := s.room c
  if adv then 0
  else if (decide (q = 0) && (decide (ps = 4) || decide (ps = 5))) || (decide (q < 2) && empty) then 1
  else if (r.queue (queueNo q)).isEmpty && (r.flight (queueNo q)).isEmpty then 2
  else 3

/-- The head of a queue waits for its condition (HEAD_WAIT_COND). -/
def State.waitsCond (s : State) (c q : Nat) : Bool :=
  (s.headWaits c (queueNo q)).isSome || (decide (q = 3) && (s.room c).sf.any (fun f => decide (f.fence ≠ (0, 0, 0, 0))))

/-- A classroom event with its queue (R408). -/
def State.clsAmount (s : State) (c ev q : Nat) (adv empty : Nat) (l : Amounts) : Nat :=
  let live := decide (s.getF (Csr.clsStatus_STATE c) = 2) || decide (s.getF (Csr.clsStatus_STATE c) = 3)
  match ev with
  | 0 => 0
  | 1 => 1
  | 2 | 3 | 4 | 5 => (live && decide (s.slotClass c q (bitOf adv q) (bitOf empty q) + 2 = ev)).toNat
  | 7 => (s.waitsCond c q).toNat
  | 0x11 => (decide (s.getF (Csr.clsArrStat_PSTATE c) = 4)).toNat
  | 0x12 => (s.room c).waitArrays.toNat
  | 0x13 => s.getF (Csr.clsArrStat_LOAD_BUSY c)
  | 0x31 => ((s.room c).sat.head?.any (fun x => decide (x.stage = SatStage.fence))).toNat
  | 0x32 => (decide (4 ≤ (s.room c).sat.length)).toNat
  | 6 | 8 | 9 | 0x0A => l.total ev (some q)
  | _ => l.total ev none

/-- An NI event with its class (R409). -/
def State.niAmount (s : State) (k ev cls : Nat) (l : Amounts) : Nat :=
  match ev with
  | 1 => 1
  | 0x0B => (s.early.filter (fun c => decide (c.ni = k))).length
  | 0x0E => (setBits (s.getF (Csr.niStatus_TX_ADMIT k)) 8).length
  | 0x0F => 1 - s.getF (Csr.niStatus_BOUND k)
  | 2 | 3 | 5 => l.total ev (some cls)
  | _ => l.total ev none

/-- A memory controller event, of one partition or of all (R410). -/
def State.memAmount (s : State) (m ev : Nat) (part : Option Nat) (l : Amounts) : Nat :=
  let q := s.sorters.get (fun _ => Sorter.empty) m
  match ev with
  | 1 => 1
  | 8 => (decide (64 ≤ q.wbuf.length)).toNat
  | 9 => (q.waiting.filter (fun x => match part with
    | some p => decide (x.part = p)
    | none => true)).length
  | 2 | 3 | 4 | 6 | 7 | 0x0A => l.total ev part
  | _ => l.total ev none

/-- CLS.ARR_FILL and CLS.OB_CONFLICT of a cycle (R110, R111, R116). -/
def State.arrayCounters (s : State) (c : Nat) (l : Amounts) : State :=
  ((s.addF (Csr.clsArrFill_FILL_CYCLES c) (decide (s.getF (Csr.clsArrStat_PSTATE c) = 4)).toNat).addF
    (Csr.clsObConflict_T_STALL c) (l.total 0x15 none)).addF (Csr.clsObConflict_OTHER_DENY c) (l.total 0x16 none)

/-- PMC_CYCLE (R402): a clock cycle of unit `u` of a block. `adv` and `empty` say of each queue of a classroom whether its engine
advances and whether it spends the cycle on an EMPTY operand; `amounts` are what the state does not show. -/
def execPmcCycle (b : Fin 3) (u : Fin 64) (adv empty : BitVec 4) (amounts : List (Nat × Nat × Nat)) (s : State) :
    Host.Outcome State Fault Refusal :=
  if ctrUnits b ≤ u.val then .next s
  else
    let ev (k : Nat) : Nat := s.getF (ctrEvent b u k)
    let q (k : Nat) : Nat := s.getF (ctrQual b u k)
    match b.val with
    | 0 => .next ((s.countAll 0 u (fun k => s.clsAmount u (ev k) (q k) adv.toNat empty.toNat amounts)).arrayCounters u amounts)
    | 1 => .next (s.countAll 1 u (fun k => s.niAmount u (ev k) (q k) amounts))
    | _ => .next (s.countAll 2 u (fun k =>
        s.memAmount u (ev k) (if s.flag (Csr.memPmcSel_PFILT u k) then some (q k) else none) amounts))

/-- Classroom and NI events that QUEUE or CLASS qualifies. -/
def qualified (ni : Bool) (ev : Nat) : Bool :=
  if ni then decide (ev = 2) || decide (ev = 3) || decide (ev = 5) else decide (2 ≤ ev) && decide (ev ≤ 0x0A)

/-- AGGREGATE_UPDATE (R411): increments that classrooms, or NIs (`ni`), have made: unit, event, queue or class, amount. -/
def execAggregateUpdate (p : Fin 8) (ni : Bool) (incs : List (Nat × Nat × Nat × Nat)) (s : State) : Host.Outcome State Fault Refusal :=
  let mask := if ni then s.getF (Csr.sysPartNi_MASK p) else s.getF (Csr.sysPartCls_MASK p)
  let mine := incs.filter (fun x => bitOf mask x.1)
  let amount (k : Nat) : Nat :=
    let ev := s.getF (ctrEvent 3 p k)
    if decide (s.getF (Csr.pmuPartAggSel_SRC p k) = ni.toNat) then
      Amounts.total (mine.map (fun x => x.2)) ev (if qualified ni ev then some (s.getF (ctrQual 3 p k)) else none)
    else 0
  .next (s.countAll 3 p amount)

/-! ## Reading and writing counters (R402, R403, R406) -/

/-- The counter at an address. -/
def ctrAt (a : Nat) : Option (Nat × Nat × Nat) :=
  let f (b base unit off n : Nat) : Option (Nat × Nat × Nat) :=
    if decide (base ≤ a) && decide ((a - base) / unit < ctrUnits b) && decide (off ≤ (a - base) % unit)
        && decide ((a - base) % unit < off + 8 * n) then some (b, (a - base) / unit, ((a - base) % unit - off) / 8)
    else none
  (((f 0 0x4000000 0x100000 0xF00 16).or (f 1 0x9000000 0x20000 0x400 8)).or (f 2 0x8000000 0x10000 0x100 8)).or
    (f 3 0x501000 0x100 0x80 8)

/-- A read of a counter (R403). -/
def State.readCtr (s : State) (b u k : Nat) : State × Word :=
  let f := ctrValue b u k
  let v := BitVec.ofNat 64 (s.getF f)
  if s.chained b u k then
    if k % 2 = 0 then
      let o := ctrValue b u (k + 1)
      ({ s with latches := s.latches.put (fun _ => 0) o.addr (s.getF o) }, v)
    else (s, BitVec.ofNat 64 (s.latches.get (fun _ => 0) f.addr))
  else (s, v)

/-- What a read of any register does: counters have their latches, every other register reads by its field types. -/
def State.readReg (s : State) (a m : Nat) : State × Word :=
  match ctrAt a with
  | some x => s.readCtr x.1 x.2.1 x.2.2
  | none => s.fetch a m

/-- CHAINED_COUNTER_READ (R403): a read of counter `k` of a unit. -/
def execChainedCounterRead (port b : Fin 4) (u : Fin 64) (k : Fin 16) (w : AccWidth) (s : State) : Host.Outcome State Fault Refusal :=
  if ctrExists b u k then .next (s.hostRead port (ctrValue b u k).addr w (fun t _ => t.readCtr b u k)) else .next s

/-- RC_READ (R8, R10): a read of the register with CSR index `r`. -/
def execRcRead (port : Fin 4) (r : Fin 33554432) (w : AccWidth) (s : State) : Host.Outcome State Fault Refusal :=
  .next (s.hostRead port (regAddr r) w (fun t m => t.readReg (regAddr r) m))

/-- COUNTER_WRITE (R402, R403): a write of counter `k` of a unit. -/
def execCounterWrite (port b : Fin 4) (u : Fin 64) (k : Fin 16) (w : AccWidth) (v : Word) (s : State) : Host.Outcome State Fault Refusal :=
  if ctrExists b u k then
    .next (s.hostWrite port (ctrValue b u k).addr w v (fun t x m => t.store (ctrValue b u k).addr x m))
  else .next s

/-- Every counter and every OVF bit is 0 (R406). -/
def State.clearCounters (s : State) : State :=
  { s with csr := s.csr.filter (fun e => (ctrAt e.1).isNone && !isOvf e.1) }.showOvf

/-- A write of PMU.CTRL (R406, R417). -/
def pmuCtrlWrite (s : State) (v m : Nat) : State :=
  let s1 := s.storeBut Csr.pmuCtrl v m [Csr.pmuCtrl_CLR_ALL]
  if wrote1 v m Csr.pmuCtrl_CLR_ALL then s1.clearCounters else s1

/-- PMU_FREEZE (R406): a write of PMU.CTRL. -/
def execPmuFreeze (port : Fin 4) (w : AccWidth) (v : Word) (s : State) : Host.Outcome State Fault Refusal :=
  .next (s.hostWrite port Csr.pmuCtrl w v pmuCtrlWrite)

/-- CLR_ALL (R406): a write of PMU.CTRL. -/
def execClrAll (port : Fin 4) (w : AccWidth) (v : Word) (s : State) : Host.Outcome State Fault Refusal :=
  .next (s.hostWrite port Csr.pmuCtrl w v pmuCtrlWrite)

/-- Listed event codes: classroom (R408), NI (R409), memory controller (R410). -/
def clsEventOk (e : Nat) : Bool :=
  decide (e ≤ 0x0A) || (decide (0x10 ≤ e) && decide (e ≤ 0x16)) || (decide (0x20 ≤ e) && decide (e ≤ 0x28))
    || (decide (0x30 ≤ e) && decide (e ≤ 0x33)) || (decide (0x38 ≤ e) && decide (e ≤ 0x3A))
def niEventOk (e : Nat) : Bool := decide (1 ≤ e) && decide (e ≤ 0x0F)
def memEventOk (e : Nat) : Bool := decide (1 ≤ e) && decide (e ≤ 0x0D)

/-- A write of the select register of counter `k` (R408, R416, R417): an event code that is not listed leaves EVENT, and
CHAIN of an odd counter reads 0. -/
def pmcSelWrite (b u k : Nat) (s : State) (v m : Nat) : State :=
  let a := (ctrEvent b u k).addr
  let s1 := s.storeBut a v m ([ctrEvent b u k] ++ (if k % 2 = 1 then [ctrChain b u k] else []))
  let e := s.merged v m (ctrEvent b u k)
  let ok := match b with
    | 0 => clsEventOk e
    | 1 => niEventOk e
    | 2 => memEventOk e
    | _ => if s1.flag (Csr.pmuPartAggSel_SRC u k) then niEventOk e else clsEventOk e
  if ok then s1.setF (ctrEvent b u k) e else s1

/-! ## The sample writer (R414) -/

/-- A sample is dropped. -/
def State.dropSample (s : State) (x : Sample) : State :=
  (s.addF (Csr.pmuPartSbufStat_LOST x.part) 1).addF (Csr.clsPsampStat_DROPPED x.cls) 1

/-- A sample write may go to an address: inside an object, not RDONLY, not poisoned. -/
def State.sampleFits (s : State) (p dva : Nat) : Bool :=
  match s.place p dva with
  | .tile tk _ ro => !ro && !(s.tile tk).poison
  | _ => false

/-- SAMPLE_WRITE (R367, R413, R414): the oldest sample of a die; a tile that moves or is write-protected stalls it. -/
def execSampleWrite (die : Fin 2) (s : State) : Host.Outcome State Fault Refusal :=
  match s.samples.find? (fun x => decide (x.cls / 32 = die.val)) with
  | none => .next s
  | some x =>
    let p := x.part
    let wr := s.getF (Csr.pmuPartSbufWr_INDEX p)
    let n := 2 ^ s.getF (Csr.pmuPartSbufBase_LOG2 p)
    let t : State := { s with samples := s.samples.erase x }
    let dva := s.getF (Csr.pmuPartSbufBase_DVA p) + 32 * (wr % n)
    if n ≤ (wr + 2 ^ 32 - s.getF (Csr.pmuPartSbufRd_INDEX p)) % 2 ^ 32 then .next (t.dropSample x)
    else if !s.sampleFits p dva then .next ((t.addF (Csr.pmuPartSbufStat_LOST p) 1).setF (Csr.pmuPartSbufStat_ERR p) 1)
    else if s.writeWaits p dva then .next s
    else .next (((t.writeAll p (bytesAt dva x.bytes)).setF (Csr.pmuPartSbufWr_INDEX p) (wr + 1)).addF (Csr.clsPsampStat_WRITTEN x.cls) 1)

/-- A write of CLS.PSAMP_CTRL (R416): SEL 3 leaves the field; ignored while the classroom runs. -/
def psampWrite (c : Nat) (s : State) (v m : Nat) : State :=
  let st := s.getF (Csr.clsStatus_STATE c)
  if 1 ≤ st ∧ st ≤ 3 then s.setF (Csr.clsStatus_WR_IGN c) 1
  else if s.merged v m (Csr.clsPsampCtrl_SEL c) = 3 then s.storeBut (Csr.clsPsampCtrl c) v m [Csr.clsPsampCtrl_SEL c]
  else s.store (Csr.clsPsampCtrl c) v m

end Sys2Proof.Machine
end

