-- ==== Sys2Proof/Machine/Laser.lean ====
section
/-! DEFINITION. The laser modules: interlock, faults, polling, fade, the spare switch, commissioning (R272 to R275,
R286 to R292, R479). -/

namespace Sys2Proof.Machine

/-! ## Which lanes a module feeds (R270) -/

/-- Output fibre `f` of module `m`: glove and port. -/
def fibreGlove (m f : Nat) : Nat := 8 * m + f / 2
def fibrePort (m f : Nat) : Nat := 16 * m + f

/-- The 16 transmit lanes on wavelength `w` of module `m`: glove and lane, by output fibre. -/
def waveLanes (m w : Nat) : List (Nat × Nat) := (List.range 16).map (fun f => (fibreGlove m f, 8 * (f % 2) + w))

/-- Every transmit lane of module `m`. -/
def moduleLanes (m : Nat) : List (Nat × Nat) := (List.range 8).flatMap (fun w => waveLanes m w)

/-- Key of a source. -/
def srcKey (m w src : Nat) : Nat := m * 16 + 2 * w + src

/-- Which source of a wavelength has failed. -/
def failedFld (m w src : Nat) : Fld := if src = 0 then Csr.elsModWl_PRIMARY_FAILED m w else Csr.elsModWl_SPARE_FAILED m w

/-- The active source: 0 primary, 1 spare. -/
def State.activeSrc (s : State) (m w : Nat) : Nat := s.getF (Csr.elsModWl_ACTIVE m w)

/-- ELS.MOD[m].SW.STATE: 0 IDLE, 1 RETIRING, 2 WARMING, 3 CROSSOVER, 4 RELOCK, 5 READMIT. -/
def State.swSt (s : State) (m : Nat) : Nat := s.getF (Csr.elsModSw_STATE m)

/-! ## What the device writes to a module (R273, R288) -/

/-- A transfer on the I3C bus of a module. -/
def State.i3c (s : State) (op : BusOp) : State := s.withOptics (fun o => { o with bus := o.bus ++ [op] })

/-- The mask with bit `w` as given. -/
def putBit (v w : Nat) (on : Bool) : Nat := if on then setBit v w else clearBit v w

/-- WARM: the spare of wavelength `w` is warmed, or cooled. -/
def State.warmSpare (s : State) (m w : Nat) (on : Bool) : State :=
  let v := putBit (cnt s.optics.warm m) w on
  (s.withOptics (fun o => { o with warm := setCnt o.warm m v })).i3c (.write m 0x61 v)

/-- SEL names the source of wavelength `w`, then RAMP starts the crossover to it. -/
def State.rampTo (s : State) (m w src : Nat) : State :=
  let v := putBit (cnt s.optics.sel m) w (decide (src = 1))
  ((s.withOptics (fun o => { o with sel := setCnt o.sel m v })).i3c (.write m 0x60 v)).i3c (.write m 0x62 (2 ^ w))

/-- The optical service starts (R273, R290 step 1): each module is given its dynamic address. -/
def State.startBuses (s : State) : State := (s.i3c (.setdasa 0 0x5A 0x10)).i3c (.setdasa 1 0x5A 0x10)

/-! ## Interlock (R274, R479) -/

/-- The receptacles that must be present for the light of module `m`: its laser input and two data receptacles. -/
def moduleReceptacles (m : Nat) : List Nat := [4 + m, 2 * m, 2 * m + 1]

/-- Receptacle `r` reports present. -/
def State.receptacle (s : State) (r : Nat) : Bool := bitOf (s.getF Csr.elsStatus_PRES) r

/-- Source `src` of wavelength `w` is the active one: its P0, its last reading, no readings to judge its fade by yet. -/
def State.setActive (s : State) (m w src : Nat) : State :=
  (s.setFs [(Csr.elsModWl_ACTIVE m w, src), (Csr.elsModWl_P0 m w, rdg s.optics.p0 (srcKey m w src)),
    (Csr.elsModWl_POWER m w, rdg s.optics.src (srcKey m w src)), (Csr.elsModWl_FADE m w, 0)]).withOptics
    (fun o => { o with hist := o.hist.put (fun _ => []) (m * 8 + w) [] })

/-- SW.ELAPSED: the time in the current switch in units of 0.1 ms, 40,000 of CLK.TIME (R294, R423). -/
def State.showElapsed (s : State) (m : Nat) : State :=
  let d := ((s.rd Csr.clkTime).toNat + 2 ^ 64 - cnt s.optics.started m) % 2 ^ 64
  s.setF (Csr.elsModSw_ELAPSED m) (min (d / 40000) 65535)

/-- The switch of module `m` moves to a state. -/
def State.swTo (s : State) (m st : Nat) : State := (s.showElapsed m).setF (Csr.elsModSw_STATE m) st

/-- A switch is abandoned (R288): WL shows the source that the module reports, in the midst of a crossover either of the two (a
free choice); its lanes stay withdrawn. -/
def State.abandonSwitch (s : State) (m : Nat) : State :=
  if s.swSt m = 0 then s
  else
    let w := s.getF (Csr.elsModSw_WL m)
    let s1 := if s.swSt m = 3 then
        let t : State := { s with drawn := s.drawn + 1 }
        if Config.freeBool s.drawn 0 then t.setActive m w (1 - s.activeSrc m w) else t
      else s
    (s1.swTo m 0).addF (Csr.elsModSw_ABANDONED m) 1

/-- The interlock of module `m` opens for a cause: its light goes, its transmit lanes go DARK. -/
def State.openInterlock (s : State) (m cause : Nat) : State :=
  if !s.flag (Csr.elsStatus_LIGHT m) then s
  else
    let s1 := (s.setFs [(Csr.elsStatus_LIGHT m, 0), (Csr.elsStatus_OPEN_CAUSE m, cause)]).recordD 0x0402 1 6 m [(1, cause)]
    (moduleLanes m).foldl (fun t x => t.laneDark x.1 true x.2 false) (s1.abandonSwitch m)

/-- LIGHT_EN[m] takes a value. -/
def State.setLightEn (s : State) (m : Nat) (on : Bool) : State :=
  let v := s.getF Csr.elsCtrl_LIGHT_EN
  s.setF Csr.elsCtrl_LIGHT_EN (if on then setBit v m else clearBit v m)

/-- Light of module `m` is permitted: no cause is left. -/
def State.lightUp (s : State) (m : Nat) : State := s.setFs [(Csr.elsStatus_LIGHT m, 1), (Csr.elsStatus_OPEN_CAUSE m, 0)]

/-- Boot firmware raises the interlock after cause 1, once the module answers and is ready (R290 steps 1 and 3), the receptacles are
present and LSFLTmn is high (R274). -/
def State.bootLight (s : State) (m : Nat) : State :=
  if s.service && decide (s.getF (Csr.elsStatus_OPEN_CAUSE m) = 1) && !s.flag (Csr.elsStatus_LIGHT m)
      && s.flag (Csr.elsStatus_PRESENT m) && s.flag (Csr.elsStatus_READY m)
      && (moduleReceptacles m).all (fun r => s.receptacle r) && !s.flag (Csr.elsStatus_FAULT m) then
    (s.setLightEn m true).lightUp m
  else s

/-- The cause that holds the interlock of module `m` open now: LIGHT_EN, laser input, data receptacle (R274). -/
def State.openCause (s : State) (m : Nat) : Option Nat :=
  if !bitOf (s.getF Csr.elsCtrl_LIGHT_EN) m then some 2
  else if !s.receptacle (4 + m) then some 3
  else if !s.receptacle (2 * m) ∨ !s.receptacle (2 * m + 1) then some 4
  else none

/-- INTERLOCK_OPEN (R274): a cause drives INTLKmn low. -/
def execInterlockOpen (m : Fin 2) (s : State) : Host.Outcome State Fault Refusal :=
  match s.openCause m with
  | none => .next s
  | some c => .next ((s.openInterlock m c).setLightEn m false)

/-- RECEPTACLE_OPEN (R274, R288, R479): receptacles 0 to 3 hold the data fibres, 4 and 5 the laser inputs. -/
def execReceptacleOpen (r : Fin 6) (s : State) : Host.Outcome State Fault Refusal :=
  let m := if r.val < 4 then r.val / 2 else r.val - 4
  let s1 := s.setF Csr.elsStatus_PRES (clearBit (s.getF Csr.elsStatus_PRES) r)
  .next ((s1.openInterlock m (if r.val < 4 then 4 else 3)).setLightEn m false)

/-- RECEPTACLE_PRESENT (R274, R479). -/
def execReceptaclePresent (r : Fin 6) (s : State) : Host.Outcome State Fault Refusal :=
  let m := if r.val < 4 then r.val / 2 else r.val - 4
  .next ((s.setF Csr.elsStatus_PRES (setBit (s.getF Csr.elsStatus_PRES) r)).bootLight m)

/-! ## Switches: starting and pending (R287, R288) -/

/-- A switch of `w` to source `src` becomes pending. -/
def State.askSwitch (s : State) (m w src : Nat) (commanded : Bool) : State :=
  (s.setF (Csr.elsModSw_PENDING m) (setBit (s.getF (Csr.elsModSw_PENDING m)) w)).withOptics (fun o => { o with
    targets := setCnt o.targets m (putBit (cnt o.targets m) w (decide (src = 1)))
    commanded := if commanded then setCnt o.commanded m (setBit (cnt o.commanded m) w) else o.commanded })

/-- A switch of `w` is no longer pending. -/
def State.dropSwitch (s : State) (m w : Nat) : State :=
  (s.setF (Csr.elsModSw_PENDING m) (clearBit (s.getF (Csr.elsModSw_PENDING m)) w)).withOptics
    (fun o => { o with commanded := setCnt o.commanded m (clearBit (cnt o.commanded m) w) })

/-- LASER_SPARE starts a switch of `w` (R287): armed, on the primary, the spare not failed, none running or pending. -/
def State.proposeSwitch (s : State) (m w : Nat) : State :=
  if s.devArmed 2 && decide (s.activeSrc m w = 0) && !s.flag (failedFld m w 1)
      && !(decide (s.swSt m ≠ 0) && decide (s.getF (Csr.elsModSw_WL m) = w)) then
    (if bitOf (s.getF (Csr.elsModSw_PENDING m)) w then s else s.askSwitch m w 1 false)
  else s

/-- A pending switch of `w` still has somewhere to go: its source is neither active by now nor failed. -/
def State.startable (s : State) (m w : Nat) : Bool :=
  let src := (bitOf (cnt s.optics.targets m) w).toNat
  decide (s.activeSrc m w ≠ src) && !s.flag (failedFld m w src)

/-- SPARE_SWITCH_START (R287, R288): on an idle module the lowest pending wavelength starts; its lanes are withdrawn. One whose source
has become active, or has failed, while it waited is no switch any more (DESIGN CHOICE, notes/assumptions/87.md). -/
def execSpareSwitchStart (m : Fin 2) (s : State) : Host.Outcome State Fault Refusal :=
  if s.swSt m ≠ 0 then .next s
  else
    let waits := setBits (s.getF (Csr.elsModSw_PENDING m)) 8
    let s0 := (waits.filter (fun w => !s.startable m w)).foldl (fun t w => t.dropSwitch m w) s
    match waits.find? (fun w => s.startable m w) with
    | none => .next s0
    | some w =>
      let s1 := ((s0.dropSwitch m w).setFs [(Csr.elsModSw_STATE m, 1), (Csr.elsModSw_WL m, w), (Csr.elsModSw_ELAPSED m, 0)]).withOptics
        (fun o => { o with started := setCnt o.started m (s.rd Csr.clkTime).toNat })
      .next ((waveLanes m w).foldl (fun t x => t.withdraw x.1 true x.2 2) s1)

/-- SPARE_RETIRING_DONE (R288): every lane has left its port; the WARM bit is set. -/
def execSpareRetiringDone (m : Fin 2) (s : State) : Host.Outcome State Fault Refusal :=
  let w := s.getF (Csr.elsModSw_WL m)
  if s.swSt m = 1 ∧ (List.range 16).all (fun f => !bitOf (s.getF (Csr.niStatus_TX_ADMIT (fibrePort m f))) w) then
    .next ((s.swTo m 2).warmSpare m w true)
  else .next s

/-- SPARE_WARMED (R288): the new source is within 0.5 dB of its P0; SEL, then RAMP, start the crossover. -/
def execSpareWarmed (m : Fin 2) (s : State) : Host.Outcome State Fault Refusal :=
  let w := s.getF (Csr.elsModSw_WL m)
  if s.swSt m = 2 then .next ((s.swTo m 3).rampTo m w (1 - s.activeSrc m w)) else .next s

/-- The lanes that the end of a switch of `w` readmits (R283, R288): withdrawn by it, or by software that has since released them.
A lane withdrawn under LANE_RETIRE waits for its own condition. -/
def State.readmitWave (s : State) (m w : Nat) : State :=
  (waveLanes m w).foldl (fun t x =>
    if t.getF (laneCause x.1 true x.2) = 2 ∨ t.getF (laneCause x.1 true x.2) = 3 then t.offer x.1 true x.2 else t) s

/-- SPARE_WARM_TIMEOUT (R288): 50 ms; the new source has failed, the old one is kept. -/
def execSpareWarmTimeout (m : Fin 2) (s : State) : Host.Outcome State Fault Refusal :=
  let w := s.getF (Csr.elsModSw_WL m)
  if s.swSt m = 2 then
    let s1 := ((s.setF (failedFld m w (1 - s.activeSrc m w)) 1).swTo m 0).addF (Csr.elsModSw_ABANDONED m) 1
    .next ((s1.readmitWave m w).recordD 0x0406 1 6 m [(1, w)])
  else .next s

/-- CROSSOVER_DONE (R288): the active source changes; a spare that was active is cooled; the modulator rings are swept locally. -/
def execCrossoverDone (m : Fin 2) (s : State) : Host.Outcome State Fault Refusal :=
  let w := s.getF (Csr.elsModSw_WL m)
  if s.swSt m = 3 then
    let src := 1 - s.activeSrc m w
    let s1 := (s.swTo m 4).setActive m w src
    let s2 := if src = 0 then s1.warmSpare m w false else s1
    .next ((waveLanes m w).foldl (fun t x => if t.getF (laneState x.1 true x.2) = 0 then t else t.setLane x.1 true x.2 1) s2)
  else .next s

/-- RELOCK_DONE (R288): all rings are LOCKED, or 20 ms have passed (`timeout`). -/
def execRelockDone (m : Fin 2) (timeout : Bool) (s : State) : Host.Outcome State Fault Refusal :=
  let w := s.getF (Csr.elsModSw_WL m)
  let open_ := (waveLanes m w).filter (fun x => decide (s.getF (laneState x.1 true x.2) ≠ 2))
  if s.swSt m = 4 ∧ (timeout ∨ open_.isEmpty) then
    .next (open_.foldl (fun t x => t.recordD 0x0409 1 5 x.1 [(1, 0), (1, x.2)]) (s.swTo m 5))
  else .next s

/-- LASER_SPARE_DONE (R288): locked lanes are readmitted; the record names, by output fibre, the lanes left withdrawn. -/
def execLaserSpareDone (m : Fin 2) (s : State) : Host.Outcome State Fault Refusal :=
  let w := s.getF (Csr.elsModSw_WL m)
  if s.swSt m = 5 then
    let s1 := (s.swTo m 0).readmitWave m w
    let left := ((waveLanes m w).mapIdx (fun f x => (f, x))).foldl
      (fun n y => if s1.flag (laneAdmit y.2.1 true y.2.2) then n else n + 2 ^ y.1) 0
    .next ((s1.addF (Csr.elsModSw_DONE m) 1).recordD 0x0407 0 6 m [(1, w), (2, left), (2, s1.getF (Csr.elsModSw_ELAPSED m))])
  else .next s

/-! ## Faults and polling (R273, R275) -/

/-- The active source of `w` has failed: the wavelength counts as one at PROPOSE (R275). -/
def State.activeFailed (s : State) (m w : Nat) : Bool := s.flag (failedFld m w (s.activeSrc m w))

/-- A source of wavelength `w` has faulted: a faulted active source, with the other healthy, counts as PROPOSE, which
on the spare is SPARE_EXHAUSTED (R275, R286). With no healthy source the wavelength's lanes go dark. -/
def State.sourceFault (s : State) (m w : Nat) : State :=
  let src := s.activeSrc m w
  let s1 := s.setF (failedFld m w src) 1
  if s1.flag (failedFld m w (1 - src)) then (waveLanes m w).foldl (fun t x => t.laneDark x.1 true x.2 true) s1
  else if src = 1 then s1.recordD 0x0405 1 6 m [(1, w)]
  else s1.proposeSwitch m w

/-- LASER_FAULT (R275, R288): LSFLTmn falls; the module's STATUS as read. -/
def execLaserFault (m : Fin 2) (status : BitVec 16) (s : State) : Host.Outcome State Fault Refusal :=
  if s.flag (Csr.elsStatus_FAULT m) then .next s
  else
    let s1 := (s.setFs [(Csr.elsStatus_FAULT m, 1), (Csr.elsStatus_READY m, status.toNat)]).recordD 0x0403 1 6 m [(2, status.toNat)]
    .next ((List.range 8).foldl (fun t w => if bitOf status.toNat (w + 1) then t.sourceFault m w else t) (s1.abandonSwitch m))

/-- LASER_FAULT_CLEARED (R274, R288): LSFLTmn rises. Lanes that an abandoned switch left withdrawn and that hold lock are readmitted
(DESIGN CHOICE, notes/assumptions/87.md: they never lost the light whose return R288 waits for). -/
def execLaserFaultCleared (m : Fin 2) (s : State) : Host.Outcome State Fault Refusal :=
  .next ((moduleLanes m).foldl (fun t x => if t.getF (laneCause x.1 true x.2) = 2 then t.offer x.1 true x.2 else t)
    ((s.setF (Csr.elsStatus_FAULT m) 0).bootLight m))

/-- A poll's reading of each active source joins those of the last 100 ms, ten polls. -/
def State.pushHist (s : State) (m : Nat) (f : Nat → Nat) : State :=
  s.withOptics (fun o => { o with hist := (List.range 8).foldl (fun h w =>
    h.put (fun _ => []) (m * 8 + w) ((f w :: h.get (fun _ => []) (m * 8 + w)).take 10)) o.hist })

/-- The readings of a poll: 8 primary sources, 8 spares, 16 output fibres. -/
def State.pollReadings (s : State) (m : Nat) (rs : List Nat) : State :=
  let s1 := s.withOptics (fun o => { o with
    src := (List.range 16).foldl (fun x i => setRdg x (srcKey m (i % 8) (i / 8)) (rs.getD i noReading)) o.src })
  let now (w : Nat) : Nat := rdg s1.optics.src (srcKey m w (s1.activeSrc m w))
  let s2 := (s1.setFs ((List.range 8).map (fun w => (Csr.elsModWl_POWER m w, now w)))).pushHist m now
  (List.range 16).foldl (fun t f => t.setF (Csr.elsModOut_POWER m f) (rs.getD (16 + f) noReading)) s2

/-- LASER_POLL (R273): the poll of module `m` with STATUS, identity, temperature and 32 power readings; or a failed
transfer, the third of which in a row loses the module. -/
def execLaserPoll (m : Fin 2) (ok : Bool) (status : BitVec 16) (ident : BitVec 56) (temp : BitVec 16) (readings : List (BitVec 16))
    (s : State) : Host.Outcome State Fault Refusal :=
  if !s.service then .next s
  else if ok then
    let s1 := (s.withOptics (fun o => { o with fails := setCnt o.fails m 0 })).setFs
      [(Csr.elsStatus_PRESENT m, 1), (Csr.elsStatus_READY m, status.toNat), (Csr.elsModId_SERIAL m, ident.toNat),
       (Csr.elsModId_FW_VER m, ident.toNat / 2 ^ 48), (Csr.elsModTemp_TEMP m, temp.toNat)]
    .next ((s1.pollReadings m (readings.map (fun r => r.toNat))).bootLight m)
  else
    let n := cnt s.optics.fails m + 1
    let s1 := (s.withOptics (fun o => { o with fails := setCnt o.fails m n })).pushHist m (fun _ => noReading)
    .next (if n = 3 then (s1.setF (Csr.elsStatus_PRESENT m) 0).recordD 0x0401 1 6 m [] else s1)

/-! ## Fade (R286, R287) -/

/-- The mean of the readings of the last 100 ms, 0.01 dBm (DESIGN CHOICE: the spec says "over", notes/assumptions/33.md). -/
def meanReading (l : List Nat) : Option Int :=
  let v := l.filter (fun x => decide (x ≠ noReading))
  if v.isEmpty then none else some ((v.map (fun x => signed 16 x)).foldl (fun a b => a + b) 0 / Int.ofNat v.length)

/-- Threshold of a level, 0.01 dB. -/
def State.fadeThr (s : State) (lv : Nat) : Int :=
  match lv with
  | 1 => Int.ofNat (10 * s.getF Csr.elsCtrl_THR_ADVISE)
  | 2 => Int.ofNat (10 * s.getF Csr.elsCtrl_THR_PROPOSE)
  | _ => Int.ofNat (10 * s.getF Csr.elsCtrl_THR_MARGIN)

/-- The highest level, at most `lv`, whose threshold the fade reaches with a margin. -/
def State.fadeLevel (s : State) (fade margin : Int) (lv : Nat) : Nat :=
  match lv with
  | 0 => 0
  | k + 1 => if fade ≤ margin - s.fadeThr (k + 1) then k + 1 else s.fadeLevel fade margin k

/-- What follows the level of wavelength `w`, `old` before this evaluation: at PROPOSE, or with a failed active source, a switch is
proposed from the primary (R275, R286, R287, R397); a fade that has fallen back takes its switch from pending. -/
def State.fadeStep (s : State) (m w old : Nat) : State :=
  let lv := s.getF (Csr.elsModWl_FADE m w)
  if s.activeFailed m w then s.proposeSwitch m w
  else if 2 ≤ lv then
    if s.activeSrc m w = 1 then (if old < 2 then s.recordD 0x0405 1 6 m [(1, w)] else s) else s.proposeSwitch m w
  else if bitOf (s.getF (Csr.elsModSw_PENDING m)) w && !bitOf (cnt s.optics.commanded m) w then s.dropSwitch m w
  else s

/-- Evaluate wavelength `w` of module `m`. -/
def State.evalFade (s : State) (m w : Nat) : State :=
  let p0 := s.getF (Csr.elsModWl_P0 m w)
  let old := s.getF (Csr.elsModWl_FADE m w)
  match meanReading (s.optics.hist.get (fun _ => []) (m * 8 + w)) with
  | none => s.fadeStep m w old
  | some p =>
    if p0 = noReading then s.fadeStep m w old
    else
      let fade := p - signed 16 p0
      let up := s.fadeLevel fade 0 3
      let hold := s.fadeLevel fade (Int.ofNat (10 * s.getF Csr.elsCtrl_HYST)) 3
      let lv := if old < up then up else min old (max up hold)
      let s1 := s.setFs [(Csr.elsModWl_FADE_DB m w, toSigned 16 fade), (Csr.elsModWl_FADE m w, lv)]
      let s2 := if old < lv then s1.recordD 0x0404 (if lv = 3 then 1 else 0) 6 m [(1, w), (1, lv), (2, toSigned 16 fade)] else s1
      s2.fadeStep m w old

/-- FADE_EVALUATION (R286): every 10 ms, while the module answers. -/
def execFadeEvaluation (m : Fin 2) (s : State) : Host.Outcome State Fault Refusal :=
  if s.flag (Csr.elsStatus_PRESENT m) then .next ((List.range 8).foldl (fun t w => t.evalFade m w) s) else .next s

/-- A write of ELS.MOD[m].SRC_CMD (R287, R294). -/
def srcCmdWrite (m : Nat) (s : State) (v mk : Nat) : State :=
  let s1 := s.storeBut (Csr.elsModSrcCmd m) v mk [Csr.elsModSrcCmd_GO m]
  if wrote1 v mk (Csr.elsModSrcCmd_GO m) then
    let w := s1.getF (Csr.elsModSrcCmd_WL m)
    let src := s1.getF (Csr.elsModSrcCmd_TO_SPARE m)
    if s1.activeSrc m w = src ∨ s1.flag (failedFld m w src) then s1.setF Csr.elsStatus_CMD_IGN 1 else s1.askSwitch m w src true
  else s1

/-- SRC_CMD (R287): a write of ELS.MOD[m].SRC_CMD. -/
def execSrcCmd (port : Fin 4) (m : Fin 2) (w : AccWidth) (v : Word) (s : State) : Host.Outcome State Fault Refusal :=
  .next (s.hostWrite port (Csr.elsModSrcCmd m) w v (srcCmdWrite m))

/-! ## Commissioning and saving (R281, R292) -/

/-- The address is one of a ring table. -/
def inRings (a : Nat) : Bool := (List.range 16).any (fun g => inWindow a (Csr.glvRtabW g 0 0) (Csr.glvRtabW g 32 0))

/-- The address is one of a register that holds a reference of the fibres of module `m`. -/
def inRefs (m a : Nat) : Bool :=
  inWindow a (Csr.elsModOut m 0) (Csr.elsModOut m 16)
    || (List.range 8).any (fun j => inWindow a (Csr.glvFibMon (8 * m + j) 0) (Csr.glvFibMon (8 * m + j) 4))

/-- Registers go to the boot flash, in place of those of them that it held. -/
def State.saveRegs (s : State) (f : Nat → Bool) : State :=
  s.withOptics (fun o =>
    let other := o.saved.filter (fun e => !f e.1)
    { o with saved := (s.csr.filter (fun e => f e.1)).foldl (fun m e => m.put Csr.reset e.1 e.2) other })

/-- Every glove's ring tables go to the boot flash. -/
def State.saveTables (s : State) : State := s.saveRegs inRings

/-- The commissioning records and ring tables read from the boot flash as the service starts (R290 step 2). -/
def State.readCommissioned (s : State) : State :=
  let s1 := s.optics.saved.foldl (fun t e =>
    if inRings e.1 then t.wr e.1 e.2 else t.setF ⟨e.1, 16, 16⟩ (wordGet e.2 16 16)) s
  (List.range 16).foldl (fun t i =>
    t.setF (Csr.elsModWl_P0 (i / 8) (i % 8)) (rdg t.optics.p0 (srcKey (i / 8) (i % 8) (t.activeSrc (i / 8) (i % 8))))) s1

/-- The references of every monitor on the module's fibres. -/
def State.takeRefs (s : State) (m : Nat) : State :=
  let ports := (List.range 16).map (fun f => fibrePort m f)
  let s1 := s.withOptics (fun o => { o with refs := ports.foldl (fun r k => bothDirs.foldl (fun r1 tx =>
    (List.range 8).foldl (fun r2 j => (List.range 8).foldl (fun r3 i =>
      setRdg r3 (monKey k tx j i) (s.monitor k tx j i)) r2) r1) r) o.refs })
  let s2 := (List.range 16).foldl (fun t f => t.setF (Csr.elsModOut_REF m f) (t.getF (Csr.elsModOut_POWER m f))) s1
  (List.range 8).foldl (fun t j => (List.range 4).foldl (fun u i =>
    u.setF (Csr.glvFibMon_REF (8 * m + j) i) (u.getF (Csr.glvFibMon_POWER (8 * m + j) i))) t) s2

/-- P0 of the spare of `w`: the reading held of one that is active; one that is cold is warmed, read (a free value: a measurement)
and cooled again. -/
def State.spareP0 (s : State) (m w : Nat) : State × Nat :=
  if s.activeSrc m w = 1 then (s, rdg s.optics.src (srcKey m w 1))
  else
    let d := s.draw 9
    ((d.2.warmSpare m w true).warmSpare m w false, d.1 % 65536)

/-- P0 of every source: the primary's reading, and the spare's. -/
def State.takeP0 (s : State) (m : Nat) : State :=
  let s1 := (List.range 8).foldl (fun t w =>
    let d := t.spareP0 m w
    d.1.withOptics (fun o => { o with
      p0 := setRdg (setRdg o.p0 (srcKey m w 0) (rdg o.src (srcKey m w 0))) (srcKey m w 1) d.2 })) s
  (List.range 8).foldl (fun t w => t.setF (Csr.elsModWl_P0 m w) (rdg t.optics.p0 (srcKey m w (t.activeSrc m w)))) s1

/-- COMMISSION[m] written (R292): ignored while a switch runs on the module or a lane of it is not LOCKED. -/
def State.commission (s : State) (m : Nat) : State :=
  if s.swSt m ≠ 0 ∨ !(moduleLanes m).all (fun x => decide (s.getF (laneState x.1 true x.2) = 2)) then s.setF Csr.elsStatus_CMD_IGN 1
  else (((s.takeP0 m).takeRefs m).saveTables).saveRegs (inRefs m)

/-- LIGHT_EN[m] written (R274). After cause 1 light still waits for what boot firmware waits for. -/
def State.lightStep (s : State) (m : Nat) : State :=
  match s.openCause m with
  | some 2 => s.openInterlock m 2
  | some _ => s
  | none =>
    if s.flag (Csr.elsStatus_LIGHT m) then s
    else if s.getF (Csr.elsStatus_OPEN_CAUSE m) = 1 then s.bootLight m
    else s.lightUp m

/-- A write of ELS.CTRL (R274, R281, R292, R294). -/
def elsCtrlWrite (s : State) (v m : Nat) : State :=
  let s1 := s.storeBut Csr.elsCtrl v m [Csr.elsCtrl_COMMISSION, Csr.elsCtrl_SAVE_TAB]
  let s2 := if wroteF v m Csr.elsCtrl_LIGHT_EN = none then s1 else (s1.lightStep 0).lightStep 1
  let c := (wroteF v m Csr.elsCtrl_COMMISSION).getD 0
  let s3 := if bitOf c 0 then s2.commission 0 else s2
  let s4 := if bitOf c 1 then s3.commission 1 else s3
  if wrote1 v m Csr.elsCtrl_SAVE_TAB then s4.saveTables else s4

/-- COMMISSION (R292): a write of ELS.CTRL. -/
def execCommission (port : Fin 4) (w : AccWidth) (v : Word) (s : State) : Host.Outcome State Fault Refusal :=
  .next (s.hostWrite port Csr.elsCtrl w v elsCtrlWrite)

/-- SAVE_TAB (R281): a write of ELS.CTRL. -/
def execSaveTab (port : Fin 4) (w : AccWidth) (v : Word) (s : State) : Host.Outcome State Fault Refusal :=
  .next (s.hostWrite port Csr.elsCtrl w v elsCtrlWrite)

/-- LIGHT_EN_WRITE (R274): a write of ELS.CTRL. -/
def execLightEnWrite (port : Fin 4) (w : AccWidth) (v : Word) (s : State) : Host.Outcome State Fault Refusal :=
  .next (s.hostWrite port Csr.elsCtrl w v elsCtrlWrite)

end Sys2Proof.Machine
end

