-- ==== Sys2Proof/Machine/Power.lean ====
section
/-! DEFINITION. Clocks, rails and thermal behaviour (chapter 18). -/

namespace Sys2Proof.Machine

/-- The state with the power service's part replaced. -/
def State.withPower (s : State) (f : Power → Power) : State := { s with power := f s.power }

/-! ## Locks and rails (R422, R425, R426) -/

/-- The whole device is down (R361): its optical ports dark and its ZHL ports down. -/
def State.goDark (s : State) : State :=
  (List.range 16).foldl (fun t g => t.gloveOff g 0) ((List.range 4).foldl (fun t k => if t.hlState k = 3 then t.zhlDown k 0 else t) s)

/-- CLOCK_OR_SUPPLY (R361, R426): REFCLK, a PLL or a rail is lost, by source code; other codes name nothing. TPLL matters at
grade E alone. A clock loss puts the service logic on OSC. -/
def execClockOrSupply (src : BitVec 8) (s : State) : Host.Outcome State Fault Refusal :=
  let c := src.toNat
  let lost (t : State) : State :=
    let u := t.deviceFatal ⟨0x0904, 5, 255, 11, 0, 0xFFFF, 0, [(1, c)]⟩
    if c = 1 ∨ c = 0x10 ∨ c = 0x11 then u.goDark else u
  let clock (f : Fld) : State := s.setFs [(f, 0), (Csr.clkStatus_OSC_ACTIVE, 1)]
  match c with
  | 1 => .next (lost (clock Csr.clkStatus_REF_OK))
  | 2 => .next (lost (clock Csr.clkStatus_SPLL_LOCK))
  | 3 => if s.flag Csr.clkStatus_TSRC then .next (lost (clock Csr.clkStatus_TPLL_LOCK)) else .next s
  | _ =>
    if 0x10 ≤ c ∧ c ≤ 0x19 then .next (lost (s.setF Csr.pwrRails_GOOD (clearBit (s.getF Csr.pwrRails_GOOD) (c - 0x10))))
    else .next s

/-- SERDES_UNLOCK (R422): the SerDes PLL of a glove (0 to 15) or of a ZHL port (16 to 19) loses lock. -/
def execSerdesUnlock (n : Fin 20) (s : State) : Host.Outcome State Fault Refusal :=
  let s1 := s.addF Csr.clkSerdes_UNLOCKS 1
  if n.val < 16 then
    let s2 := s1.setF Csr.clkSerdes_GLV_LOCK (clearBit (s.getF Csr.clkSerdes_GLV_LOCK) n)
    .next (s2.gloveOff n 4)
  else
    let k := n.val - 16
    let s2 := s1.setF Csr.clkSerdes_ZHL_LOCK (clearBit (s.getF Csr.clkSerdes_ZHL_LOCK) k)
    if s.hlState k = 3 then .next (s2.zhlDown k 0) else .next s2

/-- GLOVE_PLL_RETRY (R422): a glove whose PLL has lost lock tries again; with lock its bring-up starts over. -/
def execGlovePllRetry (g : Fin 16) (ok : Bool) (s : State) : Host.Outcome State Fault Refusal :=
  let m := s.getF Csr.clkSerdes_GLV_LOCK
  if bitOf m g || !ok then .next s
  else
    let s1 := s.setF Csr.clkSerdes_GLV_LOCK (setBit m g)
    if s.flag (Csr.glvCtrl_EN g) then .next (s1.setF (Csr.glvStatus_STATE g) 1) else .next s1

/-! ## VCORE (R427 to R429) -/

/-- A write of PWR.VSET (R428). -/
def vsetWrite (s : State) (v m : Nat) : State :=
  let f := Csr.pwrVset_MV
  let s1 := s.storeBut Csr.pwrVset v m [f]
  if wroteF v m f = none then s1
  else
    let mv := s.merged v m f
    let fuse := s.getF Csr.pwrVset_FUSE_MV
    if fuse ≤ mv ∧ mv ≤ min (fuse + 50) 800 then s1.setF f mv else s1.setF Csr.pwrVset_VSET_IGN 1

/-- VSET_WRITE (R428): a write of PWR.VSET. -/
def execVsetWrite (port : Fin 4) (w : AccWidth) (v : Word) (s : State) : Host.Outcome State Fault Refusal :=
  .next (s.hostWrite port Csr.pwrVset w v vsetWrite)

/-- Telemetry fields of die W (0) or E (1). -/
def vcoreMv (e : Bool) : Fld := if e then Csr.pwrVcoreE_MV else Csr.pwrVcoreW_MV
def vcoreAmps (e : Bool) : Fld := if e then Csr.pwrVcoreE_AMPS else Csr.pwrVcoreW_AMPS
def vcoreStale (e : Bool) : Fld := if e then Csr.pwrVcoreE_STALE else Csr.pwrVcoreW_STALE
def vcoreTemp (e : Bool) : Fld := if e then Csr.pwrVcoreE_VR_TEMP else Csr.pwrVcoreW_VR_TEMP
def vcoreStatus (e : Bool) : Fld := if e then Csr.pwrVcoreE_VR_STATUS else Csr.pwrVcoreW_VR_STATUS

/-- AVSBUS_POLL (R427, R429): a poll of the rail of die W, or of die E (`e`): voltage and current, with `slow` temperature and
status too; `warn`: the status shows a warning. `ok` false: the transfer failed. -/
def execAvsbusPoll (e ok slow warn : Bool) (mv : BitVec 10) (amps : BitVec 12) (temp status : BitVec 16) (s : State) :
    Host.Outcome State Fault Refusal :=
  let k := e.toNat
  if !ok then
    let n := min (cnt s.power.fails k + 1) 3
    let s1 := s.withPower (fun p => { p with fails := setCnt p.fails k n })
    if n = 3 then .next (s1.setFs [(Csr.pwrAlert_AVS_FAIL, 1), (vcoreStale e, 1)]) else .next s1
  else
    let s1 := (s.withPower (fun p => { p with fails := setCnt p.fails k 0 })).setFs
      [(vcoreMv e, mv.toNat), (vcoreAmps e, amps.toNat), (vcoreStale e, 0)]
    if slow then
      let s2 := s1.setFs [(vcoreTemp e, temp.toNat), (vcoreStatus e, status.toNat)]
      if warn then .next (s2.setF Csr.pwrAlert_VR_WARN 1) else .next s2
    else .next s1

/-! ## The cycle keeper (R420, R421) -/

/-- KEEP_SLEW_STEP (R421): KEEP moves one unit; a slew starts only with two ramp slots free, and holds them to its end.
KEEP = 64 ends recovery (R436). -/
def execKeepSlewStep (s : State) : Host.Outcome State Fault Refusal :=
  let k := s.getF Csr.clkTclk_KEEP
  let t := s.getF Csr.clkTclk_TARGET
  let normal (u : State) : State :=
    if u.getF Csr.clkTclk_TSTATE = 2 ∧ u.getF Csr.clkTclk_KEEP = 64 then u.setF Csr.clkTclk_TSTATE 0 else u
  if k = t then .next (normal (s.setF Csr.clkTclk_SLEWING 0))
  else if !s.flag Csr.clkTclk_SLEWING ∧ 14 < s.rampHold.length then .next s
  else
    let k1 := if k < t then k + 1 else k - 1
    .next (normal (s.setFs [(Csr.clkTclk_KEEP, k1), (Csr.clkTclk_SLEWING, (decide (k1 ≠ t)).toNat)]))

/-! ## Sensors and throttling (R433 to R437) -/

/-- The signed reading of a valid sensor. -/
def State.sensor (s : State) (i : Nat) : Option Int :=
  if s.flag (Csr.pwrSensor_VALID i) then some (signed 12 (s.getF (Csr.pwrSensor_TEMP i))) else none

/-- A sensor's new reading: bits [11:0] with bit 12 set, or none. -/
def State.readSensor (s : State) (i : Nat) (r : BitVec 13) : State :=
  let t := r.toNat % 4096
  if r.toNat < 4096 then s.setF (Csr.pwrSensor_VALID i) 0
  else
    let mx := s.getF (Csr.pwrSensor_MAX i)
    s.setFs [(Csr.pwrSensor_TEMP i, t), (Csr.pwrSensor_VALID i, 1),
      (Csr.pwrSensor_MAX i, if signed 12 mx < signed 12 t then t else mx)]

/-- The hottest valid sensor of a range, the lowest index among equals. -/
def State.hottest (s : State) (lo n : Nat) : Option (Nat × Int) :=
  (List.range n).foldl (fun b i => match s.sensor (lo + i), b with
    | none, _ => b
    | some t, none => some (lo + i, t)
    | some t, some x => if x.2 < t then some (lo + i, t) else b) none

/-- The power estimate of this moment in mW (R434). -/
def State.estimate (s : State) : Nat :=
  s.getF Csr.pwrVcoreW_MV * s.getF Csr.pwrVcoreW_AMPS + s.getF Csr.pwrVcoreE_MV * s.getF Csr.pwrVcoreE_AMPS
    + 1000 * s.getF Csr.pwrPower_OTHER_W

/-- A signed threshold. -/
def State.threshold (s : State) (f : Fld) : Int := signed 12 (s.getF f)

/-- Some sensor of a range reads `t` or more. -/
def State.anyAt (s : State) (lo n : Nat) (t : Int) : Bool :=
  (List.range n).any (fun i => match s.sensor (lo + i) with
    | some x => decide (t ≤ x)
    | none => false)

/-- AVG_W exceeds LIMIT. -/
def State.overPower (s : State) : Bool := decide (s.getF Csr.pwrPower_LIMIT < s.getF Csr.pwrPower_AVG_W)

/-- The device is hot (R435). -/
def State.hot (s : State) : Bool := s.anyAt 0 40 (s.threshold Csr.pwrThermCtrl_THR_HIGH) || s.overPower

/-- The device is cool (R435). -/
def State.cool (s : State) : Bool :=
  (List.range 40).all (fun i => match s.sensor i with
    | some x => decide (x ≤ s.threshold Csr.pwrThermCtrl_THR_REL)
    | none => true) && !s.overPower

/-- The hot cause as a record names it: sensor and temperature, or 0xFF and watts (R435). -/
def State.hotCause (s : State) : Nat × Nat :=
  match s.anyAt 0 40 (s.threshold Csr.pwrThermCtrl_THR_HIGH), s.hottest 0 40 with
  | true, some x => (x.1, toSigned 16 x.2)
  | _, _ => (0xFF, s.getF Csr.pwrPower_AVG_W)

/-- THERMAL_HIGH, at most one per 100 ms. -/
def State.thermalHigh (s : State) (due : Bool) (sensor temp : Nat) : State :=
  let r : Rec := ⟨0x0901, 0, 255, 0, 0, 0xFFFF, 0, [(1, sensor), (2, temp)]⟩
  if due then s.record true none r else s.withhold r

/-- Throttling begins, or begins again (R436). -/
def State.throttle (s : State) : State :=
  let t := max (s.getF Csr.clkTclk_KEEP - s.getF Csr.clkTclk_STEP) (s.getF Csr.clkTclk_KEEP_MIN)
  let c := s.hotCause
  (s.setFs [(Csr.clkTclk_TARGET, t), (Csr.clkTclk_TSTATE, 1)]).recordD 0x0902 1 0 0 [(1, c.1), (2, c.2), (1, t)]

/-- TARGET raised by STEP, at most 64. -/
def State.raiseTarget (s : State) : State :=
  s.setF Csr.clkTclk_TARGET (min (s.getF Csr.clkTclk_TARGET + s.getF Csr.clkTclk_STEP) 64)

/-- The registers that show the hottest sensor; the temperature shown with a power cause is not given (a free value). -/
def State.showHottest (s : State) : State :=
  if s.overPower && !s.anyAt 0 40 (s.threshold Csr.pwrThermCtrl_THR_HIGH) then
    let d := s.draw 9
    d.2.setFs [(Csr.pwrThermStat_HOT_SENSOR, 63), (Csr.pwrThermStat_HOT_TEMP, d.1)]
  else match s.hottest 0 40 with
    | some x => s.setFs [(Csr.pwrThermStat_HOT_SENSOR, x.1), (Csr.pwrThermStat_HOT_TEMP, toSigned 12 x.2)]
    | none => s

/-- The device is judged hot or not (R435). -/
def State.judgeHot (s : State) (due : Bool) : State :=
  let was := s.flag Csr.pwrThermStat_HOT
  if s.hot && !was then
    let c := s.hotCause
    ((s.setFs [(Csr.pwrThermStat_HOT, 1), (Csr.pwrAlert_HOT, 1)]).addF Csr.pwrThermStat_EPISODES 1).thermalHigh due c.1 c.2
  else s.setF Csr.pwrThermStat_HOT s.hot.toNat

/-- The memory sensors are judged; the record is written as MEM_HOT becomes 1 (R435). -/
def State.judgeMem (s : State) (due : Bool) : State :=
  let now := s.anyAt 40 8 (s.threshold Csr.pwrThermCtrl_THR_MEM)
  let was := s.flag Csr.pwrThermStat_MEM_HOT
  let s1 := s.setF Csr.pwrThermStat_MEM_HOT now.toNat
  if now && !was then
    let c := (s.hottest 40 8).getD (40, 0)
    (s1.setF Csr.pwrAlert_MEM_HOT 1).thermalHigh due c.1 (toSigned 16 c.2)
  else s1

/-- What the throttle states do at a sample (R436). -/
def State.judgeThrottle (s : State) : State :=
  let st := s.getF Csr.clkTclk_TSTATE
  let s1 := if s.devArmed 5 && s.hot && (decide (st = 0) || decide (st = 2)) then s.throttle else s
  if s1.getF Csr.clkTclk_TSTATE ≠ 0 then s1.setF Csr.pwrAlert_THROTTLED 1 else s1

/-- SENSOR_SAMPLE (R433 to R436): the 48 sensors; a reading has bit 12 set, a sensor that does not read has it clear.
`due`: no THERMAL_HIGH record in the last 100 ms. -/
def execSensorSample (readings : List (BitVec 13)) (due : Bool) (s : State) : Host.Outcome State Fault Refusal :=
  let s1 := (List.range 48).foldl (fun t i => t.readSensor i (readings.getD i 0)) s
  let est := (s1.estimate :: s.power.estimates).take 100
  let avg := est.foldl (fun a b => a + b) 0 / est.length / 1000
  let limit := s.threshold Csr.pwrThermCtrl_CRIT
  let crit := (List.range 40).foldl (fun m i => setCnt m i (match s1.sensor i with
    | some t => if limit ≤ t then min (cnt s.power.crit i + 1) 3 else 0
    | none => 0)) s.power.crit
  let s2 := (s1.withPower (fun p => { p with estimates := est, crit := crit })).setF Csr.pwrPower_AVG_W (min avg 4095)
  .next ((((s2.showHottest).judgeHot due).judgeMem (due && !(s2.hot && !s2.flag Csr.pwrThermStat_HOT))).judgeThrottle)

/-- THROTTLE_STILL_HOT (R436): 100 µs after KEEP reached TARGET. -/
def execThrottleStillHot (s : State) : Host.Outcome State Fault Refusal :=
  let t := s.getF Csr.clkTclk_TARGET
  if s.getF Csr.clkTclk_TSTATE = 1 && s.devArmed 5 && s.hot && decide (s.getF Csr.clkTclk_KEEP = t) then
    .next (s.setF Csr.clkTclk_TARGET (max (t - s.getF Csr.clkTclk_STEP) (s.getF Csr.clkTclk_KEEP_MIN)))
  else .next s

/-- THROTTLE_COOL_HELD (R436): cool for 1 ms. -/
def execThrottleCoolHeld (s : State) : Host.Outcome State Fault Refusal :=
  if s.getF Csr.clkTclk_TSTATE = 1 && s.cool then .next ((s.setF Csr.clkTclk_TSTATE 2).raiseTarget) else .next s

/-- THROTTLE_RAISE (R436): 100 µs after the last raise; while the policy is disarmed the heat does not matter. -/
def execThrottleRaise (s : State) : Host.Outcome State Fault Refusal :=
  if s.getF Csr.clkTclk_TSTATE = 2 && (!s.hot || !s.devArmed 5) then .next s.raiseTarget else .next s

/-- THERMTRIP (R393, R437): a sensor has read CRIT or more three times running. The device does nothing else. -/
def execThermtrip (s : State) : Host.Outcome State Fault Refusal :=
  if !s.flag Csr.pwrThermStat_TRIP && (List.range 40).any (fun i => decide (cnt s.power.crit i = 3)) then
    .next ((s.setF Csr.pwrThermStat_TRIP 1).captureFatal ⟨0x0903, 5, 255, 11, 0, 0xFFFF, 0, []⟩)
  else .next s

/-! ## ALERTn (R438) -/

/-- ALERTn is asserted. -/
def State.alert (s : State) : Bool :=
  s.flag Csr.errStatus_ALERT || decide (s.getF Csr.pwrAlert_EN &&& (s.rd Csr.pwrAlert).toNat % 32 ≠ 0)

/-- A write of PWR.THERM_CTRL (R440): refused whole when its thresholds would be out of order. -/
def thermCtrlWrite (s : State) (v m : Nat) : State :=
  let t := s.store Csr.pwrThermCtrl v m
  if t.threshold Csr.pwrThermCtrl_THR_REL < t.threshold Csr.pwrThermCtrl_THR_HIGH
      ∧ t.threshold Csr.pwrThermCtrl_THR_HIGH < t.threshold Csr.pwrThermCtrl_CRIT then t else s

/-- A write of PWR.POWER (R434, R440): a LIMIT above the grade's TDP (1,600 W at F, 1,200 W at E) leaves LIMIT unchanged. -/
def powerWrite (s : State) (v m : Nat) : State :=
  let f := Csr.pwrPower_LIMIT
  let tdp := if s.getF Csr.sysId_GRADE = 0 then 0x640 else 0x4B0
  let s1 := s.storeBut Csr.pwrPower v m [f]
  if wroteF v m f = none ∨ tdp < s.merged v m f then s1 else s1.setF f (s.merged v m f)

/-- HOLD (R117): the registers and arrays after a write of CLS.ARR_CTRL. -/
def arrCtrlWrite (c : Nat) (s : State) (v m : Nat) : State :=
  let was := s.flag (Csr.clsArrCtrl_HOLD c)
  let t := s.store (Csr.clsArrCtrl c) v m
  if t.flag (Csr.clsArrCtrl_HOLD c) && !was then t.wakeArrays c false else t

/-- HOLD (R116, R117): a write of CLS.ARR_CTRL. -/
def execHold (port : Fin 4) (c : Fin 64) (w : AccWidth) (v : Word) (s : State) : Host.Outcome State Fault Refusal :=
  .next (s.hostWrite port (Csr.clsArrCtrl c) w v (arrCtrlWrite c))

end Sys2Proof.Machine
end

