-- ==== Sys2Proof/Machine/Policy.lean ====
section
/-! DEFINITION. Policies (R395 to R398) and the timer of the error rings (R390). -/

namespace Sys2Proof.Machine

/-- A policy of device scope: LANE_RETIRE, LASER_SPARE, THERMAL_THROTTLE (R395). -/
def devScope (id : Nat) : Bool := decide (id = 1) || decide (id = 2) || decide (id = 5)

/-- The register that holds a policy's state: of the device, or of partition `p`. -/
def armedField (id p : Nat) : Fld := if devScope id then Csr.errPolicy_ARMED else Csr.errPartPolicy_ARMED p

/-- The policy is armed. -/
def State.policyArmed (s : State) (id p : Nat) : Bool := bitOf (s.getF (armedField id p)) (id - 1)

/-- PARAM of a policy: PORT_QUARANTINE alone has one. -/
def State.policyParam (s : State) (id p : Nat) : Nat := if id = 7 then s.getF (Csr.errPartPolicy_PQ_PARAM p) else 0

/-- PORT_QUARANTINE's threshold as stored: 0 means 16. -/
def pqParam (v : Nat) : Nat := if v = 0 then 16 else v

/-- What arming or disarming does at once (R397, R436). -/
def State.policyEffect (s : State) (id : Nat) (was now : Bool) : State :=
  if id = 1 && now && !was then
    (List.range 16).foldl (fun t g => gloveLanes.foldl (fun u x =>
      let st := u.getF (laneState g x.1 x.2)
      if st = 0 ∨ st = 4 then u.retireStep g x.1 x.2 else u) t) s
  else if id = 5 && was && !now && decide (s.getF Csr.clkTclk_TSTATE = 1) then s.setF Csr.clkTclk_TSTATE 2
  else s

/-- A policy takes a state. -/
def State.putPolicy (s : State) (id p : Nat) (arm : Bool) (param : Nat) : State :=
  let was := s.policyArmed id p
  let m := s.getF (armedField id p)
  let s1 := s.setF (armedField id p) (if arm then setBit m (id - 1) else clearBit m (id - 1))
  let s2 := if id = 7 then s1.setF (Csr.errPartPolicy_PQ_PARAM p) (pqParam param) else s1
  s2.policyEffect id was arm

/-- The POLICY_CHANGED record (R396). -/
def State.policyChanged (s : State) (id p : Nat) (arm : Bool) (param : Nat) : State :=
  let d : List (Nat × Nat) := [(1, id), (1, arm.toNat), (4, param)]
  if devScope id then s.recordD 0x0A01 0 0 0 d else s.recordDP (some p) 0x0A01 0 0 0 d

/-- POLICY_SET (R396): the policy takes its state as the command completes. -/
def execPolicySet (x : Fin 65536) (s : State) : Host.Outcome State Fault Refusal :=
  match s.freshCmd x 0x20, s.ctxPart x with
  | some c, some own =>
    let id := fieldAt c.bytes 8 1
    let arm := fieldAt c.bytes 9 1
    let part := fieldAt c.bytes 0x0A 1
    let param := fieldAt c.bytes 0x0C 4
    let p := if part = 0xFF then own else part
    if id = 0 ∨ 7 < id ∨ 1 < arm ∨ (part ≠ 0xFF ∧ (7 < part ∨ !s.partOn part ∨ devScope id))
        ∨ (if id = 7 then 65535 < param else param ≠ 0) then .next (s.complete x c 0x0E 0 0)
    else
      let was := s.policyArmed id p
      let old := s.policyParam id p
      let s1 := s.putPolicy id p (decide (arm = 1)) param
      .next ((s1.policyChanged id p (decide (arm = 1)) (if id = 7 then pqParam param else 0)).complete x c 0 was.toNat old)
  | _, _ => .next s

/-- PORT_QUARANTINE (R398): the 1 s window of port `k` ends. -/
def execPortQuarantine (k : Fin 32) (s : State) : Host.Outcome State Fault Refusal :=
  let n := (s.ni k).crcFails
  let s1 := s.setNi k { s.ni k with crcFails := 0 }
  match s.niPart k with
  | none => .next s1
  | some p =>
    if !s.dataOn k ∨ n < s.getF (Csr.errPartPolicy_PQ_PARAM p) then .next s1
    else
      let armed := s.partArmed p 7
      let s2 := s1.recordP (some p) 0x0505 armed.toNat 4 k 0xFFFF 0 [(4, n), (1, armed.toNat)]
      .next (if armed then s2.quarantine k 0 else s2)

/-- ADVISORY_EVENT_TIMER (R390): ADV_EVT ms since the last event of a ring (0 the device's, 1 + p that of partition p). -/
def execAdvisoryEventTimer (ring : Fin 9) (s : State) : Host.Outcome State Fault Refusal :=
  if (s.ring ring).waiting then .next ((s.ringEvent ring).setRing ring ⟨true, false⟩)
  else .next (s.setRing ring RingTimer.quiet)

end Sys2Proof.Machine
end

