-- ==== Sys2Proof/Machine/Registrar.lean ====
section
/-! DEFINITION. The Registrar: taking, copying, sealing, verifying and aborting snapshots (R361 to R375). -/

namespace Sys2Proof.Machine

/-! ## The snapshot list (R362, R363) -/

/-- `n` bytes at `o` are 0. -/
def zeroAt (b : List Byte) (o n : Nat) : Bool := ((b.drop o).take n).all (fun x => decide (x = 0))

/-- A shard entry of 32 bytes. -/
def parseShard (b : List Byte) : Shard :=
  { obj := fieldAt b 0 4, first := fieldAt b 4 4, count := fieldAt b 8 4, peer := decide (fieldAt b 0x0C 1 = 1)
    verify := bitOf (fieldAt b 0x0D 1) 0, vgid := fieldAt b 0x0E 2, tdva := fieldAt b 0x10 8, tnode := fieldAt b 0x18 2
    poisoned := 0, hash := [], verified := false, mismatch := false }

/-- The reserved fields of a shard entry are 0, its KIND, count and target are in range. -/
def shardFieldsOk (b : List Byte) : Bool :=
  decide (fieldAt b 0 4 < 2 ^ 20) && decide (1 ≤ fieldAt b 8 4) && decide (fieldAt b 0x0C 1 < 2) && decide (fieldAt b 0x0D 1 < 2)
    && decide (fieldAt b 0x0E 2 < 4096) && decide (fieldAt b 0x10 8 < 2 ^ 48) && decide (fieldAt b 0x10 8 % 65536 = 0)
    && zeroAt b 0x1A 6

/-- The header's reserved bytes are 0, COUNT and addresses in range. -/
def listHeadOk (b : List Byte) : Bool :=
  decide (1 ≤ fieldAt b 0 2) && decide (fieldAt b 0 2 ≤ 1024) && zeroAt b 4 4 && decide (fieldAt b 8 8 < 2 ^ 48)
    && decide (fieldAt b 0x10 8 < 2 ^ 48) && decide (fieldAt b 0x18 8 < 2 ^ 48) && zeroAt b 0x20 32

/-- Entries of a table of `n`-byte entries. -/
def entriesOf (b : List Byte) (n count : Nat) : List (List Byte) :=
  (List.range count).map (fun i => (b.drop (i * n)).take n)

/-- First DVA of a shard's range, when its object is in use and holds it. -/
def State.shardBase (s : State) (p : Nat) (h : Shard) : Option Nat :=
  match s.obj (objKey p h.obj) with
  | some o => if h.first + h.count ≤ o.tiles then some (o.base + h.first * 65536) else none
  | none => none

/-- A DVA range lies within one object of the partition; `write`: one that is not RDONLY. -/
def State.inObject (s : State) (p dva n : Nat) (write : Bool) : Bool :=
  match findObj s.objs p dva with
  | some (_, o) => decide (dva + n ≤ o.base + o.tiles * 65536) && !(write && o.rdonly)
  | none => false

/-- The shards' ranges overlap nowhere, neither do the LOCAL targets overlap a listed range. -/
def State.shardsDisjoint (s : State) (p : Nat) (l : List Shard) : Bool :=
  let r := l.map (fun h => ((s.shardBase p h).getD 0, h.count * 65536))
  let pairs := r.mapIdx (fun i x => (i, x))
  pairs.all (fun x => pairs.all (fun y => decide (x.1 = y.1) || !rangesMeet x.2.1 x.2.2 y.2.1 y.2.2))
    && l.all (fun h => h.peer || r.all (fun x => !rangesMeet h.tdva (h.count * 65536) x.1 x.2))

/-- A DVA range lies wholly in a listed range. -/
def State.listed (s : State) (p : Nat) (l : List Shard) (dva n : Nat) : Bool :=
  l.any (fun h => match s.shardBase p h with
    | some b => decide (b ≤ dva) && decide (dva + n ≤ b + h.count * 65536)
    | none => false)

/-- The checks of R363 on a list whose header and entries have been read: a status, or none. -/
def State.snapCheck (s : State) (p : Nat) (head tab : List Byte) : Option Nat :=
  let es := entriesOf tab 32 (fieldAt head 0 2)
  let l := es.map parseShard
  if !es.all shardFieldsOk || l.any (fun h => (s.shardBase p h).isNone) || !s.shardsDisjoint p l
      || !s.listed p l (fieldAt head 8 8) 128 || !s.listed p l (fieldAt head 0x10 8) 64
      || l.any (fun h => h.verify && (s.group p h.vgid).isNone)
      || (l.any (fun h => h.peer) && decide (fieldAt head 2 2 = 0)) then some 0x0E
  else if s.snapSt p ≠ 0 || l.any (fun h => !h.peer && !s.inObject p h.tdva (h.count * 65536) true) then some 0x0D
  else none

/-! ## What the device captures (R366, R374, R399) -/

/-- A section's bytes padded with zeros to `n`. -/
def padTo (n : Nat) (b : List Byte) : List Byte := b ++ List.replicate (n - b.length) 0

/-- The eight bytes of a register. -/
def State.regBytes (s : State) (a : Nat) : List Byte := leBytes 8 (s.rd a).toNat

/-- Section CLS. -/
def State.clsSection (s : State) (p : Nat) : List Byte :=
  (setBits (s.getF (Csr.sysPartCls_MASK p)) 64).flatMap (fun c =>
    leBytes 4 c ++ leBytes 4 (s.rd (Csr.clsSrSeq c)).toNat ++ s.regBytes (Csr.clsSrKey c) ++ s.regBytes (Csr.clsQuizCtrl c) ++
      s.regBytes (Csr.clsQuizKey c))

/-- Section POLICY (R399). -/
def State.policySection (s : State) (p : Nat) : List Byte :=
  (List.range 7).flatMap (fun i => padTo 16 (leBytes 1 (i + 1) ++ leBytes 1 (s.policyArmed (i + 1) p).toNat ++
    leBytes 1 (devScope (i + 1)).toNat ++ leBytes 1 0 ++ leBytes 4 (s.policyParam (i + 1) p)))

/-- The groups of partition `p`. -/
def State.groupsOf (s : State) (p : Nat) : List Group :=
  s.groups.filterMap (fun e => if e.1 / 4096 = p then e.2 else none)

/-- Section GROUP. -/
def State.groupSection (s : State) (p : Nat) : List Byte :=
  (s.groupsOf p).flatMap (fun g =>
    let t := g.table.flatMap (leBytes 2)
    let n := 64 + t.length
    padTo (ceilDiv n 64 * 64) (g.record.take 6 ++ leBytes 2 g.nextSeq ++ (g.record.drop 8).take 56 ++ t))

/-- Section NET. -/
def State.netSection (s : State) (p : Nat) : List Byte :=
  (s.portsOf p).flatMap (fun k =>
    leBytes 8 k ++ s.regBytes (Csr.niPmap k) ++ s.regBytes (Csr.niExpSerial k) ++ s.regBytes (Csr.niExpId k))

/-- Section TRANSIT. -/
def State.transitSection (s : State) (p : Nat) : List Byte :=
  (s.portsOf p).flatMap (fun k => padTo 8 (leBytes 1 k ++ leBytes 1 (s.getF (Csr.niXcap_CAP k))) ++
    (List.range 8).flatMap (fun j => s.regBytes (Csr.niXr k j)) ++ List.replicate 8 0)

/-! ## Registers and tiles of an open snapshot -/

/-- The die that copies a tile: that of its SRAM slice, or of its home channel (R368). -/
def State.copyDie (s : State) (tk : Nat) : Nat :=
  let e := s.tile tk
  if e.sram then e.slice / 32 else e.homeCh / 24

/-- The entry of the copy buffer is in use. -/
def SnapTile.inBuffer (t : SnapTile) : Bool := decide (t.stage = .reading) || decide (t.stage = .held) || decide (t.stage = .sent)

/-- Entries in use on a die over all partitions that `f` selects. -/
def State.bufUsed (s : State) (die : Nat) (f : SnapTile → Bool) : Nat :=
  ((s.snaps.flatMap (fun e => e.2.tiles)).filter (fun t => t.inBuffer && decide (t.die = die) && f t)).length

/-- RGS.BUF and PROGRESS follow. -/
def State.showSnap (s : State) (p : Nat) : State :=
  let x := s.snap p
  s.setFs [(Csr.rgsBuf_USED_W, s.bufUsed 0 (fun _ => true)), (Csr.rgsBuf_USED_E, s.bufUsed 1 (fun _ => true)),
    (Csr.rgsPartProgress_LEFT p, (x.tiles.filter (fun t => decide (t.stage = .todo) || decide (t.stage = .reading))).length),
    (Csr.rgsPartProgress_TOTAL p, x.tiles.length)]

/-- The listed tiles of shards, in list order. -/
def listTiles (p : Nat) (l : List Shard) : List SnapTile :=
  (l.mapIdx (fun i h => (i, h))).flatMap (fun y => (List.range y.2.count).map (fun j =>
    ⟨y.1, y.2.first + j, tileKey (objKey p y.2.obj) (y.2.first + j), .todo, [], [], false, false, false, 0⟩))

/-- STEP of the step record; what it reads as where it cannot be read is not given (a free value). -/
def State.stepOf (s : State) (p dva : Nat) : Nat × State :=
  match s.readBytes p dva 8 with
  | .ok b => (leNat b, s.touch p (tileSpan dva 8))
  | .error _ =>
    let d := s.draw 10
    (d.1 % 2 ^ 64, d.2)

/-- SNAP_BEGIN passes its checks (R364): capture, then WP on every listed tile that is not moving. -/
def State.beginSnap (s : State) (x p : Nat) (head tab : List Byte) : State :=
  let l := (entriesOf tab 32 (fieldAt head 0 2)).map parseShard
  let ts := listTiles p l
  let st := s.stepOf p (fieldAt head 8 8)
  let snap : Snap :=
    { ctx := x, job := fieldAt head 2 2, stepRec := fieldAt head 8 8, dpr := fieldAt head 0x10 8, step := st.1
      rcTmo := s.getF (Csr.sysPlanCtrl_RC_TMO p), node := s.getF Csr.sysNode_NODE
      sections := [s.clsSection p, s.policySection p, s.groupSection p, s.netSection p, s.transitSection p]
      shards := l, tiles := ts, area := none, failed := none, exchange := [] }
  let s1 := (st.2.setSnap p snap).setFs [(Csr.rgsPartState_STATE p, 1), (Csr.rgsPartState_CTX p, x)]
  (ts.foldl (fun t y =>
    let e := t.tile y.key
    if e.moving then t else t.setTile y.key { e with wp := true }) s1).showSnap p

/-- SNAP_BEGIN (R362 to R364). -/
def execSnapBegin (x : Fin 65536) (s : State) : Host.Outcome State Fault Refusal :=
  match s.freshCmd x 0x18, s.ctxPart x with
  | some c, some p =>
    match s.readBytes p (fieldAt c.bytes 8 8) 64 with
    | .error e => .next ((s.countHit e).complete x c (accStatus e) 0 0)
    | .ok head =>
      if !listHeadOk head then .next (s.complete x c 0x0E 0 0)
      else
        match s.readBytes p (fieldAt head 0x18 8) (32 * fieldAt head 0 2) with
        | .error e => .next ((s.countHit e).complete x c (accStatus e) 0 0)
        | .ok tab =>
          match s.snapCheck p head tab with
          | some st => .next (s.complete x c st 0 0)
          | none =>
            let s1 := s.touch p (tileSpan (fieldAt c.bytes 8 8) 64 ++ tileSpan (fieldAt head 0x18 8) (32 * fieldAt head 0 2))
            .next ((s1.unfresh x c).beginSnap x p head tab)
  | _, _ => .next s

/-- The started command of an OP that has been carried out so far and waits. -/
def State.waitingCmds (s : State) (x op : Nat) : List Cmd :=
  (s.ctx x).started.filter (fun c => !c.fresh && decide (c.op = op))

/-- SNAPSHOT_PROTECTED (R364, R371): every listed tile has WP, the snapshot gets its number and SNAP_BEGIN completes. -/
def execSnapshotProtected (p : Fin 8) (s : State) : Host.Outcome State Fault Refusal :=
  let x := s.snap p
  if s.snapSt p = 1 ∧ x.tiles.all (fun t => decide (t.stage ≠ .todo) || (s.tile t.key).wp) then
    let n := cnt s.snapNums p + 1
    let s1 := { s with snapNums := setCnt s.snapNums p n }
    let s2 := s1.setFs [(Csr.rgsPartState_STATE p, 2), (Csr.rgsPartState_SNAP_ID p, n)]
    .next ((s2.waitingCmds x.ctx 0x18).foldl (fun t c => t.complete x.ctx c 0 (n % 2 ^ 32) 0) s2)
  else .next s

/-! ## Copying (R367 to R370) -/

/-- Replace the `n`-th listed tile. -/
def State.setSnapTile (s : State) (p n : Nat) (t : SnapTile) : State :=
  let x := s.snap p
  (s.setSnap p { x with tiles := x.tiles.set n t }).showSnap p

/-- Replace a shard. -/
def State.setShard (s : State) (p i : Nat) (h : Shard) : State :=
  let x := s.snap p
  s.setSnap p { x with shards := x.shards.set i h }

/-- The copier of a tile's die takes the tile into a free entry. -/
def State.takeTile (s : State) (p n : Nat) (t : SnapTile) (touched : Bool) : State :=
  s.setSnapTile p n { t with stage := .reading, touched := touched, die := s.copyDie t.key }

/-- A write is held at the tile. -/
def State.writeWaitsAt (s : State) (p tk : Nat) : Bool :=
  s.held.any (fun h => decide (h.part = p) && h.writes.any (fun w => match s.place p w.1 with
    | .tile k _ _ => decide (k = tk)
    | _ => false))

/-- FIRST_TOUCH_COPY (R367): the first listed tile at which a write waits, while its die has a free entry. -/
def execFirstTouchCopy (p : Fin 8) (s : State) : Host.Outcome State Fault Refusal :=
  let x := s.snap p
  let st := s.snapSt p
  match (x.tiles.mapIdx (fun i t => (i, t))).find? (fun y => decide (y.2.stage = .todo) && (s.tile y.2.key).wp && s.writeWaitsAt p y.2.key) with
  | none => .next s
  | some (n, t) =>
    if st = 0 ∨ 3 < st ∨ 64 ≤ s.bufUsed (s.copyDie t.key) (fun _ => true) then .next s
    else .next (s.takeTile p n t true)

/-- BACKGROUND_COPY (R368): the copier of a die takes the next uncopied tile of the list that it holds, while the
background has entries left. -/
def execBackgroundCopy (p : Fin 8) (die : Fin 2) (s : State) : Host.Outcome State Fault Refusal :=
  let x := s.snap p
  let st := s.snapSt p
  match (x.tiles.mapIdx (fun i t => (i, t))).find? (fun y => decide (y.2.stage = .todo) && (s.tile y.2.key).wp && decide (s.copyDie y.2.key = die)) with
  | none => .next s
  | some (n, t) =>
    if (st ≠ 2 ∧ st ≠ 3) ∨ s.getF Csr.rgsCtrl_BG_ENTRIES ≤ s.bufUsed die (fun u => !u.touched)
        ∨ 64 ≤ s.bufUsed die (fun _ => true) then .next s
    else .next (s.takeTile p n t false)

/-- The 64 KiB of a tile. -/
def State.tileBytes (s : State) (tk : Nat) : List Byte := s.peekN (tileAddr (s.tile tk) 0) 65536

/-- A tile has been copied: WP is cleared and its writers go on. -/
def State.unprotect (s : State) (tk : Nat) : State := (s.setTile tk { s.tile tk with wp := false }).releaseHeld

/-- A tile cannot be copied: counted in its shard, digest of 0xFF (R369). -/
def State.snapPoison (s : State) (p n : Nat) (t : SnapTile) : State :=
  let s1 := s.setSnapTile p n { t with stage := .drained, poison := true, digest := List.replicate 32 0xFF }
  match (s1.snap p).shards[t.shard]? with
  | some h => s1.setShard p t.shard { h with poisoned := h.poisoned + 1 }
  | none => s1

/-- TILE_COPIED (R202, R203, R211, R367, R369): the `n`-th listed tile has been read; `ecc` is what the read met, `stall` the
writers' stall in units of 64 NCLK cycles. A ZERO tile's frame is not read. -/
def execTileCopied (p : Fin 8) (n : Nat) (ecc : Ecc) (stall : Nat) (s : State) : Host.Outcome State Fault Refusal :=
  match (s.snap p).tiles[n]? with
  | none => .next s
  | some t =>
    if t.stage ≠ .reading then .next s
    else
      let e := s.tile t.key
      let s0 := s.addF (Csr.rgsPartStall_TIME p) stall
      if e.poison then .next ((s0.snapPoison p n t).unprotect t.key)
      else if e.zero then
        .next ((s0.setSnapTile p n { t with stage := .held, zero := true, digest := sha256 (List.replicate 65536 0) }).unprotect t.key)
      else if ecc = .uncorrectable then .next (((s0.failTile t.key).snapPoison p n t).unprotect t.key)
      else
        let s1 := if ecc = .corrected then s0.countCorrected e 1 else s0
        let bs := s.tileBytes t.key
        .next ((s1.setSnapTile p n { t with stage := .held, copy := bs, digest := sha256 bs }).unprotect t.key)

/-- The snapshot's targets have failed at a shard: ABORTING (R370, R371). -/
def State.snapFail (s : State) (p i : Nat) : State :=
  (s.setSnap p { s.snap p with failed := some i }).setF (Csr.rgsPartState_STATE p) 5

/-- Target DVA of a listed tile. -/
def targetDva (h : Shard) (t : SnapTile) : Nat := h.tdva + (t.tile - h.first) * 65536

/-- A LOCAL copy is written: a ZERO target of a ZERO tile stays as it is. -/
def State.writeTarget (s : State) (p dva : Nat) (t : SnapTile) : State :=
  let here := match s.place p dva with
    | .tile tk _ _ => (s.tile tk).zero
    | _ => false
  if t.zero then (if here then s else s.demandWrite p (bytesAt dva (List.replicate 65536 0)))
  else s.demandWrite p (bytesAt dva t.copy)

/-- COPY_ENTRY_DRAIN (R368 to R370): the `n`-th listed tile's entry drains: its LOCAL writes are accepted; or its PEER copy is sent to
TNODE, and next acknowledged. A LOCAL target that cannot be written, and a PEER copy that no port can carry, abort the snapshot. -/
def execCopyEntryDrain (p : Fin 8) (n : Nat) (s : State) : Host.Outcome State Fault Refusal :=
  match (s.snap p).tiles[n]? with
  | none => .next s
  | some t =>
    match (s.snap p).shards[t.shard]? with
    | none => .next s
    | some h =>
      let dva := targetDva h t
      let free (u : State) : State := u.setSnapTile p n { t with stage := .drained, copy := [] }
      if t.stage = .sent ∧ s.snapSt p < 5 then .next (free s)
      else if t.stage ≠ .held ∨ 5 ≤ s.snapSt p then .next s
      else if h.peer then
        if (s.portsOf p).any (fun k => s.dataOn k) then
          let bs := if t.zero then List.replicate 65536 0 else t.copy
          let u : State := { s with peer := s.peer ++ [.tile h.tnode (s.snap p).job dva bs] }
          .next (u.setSnapTile p n { t with stage := .sent })
        else .next (s.snapFail p t.shard)
      else match s.writable p dva with
        | .error e => .next ((s.countHit e).snapFail p t.shard)
        | .ok _ => if s.writeWaits p dva then .next s else .next (free (s.writeTarget p dva t))

/-- PEER_COPY_RECEIVE (R325, R370): bytes of a peer's snapshot copy, addressed to node `dest` with tag `job`, have arrived at port `k`:
for this device a demand write into the partition that owns the port, answered with the last message of a tile, or at once when refused;
while a tile holds the bytes the message waits. For another node they go on by a route. `due`: no JOB_TAG_DROP record of the port in the
last 10 ms. -/
def execPeerCopyReceive (k : Fin 32) (dest job : BitVec 16) (dva : BitVec 48) (data : List Byte) (last due : Bool) (s : State) :
    Host.Outcome State Fault Refusal :=
  let drop : State := (s.addF (Csr.niRcStat_TAG_DROP k) 1).limited due
    ⟨0x0604, 2, 255, 4, k, 0xFFFF, 0, [(2, job.toNat), (2, dest.toNat)]⟩
  match s.niPart k with
  | none => .next s
  | some p =>
    if !s.dataOn k then .next (s.addF (Csr.niRcStat_TAG_DROP k) 1)
    else if dest.toNat ≠ s.getF Csr.sysNode_NODE then
      match s.route k dest.toNat job.toNat with
      | some o => .next { s with peer := s.peer ++ [.pass o dest.toNat job.toNat dva.toNat data] }
      | none => .next drop
    else if job.toNat ≠ s.getF (Csr.niPmap_JOB k) ∨ job.toNat = 0 then .next drop
    else
      let ws := bytesAt dva.toNat data
      let as := ws.map (fun w => w.1)
      match s.writableAll p ws with
      | .error e => .next { (s.countHit e) with peer := s.peer ++ [.answer k dva.toNat false] }
      | .ok _ =>
        if as.any (fun a => s.writeWaits p a) then .next (s.stall (.record 4 k) p as)
        else
          let t := s.demandWrite p ws
          if last then .next { t with peer := t.peer ++ [.answer k dva.toNat true] } else .next t

/-- SNAPSHOT_TARGET_FAILURE (R370): the peer that a copy of shard `i` was sent to refuses it or does not acknowledge it. -/
def execSnapshotTargetFailure (p : Fin 8) (n : Nat) (s : State) : Host.Outcome State Fault Refusal :=
  if 1 ≤ s.snapSt p ∧ s.snapSt p ≤ 4 ∧ (s.snap p).tiles.any (fun t => decide (t.shard = n) && decide (t.stage = .sent)) then
    .next (s.snapFail p n)
  else .next s

/-! ## The manifest (R373, R374) -/

/-- The manifest's bytes with HASH as 0, from the snapshot, the shards in their present state. -/
def State.manifestBody (s : State) (p : Nat) : List Byte :=
  let x := s.snap p
  let poisons := x.tiles.filter (fun t => t.poison)
  let shards := x.shards.flatMap (fun h =>
    leBytes 4 h.obj ++ leBytes 4 h.first ++ leBytes 4 h.count ++ leBytes 1 h.peer.toNat ++
    leBytes 1 (h.verify.toNat + 2 * h.verified.toNat + 4 * h.mismatch.toNat + 8 * (decide (0 < h.poisoned)).toNat) ++
    leBytes 2 h.vgid ++ leBytes 8 h.tdva ++ leBytes 2 h.tnode ++ leBytes 2 0 ++ leBytes 4 h.poisoned ++
    padTo 32 h.hash)
  let poison := poisons.flatMap (fun t => leBytes 2 t.shard ++ leBytes 4 t.tile ++ leBytes 2 0)
  let secs := poison :: x.sections
  let offs := secs.foldl (fun (a : List Nat × Nat) b => (a.1 ++ [a.2], a.2 + b.length)) ([], 128 + shards.length)
  let slot := s.getF Csr.rgsFw_BOOTED
  let flags := (!x.exchange.isEmpty).toNat + 2 * (x.shards.any (fun h => h.mismatch)).toNat
    + 4 * (!poisons.isEmpty).toNat
  leBytes 4 0x4D534752 ++ leBytes 1 (s.getF Csr.rgsId_MAN_VER) ++ leBytes 1 flags ++ leBytes 1 p ++ leBytes 1 x.rcTmo ++
  leBytes 8 (cnt s.snapNums p) ++ leBytes 8 x.step ++ leBytes 8 (s.rd Csr.sysSerial).toNat ++ leBytes 2 x.node ++
  leBytes 2 x.shards.length ++ leBytes 4 poisons.length ++
  leBytes 4 (s.getF (if slot = 0 then Csr.rgsFwA_VER else Csr.rgsFwB_VER)) ++ leBytes 4 offs.2 ++ leBytes 8 x.stepRec ++
  leBytes 8 x.dpr ++ offs.1.flatMap (leBytes 4) ++ List.replicate 8 0 ++ List.replicate 32 0 ++ shards ++ secs.flatten

/-- The manifest with its HASH. -/
def sealManifest (b : List Byte) : List Byte := b.take 0x60 ++ sha256 b ++ b.drop 0x80

/-- The size of the manifest as the snapshot stands. -/
def State.manifestSize (s : State) (p : Nat) : Nat := (s.manifestBody p).length

/-- A shard with its HASH (R373). -/
def hashShard (x : Snap) (i : Nat) (h : Shard) : Shard :=
  { h with hash := sha256 ((x.tiles.filter (fun t => decide (t.shard = i))).flatMap (fun t => t.digest)) }

/-! ## SNAP_COMMIT and the end of a snapshot (R371, R372) -/

/-- A snapshot is gone: IDLE. -/
def State.closeSnap (s : State) (p : Nat) : State :=
  (((s.setSnap p Snap.none).setF (Csr.rgsPartState_STATE p) 0)).setFs
    [(Csr.rgsBuf_USED_W, (s.setSnap p Snap.none).bufUsed 0 (fun _ => true)), (Csr.rgsBuf_USED_E, (s.setSnap p Snap.none).bufUsed 1 (fun _ => true))]

/-- A started SNAP_COMMIT asks for ABORT. -/
def Cmd.aborts (c : Cmd) : Bool := bitOf (fieldAt c.bytes 0x14 1) 0

/-- SNAP_COMMIT (R372). One without ABORT waits while the snapshot is being protected, sealed or verified, and is answered at
the abort's end while one runs. -/
def execSnapCommit (x : Fin 65536) (s : State) : Host.Outcome State Fault Refusal :=
  match s.freshCmd x 0x19, s.ctxPart x with
  | some c, some p =>
    let st := s.snapSt p
    let dva := fieldAt c.bytes 8 8
    let n := fieldAt c.bytes 0x10 4
    if st = 0 then
      if s.flag (Csr.rgsPartState_ABORTED p) then .next ((s.setF (Csr.rgsPartState_ABORTED p) 0).complete x c 0x13 0 0)
      else .next (s.complete x c 0x0E 0 0)
    else if (s.snap p).ctx ≠ x then .next (s.complete x c 0x0D 0 0)
    else if c.aborts then .next ((s.unfresh x c).setF (Csr.rgsPartState_STATE p) 5)
    else if st = 5 then .next (s.unfresh x c)
    else if st ≠ 2 then .next s
    else if !s.inObject p dva n true then .next (s.complete x c 0x0D 0 0)
    else if n < s.manifestSize p then .next (s.complete x c 0x0E 0 (s.manifestSize p))
    else .next (((s.unfresh x c).setSnap p { s.snap p with area := some (dva, n) }).setF (Csr.rgsPartState_STATE p) 3)
  | _, _ => .next s

/-- The first shard with a poisoned tile or a mismatch. -/
def firstBad (l : List Shard) : Option Nat := l.findIdx? (fun h => decide (0 < h.poisoned) || h.mismatch)

/-- The snapshot ends well: RESULT, and every waiting SNAP_COMMIT completes with DONE or PARTIAL (R372). -/
def State.finishSnap (s : State) (p : Nat) : State :=
  let x := s.snap p
  let poisons := (x.tiles.filter (fun t => t.poison)).length
  let bad := (x.shards.filter (fun h => h.mismatch)).length
  let s1 := (s.setFs [(Csr.rgsPartResult_POISONED p, poisons), (Csr.rgsPartResult_MISMATCH p, bad)]).closeSnap p
  (s1.waitingCmds x.ctx 0x19).foldl (fun t c =>
    t.complete x.ctx c (firstBad x.shards).isSome.toNat ((firstBad x.shards).getD 0) (poisons + 2 ^ 32 * bad)) s1

/-- The manifest is written where SNAP_COMMIT said. -/
def State.writeManifest (s : State) (p : Nat) : State :=
  match (s.snap p).area with
  | some (dva, _) => s.demandWrite p (bytesAt dva (sealManifest (s.manifestBody p)))
  | none => s

/-! ## Verification (R375) -/

/-- The shards that an exchange compares. -/
def Snap.verifying (x : Snap) (gid : Nat) : List (Nat × Shard) :=
  (x.shards.mapIdx (fun i h => (i, h))).filter (fun y => y.2.verify && decide (y.2.vgid = gid))

/-- The exchange of a group begins: it takes the group's next sequence number and the chunks that came early. -/
def State.beginExchange (s : State) (p gid : Nat) : State :=
  match s.group p gid with
  | none => s
  | some g =>
    let n := ((s.snap p).verifying gid).length
    let bytes := padTo 64 (leBytes 1 exchangeOp ++ leBytes 1 0 ++ leBytes 2 gid ++ leBytes 4 0 ++ leBytes 2 32768)
    let o : PftOp := ⟨s.posted, p, bytes, g.nextSeq, 0, true, false, [⟨0, [], List.replicate n none, false⟩], [], [], [], [], [], 0,
      false, false, false, 0, 0, false⟩
    let s1 := s.setGroup p gid (some { g with nextSeq := (g.nextSeq + 1) % 65536 })
    let t := { s1 with posted := s.posted + 1 }.takeEarly o g
    let x := t.1.snap p
    ({ t.1 with ops := t.1.ops ++ [t.2] }).setSnap p { x with exchange := x.exchange ++ [(gid, s.posted)] }

/-- Messages of six hashes: number and hashes. -/
def hashMessages (hs : List (List Byte)) (fuel i : Nat) : List (Nat × List Byte) :=
  match fuel, hs with
  | 0, _ => []
  | _, [] => []
  | f + 1, h :: r => (i, ((h :: r).take 6).flatten) :: hashMessages ((h :: r).drop 6) f (i + 1)

/-- A message of the exchange to the plus neighbour along axis number `i`. -/
def State.exchangeChunk (s : State) (g : Group) (o : PftOp) (i axis m : Nat) (body : List Byte) (poison : Bool) : OutChunk :=
  ⟨axis, false, some false, m, 3, chunkBytes g.ver 4 poison.toNat (g.node (neighbour g.record axis false)) g.job
    (s.getF Csr.sysNode_NODE) o.gid o.seq (2 * i) (192 * m) body.length 0 body⟩

/-- What a received message says of the own hashes from `6 m` on: 1 + node where it differs, 0 where it cannot be compared,
none where it agrees. -/
def compareHashes (own : List (List Byte)) (res : List (Option Nat)) (m node : Nat) (data : List Byte) (lost : Bool) : List (Option Nat) :=
  res.mapIdx (fun j r =>
    if j / 6 ≠ m then r
    else if lost then some (r.getD 0)
    else if (data.drop (32 * (j % 6))).take 32 = own.getD j [] then r
    else some (if r.getD 0 = 0 then node + 1 else r.getD 0))

/-- The messages of one axis that have arrived are compared and passed on. -/
def State.exchangeTake (s : State) (g : Group) (o : PftOp) (own : List (List Byte)) (i axis : Nat) (ms : List (Nat × List Byte)) : PftOp :=
  ms.foldl (fun o y =>
    match o.arrived.find? (fun a => decide (a.step = 2 * i) && decide (a.off = 192 * y.1)) with
    | none => o
    | some a =>
      if (0, 2 * i, 192 * y.1) ∈ o.got then o
      else
        let r := o.half 0
        let origin := g.node (rankOf g.record (fun z => if z = axis then 0 else recPos g.record z))
        let o1 := o.setHalf 0 { r with res := compareHashes own r.res y.1 origin a.data a.poison }
        let out := if recPos g.record axis + 1 < recExt g.record axis then [s.exchangeChunk g o i axis y.1 a.data a.poison] else []
        { o1 with arrived := o1.arrived.erase a, got := (0, 2 * i, 192 * y.1) :: o1.got, out := o1.out ++ out }) o

/-- The exchange goes on along its axes as far as it can. -/
def State.exchangeRun (s : State) (g : Group) (o : PftOp) (own : List (List Byte)) (i : Nat) (axes : List Nat) : PftOp :=
  match axes with
  | [] => o.setHalf 0 { o.half 0 with ended := true }
  | a :: r =>
    let ms := hashMessages own own.length 0
    if recExt g.record a = 1 then s.exchangeRun g o own (i + 1) r
    else if recPos g.record a = 0 then
      let new := ms.filter (fun y => decide ((0, 2 * i, 192 * y.1) ∉ o.emitted))
      s.exchangeRun g { o with
        out := o.out ++ new.map (fun y => s.exchangeChunk g o i a y.1 y.2 false)
        emitted := new.map (fun y => (0, 2 * i, 192 * y.1)) ++ o.emitted } own (i + 1) r
    else
      let o1 := s.exchangeTake g o own i a ms
      if ms.all (fun y => decide ((0, 2 * i, 192 * y.1) ∈ o1.got)) then s.exchangeRun g o1 own (i + 1) r else o1

/-- One exchange makes what progress it can. -/
def State.exchangeStep (s : State) (p : Nat) (e : Nat × Nat) : State :=
  match s.ops.find? (fun o => decide (o.stamp = e.2)), s.group p e.1 with
  | some o, some g =>
    if (o.half 0).ended then s
    else s.setOp (s.exchangeRun g o (((s.snap p).verifying e.1).map (fun y => y.2.hash)) 0 (recAxes g.record))
  | _, _ => s

/-- The exchange is over: it has run to its end and its messages are accepted; or its group has been left. -/
def State.exchangeDone (s : State) (e : Nat × Nat) : Bool :=
  match s.ops.find? (fun o => decide (o.stamp = e.2)) with
  | some o => (o.half 0).ended && o.out.isEmpty && o.flight.isEmpty
  | none => true

/-- The results of an exchange go to its shards, with one SNAP_HASH_MISMATCH record for each that differs. -/
def State.exchangeEnd (s : State) (p : Nat) (e : Nat × Nat) : State :=
  let vs := (s.snap p).verifying e.1
  let res := match s.ops.find? (fun o => decide (o.stamp = e.2)) with
    | some o => (o.half 0).res
    | none => vs.map (fun _ => some 0)
  let s1 := (vs.zip res).foldl (fun t y => match y.2 with
    | none => t.setShard p y.1.1 { y.1.2 with verified := true }
    | some 0 => t
    | some (n + 1) => (t.setShard p y.1.1 { y.1.2 with mismatch := true }).recordP (some p) 0x0802 1 9 0 0xFFFF 0
        [(8, cnt s.snapNums p), (2, y.1.1), (2, n)]) s
  { s1 with ops := s1.ops.filter (fun o => decide (o.stamp ≠ e.2)) }

/-- SNAPSHOT_VERIFY (R375): the exchanges go on; when all are over the manifest is rewritten and SNAP_COMMIT completes. -/
def execSnapshotVerify (p : Fin 8) (s : State) : Host.Outcome State Fault Refusal :=
  if s.snapSt p ≠ 4 ∨ s.fatal then .next s
  else
    let s1 := ((s.snap p).exchange.foldl (fun t e => t.exchangeStep p e) s).pump
    if (s.snap p).exchange.all (fun e => s1.exchangeDone e) then
      .next (((((s.snap p).exchange.foldl (fun t e => t.exchangeEnd p e) s1).writeManifest p)).finishSnap p)
    else .next s1

/-- SNAPSHOT_SEALED (R371 to R374): every tile is copied and drained. The shard hashes are formed and the manifest written; an
area that has become too small, or cannot be written, leaves the snapshot OPEN. -/
def execSnapshotSealed (p : Fin 8) (s : State) : Host.Outcome State Fault Refusal :=
  let x := s.snap p
  if s.snapSt p ≠ 3 ∨ x.tiles.any (fun t => decide (t.stage ≠ .drained)) then .next s
  else
    let s1 := s.setSnap p { x with shards := x.shards.mapIdx (hashShard x) }
    let size := s1.manifestSize p
    let a := x.area.getD (0, 0)
    let back (st info : Nat) : State :=
      let s2 := (s1.setSnap p { s1.snap p with area := none }).setF (Csr.rgsPartState_STATE p) 2
      (s2.waitingCmds x.ctx 0x19).foldl (fun t c => t.complete x.ctx c st 0 info) s2
    if a.2 < size then .next (back 0x0E size)
    else match s1.writableAll p (bytesAt a.1 (List.replicate size 0)) with
      | .error e => .next (back (accStatus e) 0)
      | .ok _ =>
        let s2 := s1.writeManifest p
        let gids := ((x.shards.filter (fun h => h.verify)).map (fun h => h.vgid)).eraseDups
        if gids.isEmpty then .next (s2.finishSnap p)
        else .next ((gids.foldl (fun t g => t.beginExchange p g) s2).setF (Csr.rgsPartState_STATE p) 4)

/-! ## Aborting (R371) -/

/-- An aborted snapshot ends: WP cleared, entries and exchanges discarded, SNAP_ABORTED; what waits completes. The shard that
the record names where none is at fault is not given (a free value). -/
def State.abortSnap (s : State) (p : Nat) : State :=
  let x := s.snap p
  let d := s.draw 10
  let shard := x.failed.getD (d.1 % 65536)
  let s1 := (x.tiles.foldl (fun t y => t.setTile y.key { t.tile y.key with wp := false }) d.2)
  let stamps : List Nat := x.exchange.map (fun e => e.2)
  let s2 : State := { s1 with ops := s1.ops.filter (fun o => !decide (o.stamp ∈ stamps)) }
  let s3 : State := ((s2.closeSnap p).releaseHeld).recordP (some p) 0x0801 1 9 0 0xFFFF 0 [(8, cnt s.snapNums p), (2, shard)]
  let commits := s3.waitingCmds x.ctx 0x19
  let s4 := if commits.isEmpty && x.failed.isSome then s3.setF (Csr.rgsPartState_ABORTED p) 1 else s3
  let s5 := (s4.waitingCmds x.ctx 0x18).foldl (fun t c => t.complete x.ctx c 0x13 shard 0) s4
  commits.foldl (fun t c => if c.aborts then t.complete x.ctx c 0 0 0 else t.complete x.ctx c 0x13 shard 0) s5

/-- SNAP_ABORTED (R371). -/
def execSnapAborted (p : Fin 8) (s : State) : Host.Outcome State Fault Refusal :=
  if s.snapSt p = 5 then .next (s.abortSnap p) else .next s

end Sys2Proof.Machine
end

