-- ==== Sys2Proof/Machine/Restore.lean ====
section
/-! DEFINITION. RESTORE (R376 to R378): a manifest is checked, its copies are hashed, and the snapshot is applied. -/

namespace Sys2Proof.Machine

/-! ## The manifest as read (R374) -/

/-- A manifest in parts: version, header numbers, shards, poisoned tiles, and the sections as lists of entries. -/
structure Manifest where
  ver : Nat
  rcTmo : Nat
  serial : Nat
  node : Nat
  stepRec : Nat
  dpr : Nat
  shards : List Shard
  poisons : List (Nat × Nat)
  cls : List (List Byte)
  policy : List (List Byte)
  groups : List (List Byte)
  net : List (List Byte)
  transit : List (List Byte)
deriving DecidableEq, Repr

/-- Entries of `n` bytes that fill a byte string. -/
def cutAll (b : List Byte) (n : Nat) : List (List Byte) := entriesOf b n (b.length / n)

/-- The entries of section GROUP: a record, its member table, padding to 64 bytes. -/
def cutGroups (b : List Byte) (fuel : Nat) : List (List Byte) :=
  match fuel, b with
  | 0, _ => []
  | _, [] => []
  | f + 1, b =>
    let n := ceilDiv (64 + 2 * recSize b) 64 * 64
    b.take n :: cutGroups (b.drop n) f

/-- Section `i` of a manifest of `size` bytes: from its offset to that of the next section. -/
def sectionBytes (b : List Byte) (i next : Nat) : List Byte :=
  let o := fieldAt b (0x40 + 4 * i) 4
  (b.take next).drop o

/-- A shard of section SHARD. -/
def parseSealed (b : List Byte) : Shard :=
  { obj := fieldAt b 0 4, first := fieldAt b 4 4, count := fieldAt b 8 4, peer := decide (fieldAt b 0x0C 1 = 1)
    verify := bitOf (fieldAt b 0x0D 1) 0, vgid := fieldAt b 0x0E 2, tdva := fieldAt b 0x10 8, tnode := fieldAt b 0x18 2
    poisoned := fieldAt b 0x1C 4, hash := (b.drop 0x20).take 32, verified := bitOf (fieldAt b 0x0D 1) 1
    mismatch := bitOf (fieldAt b 0x0D 1) 2 }

/-- Where each section ends: at the next one, the last at SIZE. A version 0x01 manifest has no TRANSIT section. -/
def secEnd (b : List Byte) (i : Nat) : Nat :=
  let last := if fieldAt b 4 1 = 1 then 4 else 5
  if i < last then fieldAt b (0x44 + 4 * i) 4 else fieldAt b 0x2C 4

/-- The manifest in parts. -/
def parseManifest (b : List Byte) : Manifest :=
  let sec (i : Nat) : List Byte := sectionBytes b i (secEnd b i)
  { ver := fieldAt b 4 1, rcTmo := fieldAt b 7 1, serial := fieldAt b 0x18 8, node := fieldAt b 0x20 2
    stepRec := fieldAt b 0x30 8, dpr := fieldAt b 0x38 8
    shards := (entriesOf (b.drop 0x80) 64 (fieldAt b 0x22 2)).map parseSealed
    poisons := (cutAll (sec 0) 8).map (fun e => (fieldAt e 0 2, fieldAt e 2 4))
    cls := cutAll (sec 1) 32, policy := cutAll (sec 2) 16, groups := cutGroups (sec 3) (sec 3).length
    net := cutAll (sec 4) 32, transit := if fieldAt b 4 1 = 1 then [] else cutAll (sec 5) 80 }

/-- The header's reserved bytes are 0, and SIZE holds the shards and the sections in their order. -/
def headerOk (b : List Byte) : Bool :=
  let size := fieldAt b 0x2C 4
  let n := if fieldAt b 4 1 = 1 then 5 else 6
  let offs := (0x80 + 64 * fieldAt b 0x22 2) :: (List.range n).map (fun i => fieldAt b (0x40 + 4 * i) 4) ++ [size]
  decide (fieldAt b 0 4 = 0x4D534752) && decide (fieldAt b 5 1 < 8) && zeroAt b 0x58 8 && decide (fieldAt b 0x30 8 < 2 ^ 48)
    && decide (fieldAt b 0x38 8 < 2 ^ 48) && (offs.zip (offs.drop 1)).all (fun y => decide (y.1 ≤ y.2))

/-- Reserved bytes of the sections are 0. -/
def sectionsOk (b : List Byte) (m : Manifest) : Bool :=
  (entriesOf (b.drop 0x80) 64 (fieldAt b 0x22 2)).all (fun e => zeroAt e 0x1A 2 && decide (fieldAt e 0x0C 1 < 2) && decide (fieldAt e 0x0D 1 < 16))
    && (entriesOf (b.drop 0x80) 64 (fieldAt b 0x22 2)).all (fun e => decide (fieldAt e 0 4 < 2 ^ 20))
    && m.groups.all (fun e => decide (fieldAt e 0 2 < 4096) && decide (fieldAt e 0x28 8 < 2 ^ 48) && zeroAt e 0x30 16
      && zeroFrom e (64 + 2 * recSize e))
    && (cutAll (sectionBytes b 0 (secEnd b 0)) 8).all (fun e => zeroAt e 6 2)
    && m.policy.all (fun e => zeroAt e 3 1 && zeroAt e 8 8) && m.transit.all (fun e => zeroAt e 2 6 && zeroAt e 0x48 8)

/-- Check 1 of R376 on a whole manifest. -/
def manifestOk (b : List Byte) : Bool :=
  headerOk b && sectionsOk b (parseManifest b)
    && decide (sha256 (b.take 0x60 ++ List.replicate 32 0 ++ b.drop 0x80) = (b.drop 0x60).take 32)

/-! ## Checks (R376) -/

/-- Some classroom of the partition is STARTING, RUNNING or HALTING. -/
def State.classroomsRun (s : State) (p : Nat) : Bool :=
  (setBits (s.getF (Csr.sysPartCls_MASK p)) 64).any (fun c => decide (1 ≤ s.getF (Csr.clsStatus_STATE c)) && decide (s.getF (Csr.clsStatus_STATE c) ≤ 3))

/-- Check 3: NOT_PERMITTED. -/
def State.restoreForbidden (s : State) (x p : Nat) (m : Manifest) : Bool :=
  decide (s.snapSt p ≠ 0) || s.classroomsRun p
    || m.cls.any (fun e => !bitOf (s.getF (Csr.sysPartCls_MASK p)) (fieldAt e 0 4))
    || m.net.any (fun e => !bitOf (s.getF (Csr.sysPartNi_MASK p)) (fieldAt e 0 8))
    || m.transit.any (fun e => !bitOf (s.getF (Csr.sysPartNi_MASK p)) (fieldAt e 0 1))
    || m.groups.any (fun e => match s.group p (fieldAt e 0 2) with
        | some g => decide (g.ctx ≠ x)
        | none => false)
    || m.shards.any (fun h => (s.shardBase p h).isNone || decide (h.count = 0))

/-- The tile of a shard is listed in POISON. -/
def Manifest.lost (m : Manifest) (i t : Nat) : Bool := m.poisons.any (fun y => decide (y.1 = i) && decide (y.2 = t))

/-- The bytes of a shard's copy, tile by tile; none for a poisoned tile, an error where a tile cannot be read. PEER copies
are what TNODE answers: `far`. -/
def State.shardCopy (s : State) (p : Nat) (m : Manifest) (i : Nat) (h : Shard) (far : List Byte) :
    Except (Option AccErr) (List (Option (List Byte))) :=
  (List.range h.count).mapM (fun j =>
    if m.lost i (h.first + j) then .ok none
    else if h.peer then
      let b := (far.drop (65536 * j)).take 65536
      if b.length = 65536 then .ok (some b) else .error none
    else match s.readBytes p (h.tdva + 65536 * j) 65536 with
      | .ok b => .ok (some b)
      | .error e => .error (some e))

/-- The hash of a copy (R373). -/
def copyHash (l : List (Option (List Byte))) : List Byte :=
  sha256 (l.flatMap (fun b => match b with
    | some x => sha256 x
    | none => List.replicate 32 0xFF))

/-- Check 5: the copies of all shards, or the first that differs from its HASH, and the read that failed. -/
def State.readCopies (s : State) (p : Nat) (m : Manifest) (far : List (List Byte)) :
    Except (Nat × Option AccErr) (List (List (Option (List Byte)))) :=
  (m.shards.mapIdx (fun i h => (i, h))).mapM (fun y =>
    match s.shardCopy p m y.1 y.2 (far.getD y.1 []) with
    | .ok l => if copyHash l = y.2.hash then .ok l else .error (y.1, none)
    | .error e => .error (y.1, e))

/-! ## Applying (R376 steps 1 to 5) -/

/-- Step 1: UNLOAD, NET and RC_TMO. -/
def State.restoreNet (s : State) (p : Nat) (m : Manifest) : State :=
  let s1 := (s.planUnload p).setF (Csr.sysPlanCtrl_RC_TMO p) m.rcTmo
  m.net.foldl (fun t e =>
    let k := fieldAt e 0 8
    (((t.store (Csr.niPmap k) (fieldAt e 8 8) allBits).store (Csr.niExpSerial k) (fieldAt e 0x10 8) allBits).store
      (Csr.niExpId k) (fieldAt e 0x18 8) allBits).sendRecord k) s1

/-- TRANSIT of step 2; without the section every route is invalidated and every cap set to 0. -/
def State.restoreTransit (s : State) (p : Nat) (m : Manifest) : State :=
  if m.ver = 1 then
    (s.portsOf p).foldl (fun t k => (List.range 8).foldl (fun u j => u.setF (Csr.niXr_VALID k j) 0) (t.setF (Csr.niXcap_CAP k) 0)) s
  else m.transit.foldl (fun t e =>
    let k := fieldAt e 0 1
    (List.range 8).foldl (fun u j => u.store (Csr.niXr k j) (fieldAt e (8 + 8 * j) 8) allBits) (t.setF (Csr.niXcap_CAP k) (fieldAt e 1 1))) s

/-- POLICY of step 2 (R399): POLICY_CHANGED for each policy whose state changes. -/
def State.restorePolicy (s : State) (p : Nat) (m : Manifest) : State :=
  m.policy.foldl (fun t e =>
    let id := fieldAt e 0 1
    let arm := decide (fieldAt e 1 1 = 1)
    let param := fieldAt e 4 4
    if id = 0 ∨ 7 < id ∨ (t.policyArmed id p = arm ∧ t.policyParam id p = param) then t
    else (t.putPolicy id p arm param).policyChanged id p arm param) s

/-- A port of another partition is ENABLED. -/
def State.othersEnabled (s : State) (p : Nat) : Bool :=
  (List.range 32).any (fun k => s.dataOn k && !bitOf (s.getF (Csr.sysPartNi_MASK p)) k)

/-- The node ID of step 2, and whether it was restored. -/
def State.restoreNode (s : State) (p : Nat) (m : Manifest) : State × Bool :=
  if s.othersEnabled p then (s, false)
  else if s.getF Csr.sysNode_NODE = m.node then (s, true)
  else ((List.range 32).foldl (fun t k => t.sendRecord k) (s.setF Csr.sysNode_NODE m.node), true)

/-- Step 3: section CLS. -/
def State.restoreCls (s : State) (m : Manifest) : State :=
  m.cls.foldl (fun t e =>
    let c := fieldAt e 0 4
    (((t.store (Csr.clsSrSeq c) (fieldAt e 4 4) allBits).store (Csr.clsSrKey c) (fieldAt e 8 8) allBits).store
      (Csr.clsQuizCtrl c) (fieldAt e 0x10 8) allBits).store (Csr.clsQuizKey c) (fieldAt e 0x18 8) allBits) s

/-- Step 4: the context leaves its groups and joins the saved ones. -/
def State.restoreGroups (s : State) (x p : Nat) (m : Manifest) : State :=
  let own := s.groups.filterMap (fun e => match e.2 with
    | some g => if g.ctx = x ∧ e.1 / 4096 = p then some (e.1 % 4096) else none
    | none => none)
  m.groups.foldl (fun t e =>
    let b := e.take 64
    let table := (List.range (recSize b)).map (fun i => fieldAt e (64 + 2 * i) 2)
    (t.setGroup p (fieldAt b 0 2) (some ⟨x, b, table, fieldAt b 6 2⟩)).addF (Csr.pftPartGroups_JOINED p) 1)
    (own.foldl (fun t g => t.leaveGroup p g) s)

/-- A tile of a copy is written into its range; a poisoned target, or a tile without a copy, is skipped. -/
def State.restoreTile (s : State) (p dva : Nat) (copy : Option (List Byte)) : State × Nat :=
  match copy, s.place p dva with
  | some b, .tile tk _ _ => if (s.tile tk).poison then (s, 1) else (s.writeAll p (bytesAt dva b), 0)
  | _, _ => (s, 1)

/-- Step 5: every shard into its range; tiles skipped. -/
def State.restoreShards (s : State) (p : Nat) (m : Manifest) (copies : List (List (Option (List Byte)))) : State × Nat :=
  (m.shards.zip copies).foldl (fun t y =>
    let base := (s.shardBase p y.1).getD 0
    (y.2.mapIdx (fun j c => (j, c))).foldl (fun (u : State × Nat) z =>
      let r := u.1.restoreTile p (base + 65536 * z.1) z.2
      (r.1, u.2 + r.2)) t) (s, 0)

/-! ## Consistency (R377) -/

/-- A number in memory; where it cannot be read its value is not given (a free value). -/
def State.numberAt (s : State) (p dva n : Nat) : State × Nat × Bool :=
  match s.readBytes p dva n with
  | .ok b => (s.touch p (tileSpan dva n), leNat b, true)
  | .error _ =>
    let d := s.draw 10
    (d.2, d.1 % 2 ^ (8 * n), false)

/-- One comparison of R377: a difference, or a value that cannot be read, writes its record. -/
def State.compareAt (s : State) (p index found expected : Nat) : State × Bool :=
  let f := s.numberAt p found 8
  let e := f.1.numberAt p expected 8
  if f.2.1 = e.2.1 ∧ f.2.2 ∧ e.2.2 then (e.1, true)
  else (e.1.recordP (some p) 0x0803 2 9 0 0xFFFF 0 [(2, index), (8, f.2.1), (8, e.2.1)], false)

/-- Step 6: the indices of what differs, in the order of comparison. -/
def State.checkStreams (s : State) (p : Nat) (m : Manifest) : State × List Nat :=
  let a := s.compareAt p 0xFFFF m.stepRec m.dpr
  let n := a.1.numberAt p (m.dpr + 0x14) 2
  let tab := n.1.numberAt p (m.dpr + 0x18) 6
  (List.range (min n.2.1 1024)).foldl (fun (t : State × List Nat) i =>
    let d := t.1.numberAt p (tab.2.1 + 16 * i) 6
    let c := d.1.compareAt p i (d.2.1 + 8) (tab.2.1 + 16 * i + 8)
    (c.1, if c.2 then t.2 else t.2 ++ [i])) (tab.1, if a.2 then [] else [0xFFFF])

/-! ## The command -/

/-- A read that failed, where one did, is counted (R210). -/
def State.countRead (s : State) (e : Option AccErr) : State :=
  match e with
  | some x => s.countHit x
  | none => s

/-- The checks of R376 in order: a status, DETAIL and the read that failed, or the manifest and its copies. -/
def State.restoreCheck (s : State) (x p dva : Nat) (far : List (List Byte)) :
    Except (Nat × Nat × Option AccErr) (Manifest × List (List (Option (List Byte)))) :=
  match s.readBytes p dva 128 with
  | .error e => .error (accStatus e, 0, some e)
  | .ok head =>
    if !headerOk head then .error (0x0E, 0, none)
    else match s.readBytes p dva (fieldAt head 0x2C 4) with
      | .error e => .error (accStatus e, 0, some e)
      | .ok b =>
        let m := parseManifest b
        if !manifestOk b then .error (0x0E, 0, none)
        else if m.ver ≠ s.getF Csr.rgsId_MAN_VER ∧ m.ver ≠ s.getF Csr.rgsId_MAN_MIN then .error (0x11, 0, none)
        else if s.restoreForbidden x p m then .error (0x0D, 0, none)
        else if m.groups.any (fun e => decide (s.getF Csr.sysNode_PROTO < fieldAt e 4 1)) then .error (0x11, 0, none)
        else match s.readCopies p m far with
          | .error i => .error (0x10, i)
          | .ok l => .ok (m, l)

/-- What a RESTORE reads of its own partition: the manifest and its LOCAL copies (R198, R376). -/
def State.restoreReads (s : State) (p dva : Nat) (m : Manifest) : List Nat :=
  tileSpan dva (s.memNat p (dva + 0x2C) 4) ++
    (m.shards.filter (fun h => !h.peer)).flatMap (fun h => tileSpan h.tdva (65536 * h.count))

/-- A tile that a manifest would write is on its way. -/
def State.shardMoves (s : State) (p : Nat) (m : Manifest) : Bool :=
  m.shards.any (fun h => (List.range h.count).any (fun j => (s.tile (tileKey (objKey p h.obj) (h.first + j))).moving))

/-- The snapshot applied (R376), with the status, DETAIL and INFO of the completion. -/
def State.applySnap (s : State) (x p : Nat) (m : Manifest) (copies : List (List (Option (List Byte)))) : State × Nat × Nat × Nat :=
  let mgmt := decide (s.getF (Csr.ctxState_PORT x) = s.mgmtPort)
  let s1 := s.restoreNet p m
  let n : State × Bool := if mgmt then ((s1.restoreTransit p m).restorePolicy p m).restoreNode p m else (s1, true)
  let s2 := (n.1.restoreCls m).restoreGroups x p m
  let w := s2.restoreShards p m copies
  let c := w.1.checkStreams p m
  let streams := (c.2.filter (fun i => decide (i ≠ 0xFFFF))).length
  let other := decide (m.serial ≠ (s.rd Csr.sysSerial).toNat)
  let info := w.2 + 2 ^ 32 * (!mgmt).toNat + 2 ^ 33 * (!n.2).toNat + 2 ^ 34 * other.toNat + 2 ^ 48 * streams
  let status := if !c.2.isEmpty then 0x14 else if 0 < w.2 ∨ !mgmt ∨ !n.2 then 1 else 0
  (c.1, status, c.2.headD 0, info)

/-- RESTORE (R376, R377). `far`: what TNODE answers for each PEER shard, by shard index. It waits while a tile that it would
write is moving. -/
def execRestore (x : Fin 65536) (far : List (List Byte)) (s : State) : Host.Outcome State Fault Refusal :=
  match s.freshCmd x 0x1A, s.ctxPart x with
  | some c, some p =>
    match s.restoreCheck x p (fieldAt c.bytes 8 8) far with
    | .error e => .next ((s.countRead e.2.2).complete x c e.1 e.2.1 0)
    | .ok r =>
      if s.shardMoves p r.1 then .next s
      else
        let a := (s.touch p (s.restoreReads p (fieldAt c.bytes 8 8) r.1)).applySnap x p r.1 r.2
        .next (a.1.complete x c a.2.1 a.2.2.1 a.2.2.2)
  | _, _ => .next s

end Sys2Proof.Machine
end

