-- ==== Sys2Proof/Machine/Reset.lean ====
section
/-! DEFINITION. The resets and the boot (R441 to R451, R457 to R461). -/

namespace Sys2Proof.Machine

/-! ## What a reset interrupts (R446) -/

/-- Fuse programming, the blowing of the anti-rollback counter and a flash operation under way end: which bits are blown,
and what the sector or page holds, are free values. -/
def State.dropWork (s : State) : State :=
  let d := s.draw 10
  let s1 := match d.2.security.prog with
    | none => d.2
    | some p => d.2.withSec (fun x => { x with owner := x.owner.blow p.1 (p.2 &&& d.1), prog := none })
  let e := s1.draw 10
  let s2 := if s1.flag Csr.rgsArb_BUSY then
      e.2.withSec (fun x => { x with arb := x.arb + e.1 % (s1.getF Csr.rgsArb_RAISE - x.arb + 1) })
    else e.2
  match s2.security.flash with
  | none => s2
  | some p =>
    let s3 := s2.withSec (fun x => { x with flash := none })
    if p.1 = 3 then s3 else s3.loseFlash p.2 (flashSpan p.1)

/-- What the security part keeps: fuses, slot control, the latest challenge. -/
def Security.kept (x : Security) : Security := { x with first := none, ak := none, flash := none, prog := none }

/-- What the optical service keeps in the boot flash, commissioning references, P0, ring tables; and what lies in the modules and
has been sent to them. -/
def Optics.kept (o : Optics) : Optics := 
  { Optics.dark with refs := o.refs, p0 := o.p0, saved := o.saved, sel := o.sel, warm := o.warm, bus := o.bus }

/-! ## PORn and VAUX (R437, R442) -/

/-- The device after PORn: what R442 keeps, and what lies outside the device. -/
def State.powerOn (s : State) (captured vaux : Bool) : State :=
  let t := s.dropWork
  { State.reset with
    csr := if captured then t.csr.filter (fun e => decide (e.1 = Csr.errFatal)) else []
    mem := t.mem.filter (fun e => decide (flashBase ≤ e.1))
    retired := t.retired
    security := t.security.kept
    optics := t.optics.kept
    jtag := t.jtag
    noVaux := !vaux
    events := t.events
    replies := t.replies
    wire := t.wire
    peer := t.peer
    drawn := t.drawn
    pending := t.pending }

/-- PORN (R441, R442): ERR.FATAL survives; the THERMTRIPn latch does not. -/
def execPorn (s : State) : Host.Outcome State Fault Refusal := .next (s.powerOn true true)

/-- VAUX_LOSS (R392, R437): the capture and the latch are lost, and INTLKmn goes high-impedance. -/
def execVauxLoss (s : State) : Host.Outcome State Fault Refusal := .next (s.powerOn false false)

/-! ## WRSTn (R442, R443) -/

/-- Registers of one NI that WRSTn keeps: PMAP, EXP_SERIAL, EXP_ID, XCAP, XR. -/
def niKept (o : Nat) : Bool := decide (o = 0x200) || decide (o = 0x208) || decide (o = 0x210) || (decide (0x238 ≤ o) && decide (o < 0x280))

/-- Registers that WRSTn keeps whole (R442). -/
def warmKept (a : Nat) : Bool :=
  decide (a = Csr.sysNode) || inWindow a (Csr.sysPartCfg 0) (Csr.sysPartCfg 8) || decide (a = Csr.migPool)
    || inWindow a (Csr.migPartCfg 0) (Csr.migPartCfg 8) || inWindow a (Csr.pftPartCtrs 0) (Csr.pftPartCtrs 0 + 0x800) &&
      decide ((a - Csr.pftPartCtrs 0) % 0x100 = 0)
    || (inWindow a (Csr.niCtrl 0) (Csr.niCtrl 32) && niKept ((a - Csr.niCtrl 0) % 0x20000))
    || decide (a = Csr.errFatal) || decide (a = Csr.errDevWr) || inWindow a (Csr.errDrecW 0 0) 0x500000
    || (inWindow a (Csr.errPartWr 0) (Csr.errPartWr 8) && decide ((a - Csr.errPartWr 0) % 0x20 = 0))
    || decide (a = Csr.clkTime) || decide (a = Csr.clkStatus) || decide (a = Csr.pwrRails)

/-- Fields of other registers that WRSTn keeps. -/
def warmFields : List Fld :=
  [Csr.secStatus_DEBUG, Csr.pwrThermStat_TRIP, Csr.clkSerdes_GLV_LOCK, Csr.clkSerdes_ZHL_LOCK]
    ++ (List.range 8).map (fun p => Csr.sysPlanCtrl_RC_TMO p)

/-- A tile after WRSTn (R443): a move is abandoned, WP and the marks of a snapshot are gone. -/
def warmTile (e : TileEntry) : TileEntry := { e with moving := false, wp := false }

/-- The SRAM frame that the destination of an abandoned move held is given back. -/
def State.dropMove (s : State) (m : Move) : State := if m.toSram then s.subSram (partOfTile m.key) 1 else s

/-- The tiles that were resident in the SRAM tier (R443): a clean one with a home returns to it, any other is
poisoned with no waiters. -/
def State.warmTiles (s : State) : State :=
  let here := s.tiles.filter (fun e => e.2.valid && e.2.sram && !e.2.poison)
  here.foldl (fun t e => if !e.2.dirty && !e.2.noHome then t.toSlow e.1 else t.poisonTile e.1 0) s

/-- The device after WRSTn, before the treatment of the SRAM tier. -/
def State.warmBase (s : State) : State :=
  let t := s.dropWork
  { State.reset with
    csr := t.csr.filter (fun e => warmKept e.1)
    mem := t.mem.filter (fun e => (decide (slowBase ≤ e.1) && decide (e.1 < obBase)) || decide (flashBase ≤ e.1))
    objs := t.objs.map (fun e => (e.1, e.2.map (fun o => { o with dying := false })))
    tiles := (t.tiles.map (fun e => (e.1, warmTile e.2))).filter (fun e => decide (e.2 ≠ TileEntry.absent))
    retired := t.retired
    partFatal := t.partFatal
    security := t.security.kept
    optics := t.optics.kept
    jtag := t.jtag
    events := t.events
    replies := t.replies
    wire := t.wire
    peer := t.peer
    drawn := t.drawn
    pending := t.pending }

/-- WRSTN (R441 to R443): the interlocks open, each with its record; MIG entries are discarded; CAUSE is WRSTn. -/
def execWrstn (s : State) : Host.Outcome State Fault Refusal :=
  if s.noVaux then .next s
  else
    let s1 := warmFields.foldl (fun t f => t.setF f (s.getF f)) s.warmBase
    let s2 := (List.range 2).foldl (fun t m => if s.flag (Csr.elsStatus_LIGHT m) then t.recordD 0x0402 1 6 m [(1, 1)] else t) s1
    let s3 := (List.range 8).foldl (fun t p => t.setF (Csr.migPartQHead_HEAD p) (t.getF (Csr.migPartQTail_TAIL p))) s2
    let s4 := (s.moves.foldl (fun t m => t.dropMove m) s3).setF Csr.sysBoot_CAUSE 1
    .next ((List.range 8).foldl (fun t p => t.showPartition p) s4.warmTiles)

/-! ## Stopping classrooms and contexts (R444, R445) -/

/-- Issued instructions of a queue run to completion, oldest first. -/
def State.runOut (s : State) (c : Nat) (q : Queue) (fuel : Nat) : State :=
  match fuel with
  | 0 => s
  | k + 1 =>
    match (s.room c).flight q with
    | [] => s
    | f :: _ => (s.finish c q 0 f).runOut c q k

/-- A classroom stops (R444 step 2): issued instructions complete, an SBAR that waits is abandoned, a MUPD that updates
completes and the others are discarded; it enters IDLE (an unavailable one stays so). -/
def State.stopCls (s : State) (c : Nat) : State :=
  let run (t : State) (q : Queue) : State := t.runOut c q ((t.room c).flight q).length
  let s1 := run (run (run s .t) .v) .m
  let s2 := s1.setRoom c { s1.room c with sf := (s1.room c).sf.filter (fun f => !f.barWait) }
  let s3 := run s2 .s
  let s4 := match s3.satHead c with
    | some x => if x.stage = SatStage.updating then s3.endMupd c x else s3
    | none => s3
  s4.clearCls c (if s.getF (Csr.clsStatus_STATE c) = 7 then 7 else 0)

/-- A context is closed without completions; its unstarted commands are discarded. -/
def State.closeCtx (s : State) (x : Nat) : State :=
  let s1 := s.setF (Csr.ctxSqHead_HEAD x) (s.getF (Csr.ctxSqTail_TAIL x))
  let s2 := if s.ctxSt x = 0 then s1 else s1.subF (Csr.prcCoreStatus_CTXS (s.getF (Csr.ctxState_PRC x))) 1
  ((s2.setCtx x Ctx.closed).setF (Csr.ctxState_OUTSTANDING x) 0).setCtxSt x 0

/-- A snapshot under way is aborted. -/
def State.resetSnap (s : State) (p : Nat) : State := if s.snapSt p = 0 then s else s.abortSnap p

/-! ## Partition reset (R442, R444) -/

/-- Registers in a window take their reset values. -/
def State.resetWindow (s : State) (lo hi : Nat) : State := { s with csr := s.csr.filter (fun e => !inWindow e.1 lo hi) }

/-- The MIG of partition `p`: started moves complete, the rest is discarded. -/
def State.resetMig (s : State) (p : Nat) : State :=
  let q := s.mig p
  let s1 := s.setMig p { q with started := q.started.filter (fun e => decide (e.op = 2) && !e.fresh) }
  let s2 := (s1.moves.filter (fun m => decide (partOfTile m.key = p))).foldl
    (fun t m => if m.toSram then (t.toSram m.key m.slice m.frame).endMove m true else (t.toSlow m.key).endMove m true) s1
  ((s2.settleDestroys p).setMig p MigQueue.empty).setF (Csr.migPartQHead_HEAD p) (s.getF (Csr.migPartQTail_TAIL p))

/-- The Prefect of partition `p`: groups, operations and early chunks removed, counters 0. -/
def State.resetPft (s : State) (p : Nat) : State :=
  let s1 : State := { s with
    groups := s.groups.filter (fun e => decide (e.1 / 4096 ≠ p))
    ops := s.ops.filter (fun o => decide (o.part ≠ p))
    early := s.early.filter (fun c => decide (c.part ≠ p)) }
  let s2 := s1.setFs [(Csr.pftPartQHead_HEAD p, s.getF (Csr.pftPartQTail_TAIL p)), (Csr.pftPartGroups_JOINED p, 0)]
  let s3 := (List.range (s.getF (Csr.pftPartCtrs_COUNT p))).foldl
    (fun t i => t.setF (Csr.pftCtr_VALUE (s.getF (Csr.pftPartCtrs_BASE p) + i)) 0) s2
  (s.portsOf p).foldl (fun t k => t.showPft k) s3

/-- Plan and port maps of partition `p` (R329): the cleared maps show in the ports' records. -/
def State.resetNet (s : State) (p : Nat) : State :=
  let s1 := s.planUnload p
  let clear (t : State) (k : Nat) : State :=
    ((List.range 8).foldl (fun u j => u.wr (Csr.niXr k j) 0)
      (((t.wr (Csr.niPmap k) 0).wr (Csr.niExpSerial k) 0).wr (Csr.niExpId k) 0)).setF (Csr.niXcap_CAP k) 0
  (s.portsOf p).foldl (fun t k => (clear t k).sendRecord k) s1

/-- Error ring, policies, counters and samples of partition `p`. -/
def State.resetLogs (s : State) (p : Nat) : State :=
  let s1 := ((s.setF (Csr.errPartWr_WR p) 0).setRing (p + 1) RingTimer.quiet).setF (Csr.errPartPolicy_ARMED p) 0
  let s2 := s1.resetWindow (Csr.pmuPartSbufBase p) (Csr.pmuPartSbufBase (p + 1))
  let s3 : State := { s2 with samples := s2.samples.filter (fun x => decide (x.part ≠ p)) }
  (setBits (s.getF (Csr.sysPartCls_MASK p)) 64).foldl (fun t c => t.setF (Csr.clsPsampCtrl_EN c) 0) s3

/-- Every object of partition `p` is destroyed (R444 step 4). -/
def State.wipe (s : State) (p : Nat) : State := (s.objsOf p).foldl (fun t e => t.removeObj p e.1 e.2) s

/-- A partition reset (R444), whole; the writes that its step 1 refuses cannot come in between. -/
def State.resetPart (s : State) (p : Nat) : State :=
  let cs := setBits (s.getF (Csr.sysPartCls_MASK p)) 64
  let xs := (List.range (s.getF (Csr.sysPartCtx_COUNT p))).map (fun i => s.getF (Csr.sysPartCtx_BASE p) + i)
  let s1 := cs.foldl (fun t c => (t.stopCls c).freeLessons c (fun _ => true)) s
  let s2 := xs.foldl (fun t x => t.closeCtx x) s1
  let s3 := (((((s2.resetLogs p).resetSnap p).resetMig p).resetPft p).resetNet p)
  let s4 := if bitOf (s.getF Csr.sysPrst_WIPE) p then s3.wipe p else s3
  { s4 with
    partFatal := s4.partFatal.filter (fun q => decide (q ≠ p))
    satFlags := s4.satFlags.filter (fun x => decide (x.part ≠ p)) }

/-- A write of SYS.PRST (R444, R468). -/
def prstWrite (s : State) (v m : Nat) : State :=
  let s1 := s.storeBut Csr.sysPrst v m [Csr.sysPrst_REQ]
  (setBits ((wroteF v m Csr.sysPrst_REQ).getD 0) 8).foldl (fun t p => if t.partOn p then t.resetPart p else t) s1

/-- PARTITION_RESET (R444): a write of SYS.PRST. -/
def execPartitionReset (port : Fin 4) (w : AccWidth) (v : Word) (s : State) : Host.Outcome State Fault Refusal :=
  .next (s.hostWrite port Csr.sysPrst w v prstWrite)

/-! ## Context reset (R445) -/

/-- A context reset: it does nothing to a CLOSED context. -/
def State.resetCtx (s : State) (x : Nat) : State :=
  if s.ctxSt x = 0 then s
  else
    let mine := (setBits (s.ctx x).lastMask 64).filter (fun c => decide (s.getF (Csr.clsStatus_CTX c) = x)
      && decide (1 ≤ s.getF (Csr.clsStatus_STATE c)) && decide (s.getF (Csr.clsStatus_STATE c) ≤ 6))
    let s1 := mine.foldl (fun t c => t.stopCls c) s
    let s2 := (List.range 64).foldl (fun t c => t.freeLessons c (fun l => decide (l.ctx = x))) s1
    let s3 := (s2.groupsJoined x).foldl (fun t g => t.leaveGroup g.1 g.2) s2
    let s4 := s3.closeCtx x
    match s.ctxPart x with
    | some p => if decide (s4.snapSt p ≠ 0) && decide ((s4.snap p).ctx = x) then s4.abortSnap p else s4
    | none => s4

/-- A write of SYS.CRST (R445, R446, R468). -/
def crstWrite (s : State) (v m : Nat) : State :=
  let s1 := s.storeBut Csr.sysCrst v m [Csr.sysCrst_GO]
  if wrote1 v m Csr.sysCrst_GO then s1.resetCtx (s1.getF Csr.sysCrst_CTX) else s1

/-- CONTEXT_RESET (R445): a write of SYS.CRST. -/
def execContextReset (port : Fin 4) (w : AccWidth) (v : Word) (s : State) : Host.Outcome State Fault Refusal :=
  .next (s.hostWrite port Csr.sysCrst w v crstWrite)

/-! ## Boot (R448 to R451, R457 to R461) -/

/-- Fuses reread (R455, R457): the owner fields blown take effect. -/
def State.loadFuses (s : State) : State :=
  let v := s.security.vendor
  let o := s.security.owner
  let s1 := (s.withSec (fun x => { x with live := o })).setFs
    [(Csr.sysId_GRADE, v.grade), (Csr.sysSerial_SERIAL, v.serial), (Csr.sysPartCap_MAX, o.partMax + 1), (Csr.sysPartCap_MGMT_PORT, o.mgmtPort),
     (Csr.clkStatus_TSRC, (decide (v.grade ≠ 0)).toNat), (Csr.pwrVset_FUSE_MV, v.fuseMv),
     (Csr.pwrPower_LIMIT, if v.grade = 0 then 0x640 else 0x4B0), (Csr.pwrThermCtrl_CRIT, v.crit), (Csr.secStatus_VLOCK, v.vlock),
     (Csr.rgsArb_VALUE, s.security.arb)]
  let s2 := (List.range 4).foldl (fun t k => t.setF (Csr.hlId_MGMT k) (decide (k = o.mgmtPort)).toNat) s1
  (((s2.putWords Csr.secVkeyHash 4 v.vkeyHash).putWords Csr.secEndorse 8 v.endorse)).showOwner


/-- IDK's private key (R460). -/
def State.idk (s : State) : List Byte := Config.deriveKey s.security.vendor.secret []

/-- Retired frames of a channel and of the SRAM tier (R212). -/
def State.retiredSlow (s : State) (ch : Nat) : Nat :=
  (s.retired.filter (fun a => decide (slowBase ≤ a) && decide ((a - slowBase) / 65536 / 262144 = ch))).length
def State.retiredSram (s : State) : Nat := (s.retired.filter (fun a => decide (a < slowBase))).length

/-- Steps 1 to 4 of R448, and what the ROM shows of keys, slots and retired frames. Every boot has its clocks locked and its
rails in tolerance before the ROM starts (R441, R448 step 1; notes/assumptions/80.md). -/
def State.bootPrep (s : State) : State :=
  let s0 : State := { s with jtag := { s.jtag with lands := .function } }
  let s1 := s0.loadFuses
  let c := s1.setFs [(Csr.clkStatus_REF_OK, 1), (Csr.clkStatus_SPLL_LOCK, 1), (Csr.clkStatus_TPLL_LOCK, s1.getF Csr.clkStatus_TSRC),
    (Csr.clkStatus_OSC_ACTIVE, 0), (Csr.pwrRails_GOOD, 0x3FF)]
  let s2 := if c.flag Csr.sysBoot_CAUSE then c
    else c.setFs [(Csr.clkSerdes_GLV_LOCK, 0xFFFF), (Csr.clkSerdes_ZHL_LOCK, 15)]
  let s3 := (List.range 48).foldl (fun t ch => t.setFs [(Csr.memStatus_STATE ch, 1), (Csr.memRetired_FRAMES ch, s.retiredSlow ch)]) s2
  let s4 := (s3.setF Csr.migSramEcc_RETIRED s.retiredSram).putWords Csr.secIdkey 8 (publicKey s.idk)
  let o := s.security.slots
  let s5 := s4.setFs [(Csr.rgsFw_ACTIVE, o.active), (Csr.rgsFw_NEXT, o.next), (Csr.rgsFw_TRY, o.tryNext.toNat), (Csr.sysBoot_STATE, 2)]
  (List.range 2).foldl (fun t b => t.setFs [(slotVer b, fieldAt (s.slotHeader b) 8 4), (slotSvn b, fieldAt (s.slotHeader b) 6 1)]) s5

/-- Check 1 of R459. -/
def headerValid (h : List Byte) : Bool :=
  decide (fieldAt h 0 4 = 0x46575A4D) && decide (fieldAt h 4 2 = 1) && decide (fieldAt h 7 1 < 2)
    && decide (64 ≤ fieldAt h 0x0C 4) && decide (fieldAt h 0x0C 4 ≤ 12 * 2 ^ 20) && decide (fieldAt h 0x0C 4 % 64 = 0)
    && zeroAt h 0x18 8 && zeroAt h 0x140 192

/-- `n` bytes at offset `o` of a header. -/
def part (h : List Byte) (o n : Nat) : List Byte := (h.drop o).take n

/-- Check 4 of R459, where an owner key hash is in effect. -/
def State.ownerSigOk (s : State) (h : List Byte) : Bool :=
  decide (s.security.live.okeyHash = 0) || (bitOf (fieldAt h 7 1) 0 && decide (leNat (sha256 (part h 0xC0 64)) = s.security.live.okeyHash)
    && ecdsaVerify (sha256 (part h 0 0x100)) (part h 0xC0 64) (part h 0x100 64))

/-- The outcome of slot `b` (R449, R459). -/
def State.verifySlot (s : State) (b : Nat) : Nat :=
  let h := s.slotHeader b
  if !headerValid h then 2
  else if sha256 (part h 0x40 64) ≠ s.security.vendor.vkeyHash then 3
  else if !ecdsaVerify (sha256 (part h 0 0x80)) (part h 0x40 64) (part h 0x80 64) then 4
  else if !s.ownerSigOk h then 5
  else if fieldAt h 6 1 < s.security.arb then 6
  else if fieldAt h 0x10 8 ≠ 0 ∧ fieldAt h 0x10 8 ≠ s.security.vendor.serial then 7
  else if sha256 (s.peekN (flashBase + slotOffset b + 512) (fieldAt h 0x0C 4)) ≠ part h 0x20 32 then 8
  else 0

/-- The AK statement (R461). -/
def State.akStatement (s : State) (ak meas : List Byte) (svn : Nat) : List Byte :=
  let body := publicKey ak ++ meas ++ leBytes 8 s.security.vendor.serial ++ leBytes 1 svn ++ List.replicate 23 0
  body ++ signature s.idk body

/-- Step 8 of R448: AK for the booted slot; none while DEBUG is 1. -/
def State.deriveAk (s : State) (b : Nat) : State :=
  if s.flag Csr.secStatus_DEBUG then s
  else
    let h := s.slotHeader b
    let meas := sha256 h
    let ak := Config.deriveKey s.security.vendor.secret meas
    ((s.withSec (fun x => { x with ak := some ak })).putWords Csr.secAkcert 24 (s.akStatement ak meas (fieldAt h 6 1))).setF
      Csr.secStatus_AK_VALID 1

/-- A slot's code in SYS.BOOT. -/
def slotErr (b : Nat) : Fld := if b = 0 then Csr.sysBoot_A_ERR else Csr.sysBoot_B_ERR

/-- The service mode in both registers that show it (R447). -/
def State.setMode (s : State) (v : Nat) : State := s.setFs [(Csr.secStatus_MODE, v), (Csr.pmuStatus_MODE, v)]

/-- The first slot of the boot (R379): NEXT with TRY, which is cleared, else ACTIVE. -/
def State.chooseSlot (s : State) : Nat × State :=
  let b := if s.flag Csr.rgsFw_TRY then s.getF Csr.rgsFw_NEXT else s.getF Csr.rgsFw_ACTIVE
  (b, ((s.setF Csr.rgsFw_TRY 0).saveSlots).withSec (fun x => { x with first := some b }))

/-- One slot is tried; `second`: no other is left. -/
def State.trySlot (s : State) (b : Nat) (readErr second : Bool) : State :=
  let code := if readErr then 9 else s.verifySlot b
  let s1 := s.setF (slotErr b) code
  if code = 0 then (s1.deriveAk b).setFs [(Csr.rgsFw_BOOTED, b), (slotValid b, 1), (Csr.sysBoot_STATE, 3)]
  else if second then (s1.setF Csr.sysBoot_STATE 5).setMode 3
  else s1

/-- BOOT_SLOT_ATTEMPT (R379, R448, R451, R459): one attempt; `readErr`: the flash cannot be read. The first attempt of a boot
stands for the steps before it too. -/
def execBootSlotAttempt (readErr : Bool) (s : State) : Host.Outcome State Fault Refusal :=
  if s.noVaux ∨ 2 < s.getF Csr.sysBoot_STATE then .next s
  else
    let s0 := if s.getF Csr.sysBoot_STATE = 2 then s else s.bootPrep
    match s0.security.first with
    | some b => .next (s0.trySlot (1 - b) readErr true)
    | none =>
      let f := s0.chooseSlot
      .next (f.2.trySlot f.1 readErr false)

/-- The boot fell back (R379). -/
def State.fallback (s : State) : State :=
  let b := s.getF Csr.rgsFw_BOOTED
  match s.security.first with
  | none => s
  | some f => if f = b then s else (s.setF Csr.rgsFw_FALLBACK 1).recordD 0x0804 1 0 0 [(1, f), (1, b)]

/-- BOOT_READY (R290, R428, R447, R448): the firmware has started, `ms` after the release of reset; `proto` is its protocol
version. -/
def execBootReady (ms : BitVec 16) (proto : BitVec 8) (s : State) : Host.Outcome State Fault Refusal :=
  if s.getF Csr.sysBoot_STATE ≠ 3 then .next s
  else
    let s1 := (s.setMode (if s.flag Csr.secStatus_DEBUG then 2 else 0)).setFs
      [(Csr.sysBoot_STATE, 4), (Csr.sysBoot_BOOT_MS, ms.toNat), (Csr.sysNode_PROTO, proto.toNat), (Csr.pwrVset_MV, s.getF Csr.pwrVset_FUSE_MV)]
    let s2 := (List.range 16).foldl (fun t i => t.setF (Csr.prcCoreStatus_STATE i) 1) s1
    .next (((s2.startBuses.readCommissioned.bootLight 0).bootLight 1).fallback)

end Sys2Proof.Machine
end

