-- ==== Sys2Proof/Machine/HostWrite.lean ====
section
/-! DEFINITION. Host writes of any register (R8 to R11, R242, R490), and of ring bases (R215, R339). -/

namespace Sys2Proof.Machine

/-- RING_BASE_WRITE (R215, R339): of Q_BASE, or of CQ_BASE with `cq`, of the MIG's or the Prefect's queue of partition `p`. -/
def execRingBaseWrite (port : Fin 4) (p : Fin 8) (pft cq : Bool) (w : AccWidth) (v : Word) (s : State) : Host.Outcome State Fault Refusal :=
  if pft then .next (s.hostWrite port (if cq then Csr.pftPartCqBase p else Csr.pftPartQBase p) w v (pftBaseWrite p cq))
  else .next (s.hostWrite port (if cq then Csr.migPartCqBase p else Csr.migPartQBase p) w v (migBaseWrite p cq))

/-! ## Registers with a condition of their own -/

/-- CLS, NI or CTX of a partition: written while EN = 0 (R241). -/
def partMaskWrite (p a : Nat) (s : State) (v m : Nat) : State := if s.partOn p then s else s.store a v m

/-- A ring base of a context: written in CLOSED alone (R247). -/
def ctxBaseWrite (x a : Nat) (s : State) (v m : Nat) : State :=
  if s.ctxSt x = 0 then s.store a v m else s.setF (Csr.ctxState_WR_IGN x) 1

/-- A register of a classroom that STARTING, RUNNING and HALTING protect (R66, R136, R164, R191, R235). -/
def clsRestWrite (c a : Nat) (s : State) (v m : Nat) : State :=
  let st := s.getF (Csr.clsStatus_STATE c)
  if 1 ≤ st ∧ st ≤ 3 then s.setF (Csr.clsStatus_WR_IGN c) 1 else s.store a v m

/-- CLS.SCALE: slot 0 is read-only; a write of it in STARTING, RUNNING or HALTING is ignored like that of any other slot (R66). -/
def scaleWrite (c a : Nat) (s : State) (v m : Nat) : State :=
  let t := clsRestWrite c a s v m
  if a = Csr.clsScale c 0 ∧ !(decide (1 ≤ s.getF (Csr.clsStatus_STATE c)) && decide (s.getF (Csr.clsStatus_STATE c) ≤ 3)) then s else t

/-- NI.VER: MAX outside MIN to HW_MAX is left. -/
def niVerWrite (k : Nat) (s : State) (v m : Nat) : State :=
  let f := Csr.niVer_MAX k
  let s1 := s.storeBut (Csr.niVer k) v m [f]
  let n := s.merged v m f
  if s.getF (Csr.niVer_MIN k) ≤ n ∧ n ≤ s.getF (Csr.niVer_HW_MAX k) then s1.setF f n else s1

/-- GLV.RTAB: ignored while the glove is READY. -/
def rtabWrite (g a : Nat) (s : State) (v m : Nat) : State := if s.getF (Csr.glvStatus_STATE g) = 3 then s else s.store a v m

/-- A write with no condition; OVF bits show in PMU.STATUS. -/
def plainWrite (a : Nat) (s : State) (v m : Nat) : State :=
  let t := s.store a v m
  if isOvf a then t.showOvf else t

/-! ## Which write an address has, by block -/

/-- An instance and offset within an array of windows. -/
def inArray (a base step n : Nat) : Option (Nat × Nat) :=
  if inWindow a base (base + step * n) then some ((a - base) / step, (a - base) % step) else none

/-- SYS, CLK, PWR, SEC and PMU. -/
def blockA (a : Nat) (s : State) (v m : Nat) : State :=
  if a = Csr.sysNode then sysNodeWrite s v m
  else if a = Csr.sysPrst then prstWrite s v m
  else if a = Csr.sysCrst then crstWrite s v m
  else if a = Csr.pwrVset then vsetWrite s v m
  else if a = Csr.pwrPower then powerWrite s v m
  else if a = Csr.pwrThermCtrl then thermCtrlWrite s v m
  else if a = Csr.secFuseProg then fuseProgWrite s v m
  else if a = Csr.secAttCtrl then attCtrlWrite s v m
  else if a = Csr.secFlashCmd then flashCmdWrite s v m
  else if a = Csr.pmuCtrl then pmuCtrlWrite s v m
  else
    match inArray a (Csr.sysPartCfg 0) 0x20 8, inArray a (Csr.sysPlanCtrl 0) 0x10 8, inArray a (Csr.secAttNonce 0) 8 4,
        inArray a (Csr.pmuPartSbufBase 0) 0x100 8 with
    | some (p, o), _, _, _ => if o = 0 then partCfgWrite p s v m else partMaskWrite p a s v m
    | _, some (p, o), _, _ => if o = 0 then planCtrlWrite p s v m else plainWrite a s v m
    | _, _, some (i, _), _ => attNonceWrite i s v m
    | _, _, _, some (p, o) => if inWindow o 0x40 0x80 then pmcSelWrite 3 p ((o - 0x40) / 8) s v m else plainWrite a s v m
    | _, _, _, _ => plainWrite a s v m

/-- HL and CTX, from port `port`. -/
def blockB (port a : Nat) (s : State) (v m : Nat) : State :=
  match inArray a (Csr.hlId 0) 0x40000 4, inArray a (Csr.ctxSqBase 0) 0x40 65536 with
  | some (k, o), _ => if o = 8 then zhlCtrlWrite k s v m else plainWrite a s v m
  | _, some (x, o) =>
    if o = 0 ∨ o = 0x18 then ctxBaseWrite x a s v m
    else if o = 8 then sqTailWrite port x s v m
    else if o = 0x30 then ctxStateWrite port x s v m
    else plainWrite a s v m
  | _, _ => plainWrite a s v m

/-- CLS. -/
def blockCls (a c o : Nat) (s : State) (v m : Nat) : State :=
  if o = 0x78 then arrCtrlWrite c s v m
  else if o = 0xA10 then psampWrite c s v m
  else if inWindow o 0x800 0xA00 then scaleWrite c a s v m
  else if inWindow o 0xF80 0x1000 then pmcSelWrite 0 c ((o - 0xF80) / 8) s v m
  else if inWindow o 0x100 0x300 || inWindow o 0x400 0x500 || inWindow o 0x10000 0x12000 || decide (o = 0xB8) || decide (o = 0xC0) || decide (o = 0xC00)
      || decide (o = 0xC08) || decide (o = 0xD20) || inWindow o 0xD40 0xD80 || decide (o = 0xE00) then clsRestWrite c a s v m
  else plainWrite a s v m

/-- MEM, MIG, NI and PFT. -/
def blockC (a : Nat) (s : State) (v m : Nat) : State :=
  match inArray a (Csr.memStatus 0) 0x10000 48, inArray a (Csr.migPartCfg 0) 0x100 8, inArray a (Csr.niCtrl 0) 0x20000 32,
      inArray a (Csr.pftPartCtrs 0) 0x100 8 with
  | some (u, o), _, _, _ => if inWindow o 0x140 0x180 then pmcSelWrite 2 u ((o - 0x140) / 8) s v m else plainWrite a s v m
  | _, some (p, o), _, _ =>
    if o = 0 then migCfgWrite p s v m
    else if o = 0x20 then migBaseWrite p false s v m
    else if o = 0x28 then migTailWrite p s v m
    else if o = 0x38 then migBaseWrite p true s v m
    else plainWrite a s v m
  | _, _, some (k, o), _ =>
    if o = 0 then niCtrlWrite k s v m
    else if o = 0x10 then niVerWrite k s v m
    else if o = 0x200 ∨ o = 0x208 ∨ o = 0x210 then planEntryWrite a k s v m
    else if o = 0x218 then rcStateWrite k s v m
    else if inWindow o 0x440 0x480 then pmcSelWrite 1 k ((o - 0x440) / 8) s v m
    else plainWrite a s v m
  | _, _, _, some (p, o) =>
    if o = 8 then pftBaseWrite p false s v m
    else if o = 0x10 then pftTailWrite p s v m
    else if o = 0x20 then pftBaseWrite p true s v m
    else plainWrite a s v m
  | _, _, _, _ => plainWrite a s v m

/-- GLV, ELS, RGS and PRC. -/
def blockD (a : Nat) (s : State) (v m : Nat) : State :=
  if a = Csr.elsCtrl then elsCtrlWrite s v m
  else if a = Csr.elsModSrcCmd 0 then srcCmdWrite 0 s v m
  else if a = Csr.elsModSrcCmd 1 then srcCmdWrite 1 s v m
  else if a = Csr.rgsFw then fwWrite s v m
  else if a = Csr.rgsArb then arbWrite s v m
  else
    match inArray a (Csr.glvCtrl 0) 0x40000 16 with
    | some (g, o) =>
      if o = 0 then glvCtrlWrite g s v m
      else if o = 0x20 then glvRetireWrite g s v m
      else if inWindow o 0x10000 0x10800 then rtabWrite g a s v m
      else plainWrite a s v m
    | none => plainWrite a s v m

/-- The write that the register at `a` has, from port `port`. -/
def regWrite (port a : Nat) (s : State) (v m : Nat) : State :=
  if a < 0x1000000 then blockA a s v m
  else if a < 0x4000000 then blockB port a s v m
  else if a < 0x8000000 then blockCls a ((a - 0x4000000) / 0x100000) ((a - 0x4000000) % 0x100000) s v m
  else if a < 0xA000000 then blockC a s v m
  else blockD a s v m

/-- CFG_WR (R8 to R11, R242): a write of the register with CSR index `r`. A register with a behaviour of its own behaves
as its own command says. -/
def execCfgWr (port : Fin 4) (r : Fin 33554432) (w : AccWidth) (v : Word) (s : State) : Host.Outcome State Fault Refusal :=
  .next (s.hostWrite port (regAddr r) w v (regWrite port (regAddr r)))

end Sys2Proof.Machine
end

