-- ==== Sys2Proof/Machine/Dispatch.lean ====
section
/-! DEFINITION. One arm per command: what it does to everything but the queue. -/

namespace Sys2Proof.Machine

/-- The command's effect on everything but the queue of waiting commands. -/
def exec (i : Instr) (s : State) : Host.Outcome State Fault Refusal :=
  match i with
  | .tmul c => Sys2Proof.Machine.execTmul c s
  | .tmult c => Sys2Proof.Machine.execTmult c s
  | .tmulta c => Sys2Proof.Machine.execTmulta c s
  | .tpair c => Sys2Proof.Machine.execTpair c s
  | .tloadw c => Sys2Proof.Machine.execTloadw c s
  | .vadd c => Sys2Proof.Machine.execVadd c s
  | .vfma c => Sys2Proof.Machine.execVfma c s
  | .vexp c => Sys2Proof.Machine.execVexp c s
  | .vrsq c => Sys2Proof.Machine.execVrsq c s
  | .vamax c => Sys2Proof.Machine.execVamax c s
  | .vsmx c => Sys2Proof.Machine.execVsmx c s
  | .vnorm c => Sys2Proof.Machine.execVnorm c s
  | .vquant c => Sys2Proof.Machine.execVquant c s
  | .vcvt c => Sys2Proof.Machine.execVcvt c s
  | .vsumsq c => Sys2Proof.Machine.execVsumsq c s
  | .vrng c => Sys2Proof.Machine.execVrng c s
  | .vquiz c => Sys2Proof.Machine.execVquiz c s
  | .mload c => Sys2Proof.Machine.execMload c s
  | .mstore c => Sys2Proof.Machine.execMstore c s
  | .mconv c => Sys2Proof.Machine.execMconv c s
  | .mgather c => Sys2Proof.Machine.execMgather c s
  | .mscatter c => Sys2Proof.Machine.execMscatter c s
  | .mpref c => Sys2Proof.Machine.execMpref c s
  | .mupd c => Sys2Proof.Machine.execMupd c s
  | .swait c => Sys2Proof.Machine.execSwait c s
  | .ssig c => Sys2Proof.Machine.execSsig c s
  | .sfence c => Sys2Proof.Machine.execSfence c s
  | .sbar c => Sys2Proof.Machine.execSbar c s
  | .strig c => Sys2Proof.Machine.execStrig c s
  | .sloop c ecc => Sys2Proof.Machine.execSloop c ecc s
  | .send c => Sys2Proof.Machine.execSend c s
  | .frontEndDispatch c ecc => Sys2Proof.Machine.execFrontEndDispatch c ecc s
  | .instructionComplete c q n => Sys2Proof.Machine.execInstructionComplete c q n s
  | .readInc c q n => Sys2Proof.Machine.execReadInc c q n s
  | .waitTimeout c q => Sys2Proof.Machine.execWaitTimeout c q s
  | .classroomFaulted c => Sys2Proof.Machine.execClassroomFaulted c s
  | .classroomHalted c => Sys2Proof.Machine.execClassroomHalted c s
  | .rampSlotRequest c => Sys2Proof.Machine.execRampSlotRequest c s
  | .rampSlotGrant c waited => Sys2Proof.Machine.execRampSlotGrant c waited s
  | .rampStep c => Sys2Proof.Machine.execRampStep c s
  | .satchelTake c => Sys2Proof.Machine.execSatchelTake c s
  | .fenceDrain c => Sys2Proof.Machine.execFenceDrain c s
  | .fenceTimeout c => Sys2Proof.Machine.execFenceTimeout c s
  | .mupdComplete c => Sys2Proof.Machine.execMupdComplete c s
  | .ctxOpen x => Sys2Proof.Machine.execCtxOpen x s
  | .ctxBind x => Sys2Proof.Machine.execCtxBind x s
  | .lessonLoad x => Sys2Proof.Machine.execLessonLoad x s
  | .lessonLoadDone x => Sys2Proof.Machine.execLessonLoadDone x s
  | .launch x => Sys2Proof.Machine.execLaunch x s
  | .classroomStart c => Sys2Proof.Machine.execClassroomStart c s
  | .launchComplete x => Sys2Proof.Machine.execLaunchComplete x s
  | .halt x => Sys2Proof.Machine.execHalt x s
  | .resume x => Sys2Proof.Machine.execResume x s
  | .drain x => Sys2Proof.Machine.execDrain x s
  | .ctxClose x => Sys2Proof.Machine.execCtxClose x s
  | .groupJoin x => Sys2Proof.Machine.execGroupJoin x s
  | .groupLeave x => Sys2Proof.Machine.execGroupLeave x s
  | .snapBegin x => Sys2Proof.Machine.execSnapBegin x s
  | .snapCommit x => Sys2Proof.Machine.execSnapCommit x s
  | .restore x far => Sys2Proof.Machine.execRestore x far s
  | .policySet x => Sys2Proof.Machine.execPolicySet x s
  | .sqTailWrite port x w v => Sys2Proof.Machine.execSqTailWrite port x w v s
  | .commandRead x => Sys2Proof.Machine.execCommandRead x s
  | .cqEventTimer x => Sys2Proof.Machine.execCqEventTimer x s
  | .contextAdopt port x w v => Sys2Proof.Machine.execContextAdopt port x w v s
  | .partitionEnable port p w v => Sys2Proof.Machine.execPartitionEnable port p w v s
  | .cfgWr port r w v => Sys2Proof.Machine.execCfgWr port r w v s
  | .rcRead port r w => Sys2Proof.Machine.execRcRead port r w s
  | .chainedCounterRead port b u k w => Sys2Proof.Machine.execChainedCounterRead port b u k w s
  | .memRd port p dva n => Sys2Proof.Machine.execMemRd port p dva n s
  | .memWr port p dva data => Sys2Proof.Machine.execMemWr port p dva data s
  | .zhlSignalDetect k lanes => Sys2Proof.Machine.execZhlSignalDetect k lanes s
  | .zhlTrained k lanes => Sys2Proof.Machine.execZhlTrained k lanes s
  | .zhlTrainingTimeout k => Sys2Proof.Machine.execZhlTrainingTimeout k s
  | .zhlLinkLoss k lanes fec retries => Sys2Proof.Machine.execZhlLinkLoss k lanes fec retries s
  | .zhlEnable port k w v => Sys2Proof.Machine.execZhlEnable port k w v s
  | .linkEventTimer port => Sys2Proof.Machine.execLinkEventTimer port s
  | .objCreate p => Sys2Proof.Machine.execObjCreate p s
  | .objDestroy p => Sys2Proof.Machine.execObjDestroy p s
  | .promote p => Sys2Proof.Machine.execPromote p s
  | .demote p => Sys2Proof.Machine.execDemote p s
  | .pin p => Sys2Proof.Machine.execPin p s
  | .unpin p => Sys2Proof.Machine.execUnpin p s
  | .restoreTile p => Sys2Proof.Machine.execRestoreTile p s
  | .query p => Sys2Proof.Machine.execQuery p s
  | .fence p => Sys2Proof.Machine.execFence p s
  | .migQTailWrite port p w v => Sys2Proof.Machine.execMigQTailWrite port p w v s
  | .migEntryRead p => Sys2Proof.Machine.execMigEntryRead p s
  | .migCompletion p => Sys2Proof.Machine.execMigCompletion p s
  | .migCqEventTimer p => Sys2Proof.Machine.execMigCqEventTimer p s
  | .tileMoveStart p idx t => Sys2Proof.Machine.execTileMoveStart p idx t s
  | .tileEntrySwitch n corrected => Sys2Proof.Machine.execTileEntrySwitch n corrected s
  | .agingTick => Sys2Proof.Machine.execAgingTick s
  | .poisonTile p oi t => Sys2Proof.Machine.execPoisonTile p oi t s
  | .sramDieFailed h => Sys2Proof.Machine.execSramDieFailed h s
  | .channelFailed ch => Sys2Proof.Machine.execChannelFailed ch s
  | .scrubRead ch frame ecc => Sys2Proof.Machine.execScrubRead ch frame ecc s
  | .migModeWrite port p w v => Sys2Proof.Machine.execMigModeWrite port p w v s
  | .ringBaseWrite port p pft cq w v => Sys2Proof.Machine.execRingBaseWrite port p pft cq w v s
  | .requestAdmission dest who p frame block first len write ecc => Sys2Proof.Machine.execRequestAdmission dest who p frame block first len write ecc s
  | .parkedAdmission ch => Sys2Proof.Machine.execParkedAdmission ch s
  | .bankCommand ch b ecc link => Sys2Proof.Machine.execBankCommand ch b ecc link s
  | .writeBufferDrain ch b link => Sys2Proof.Machine.execWriteBufferDrain ch b link s
  | .requestUrgent ch n => Sys2Proof.Machine.execRequestUrgent ch n s
  | .bankHotspot ch b due => Sys2Proof.Machine.execBankHotspot ch b due s
  | .mprefPromotion die => Sys2Proof.Machine.execMprefPromotion die s
  | .operationPost p => Sys2Proof.Machine.execOperationPost p s
  | .pftQTailWrite port p w v => Sys2Proof.Machine.execPftQTailWrite port p w v s
  | .prefectSend => Sys2Proof.Machine.execPrefectSend s
  | .recv => Sys2Proof.Machine.execRecv s
  | .allReduce => Sys2Proof.Machine.execAllReduce s
  | .reduceScatter => Sys2Proof.Machine.execReduceScatter s
  | .allGather => Sys2Proof.Machine.execAllGather s
  | .allToAll => Sys2Proof.Machine.execAllToAll s
  | .broadcast => Sys2Proof.Machine.execBroadcast s
  | .barrier => Sys2Proof.Machine.execBarrier s
  | .norm => Sys2Proof.Machine.execNorm s
  | .ctrAdd => Sys2Proof.Machine.execCtrAdd s
  | .operationFire => Sys2Proof.Machine.execOperationFire s
  | .operationComplete => Sys2Proof.Machine.execOperationComplete s
  | .chunkArrival k => Sys2Proof.Machine.execChunkArrival k s
  | .prefectWatchdog n => Sys2Proof.Machine.execPrefectWatchdog n s
  | .triggerCounterWrite port n w v => Sys2Proof.Machine.execTriggerCounterWrite port n w v s
  | .frameSend k lane dly => Sys2Proof.Machine.execFrameSend k lane dly s
  | .frameReceive k lane wire rtt => Sys2Proof.Machine.execFrameReceive k lane wire rtt s
  | .retryTimeout k fseq => Sys2Proof.Machine.execRetryTimeout k fseq s
  | .portAlign k lane => Sys2Proof.Machine.execPortAlign k lane s
  | .negotiate k farMin farMax farEpoch => Sys2Proof.Machine.execNegotiate k farMin farMax farEpoch s
  | .linkVersion k farMin farMax => Sys2Proof.Machine.execLinkVersion k farMin farMax s
  | .linkRetrain k dark => Sys2Proof.Machine.execLinkRetrain k dark s
  | .portAlignTimeout k => Sys2Proof.Machine.execPortAlignTimeout k s
  | .reneg port k w v => Sys2Proof.Machine.execReneg port k w v s
  | .niEnable port k w v => Sys2Proof.Machine.execNiEnable port k w v s
  | .ping k id => Sys2Proof.Machine.execPing k id s
  | .laneErrors k lane count due => Sys2Proof.Machine.execLaneErrors k lane count due s
  | .laneReadmit k lane => Sys2Proof.Machine.execLaneReadmit k lane s
  | .rollCallRecord k => Sys2Proof.Machine.execRollCallRecord k s
  | .rollCallResend k => Sys2Proof.Machine.execRollCallResend k s
  | .rcTmoExpiry k => Sys2Proof.Machine.execRcTmoExpiry k s
  | .planGo port p w v => Sys2Proof.Machine.execPlanGo port p w v s
  | .planUnload port p w v => Sys2Proof.Machine.execPlanUnload port p w v s
  | .recheck port k w v => Sys2Proof.Machine.execRecheck port k w v s
  | .nodeWrite port w v => Sys2Proof.Machine.execNodeWrite port w v s
  | .messageDispatch k cls due => Sys2Proof.Machine.execMessageDispatch k cls due s
  | .transitForward k cls due => Sys2Proof.Machine.execTransitForward k cls due s
  | .portQuarantine k => Sys2Proof.Machine.execPortQuarantine k s
  | .laneLightDetect g tx l power => Sys2Proof.Machine.execLaneLightDetect g tx l power s
  | .sweepDone g tx l found code tone => Sys2Proof.Machine.execSweepDone g tx l found code tone s
  | .laneDrift g tx l pilot due => Sys2Proof.Machine.execLaneDrift g tx l pilot due s
  | .driftCleared g tx l pilot => Sys2Proof.Machine.execDriftCleared g tx l pilot s
  | .laneUnlocked g tx l pilot => Sys2Proof.Machine.execLaneUnlocked g tx l pilot s
  | .laneDark g tx l power => Sys2Proof.Machine.execLaneDark g tx l power s
  | .laneReadmitted g tx l => Sys2Proof.Machine.execLaneReadmitted g tx l s
  | .boundSuspensionEnd k => Sys2Proof.Machine.execBoundSuspensionEnd k s
  | .softwareRetire port g w v => Sys2Proof.Machine.execSoftwareRetire port g w v s
  | .heaterUpdate g r corr => Sys2Proof.Machine.execHeaterUpdate g r corr s
  | .gloveTempSample g a b => Sys2Proof.Machine.execGloveTempSample g a b s
  | .ringRefine g r => Sys2Proof.Machine.execRingRefine g r s
  | .monitorExchange k txTap rxTap fresh => Sys2Proof.Machine.execMonitorExchange k txTap rxTap fresh s
  | .calReq port g w v => Sys2Proof.Machine.execCalReq port g w v s
  | .commission port w v => Sys2Proof.Machine.execCommission port w v s
  | .saveTab port w v => Sys2Proof.Machine.execSaveTab port w v s
  | .lightEnWrite port w v => Sys2Proof.Machine.execLightEnWrite port w v s
  | .interlockOpen m => Sys2Proof.Machine.execInterlockOpen m s
  | .receptacleOpen r => Sys2Proof.Machine.execReceptacleOpen r s
  | .laserFault m status => Sys2Proof.Machine.execLaserFault m status s
  | .laserPoll m ok status ident temp readings => Sys2Proof.Machine.execLaserPoll m ok status ident temp readings s
  | .fadeEvaluation m => Sys2Proof.Machine.execFadeEvaluation m s
  | .srcCmd port m w v => Sys2Proof.Machine.execSrcCmd port m w v s
  | .spareSwitchStart m => Sys2Proof.Machine.execSpareSwitchStart m s
  | .spareRetiringDone m => Sys2Proof.Machine.execSpareRetiringDone m s
  | .spareWarmed m => Sys2Proof.Machine.execSpareWarmed m s
  | .spareWarmTimeout m => Sys2Proof.Machine.execSpareWarmTimeout m s
  | .crossoverDone m => Sys2Proof.Machine.execCrossoverDone m s
  | .relockDone m timeout => Sys2Proof.Machine.execRelockDone m timeout s
  | .laserSpareDone m => Sys2Proof.Machine.execLaserSpareDone m s
  | .glovePllRetry g ok => Sys2Proof.Machine.execGlovePllRetry g ok s
  | .serdesUnlock n => Sys2Proof.Machine.execSerdesUnlock n s
  | .firstTouchCopy p => Sys2Proof.Machine.execFirstTouchCopy p s
  | .backgroundCopy p die => Sys2Proof.Machine.execBackgroundCopy p die s
  | .tileCopied p n ecc stall => Sys2Proof.Machine.execTileCopied p n ecc stall s
  | .copyEntryDrain p n => Sys2Proof.Machine.execCopyEntryDrain p n s
  | .peerCopyReceive k dest job dva data last due => Sys2Proof.Machine.execPeerCopyReceive k dest job dva data last due s
  | .snapshotProtected p => Sys2Proof.Machine.execSnapshotProtected p s
  | .snapshotSealed p => Sys2Proof.Machine.execSnapshotSealed p s
  | .snapshotVerify p => Sys2Proof.Machine.execSnapshotVerify p s
  | .snapAborted p => Sys2Proof.Machine.execSnapAborted p s
  | .snapshotTargetFailure p n => Sys2Proof.Machine.execSnapshotTargetFailure p n s
  | .confirm port w v => Sys2Proof.Machine.execConfirm port w v s
  | .arbRaise port w v => Sys2Proof.Machine.execArbRaise port w v s
  | .advisoryEventTimer ring => Sys2Proof.Machine.execAdvisoryEventTimer ring s
  | .proctorFailed k => Sys2Proof.Machine.execProctorFailed k s
  | .proctorWatchdog k => Sys2Proof.Machine.execProctorWatchdog k s
  | .sensorSample readings due => Sys2Proof.Machine.execSensorSample readings due s
  | .throttleStillHot => Sys2Proof.Machine.execThrottleStillHot s
  | .throttleCoolHeld => Sys2Proof.Machine.execThrottleCoolHeld s
  | .throttleRaise => Sys2Proof.Machine.execThrottleRaise s
  | .keepSlewStep => Sys2Proof.Machine.execKeepSlewStep s
  | .thermtrip => Sys2Proof.Machine.execThermtrip s
  | .avsbusPoll e ok slow warn mv amps temp status => Sys2Proof.Machine.execAvsbusPoll e ok slow warn mv amps temp status s
  | .vsetWrite port w v => Sys2Proof.Machine.execVsetWrite port w v s
  | .clockOrSupply src => Sys2Proof.Machine.execClockOrSupply src s
  | .porn => Sys2Proof.Machine.execPorn s
  | .wrstn => Sys2Proof.Machine.execWrstn s
  | .partitionReset port w v => Sys2Proof.Machine.execPartitionReset port w v s
  | .contextReset port w v => Sys2Proof.Machine.execContextReset port w v s
  | .bootSlotAttempt readErr => Sys2Proof.Machine.execBootSlotAttempt readErr s
  | .bootReady ms proto => Sys2Proof.Machine.execBootReady ms proto s
  | .attGo port w v => Sys2Proof.Machine.execAttGo port w v s
  | .fuseProg port w v => Sys2Proof.Machine.execFuseProg port w v s
  | .erase64k port w v => Sys2Proof.Machine.execErase64k port w v s
  | .program4k port w v => Sys2Proof.Machine.execProgram4k port w v s
  | .read4k port w v => Sys2Proof.Machine.execRead4k port w v s
  | .flashOperationDone fail => Sys2Proof.Machine.execFlashOperationDone fail s
  | .bypass => Sys2Proof.Machine.execBypass s
  | .idcode => Sys2Proof.Machine.execIdcode s
  | .samplePreload captured shifted => Sys2Proof.Machine.execSamplePreload captured shifted s
  | .extest inReset captured shifted => Sys2Proof.Machine.execExtest inReset captured shifted s
  | .clamp inReset => Sys2Proof.Machine.execClamp inReset s
  | .highz inReset => Sys2Proof.Machine.execHighz inReset s
  | .dbgChal => Sys2Proof.Machine.execDbgChal s
  | .dbgResp resp => Sys2Proof.Machine.execDbgResp resp s
  | .pmuFreeze port w v => Sys2Proof.Machine.execPmuFreeze port w v s
  | .clrAll port w v => Sys2Proof.Machine.execClrAll port w v s
  | .counterWrite port b u k w v => Sys2Proof.Machine.execCounterWrite port b u k w v s
  | .sampleWrite die => Sys2Proof.Machine.execSampleWrite die s
  | .aggregateUpdate p ni incs => Sys2Proof.Machine.execAggregateUpdate p ni incs s
  | .hold port c w v => Sys2Proof.Machine.execHold port c w v s
  | .gloveEnable port g w v => Sys2Proof.Machine.execGloveEnable port g w v s
  | .gloveBringup g ok => Sys2Proof.Machine.execGloveBringup g ok s
  | .reservedUe ch frame part => Sys2Proof.Machine.execReservedUe ch frame part s
  | .laserFaultCleared m => Sys2Proof.Machine.execLaserFaultCleared m s
  | .receptaclePresent r => Sys2Proof.Machine.execReceptaclePresent r s
  | .vauxLoss => Sys2Proof.Machine.execVauxLoss s
  | .pmcCycle b u adv empty amounts => Sys2Proof.Machine.execPmcCycle b u adv empty amounts s
  | .fuseProgrammingDone => Sys2Proof.Machine.execFuseProgrammingDone s
  | .arbBlowDone => Sys2Proof.Machine.execArbBlowDone s
  | .attReportDone => Sys2Proof.Machine.execAttReportDone s

end Sys2Proof.Machine
end

