-- ==== Sys2Proof/Safety.lean ====
section
/-! DEFINITION. What counts as a safe run: the state keeps its canonical form, and a step changes nothing of the queue
but its front. -/

namespace Sys2Proof.Machine

/-- Every sparse table of the state is in its canonical form: keys rise strictly and no entry equals what an unlisted key
reads as. -/
def State.canonical (s : State) : Bool :=
  Memory.wf s.mem && SMap.wf Csr.reset s.csr
    && SMap.wf (fun _ => Classroom.idle) s.cls && SMap.wf (fun _ => Ctx.closed) s.ctxs
    && SMap.wf (fun _ => Barrier.empty) s.bars && SMap.wf (fun _ => Snap.none) s.snaps
    && SMap.wf (fun _ => 0) s.snapNums && SMap.wf (fun _ => none) s.objs
    && SMap.wf (fun _ => TileEntry.absent) s.tiles && SMap.wf (fun _ => MigQueue.empty) s.migs
    && SMap.wf (fun _ => Sorter.empty) s.sorters && SMap.wf (fun _ => 0) s.latches
    && SMap.wf (fun _ => RingTimer.quiet) s.ringTimer && SMap.wf (fun _ => NiPort.down) s.nis
    && SMap.wf (fun _ => none) s.groups && SMap.wf (fun _ => RingTimer.quiet) s.linkTimer
    && SMap.wf (fun _ => 0) s.withheld

/-- `t` comes after `s` with nothing done to the queue: it is canonical if `s` was, the queue is the same, and the free
values that `s` had drawn are not drawn again. -/
structure State.Follows (s t : State) : Prop where
  canonical : s.canonical = true → t.canonical = true
  pending : t.pending = s.pending
  drawn : s.drawn ≤ t.drawn

/-- Two fields share no bit. -/
def Fld.apart (f g : Fld) : Bool :=
  decide (f.addr ≠ g.addr) || decide (f.lo + f.len ≤ g.lo) || decide (g.lo + g.len ≤ f.lo)

/-- A field lies within its 64-bit register. -/
def Fld.fits (f : Fld) : Bool := decide (f.lo + f.len ≤ 64)

/-- `t` differs from `s` in registers alone, and there in no field that is apart from all of `fs`. -/
structure State.OnlyFields (s t : State) (fs : List Fld) : Prop where
  rest : t = { s with csr := t.csr }
  apart : ∀ g : Fld, g.fits = true → (∀ f ∈ fs, f.apart g = true) → t.getF g = s.getF g

/-- The command answers a next state of which `P` holds. -/
def answers (i : Instr) (s : State) (P : State → Prop) : Prop := ∃ t, exec i s = .next t ∧ P t

/-- The management owner's port is UP and the device has booted: a write of any register is carried out (R239, R242, R450). -/
structure State.OwnerPort (s : State) (port : Nat) : Prop where
  up : s.portUp port = true
  booted : s.booted = true
  owner : port = s.mgmtPort

/-- The port is UP and a full write of the register through it is carried out with no bit kept back: the management owner's
port, or a host's that serves the register's partition (R239, R242). -/
structure State.FullPort (s : State) (port addr : Nat) : Prop where
  up : s.portUp port = true
  access : s.access port addr = .full

/-- `t` is `s` after the instruction `e` has left the head of queue `q` of classroom `c` and is in flight with the result `r`:
nothing is written yet, a TAKE has lowered its token's COUNT (R36, R39), and no other classroom is touched. -/
structure State.Issued (s t : State) (c : Nat) (q : Queue) (e : QEntry) (r : Result) : Prop where
  queue : (t.room c).queue q = ((s.room c).queue q).tail
  flight : ∃ f : InFlight, (t.room c).flight q = (s.room c).flight q ++ [f] ∧ f.entry = e ∧ f.writes = r.writes ∧
    f.flags = r.flags ∧ f.effects = r.effects
  take : insnWmode e.enc = 1 → t.getF (Csr.clsTok_COUNT c (insnWtok e.enc)) + 1 = s.getF (Csr.clsTok_COUNT c (insnWtok e.enc))
  memory : ∀ a, t.peek a = s.peek a
  others : ∀ d, d ≠ c → t.room d = s.room d

/-- The commands that ask for a host transaction that R236 does not describe. -/
def noSuchSize : Instr → Bool
  | .memRd _ _ dva n => !memSizeOk dva.toNat n
  | .memWr _ _ dva data => !memSizeOk dva.toNat data.length
  | _ => false

end Sys2Proof.Machine
end

