-- ==== Sys2Proof/WellFormed.lean ====
section
/-! DEFINITION. Well-formed commands: operands that the types of Syntax.lean do not already bound. A command that is not
well-formed is no event of this hardware; only MEM_RD and MEM_WR of an impossible size stop (R236), the others then do
nothing or act on what is there. -/

namespace Sys2Proof

/-- The operands are ones that the hardware can meet: a transaction size of R236, a counter that exists (R402) and, for the
latching read, an even one (R403), a unit that counts (R402), a unit of the aggregate's kind (R411), one reading for each of
the 48 sensors (R435), the 32 power readings of a module (R273), a request
within one block of 256 bytes and, for a slice, a frame that a slice has (R217), a message inside the DVA range (R370), as many lands captured as bits shifted (R464), 129 response bytes (R466), a tile index
of R194, a source code of R426. -/
def Instr.wf (i : Instr) : Bool :=
  match i with
  | .tmul _ => true
  | .tmult _ => true
  | .tmulta _ => true
  | .tpair _ => true
  | .tloadw _ => true
  | .vadd _ => true
  | .vfma _ => true
  | .vexp _ => true
  | .vrsq _ => true
  | .vamax _ => true
  | .vsmx _ => true
  | .vnorm _ => true
  | .vquant _ => true
  | .vcvt _ => true
  | .vsumsq _ => true
  | .vrng _ => true
  | .vquiz _ => true
  | .mload _ => true
  | .mstore _ => true
  | .mconv _ => true
  | .mgather _ => true
  | .mscatter _ => true
  | .mpref _ => true
  | .mupd _ => true
  | .swait _ => true
  | .ssig _ => true
  | .sfence _ => true
  | .sbar _ => true
  | .strig _ => true
  | .sloop _ _ => true
  | .send _ => true
  | .frontEndDispatch _ _ => true
  | .instructionComplete _ _ _ => true
  | .readInc _ _ _ => true
  | .waitTimeout _ _ => true
  | .classroomFaulted _ => true
  | .classroomHalted _ => true
  | .rampSlotRequest _ => true
  | .rampSlotGrant _ _ => true
  | .rampStep _ => true
  | .satchelTake _ => true
  | .fenceDrain _ => true
  | .fenceTimeout _ => true
  | .mupdComplete _ => true
  | .ctxOpen _ => true
  | .ctxBind _ => true
  | .lessonLoad _ => true
  | .lessonLoadDone _ => true
  | .launch _ => true
  | .classroomStart _ => true
  | .launchComplete _ => true
  | .halt _ => true
  | .resume _ => true
  | .drain _ => true
  | .ctxClose _ => true
  | .groupJoin _ => true
  | .groupLeave _ => true
  | .snapBegin _ => true
  | .snapCommit _ => true
  | .restore _ _ => true
  | .policySet _ => true
  | .sqTailWrite _ _ _ _ => true
  | .commandRead _ => true
  | .cqEventTimer _ => true
  | .contextAdopt _ _ _ _ => true
  | .partitionEnable _ _ _ _ => true
  | .cfgWr _ _ _ _ => true
  | .rcRead _ _ _ => true
  | .chainedCounterRead _ b u k _ => Machine.ctrExists b u k && decide (k.val % 2 = 0)
  | .memRd _ _ dva n => Machine.memSizeOk dva.toNat n
  | .memWr _ _ dva data => Machine.memSizeOk dva.toNat data.length
  | .zhlSignalDetect _ _ => true
  | .zhlTrained _ _ => true
  | .zhlTrainingTimeout _ => true
  | .zhlLinkLoss _ _ _ _ => true
  | .zhlEnable _ _ _ _ => true
  | .linkEventTimer _ => true
  | .objCreate _ => true
  | .objDestroy _ => true
  | .promote _ => true
  | .demote _ => true
  | .pin _ => true
  | .unpin _ => true
  | .restoreTile _ => true
  | .query _ => true
  | .fence _ => true
  | .migQTailWrite _ _ _ _ => true
  | .migEntryRead _ => true
  | .migCompletion _ => true
  | .migCqEventTimer _ => true
  | .tileMoveStart _ _ t => decide (t < 16777216)
  | .tileEntrySwitch _ _ => true
  | .agingTick => true
  | .poisonTile _ _ t => decide (t < 16777216)
  | .sramDieFailed _ => true
  | .channelFailed _ => true
  | .scrubRead _ _ _ => true
  | .migModeWrite _ _ _ _ => true
  | .ringBaseWrite _ _ _ _ _ _ => true
  | .requestAdmission dest _ _ frame _ first len _ _ => decide (1 ≤ len) && decide (first.val + len ≤ 256) && (match dest with
    | .channel _ => true
    | .slice _ => decide (frame.val < 4096))
  | .parkedAdmission _ => true
  | .bankCommand _ _ _ _ => true
  | .writeBufferDrain _ _ _ => true
  | .requestUrgent _ _ => true
  | .bankHotspot _ _ _ => true
  | .mprefPromotion _ => true
  | .operationPost _ => true
  | .pftQTailWrite _ _ _ _ => true
  | .prefectSend => true
  | .recv => true
  | .allReduce => true
  | .reduceScatter => true
  | .allGather => true
  | .allToAll => true
  | .broadcast => true
  | .barrier => true
  | .norm => true
  | .ctrAdd => true
  | .operationFire => true
  | .operationComplete => true
  | .chunkArrival _ => true
  | .prefectWatchdog _ => true
  | .triggerCounterWrite _ _ _ _ => true
  | .frameSend _ _ _ => true
  | .frameReceive _ _ _ _ => true
  | .retryTimeout _ _ => true
  | .portAlign _ _ => true
  | .negotiate _ _ _ _ => true
  | .linkVersion _ _ _ => true
  | .linkRetrain _ _ => true
  | .portAlignTimeout _ => true
  | .reneg _ _ _ _ => true
  | .niEnable _ _ _ _ => true
  | .ping _ _ => true
  | .laneErrors _ _ _ _ => true
  | .laneReadmit _ _ => true
  | .rollCallRecord _ => true
  | .rollCallResend _ => true
  | .rcTmoExpiry _ => true
  | .planGo _ _ _ _ => true
  | .planUnload _ _ _ _ => true
  | .recheck _ _ _ _ => true
  | .nodeWrite _ _ _ => true
  | .messageDispatch _ _ _ => true
  | .transitForward _ _ _ => true
  | .portQuarantine _ => true
  | .laneLightDetect _ _ _ _ => true
  | .sweepDone _ _ _ _ _ _ => true
  | .laneDrift _ _ _ _ _ => true
  | .driftCleared _ _ _ _ => true
  | .laneUnlocked _ _ _ _ => true
  | .laneDark _ _ _ _ => true
  | .laneReadmitted _ _ _ => true
  | .boundSuspensionEnd _ => true
  | .softwareRetire _ _ _ _ => true
  | .heaterUpdate _ _ _ => true
  | .gloveTempSample _ _ _ => true
  | .ringRefine _ _ => true
  | .monitorExchange _ _ _ _ => true
  | .calReq _ _ _ _ => true
  | .commission _ _ _ => true
  | .saveTab _ _ _ => true
  | .lightEnWrite _ _ _ => true
  | .interlockOpen _ => true
  | .receptacleOpen _ => true
  | .laserFault _ _ => true
  | .laserPoll _ ok _ _ _ readings => !ok || decide (readings.length = 32)
  | .fadeEvaluation _ => true
  | .srcCmd _ _ _ _ => true
  | .spareSwitchStart _ => true
  | .spareRetiringDone _ => true
  | .spareWarmed _ => true
  | .spareWarmTimeout _ => true
  | .crossoverDone _ => true
  | .relockDone _ _ => true
  | .laserSpareDone _ => true
  | .glovePllRetry _ _ => true
  | .serdesUnlock _ => true
  | .firstTouchCopy _ => true
  | .backgroundCopy _ _ => true
  | .tileCopied _ _ _ _ => true
  | .copyEntryDrain _ _ => true
  | .peerCopyReceive _ _ _ dva data _ _ => decide (1 ≤ data.length) && decide (dva.toNat + data.length ≤ 2 ^ 48)
  | .snapshotProtected _ => true
  | .snapshotSealed _ => true
  | .snapshotVerify _ => true
  | .snapAborted _ => true
  | .snapshotTargetFailure _ _ => true
  | .confirm _ _ _ => true
  | .arbRaise _ _ _ => true
  | .advisoryEventTimer _ => true
  | .proctorFailed _ => true
  | .proctorWatchdog _ => true
  | .sensorSample readings _ => decide (readings.length = 48)
  | .throttleStillHot => true
  | .throttleCoolHeld => true
  | .throttleRaise => true
  | .keepSlewStep => true
  | .thermtrip => true
  | .avsbusPoll _ _ _ _ _ _ _ _ => true
  | .vsetWrite _ _ _ => true
  | .clockOrSupply src => decide (src.toNat ∈ [1, 2, 3]) || (decide (0x10 ≤ src.toNat) && decide (src.toNat ≤ 0x19))
  | .porn => true
  | .wrstn => true
  | .partitionReset _ _ _ => true
  | .contextReset _ _ _ => true
  | .bootSlotAttempt _ => true
  | .bootReady _ _ => true
  | .attGo _ _ _ => true
  | .fuseProg _ _ _ => true
  | .erase64k _ _ _ => true
  | .program4k _ _ _ => true
  | .read4k _ _ _ => true
  | .flashOperationDone _ => true
  | .bypass => true
  | .idcode => true
  | .samplePreload captured shifted => decide (captured.length = shifted.length)
  | .extest _ captured shifted => decide (captured.length = shifted.length)
  | .clamp _ => true
  | .highz _ => true
  | .dbgChal => true
  | .dbgResp resp => decide (resp.length = 129)
  | .pmuFreeze _ _ _ => true
  | .clrAll _ _ _ => true
  | .counterWrite _ b u k _ _ => Machine.ctrExists b u k
  | .sampleWrite _ => true
  | .aggregateUpdate _ ni incs => incs.all (fun x => decide (x.1 < if ni then 32 else 64))
  | .hold _ _ _ _ => true
  | .gloveEnable _ _ _ _ => true
  | .gloveBringup _ _ => true
  | .reservedUe _ _ _ => true
  | .laserFaultCleared _ => true
  | .receptaclePresent _ => true
  | .vauxLoss => true
  | .pmcCycle b u _ _ _ => decide (u.val < Machine.ctrUnits b)
  | .fuseProgrammingDone => true
  | .arbBlowDone => true
  | .attReportDone => true

end Sys2Proof
end

