-- ==== Sys2Proof/Certificates/Slice0/Obligations.lean ====
section
/-! DEFINITION. What this model claims: the statements for the provers, each under the number of the rules it rests on. -/

open Sys2Proof Sys2Proof.Machine

/-! ## The machine -/

/-- A step carries out the command at the front of the queue, with the rest of the queue waiting. (The queue is the
model's: notes/assumptions/1.md.) -/
def Obligations.StepRunsTheFrontCommand : Prop :=
  ∀ (c : Instr) (s : State) (r : List Instr), step { s with pending := c :: r } = exec c { s with pending := r }

/-- MODEL'S CHOICE (notes/assumptions/5.md, 81.md): with nothing waiting, a step is one SCLK cycle, in which CLK.TIME
rises by one while SPLL is locked and requests to slices may be answered, none twice; with no such request nothing
else changes. -/
def Obligations.EmptyQueueTicksTheClock : Prop :=
  ∀ s : State, s.pending = [] →
    (∃ t, step s = .next t ∧ t.sliceReqs.Sublist s.sliceReqs ∧ t.mem = s.mem ∧
      t.rd Csr.clkTime = (if s.flag Csr.clkStatus_SPLL_LOCK then s.rd Csr.clkTime + 1 else s.rd Csr.clkTime)) ∧
    (s.sliceReqs = [] →
      (s.flag Csr.clkStatus_SPLL_LOCK = true → ∃ t, step s = .next t ∧ (∀ a, a ≠ Csr.clkTime → t.rd a = s.rd a) ∧
        t = { s with csr := t.csr }) ∧
      (s.flag Csr.clkStatus_SPLL_LOCK = false → step s = .next s))

/-- No command is refused, and the only stop is that of a MEM_RD or MEM_WR whose bytes no single transaction of R236
carries: none, or some on both sides of a 256-byte boundary. -/
def Obligations.OnlyImpossibleTransfersStop : Prop :=
  ∀ (c : Instr) (s : State),
    (noSuchSize c = true → exec c s = .fault .noSuchTransaction) ∧ (noSuchSize c = false → ∃ t, exec c s = .next t)

/-- A step keeps every table in canonical form, takes at most the front of the queue, and draws no free value again that
an earlier step has drawn (the forms and the counter of drawn values are the model's: notes/assumptions/1.md). -/
def Obligations.EveryStepKeepsTheForm : Prop :=
  ∀ s t : State, s.canonical = true → step s = .next t → t.canonical = true ∧ t.pending = s.pending.tail ∧ s.drawn ≤ t.drawn

/-- The state after reset is canonical, has nothing waiting and nothing in memory, and every register reads its reset
value. -/
def Obligations.ResetIsCanonical : Prop :=
  State.reset.canonical = true ∧ State.reset.pending = [] ∧ State.reset.mem = [] ∧ ∀ a, State.reset.rd a = Csr.reset a

/-! ## Classrooms: issue -/

/-- The V engine's instructions (R83 to R89): with the instruction at the head of the V queue ready (R36, R42) and its
operands good, it leaves the queue and is in flight with the result that the instruction's own function forms from the
state; registers other than QSTAT's occupancy and the token of a TAKE do not change. -/
def Obligations.VectorInstructionsIssue : Prop :=
  ∀ (s : State) (c : Fin 64) (e : QEntry) (r : Result),
    let issues (i : Instr) (op : Op) (run : Except FaultInfo Result) : Prop :=
      s.ready c .v op = some e → run = .ok r → answers i s (fun t => s.Issued t c .v e r ∧
        (∀ g : Fld, g.fits = true → (occField c .v).apart g = true → (Csr.clsTok_COUNT c (insnWtok e.enc)).apart g = true →
          t.getF g = s.getF g))
    issues (.vadd c) .vadd (vaddResult s c e) ∧ issues (.vfma c) .vfma (vfmaResult s c e) ∧
    issues (.vexp c) .vexp (unaryResult s c e listConvert (vexpFn (immBf16 e.enc))) ∧
    issues (.vrsq c) .vrsq (unaryResult s c e listRsq (vrsqFn (immBf16 e.enc))) ∧
    issues (.vamax c) .vamax (vamaxResult s c e) ∧ issues (.vsmx c) .vsmx (vsmxResult s c e) ∧
    issues (.vnorm c) .vnorm (vnormResult s c e) ∧ issues (.vquant c) .vquant (vquantResult s c e) ∧
    issues (.vcvt c) .vcvt (unaryResult s c e listConvert (fun x => (x, nonfiniteFlag x))) ∧
    issues (.vsumsq c) .vsumsq (vsumsqResult s c e) ∧ issues (.vrng c) .vrng (vrngResult s c e) ∧
    issues (.vquiz c) .vquiz (vquizResult s c e)

/-- The T engine's products (R73 to R81): with the product ready, the engine accepting it and its operands good, it leaves
the queue and is in flight with C's new bytes, and memory is as before; unless it abandons a load under way (R104),
whose TLOADW then completes, nothing else of the classroom's queues and tokens changes. TLOADW (R77, R103), with the
load path idle, is in flight with nothing to write, and the tile is in the shadow bank. -/
def Obligations.TensorInstructionsIssue : Prop :=
  ∀ (s : State) (c : Fin 64) (e : QEntry) (r : Result),
    let issues (i : Instr) (op : Op) : Prop :=
      s.ready c .t op = some e → acceptsProduct (s.room c) = true → productResult s c op e = .ok r →
        answers i s (fun t => (t.room c).queue .t = ((s.room c).queue .t).tail ∧ (∀ a, t.peek a = s.peek a) ∧
          (∃ f, ((t.room c).flight .t).getLast? = some f ∧ f.entry = e ∧ f.writes = r.writes ∧ f.flags = r.flags) ∧
          ((s.room c).tf.any isLoad = false ∨ bitOf e.enc 1 = true → s.Issued t c .t e r))
    issues (.tmul c) .tmul ∧ issues (.tmult c) .tmult ∧ issues (.tmulta c) .tmulta ∧ issues (.tpair c) .tpair ∧
    (∀ (b : RDesc) data, s.ready c .t .tloadw = some e → s.flag (Csr.clsArrStat_LOAD_BUSY c) = false → e.a = some b →
      readTile (s.view c .t) c b = .ok data →
      answers (.tloadw c) s (fun t => s.Issued t c .t e Result.none ∧
        (t.room c).shadow = some ⟨⟨b.base, b.fmt, b.e0, b.e1, b.empty, bitOf e.enc 0⟩, data, true⟩ ∧
        t.getF (Csr.clsArrStat_LOAD_BUSY c) = 1 ∧ t.getF (Csr.clsArrStat_SHADOW_VALID c) = 1 ∧
        t.getF (Csr.clsArrStat_SHADOW_TR c) = (bitOf e.enc 0).toNat))

/-- The M engine's instructions (R90 to R93): a ready move with good operands is in flight with the bytes it will write;
one that touches what a MUPD before it has still to write is in flight with its bytes still to be formed (R37); MPREF
is in flight with nothing to write; MUPD leaves the M queue for the Satchel's queue while that holds fewer than 4. -/
def Obligations.MoveInstructionsIssue : Prop :=
  ∀ (s : State) (c : Fin 64) (e : QEntry) (r : Result),
    let issues (i : Instr) (op : Op) (run : Except MoveStop Result) : Prop :=
      s.ready c .m op = some e →
        (s.satClash c e = false → run = .ok r → answers i s (fun t => s.Issued t c .m e r)) ∧
        (s.satClash c e = true → answers i s (fun t => (t.room c).mq = (s.room c).mq.tail ∧ (∀ a, t.peek a = s.peek a) ∧
          ∃ f, (t.room c).mf = (s.room c).mf ++ [f] ∧ f.entry = e ∧ f.writes = [] ∧ f.deferred = true))
    issues (.mload c) .mload (copyResult s c e) ∧ issues (.mstore c) .mstore (copyResult s c e) ∧
    issues (.mconv c) .mconv (convertResult s c e) ∧ issues (.mgather c) .mgather (gatherResult s c e) ∧
    issues (.mscatter c) .mscatter (scatterResult s c e) ∧
    (s.ready c .m .mpref = some e → answers (.mpref c) s (fun t => s.Issued t c .m e Result.none)) ∧
    (s.ready c .m .mupd = some e → (s.room c).sat.length < 4 → answers (.mupd c) s (fun t =>
      (t.room c).queue .m = ((s.room c).queue .m).tail ∧ t.getF (Csr.clsSatStat_Q_OCC c) = (s.room c).sat.length + 1 ∧
      ∃ x : SatEntry, (t.room c).sat = (s.room c).sat ++ [x] ∧ x.entry = e ∧ x.stage = .queued ∧ t.mem = s.mem))

/-- The sync instructions (R94 to R98): a ready SWAIT whose own condition holds, an SSIG, an SFENCE, an STRIG and an SBAR
that may join leave the S queue and are in flight; the SSIG has changed its token, the SFENCE counts what was issued
before it, the STRIG carries its increment, and the SBAR waits or, as the last arrival, releases its barrier. SEND
(R60): once everything else has drained and no memory operation of the classroom is left, the classroom is ENDED. -/
def Obligations.SyncInstructionsIssue : Prop :=
  (∀ (s : State) (c : Fin 64) (e : QEntry),
     let issued (x : Result) : State := (s.popHead c .s e).launchInsn c .s e x
     (s.ready c .s .swait = some e → s.swaitHolds c e.enc = true →
       answers (.swait c) s (fun t => s.Issued t c .s e Result.none)) ∧
     (s.ready c .s .ssig = some e → exec (.ssig c) s = .next ((issued Result.none).tokenOp c e)) ∧
     (s.ready c .s .sfence = some e → answers (.sfence c) s (fun t => s.Issued t c .s e Result.none ∧
       ∃ f, (t.room c).sf.getLast? = some f ∧
         f.fence = ((s.room c).tf.length, (s.room c).vf.length, (s.room c).mf.length, (s.room c).sat.length))) ∧
     (s.ready c .s .strig = some e → answers (.strig c) s (fun t =>
       s.Issued t c .s e ⟨[], noFlags, [.trig (synTgt e.enc) (synValue e.enc)]⟩)) ∧
     (let k := s.barKey c (synTgt e.enc)
      let b := s.bar k
      s.ready c .s .sbar = some e → (b.arrived = [] ∨ b.value = synValue e.enc) →
       (b.arrived.length + 1 < synValue e.enc → answers (.sbar c) s (fun t => s.Issued t c .s e Result.none ∧
         t.bar k = ⟨synValue e.enc, b.arrived ++ [c.val]⟩)) ∧
       (synValue e.enc ≤ b.arrived.length + 1 → answers (.sbar c) s (fun t => t.bar k = Barrier.empty ∧
         (t.room c).sq = (s.room c).sq.tail)))) ∧
  (∀ (s : State) (c : Fin 64) (e : QEntry), s.ready c .s .send = some e → (s.room c).quiet = true → s.asking c = false →
     answers (.send c) s (fun t => t.getF (Csr.clsStatus_STATE c) = 5 ∧ (t.room c).sq = (s.room c).sq.tail ∧ t.mem = s.mem))

/-- SSIG's four operations on its token (R94): ADD and SUB inside 0 to 65,535, SET, and SET TARGET. READ_INC (R40): of a T
instruction that does not wait for the arrays, or of a move, its token's COUNT is one higher, once. -/
def Obligations.TokensCount : Prop :=
  (∀ (s : State) (c : Fin 64) (e : QEntry),
     let k := synTgt e.enc
     let n := s.getF (Csr.clsTok_COUNT c k)
     (insnBits e.enc 0 2 = 0 → n + synValue e.enc ≤ 65535 → (s.tokenOp c e).getF (Csr.clsTok_COUNT c k) = n + synValue e.enc) ∧
     (insnBits e.enc 0 2 = 1 → synValue e.enc ≤ n → (s.tokenOp c e).getF (Csr.clsTok_COUNT c k) = n - synValue e.enc) ∧
     (insnBits e.enc 0 2 = 2 → (s.tokenOp c e).getF (Csr.clsTok_COUNT c k) = synValue e.enc % 65536) ∧
     (insnBits e.enc 0 2 = 3 → (s.tokenOp c e).getF (Csr.clsTok_TARGET c k) = synValue e.enc % 65536)) ∧
  (∀ (s : State) (c : Fin 64) (q : Queue) (n : Nat) (f : InFlight),
     ((s.room c).flight q)[n]? = some f → (q = .t ∧ waitsForArrays (s.room c) n = false ∨ q = .m) →
     insnSmode f.entry.enc = 2 → f.readDone = false → f.deferred = false → s.getF (Csr.clsTok_COUNT c (insnStok f.entry.enc)) < 65535 →
     answers (.readInc c q n) s (fun t =>
       t.getF (Csr.clsTok_COUNT c (insnStok f.entry.enc)) = s.getF (Csr.clsTok_COUNT c (insnStok f.entry.enc)) + 1 ∧
       ((t.room c).flight q)[n]? = some { f with readDone := true } ∧ t.mem = s.mem ∧
       exec (.readInc c q n) t = .next t))

/-- R43: an update that would take COUNT below 0 or above 65,535 is not applied; COUNT keeps its value, and the classroom
stops with TOKEN_RANGE: the stop begins, and CLS.FAULT0 names the cause unless a fault is recorded already (R65). -/
def Obligations.TokenRangeStops : Prop :=
  ∀ (s : State) (c : Fin 64) (k : Nat) (d : Int) (q pc enc : Nat),
    let n := Int.ofNat (s.getF (Csr.clsTok_COUNT c k)) + d
    k < 64 → (n < 0 ∨ 65535 < n) →
    (s.tokenAdd c k d q pc enc).getF (Csr.clsTok_COUNT c k) = s.getF (Csr.clsTok_COUNT c k) ∧
    (s.getF (Csr.clsFault0_CAUSE c) = 0 → (s.tokenAdd c k d q pc enc).getF (Csr.clsFault0_CAUSE c) = 3 ∧
      ((s.tokenAdd c k d q pc enc).room c).stopping = true) ∧
    (s.getF (Csr.clsFault0_CAUSE c) ≠ 0 → (s.tokenAdd c k d q pc enc).getF (Csr.clsFault0_MULTI c) = 1)

/-! ## Classrooms: front end, completion, stops, ramps, Satchels -/

/-- A decode cycle (R35, R46): with no loop open, the instruction at CLS.PC, once its descriptors resolve and pass their
checks and its queue has a place, is placed at its queue's tail and PC moves on; a SLOOP that is well nested opens its
loop instead. -/
def Obligations.FrontEndDecodes : Prop :=
  ∀ (s : State) (c : Fin 64),
    let pc := s.getF (Csr.clsPc_PC c)
    let w := (s.rd (Csr.clsImem c pc)).toNat
    let depth := (s.room c).loops.length
    s.running c = true → (s.room c).ended = false →
    (pc + 32768 - s.firstSlot c) % 32768 < s.getF (Csr.clsLesson_INSN_COUNT c) →
    (∀ op x, insnOp w = some op → op ≠ .sloop → s.dispatchChecks c pc w depth op = .ok x →
      ((s.room c).queue (insnQueue x.enc)).length < 64 → (s.room c).loops = [] →
      answers (.frontEndDispatch c .clean) s (fun t =>
        (t.room c).queue (insnQueue x.enc) = (s.room c).queue (insnQueue x.enc) ++ [x] ∧
        t.getF (Csr.clsPc_PC c) = (pc + 1) % 32768 ∧ t.mem = s.mem ∧ ∀ d, d ≠ c.val → t.room d = s.room d)) ∧
    (insnOp w = some .sloop → insnBits w 40 16 = 0 → loopBody w ≠ 0 → loopLevel w = depth → depth < 4 →
      (∀ f l, (s.room c).loops.getLast? = some (f, l) → pc + 1 + loopBody w ≤ f + l) →
      pc + 1 + loopBody w ≤ s.firstSlot c + s.getF (Csr.clsLesson_INSN_COUNT c) → loopCount w ≠ 0 →
      answers (.sloop c .clean) s (fun t => (t.room c).loops = (s.room c).loops ++ [(pc + 1, loopBody w)] ∧
        t.getF (Csr.clsLoop_INDEX c depth) = 0 ∧ t.getF (Csr.clsLoop_COUNT c depth) = loopCount w ∧
        t.getF (Csr.clsLoop_ACTIVE c depth) = 1 ∧ t.getF (Csr.clsStatus_LOOP_DEPTH c) = depth + 1 ∧
        t.getF (Csr.clsPc_PC c) = (pc + 1) % 32768 ∧ t.mem = s.mem))

/-- An instruction that may complete, whose results are formed and whose bytes may be written, leaves its queue's
instructions in flight; without effects beside its bytes it leaves memory as the write of those bytes does, and with
DONE_INC its token's COUNT is one higher (R37, R40, R138). One whose tile moves or is write-protected waits with all
of its bytes (R208, R367). -/
def Obligations.InstructionsComplete : Prop :=
  ∀ (s : State) (c : Fin 64) (q : Queue) (n : Nat) (f : InFlight),
    let p := s.getF (Csr.clsStatus_PART c)
    s.mayComplete c q n = some f → f.deferred = false →
    (f.addrs.any (fun a => s.writeWaits p a) = true → answers (.instructionComplete c q n) s (fun t => t.mem = s.mem ∧
      (t.room c).flight q = (s.room c).flight q)) ∧
    (f.addrs.any (fun a => s.writeWaits p a) = false → s.writableAll p f.writes = .ok () → f.effects = [] →
    answers (.instructionComplete c q n) s (fun t => t.mem = (s.writeAll p f.writes).mem ∧
      (t.room c).flight q = ((s.room c).flight q).eraseIdx n ∧
      (insnSmode f.entry.enc = 1 → s.getF (Csr.clsTok_COUNT c (insnStok f.entry.enc)) < 65535 →
        t.getF (Csr.clsTok_COUNT c (insnStok f.entry.enc)) = s.getF (Csr.clsTok_COUNT c (insnStok f.entry.enc)) + 1) ∧
      (insnSmode f.entry.enc = 3 → t.getF (Csr.clsTok_COUNT c (insnStok f.entry.enc)) = 0)))

/-- WAIT_TIMEOUT (R45, R63, R64): with TMO_EN = 1, a queue head that waits stops the lesson; with no fault recorded,
CLS.FAULT0 then names WAIT_TIMEOUT, its queue and its slot, CLS.FAULT1 its encoding and CLS.FAULT2 the token. A stop
ends (R61, R63): once everything issued has drained, a halting classroom is HALTED, and a stopping one writes its
CLS_FAULT record and is FAULTED (UNAVAILABLE with its house's SRAM die failed), and its context and LAUNCH are told. -/
def Obligations.LessonsStop : Prop :=
  (∀ (s : State) (c : Fin 64) (q : Queue) (e : QEntry),
     s.running c = true → s.flag (Csr.clsCtrl_TMO_EN c) = true → s.headWaits c q = some e → s.getF (Csr.clsFault0_CAUSE c) = 0 →
     answers (.waitTimeout c q) s (fun t => (t.room c).stopping = true ∧ t.getF (Csr.clsFault0_CAUSE c) = 8 ∧
       t.getF (Csr.clsFault0_QUEUE c) = queueCode q ∧ t.getF (Csr.clsFault0_PC c) = e.pc % 32768 ∧
       t.getF (Csr.clsFault0_STATUS c) = 0x13 ∧ t.getF (Csr.clsFault1_ENCODING c) = e.enc % 2 ^ 64 ∧
       t.getF (Csr.clsFault2_TOKEN c) = timeoutToken s c e % 64 ∧ t.mem = s.mem)) ∧
  (∀ (s : State) (c : Fin 64),
     let x := s.getF (Csr.clsStatus_CTX c)
     (s.getF (Csr.clsStatus_STATE c) = 3 → (s.room c).stopping = false → (s.room c).drained = true →
       exec (.classroomHalted c) s = .next ((s.setF (Csr.clsStatus_STATE c) 4).settleHalt x)) ∧
     ((s.room c).stopping = true → (s.room c).drained = true → (s.room c).sf = [] →
       let s2 := s.setRoom c { s.room c with sf := [], stopping := false, quizHalt := false }
       exec (.classroomFaulted c) s = .next
         ((((s2.clsFaultRecord c).setF (Csr.clsStatus_STATE c) (if c.val / 8 ∈ s.deadDies then 7 else 6)).launchFault c).settleHalt x)))

/-- The ramps of the arrays (R114 to R117): a gap of 65 cycles asks for a slot while HOLD = 0, at its cycle and in
ascending classroom number among those of one cycle; the oldest request gets a slot while fewer than 16 are held, and
its ramp begins; each step counts; the last reaches IDLE, FILL or ACTIVE and frees the slot. -/
def Obligations.ArraysRamp : Prop :=
  ∀ (s : State) (c : Fin 64),
    let ps := s.getF (Csr.clsArrStat_PSTATE c)
    let d := s.getF (Csr.clsArrStat_RAMP_STEP c) + 1
    (ps = 4 → s.flag (Csr.clsArrCtrl_HOLD c) = false → (∀ y ∈ s.rampReq, y.2 ≠ c.val) →
      answers (.rampSlotRequest c) s (fun t => t = { s with rampReq := t.rampReq } ∧
        (∀ y, y ∈ t.rampReq ↔ y ∈ s.rampReq ∨ y = ((s.rd Csr.clkTime).toNat, c.val)) ∧
        ((s.rampReq.all (fun y => decide (y.1 ≠ (s.rd Csr.clkTime).toNat) || decide (y.2 < c.val))) = true →
          t.rampReq = s.rampReq ++ [((s.rd Csr.clkTime).toNat, c.val)]))) ∧
    (∀ waited, s.rampReq.head?.map (fun y => y.2) = some c.val → s.rampSlots < 16 → (ps = 4 ∨ ps = 1) →
      answers (.rampSlotGrant c waited) s (fun t => t.rampReq = s.rampReq.tail ∧ t.rampHold = s.rampHold ++ [c.val] ∧
        t.getF (Csr.clsArrStat_PSTATE c) = (if ps = 4 then 5 else 2) ∧ t.getF (Csr.clsArrStat_RAMP_STEP c) = 0 ∧
        (t.room c).rampLeft = 16 ∧ t.mem = s.mem)) ∧
    (ps = 5 ∨ ps = 2 → d < (s.room c).rampLeft → exec (.rampStep c) s = .next (s.setF (Csr.clsArrStat_RAMP_STEP c) d)) ∧
    (ps = 5 ∨ ps = 2 → (s.room c).rampLeft ≤ d → answers (.rampStep c) s (fun t => c.val ∉ t.rampHold ∧
      t.getF (Csr.clsArrStat_RAMP_STEP c) = 0 ∧ t.mem = s.mem ∧
      t.getF (Csr.clsArrStat_PSTATE c) = (if ps = 5 then 0 else if (s.room c).waitArrays then 3 else 4)))

/-- A Satchel's update (R93, R170, R173, R178): it takes a queued MUPD whose parameter record is good to its fence; it
starts the update once the fence has drained; a wait past FENCE_TMO is recorded once and goes on; and the update's end
writes its bytes, once none of the tiles that it or its step's close writes moves or is write-protected. -/
def Obligations.SatchelsUpdate : Prop :=
  ∀ (s : State) (c : Fin 64) (x : SatEntry) (m g : RDesc) (bs : List Byte),
    let q := parseParams bs
    let p := s.getF (Csr.clsStatus_PART c)
    let rb := x.entry.b.getD RDesc.absent
    s.satHead c = some x → s.working c = true → x.entry.dst = some m → x.entry.a = some g →
    (∀ ft fe, x.stage = .queued → s.readRecord c x.entry = .ok bs → s.paramsBad c q (triB x.entry.enc) m g = none →
      viaDesc rb (s.readBytes p (q.stepRec + 0x50) 6) = .ok ft → viaDesc rb (s.readBytes p (leNat ft + 8 * m.layer) 8) = .ok fe →
      exec (.satchelTake c) s = .next ((s.touchRecord p rb.base q).setSatHead c (some
        { x with stage := .fence, fenceCtr := leNat fe % 4096, fenceValid := bitOf (leNat fe) 12,
                 fenceTarget := leNat fe / 65536 % 65536, step := q.step, stepRec := q.stepRec, record := bs }))) ∧
    (x.stage = .fence → s.drained x = true → exec (.fenceDrain c) s = .next (s.startUpdate c x m g)) ∧
    (x.stage = .fence → x.reported = false → s.flag (Csr.clsSatCtrl_FT_EN c) = true → s.drained x = false →
      let rec_ := s.recordP (s.clsPart c) 0x0106 1 1 c (s.getF (Csr.clsStatus_CTX c)) 0
        [(8, x.step), (2, m.layer), (2, x.fenceTarget), (2, s.getF (Csr.pftCtr_VALUE x.fenceCtr) % 65536)]
      exec (.fenceTimeout c) s = .next (((rec_.addF (Csr.clsSatStat_FT_COUNT c) 1).setSatHead c
        (some { x with reported := true })).markFence (s.getF (Csr.clsStatus_CTX c)))) ∧
    (x.stage = .updating → s.unaccepted c true = false → ((s.mupdAddrs c p x).any (fun a => s.writeWaits p a) = false →
      exec (.mupdComplete c) s = .next (s.endMupd c x)) ∧
      ((s.mupdAddrs c p x).any (fun a => s.writeWaits p a) = true → answers (.mupdComplete c) s (fun t => t.mem = s.mem ∧
        (t.room c).sat = (s.room c).sat)))

/-! ## Hardware contexts -/

/-- CTX_OPEN (R254): the ringing port becomes the owner port, PRC's core or for 0xFF the picked one is assigned and counts
one more context, the context is OPEN with nothing bound and no LAUNCH, no other register changes, and the command
completes with DONE. CTX_BIND (R255, R261): the binding is replaced by CLSMASK, the context's lessons leave every
classroom that CLSMASK does not name and no other lesson goes, PRC = 0xFE leaves the core and another moves the
context, and the context is LOADED or OPEN by its lessons or stays FAULTED; then the command completes with DONE.
CTX_CLOSE (R261): the context's lessons are freed, its binding is cleared, it leaves every group it joined, its
completion is written, its core loses it and it is CLOSED; it waits while an operation of its groups has announced
bytes that are not in place. -/
def Obligations.ContextsOpenBindAndClose : Prop :=
  (∀ (s : State) (x : Fin 65536) (c : Cmd), s.freshCmd x 1 = some c →
     let prc := fieldAt c.bytes 8 1
     let core := if prc = 0xFF then s.pickCore else prc
     let port := (s.ctx x).ringer c.sqIdx
     let s1 := ((s.setCtx x { s.ctx x with bound := 0, launch := none, lastMask := 0 }).setFs
       [(Csr.ctxState_PORT x, port), (Csr.ctxState_PRC x, core), (Csr.ctxState_STATE x, 1)]).addF (Csr.prcCoreStatus_CTXS core) 1
     exec (.ctxOpen x) s = .next (s1.complete x c 0 0 0) ∧
     s1.ctxSt x = 1 ∧ s1.getF (Csr.ctxState_PORT x) = port % 2 ^ (Csr.ctxState_PORT x).len ∧
     s1.getF (Csr.ctxState_PRC x) = core % 2 ^ (Csr.ctxState_PRC x).len ∧
     s1.getF (Csr.prcCoreStatus_CTXS core) = min (s.getF (Csr.prcCoreStatus_CTXS core) + 1) (2 ^ (Csr.prcCoreStatus_CTXS core).len - 1) ∧
     (s1.ctx x).bound = 0 ∧ (s1.ctx x).launch = none ∧ s1.mem = s.mem ∧
     (∀ g : Fld, g.fits = true → (Csr.ctxState_PORT x).apart g = true → (Csr.ctxState_PRC x).apart g = true →
       (Csr.ctxState_STATE x).apart g = true → (Csr.prcCoreStatus_CTXS core).apart g = true → s1.getF g = s.getF g)) ∧
  (∀ (s : State) (x : Fin 65536) (c : Cmd), s.freshCmd x 2 = some c →
     let m := clsMask c.bytes
     let prc := fieldAt c.bytes 0x10 1
     let s0 := (List.range 64).foldl (fun t k => if bitOf m k then t else t.freeLessons k (fun l => decide (l.ctx = x.val))) s
     let s1 := s0.setCtx x { s0.ctx x with bound := m }
     let s2 := if prc = 0xFE then s1 else s1.moveCore x (if prc = 0xFF then s1.pickCore else prc)
     exec (.ctxBind x) s = .next ((if s2.ctxSt x = 6 then s2 else s2.setCtxSt x (if s2.hasLesson x then 2 else 1)).complete x c 0 0 0) ∧
     (∀ k, (s2.room k).resident = if k < 64 ∧ bitOf m k = false then (s.room k).resident.filter (fun l => !decide (l.ctx = x.val))
       else (s.room k).resident) ∧
     (s2.ctx x).bound = m ∧ s2.mem = s.mem ∧ s2.groups = s.groups) ∧
  (∀ (s : State) (x : Fin 65536) (c : Cmd), s.freshCmd x 8 = some c →
     let s0 := (List.range 64).foldl (fun t k => t.freeLessons k (fun l => decide (l.ctx = x.val))) s
     let s1 := s0.setCtx x { s0.ctx x with bound := 0 }
     let s2 := (s.groupsJoined x).foldl (fun t y => t.leaveGroup y.1 y.2) s1
     let s3 := (s2.complete x c 0 0 0).subF (Csr.prcCoreStatus_CTXS (s2.getF (Csr.ctxState_PRC x))) 1
     (∀ k, k < 64 → (s1.room k).resident = (s.room k).resident.filter (fun l => !decide (l.ctx = x.val))) ∧
     s1.groups = s.groups ∧ s1.mem = s.mem ∧
     ((s.groupsJoined x).any (fun y => s.groupWaits y.1 y.2) = false → answers (.ctxClose x) s (fun t =>
       t = (s3.setCtx x { s3.ctx x with bound := 0, launch := none, lastMask := 0 }).setCtxSt x 0 ∧ t.ctxSt x = 0 ∧
       (t.ctx x).bound = 0 ∧ (t.ctx x).launch = none)) ∧
     ((s.groupsJoined x).any (fun y => s.groupWaits y.1 y.2) = true → exec (.ctxClose x) s = .next s))

/-- LESSON_LOAD (R30, R31, R256): an image that passes its checks begins to be written: the lessons it overlaps leave
every classroom of CLSMASK; one that fails a check ends with that check's status and classroom. Each classroom in turn
is then written from the image: a good CRC makes it resident there, a bad one does not and ends the command with
BAD_DESC; the last classroom ends it with DONE. -/
def Obligations.LessonsLoad : Prop :=
  ∀ (s : State) (x : Fin 65536) (c : Cmd) (p : Fin 8), s.ctxPart x = some p.val →
    let cs := setBits (clsMask c.bytes) 64
    let f := fieldAt c.bytes 0x18 4
    (∀ n, s.freshCmd x 3 = some c → s.loadChecks x p c = .ok n → answers (.lessonLoad x) s (fun t => t.mem = s.mem ∧
      (∀ k, (t.room k).resident = if k ∈ cs then (s.room k).resident.filter (fun l => !overlap f (imageSegs n) l.firstSeg l.segs)
        else (s.room k).resident) ∧
      (t.ctx x).started = (s.ctx x).started.map (fun d =>
        if d.sqIdx = c.sqIdx then { c with fresh := false, todo := clsMask c.bytes, count := n } else d))) ∧
    (∀ st k, s.freshCmd x 3 = some c → s.loadChecks x p c = .error (st, k) → exec (.lessonLoad x) s =
      .next ((if st = 0x10 then s.addF Csr.migPoison_HITS 1 else s).refuse x c st (s.concerning k))) ∧
    (∀ k ks, (s.ctx x).started.find? (fun c => !c.fresh && decide (c.op = 3)) = some c → setBits c.todo 64 = k :: ks →
      let n := imageSegs c.count
      let t := (s.loadRoom x p c k).1
      (∀ st, (s.loadRoom x p c k).2 = some st → exec (.lessonLoadDone x) s =
        .next ((t.lessonState x).complete x c st (s.concerning k) 0)) ∧
      ((s.loadRoom x p c k).2 = none → exec (.lessonLoadDone x) s = .next (if ks = [] then (t.lessonState x).complete x c 0 0 0
        else t.putCmd x { c with todo := clearBit c.todo k })) ∧
      (∀ img, s.writeBarred x k f n = none → s.readImage p c = .ok img →
        let kept := (s.room k).resident.filter (fun l => !overlap f n l.firstSeg l.segs)
        (s.loadRoom x p c k).2 = (if imageCrcOk img then none else some 0x0E) ∧ t.mem = s.mem ∧
        (t.room k).resident = (if imageCrcOk img then kept ++ [⟨x, f, n⟩] else kept)))

/-- LAUNCH (R257): with none of its classrooms busy and none of its lessons above the micro-batch limit, each is STARTING
for this context, partition and segment, no other classroom changes its status, the launch barriers are empty and the
context is RUNNING. CLASSROOM_START (R33): a STARTING classroom whose lesson is resident and whose table can be read
takes its descriptors and tables, runs or, with a HALT under way, halts, and PC is the lesson's first instruction;
without a resident lesson or a readable table it stops with a front-end fault, and its flags stay (R140). -/
def Obligations.LaunchesStart : Prop :=
  (∀ (s : State) (x : Fin 65536) (c : Cmd) (p : Fin 8), s.freshCmd x 4 = some c → s.ctxPart x = some p.val →
     let cs := setBits (clsMask c.bytes) 64
     let f := fieldAt c.bytes 0x1C 4
     (∀ k ∈ cs, s.clsBusy k = false ∧ ((s.lessonAt k f).isSome = true → s.mbDecl k f ≤ 256)) →
     answers (.launch x) s (fun t => (∀ k ∈ cs, t.getF (Csr.clsStatus_STATE k) = 1 ∧ t.getF (Csr.clsStatus_CTX k) = x.val ∧
         t.getF (Csr.clsStatus_PART k) = p.val ∧ t.getF (Csr.clsLesson_FIRST_SEG k) = f % 64) ∧
       (∀ k, k < 64 → k ∉ cs → t.rd (Csr.clsStatus k) = s.rd (Csr.clsStatus k)) ∧ t.getF (Csr.ctxState_STATE x) = 3 ∧
       (t.ctx x).lastMask = clsMask c.bytes ∧ (∃ l, (t.ctx x).launch = some l ∧ l.mask = clsMask c.bytes ∧ l.faulted = 0) ∧
       (∀ b, b < 16 → t.bar (x.val * 16 + b) = Barrier.empty) ∧ t.mem = s.mem)) ∧
  (∀ (s : State) (c : Fin 64),
     let f := s.getF (Csr.clsLesson_FIRST_SEG c)
     let p := s.getF (Csr.clsStatus_PART c)
     let halted := (s.ctx (s.getF (Csr.clsStatus_CTX c))).started.any (fun d => decide (d.op = 5) && !d.fresh)
     s.getF (Csr.clsStatus_STATE c) = 1 → (s.room c).stopping = false →
     (∀ l bs, s.lessonAt c f = some l → s.mbDecl c f ≤ 256 → s.readObjs p (s.dtabOf c) 8192 = .ok bs →
       answers (.classroomStart c) s (fun t => t = (s.touch p [s.dtabOf c, s.dtabOf c + 8191]).startCls c f l.segs bs ∧
         t.getF (Csr.clsStatus_STATE c) = (if halted then 3 else 2) ∧ t.getF (Csr.clsPc_PC c) = (f * 512 + 56) % 32768 ∧
         t.getF (Csr.clsLesson_SEG_COUNT c) = l.segs % 2 ^ (Csr.clsLesson_SEG_COUNT c).len)) ∧
     (s.lessonAt c f = none → exec (.classroomStart c) s = .next (s.failStart c ⟨.badDesc, 0, 0, 0⟩)) ∧
     (∀ l e, s.lessonAt c f = some l → s.mbDecl c f ≤ 256 → s.readObjs p (s.dtabOf c) 8192 = .error e →
       exec (.classroomStart c) s = .next (s.failStart c (accFault 0 e))))

/-- LAUNCH_COMPLETE (R173, R257): once every classroom of the LAUNCH has stopped it completes, with DONE, with
FENCE_TIMEOUT's status where a fence has timed out, or with the first fault's status, DETAIL and INFO. HALT, RESUME
and DRAIN (R259, R260): HALT halts the LAUNCH's classrooms, or those of the LAUNCH that a core's failure has ended;
RESUME in HALTED resumes every classroom of the LAUNCH and the context runs again, and in RUNNING those that the spot
quiz halted; DRAIN of a running context has it DRAINING, of a halted one empties its classrooms and cancels its
LAUNCH, of a faulted one takes those that stopped to IDLE once no LAUNCH is left, and of an idle context completes at
once. -/
def Obligations.LaunchesEnd : Prop :=
  (∀ (s : State) (x : Fin 65536) (l : Launch), (s.ctx x).launch = some l → allOf l.mask (s.stoppedFor x) = true →
     (l.first = none → exec (.launchComplete x) s = .next (s.afterLaunch x l (if l.fence then 0x15 else 0) 0 0)) ∧
     (∀ st k cause, l.first = some (st, k, cause) → exec (.launchComplete x) s = .next (s.afterLaunch x l st (k + 256 * cause) l.faulted))) ∧
  (∀ (s : State) (x : Fin 65536) (c : Cmd),
     (s.freshCmd x 5 = some c →
       exec (.halt x) s = .next ((((s.heldBy x (s.haltMask x)).foldl (fun t k => t.haltCls k) s).unfresh x c).settleHalt x)) ∧
     (∀ l, (s.ctx x).launch = some l → s.haltMask x = l.mask) ∧ ((s.ctx x).launch = none → s.haltMask x = (s.ctx x).lastMask) ∧
     (∀ l, s.freshCmd x 6 = some c → (s.ctx x).launch = some l → s.ctxSt x = 4 →
       exec (.resume x) s = .next ((((s.heldBy x l.mask).foldl (fun t k => t.resumeCls k) s).setCtxSt x 3).complete x c 0 0 0)) ∧
     (∀ l, s.freshCmd x 6 = some c → (s.ctx x).launch = some l → s.ctxSt x ≠ 4 →
       exec (.resume x) s = .next (((s.heldBy x l.mask).foldl (fun t k => if (t.room k).quizHalt then t.resumeCls k else t) s).complete
         x c 0 0 0)) ∧
     (s.freshCmd x 7 = some c → s.ctxSt x = 3 → exec (.drain x) s = .next (((s.unfresh x c).setCtxSt x 5).settleDrain x)) ∧
     (∀ l, s.freshCmd x 7 = some c → s.ctxSt x = 4 → (s.ctx x).launch = some l →
       let s0 := (s.unfresh x c).setCtxSt x 5
       let s1 := (s0.heldBy x (s.ctx x).lastMask).foldl (fun t k => if t.getF (Csr.clsStatus_STATE k) = 7 then t else t.clearCls k 0) s0
       exec (.drain x) s = .next ((((s1.setCtx x { s1.ctx x with launch := none }).complete x l.cmd 1 0 l.faulted).settleHalt x).settleDrain x)) ∧
     (s.freshCmd x 7 = some c → s.ctxSt x = 6 →
       let s1 := (s.unfresh x c).setCtxSt x 5
       exec (.drain x) s = .next ((if (s.ctx x).launch = none then s1.idleStopped x (s.ctx x).lastMask else s1).settleDrain x)) ∧
     (s.freshCmd x 7 = some c → (s.ctxSt x = 1 ∨ s.ctxSt x = 2) → exec (.drain x) s = .next ((s.unfresh x c).complete x c 0 0 0)))

/-- The context doorbell (R244, R247): a full write of SQ_TAIL by a port that may ring, to a value that adds entries
without overfilling the ring, moves TAIL and notes the port; one to a value that does not fit sets Q_ERR and moves
nothing. The doorbells of the MIG and of the Prefect (R205, R339): a full write of Q_TAIL to a value that adds no more
entries than the ring has room for moves TAIL alone; another sets Q_ERR alone. A ring's base (R215, R339) is stored
while the ring is empty; otherwise the write sets Q_ERR alone. -/
def Obligations.DoorbellsAndBases : Prop :=
  (∀ (s : State) (port : Fin 4) (x : Fin 65536) (v : Word),
     let f := Csr.ctxSqTail_TAIL x
     let old := s.getF f
     let new := v.toNat % 65536
     let fits := tailOk (2 ^ s.getF (Csr.ctxSqBase_LOG2 x)) (s.getF (Csr.ctxSqHead_HEAD x)) old new
     s.FullPort port (Csr.ctxSqTail x) → s.mayRing port x = true →
     (fits = true → new ≠ old → answers (.sqTailWrite port x .full v) s (fun t => t.getF f = new ∧
       (t.ctx x).rings.getLast? = some (old, new, port.val) ∧ (∀ g : Fld, g.fits = true → f.apart g = true → t.getF g = s.getF g) ∧
       t.mem = s.mem)) ∧
     (fits = false → answers (.sqTailWrite port x .full v) s (fun t => t.getF (Csr.ctxSqHead_Q_ERR x) = 1 ∧
       s.OnlyFields t [Csr.ctxSqHead_Q_ERR x]))) ∧
  (∀ (s : State) (port : Fin 4) (p : Fin 8) (v : Word),
     let rings (i : Instr) (tail head log err : Fld) : Prop := s.FullPort port tail.addr →
       let new := v.toNat % 2 ^ tail.len
       (tailOk (2 ^ s.getF log) (s.getF head) (s.getF tail) new = true → answers i s (fun t => t.getF tail = new ∧ s.OnlyFields t [tail])) ∧
       (tailOk (2 ^ s.getF log) (s.getF head) (s.getF tail) new = false → answers i s (fun t => t.getF err = 1 ∧ s.OnlyFields t [err]))
     rings (.migQTailWrite port p .full v) (Csr.migPartQTail_TAIL p) (Csr.migPartQHead_HEAD p) (Csr.migPartQBase_LOG2 p)
       (Csr.migPartQHead_Q_ERR p) ∧
     rings (.pftQTailWrite port p .full v) (Csr.pftPartQTail_TAIL p) (Csr.pftPartQHead_HEAD p) (Csr.pftPartQBase_LOG2 p)
       (Csr.pftPartQHead_Q_ERR p)) ∧
  (∀ (s : State) (port : Fin 4) (p : Fin 8) (cq : Bool) (v : Word),
     (let a := if cq then Csr.migPartCqBase p else Csr.migPartQBase p
      s.FullPort port a → (s.getF (Csr.migPartQHead_HEAD p) = s.getF (Csr.migPartQTail_TAIL p) →
        exec (.ringBaseWrite port p false cq .full v) s = .next (s.store a v.toNat allBits)) ∧
      (s.getF (Csr.migPartQHead_HEAD p) ≠ s.getF (Csr.migPartQTail_TAIL p) → answers (.ringBaseWrite port p false cq .full v) s
        (fun t => t.getF (Csr.migPartQHead_Q_ERR p) = 1 ∧ s.OnlyFields t [Csr.migPartQHead_Q_ERR p]))) ∧
     (let a := if cq then Csr.pftPartCqBase p else Csr.pftPartQBase p
      s.FullPort port a → (s.getF (Csr.pftPartQHead_HEAD p) = s.getF (Csr.pftPartQTail_TAIL p) →
        exec (.ringBaseWrite port p true cq .full v) s = .next (s.store a v.toNat allBits)) ∧
      (s.getF (Csr.pftPartQHead_HEAD p) ≠ s.getF (Csr.pftPartQTail_TAIL p) → answers (.ringBaseWrite port p true cq .full v) s
        (fun t => t.getF (Csr.pftPartQHead_Q_ERR p) = 1 ∧ s.OnlyFields t [Csr.pftPartQHead_Q_ERR p]))))

/-- COMMAND_READ (R248 to R250): with an entry to read, capacity and a core to serve it, a command that passes its first
checks is started and OUTSTANDING is how many are started; one that fails a check, and one that cannot be read,
completes with that status; SQ_HEAD moves on either way. R251: on STATE_REFUSED a command is completed with STATE the
context's state, CTX.STATE.REFUSED is one higher, nothing of the context's own state changes and the command is not
held. -/
def Obligations.CommandsAreRead : Prop :=
  (∀ (s : State) (x : Fin 65536) (p : Fin 8),
     let i := s.getF (Csr.ctxSqHead_HEAD x)
     s.ctxPart x = some p.val → i ≠ s.getF (Csr.ctxSqTail_TAIL x) → s.fatal = false → s.served x = true → s.capacity x = true →
     (s.ctx x).started.any (fun c => c.fresh) = false →
     (∀ b : List Byte, s.readCmd x p = .ok b → (bitOf (fieldAt b 1 1) 0 = true → (s.ctx x).started = []) →
       let s1 := (s.touch p [s.cmdSlot x]).setF (Csr.ctxSqHead_HEAD x) (i + 1)
       (s.firstCheck x p b = none → answers (.commandRead x) s (fun t => t.getF (Csr.ctxSqHead_HEAD x) = (i + 1) % 65536 ∧
         (t.ctx x).started = (s.ctx x).started ++ [⟨i, fieldAt b 0 1, fieldAt b 1 1, fieldAt b 4 4, s.ctxSt x, b, true, 0, 0⟩] ∧
         t.getF (Csr.ctxState_OUTSTANDING x) = (s.ctx x).started.length + 1 ∧ t.ctxSt x = s.ctxSt x ∧ t.mem = s.mem)) ∧
       (∀ status detail, s.firstCheck x p b = some (status, detail) → status ≠ 0x0C →
         exec (.commandRead x) s = .next (s1.writeCq x (fieldAt b 4 4) status (s.ctxSt x) (fieldAt b 0 1) i detail 0 (bitOf (fieldAt b 1 1) 1)) ∧
         s1.getF (Csr.ctxSqHead_HEAD x) = (i + 1) % 65536 ∧ s1.ctx x = s.ctx x ∧ s1.mem = s.mem)) ∧
     (∀ e, s.readCmd x p = .error e → exec (.commandRead x) s = .next (((s.countHit e).setF (Csr.ctxSqHead_HEAD x) (i + 1)).writeCq x 0
       (match e with | .access _ => 0x0D | .poison _ => 0x10) (s.ctxSt x) 0 i 0 0 false))) ∧
  (∀ (s : State) (x : Fin 65536) (p : Fin 8) (b : List Byte) (detail : Nat),
     let i := s.getF (Csr.ctxSqHead_HEAD x)
     s.ctxPart x = some p.val → i ≠ s.getF (Csr.ctxSqTail_TAIL x) → s.fatal = false → s.served x = true → s.capacity x = true →
     (s.ctx x).started.any (fun c => c.fresh) = false → s.readCmd x p = .ok b → (bitOf (fieldAt b 1 1) 0 = true → (s.ctx x).started = []) →
     s.firstCheck x p b = some (0x0C, detail) →
     let s1 := ((s.touch p [s.cmdSlot x]).setF (Csr.ctxSqHead_HEAD x) (i + 1)).addF (Csr.ctxState_REFUSED x) 1
     exec (.commandRead x) s = .next (s1.writeCq x (fieldAt b 4 4) 0x0C (s.ctxSt x) (fieldAt b 0 1) i detail 0 (bitOf (fieldAt b 1 1) 1)) ∧
     s1.getF (Csr.ctxState_REFUSED x) = min (s.getF (Csr.ctxState_REFUSED x) + 1) (2 ^ (Csr.ctxState_REFUSED x).len - 1) ∧
     s1.ctxSt x = s.ctxSt x ∧ s1.ctx x = s.ctx x ∧ s1.mem = s.mem)

/-- R246: a host in the partition's HOSTMASK may write CTX.STATE.PORT to adopt a context whose owner port is not UP; while
it is UP the write leaves PORT. CQ_EVENT_TIMER (R265): with events enabled and a TIMER, a completion not yet announced
is announced by one CQ event with CQ_TAIL, when the owner port is UP, and the count starts again. -/
def Obligations.ContextOwnersAndEvents : Prop :=
  (∀ (s : State) (port : Fin 4) (x : Fin 65536) (p : Fin 8) (v : Word),
     let f := Csr.ctxState_PORT x
     s.FullPort port (Csr.ctxState x) → s.ctxPart x = some p.val → s.serves port p = true →
     (s.portUp (s.getF f) = false → answers (.contextAdopt port x .full v) s (fun t => t.getF f = v.toNat / 2 ^ f.lo % 2 ^ f.len)) ∧
     (s.portUp (s.getF f) = true → answers (.contextAdopt port x .full v) s (fun t => t.getF f = s.getF f))) ∧
  (∀ (s : State) (x : Fin 65536) (st : Nat), (s.ctx x).evtFirst = some st → s.flag (Csr.ctxEvt_EN x) = true →
     s.getF (Csr.ctxEvt_TIMER x) ≠ 0 → s.getF (Csr.hlStatus_STATE (s.getF (Csr.ctxState_PORT x))) = 3 →
     answers (.cqEventTimer x) s (fun t => t.events = s.events ++
       [⟨s.getF (Csr.ctxState_PORT x), 1, s.getF (Csr.ctxState_PART x), x, s.getF (Csr.ctxCqTail_TAIL x), st⟩] ∧
       (t.ctx x).evtCount = 0 ∧ (t.ctx x).evtFirst = none ∧ t.csr = s.csr ∧ t.mem = s.mem))

/-! ## Host links and host accesses -/

/-- The ZHL port states (R238, R239), of a powered device: a signal on four lanes or more takes DOWN to TRAINING, training
ends UP at width 8, or at width 4 where X4_ALLOW allows it, 10 ms in TRAINING return to DOWN, loss returns UP to
TRAINING with its counts and record, EN = 1 takes DISABLED to DOWN, and EN = 0 takes every state to DISABLED.
LINK_EVENT_TIMER (R266): the end of a port's 10 ms sends the withheld change with the port's state as it is, or ends
the limit. -/
def Obligations.HostLinks : Prop :=
  (∀ (s : State) (k port : Fin 4) (lanes : BitVec 8) (fec retries : Nat) (v : Word),
     (s.noVaux = false → s.hlState k = 1 → 4 ≤ (setBits lanes.toNat 8).length → answers (.zhlSignalDetect k lanes) s (fun t =>
       t.hlState k = 2 ∧ t.getF (Csr.hlStatus_CABLE k) = 1 ∧ t.getF (Csr.hlStatus_WIDTH k) = 0 ∧
       s.OnlyFields t [Csr.hlStatus_STATE k, Csr.hlStatus_WIDTH k, Csr.hlStatus_LANE_OK k, Csr.hlStatus_CABLE k])) ∧
     (s.noVaux = false → s.hlState k = 2 → lanes = 255 → (s.linkT (zhlSource k)).recent = true → answers (.zhlTrained k lanes) s (fun t =>
       t.hlState k = 3 ∧ t.getF (Csr.hlStatus_WIDTH k) = 8 ∧ t.getF (Csr.hlStatus_LANE_OK k) = 255 ∧ t.mem = s.mem ∧
       t.linkT (zhlSource k) = ⟨true, true⟩ ∧ t.events = s.events)) ∧
     (s.noVaux = false → s.hlState k = 2 → lanes = 255 → exec (.zhlTrained k lanes) s = .next ((s.setHl k 3 8 255).linkChange (zhlSource k))) ∧
     (s.noVaux = false → s.hlState k = 2 → lanes ≠ 255 → (lanes.toNat % 16 = 15 ∨ lanes.toNat / 16 = 15) → s.flag (Csr.hlCtrl_X4_ALLOW k) = true →
       exec (.zhlTrained k lanes) s = .next ((s.setHl k 3 4 lanes.toNat).linkChange (zhlSource k))) ∧
     (s.hlState k = 2 → answers (.zhlTrainingTimeout k) s (fun t => t.hlState k = 1 ∧
       s.OnlyFields t [Csr.hlStatus_STATE k, Csr.hlStatus_WIDTH k, Csr.hlStatus_LANE_OK k])) ∧
     (s.hlState k = 3 →
       let s0 := ((s.addF (Csr.hlErr_FEC_CE k) fec).addF (Csr.hlErr_RETRY k) retries).setF (Csr.hlStatus_CABLE k) (decide (lanes ≠ 0)).toNat
       exec (.zhlLinkLoss k lanes fec retries) s = .next ((((((s0.dropInFlight k).addF (Csr.hlErr_DOWN_COUNT k) 1).recordD 0x0301 1 7 k
         [(1, lanes.toNat)])).setHl k 2 0 0).linkChange (zhlSource k))) ∧
     (s.OwnerPort port →
       let t := s.store (Csr.hlCtrl k) v.toNat allBits
       (t.flag (Csr.hlCtrl_EN k) = true → t.hlState k = 0 → exec (.zhlEnable port k .full v) s = .next (t.setHl k 1 0 0)) ∧
       (t.flag (Csr.hlCtrl_EN k) = true → t.hlState k ≠ 0 → exec (.zhlEnable port k .full v) s = .next t) ∧
       (t.flag (Csr.hlCtrl_EN k) = false → t.hlState k = 3 → exec (.zhlEnable port k .full v) s =
         .next ((((t.dropInFlight k).addF (Csr.hlErr_DOWN_COUNT k) 1).setHl k 0 0 0).linkChange (zhlSource k))) ∧
       (t.flag (Csr.hlCtrl_EN k) = false → t.hlState k ≠ 3 → exec (.zhlEnable port k .full v) s = .next (t.setHl k 0 0 0)))) ∧
  (∀ (s : State) (port : Fin 36),
     let src := if port.val < 32 then port.val else zhlSource (port.val - 32)
     ((s.linkT src).waiting = true → s.getF (Csr.hlStatus_STATE s.mgmtPort) = 3 → answers (.linkEventTimer port) s (fun t =>
       t.events = s.events ++ [⟨s.mgmtPort, 5, (s.portNow src).2, src, 0, (s.portNow src).1⟩] ∧ t.linkT src = ⟨true, false⟩ ∧
       t.csr = s.csr ∧ t.mem = s.mem)) ∧
     ((s.linkT src).waiting = false → answers (.linkEventTimer port) s (fun t => t.linkT src = RingTimer.quiet ∧
       t.events = s.events ∧ t.csr = s.csr ∧ t.mem = s.mem)))

/-- MEM_RD (R236, R237): a port that serves the partition, with no write of its own waiting, is answered with the bytes of
the range, and no byte of memory changes. MEM_WR (R237): where every byte may be written and no tile of the range
moves or is write-protected, the write is answered and memory is as the bytes written in turn make it. -/
def Obligations.HostAccessesReachMemory : Prop :=
  (∀ (s : State) (port : Fin 4) (p : Fin 8) (dva : BitVec 48) (n : Nat) (bs : List Byte),
     memSizeOk dva.toNat n = true → s.portUp port = true → s.portWaits port = false → s.booted = true →
     s.memForbidden port p dva.toNat = false → s.readBytes p dva.toNat n = .ok bs →
     answers (.memRd port p dva n) s (fun t => t.replies = s.replies ++ [⟨port, .ok, bs⟩] ∧ t.mem = s.mem ∧ t.csr = s.csr)) ∧
  (∀ (s : State) (port : Fin 4) (p : Fin 8) (dva : BitVec 48) (data : List Byte),
     let ws := bytesAt dva.toNat data
     memSizeOk dva.toNat data.length = true → s.portUp port = true → s.portWaits port = false → s.booted = true →
     s.memForbidden port p dva.toNat = false → s.writableAll p ws = .ok () → (∀ w ∈ ws, s.writeWaits p w.1 = false) →
     answers (.memWr port p dva data) s (fun t => t.replies = s.replies ++ [⟨port, .ok, []⟩] ∧ t.mem = (s.writeAll p ws).mem))

/-- A byte that a host writes is the byte that it then reads (R199, R237): after the write of one byte, to a tile that
takes it at once, a read of it is answered with that byte. -/
def Obligations.WrittenByteReadsBack : Prop :=
  ∀ (s t : State) (port : Fin 4) (p : Fin 8) (dva : BitVec 48) (b : Byte),
    s.portUp port = true → s.portWaits port = false → s.booted = true → s.memForbidden port p dva.toNat = false →
    s.writable p dva.toNat = .ok () → s.writeWaits p dva.toNat = false → exec (.memWr port p dva [b]) s = .next t →
    answers (.memRd port p dva 1) t (fun u => u.replies = s.replies ++ [⟨port, .ok, []⟩, ⟨port, .ok, [b]⟩])

/-- A write touches memory nowhere else (R193, R198, R199): a byte of a tile that is not ZERO, or of an OB, changes one
physical byte, at the address that the tile's entry, or the OB's window, gives. A ZERO tile (R199): it reads as zeros,
and its first write fills its frame, which lies below the flash in the model's physical addresses, with zeros:
afterwards every other byte of the frame is 0, no byte outside the frame changes, and the tile is no longer ZERO. -/
def Obligations.ByteWrites : Prop :=
  (∀ (s : State) (p dva : Nat) (b : Byte),
     (∀ c off, s.place p dva = .ob c off → ∀ a, a ≠ obAddr c off → (s.writeByte p dva b).peek a = s.peek a) ∧
     (∀ tk off ro, s.place p dva = .tile tk off ro → (s.tile tk).zero = false →
       ∀ a, a ≠ tileAddr (s.tile tk) off → (s.writeByte p dva b).peek a = s.peek a) ∧
     (s.place p dva = .nowhere → s.writeByte p dva b = s)) ∧
  (∀ (s : State) (p dva : Nat) (b : Byte) (tk off : Nat) (ro : Bool),
     s.place p dva = .tile tk off ro → (s.tile tk).zero = true →
     ((s.tile tk).poison = false → s.readByte p dva = .ok 0) ∧
     ((s.writeByte p dva b).tile tk).zero = false ∧
     (∀ a, a ≠ tileAddr (s.tile tk) off → tileAddr (s.tile tk) 0 ≤ a → a < tileAddr (s.tile tk) 0 + 65536 →
       a < flashBase → (s.writeByte p dva b).peek a = 0) ∧
     (∀ a, a ≠ tileAddr (s.tile tk) off → (a < tileAddr (s.tile tk) 0 ∨ tileAddr (s.tile tk) 0 + 65536 ≤ a) →
       (s.writeByte p dva b).peek a = s.peek a))

/-- R450: before READY, and in RECOVERY, a port reaches SYS.ID, SYS.SERIAL, SYS.BOOT, SYS.PART_CAP, the ERR block, its own
HL instance and, from the management owner's port, SEC, whose flash registers only in RECOVERY; there it has the
rights of R242. Every other CFG access is denied and counted, a read with the reply 0, and MEM_RD and MEM_WR are
answered with an error. -/
def Obligations.BeforeReadyFewRegistersAreServed : Prop :=
  ∀ (s : State) (port : Fin 4) (r : Fin 33554432) (w : AccWidth) (v : Word),
    let a := regAddr r
    let flash := a = Csr.secFlashCmd ∨ (Csr.secFlashBuf 0 ≤ a ∧ a < Csr.secFlashBuf 512)
    let served := a = Csr.sysId ∨ a = Csr.sysSerial ∨ a = Csr.sysBoot ∨ a = Csr.sysPartCap ∨ (0x400000 ≤ a ∧ a < 0x500000) ∨
      (Csr.hlId port ≤ a ∧ a < Csr.hlId (port.val + 1)) ∨
      (port.val = s.mgmtPort ∧ 0x300000 ≤ a ∧ a < 0x400000 ∧ (s.inRecovery = true ∨ ¬flash))
    s.booted = false → s.portUp port = true →
    (served → s.access port a = if !inWindows a then .full else if port.val = s.mgmtPort then .full else s.accessOther port a) ∧
    (¬served → exec (.cfgWr port r w v) s = .next (s.deny port a w) ∧ answers (.rcRead port r w) s (fun t =>
      t = { s.deny port a w with replies := s.replies ++ [⟨port, .ok, accBytes w 0⟩] })) ∧
    (∀ (p : Fin 8) (dva : BitVec 48) (n : Nat) (data : List Byte), s.portWaits port = false →
      (memSizeOk dva.toNat n = true → exec (.memRd port p dva n) s = .next (s.reply port .error [])) ∧
      (memSizeOk dva.toNat data.length = true → exec (.memWr port p dva data) s = .next (s.reply port .error [])))

/-- A denied register write (R242): of a port that is UP, to a register that it may not write, counts at its port with the
offset and does nothing else; a port that is not UP does nothing at all (R239). CFG_WR and RC_READ by the management
owner of a register with no behaviour of its own (R8, R10): the write leaves every other register, and the reply of a
read holds the register's readable bits. -/
def Obligations.RegisterAccesses : Prop :=
  (∀ (s : State) (port : Fin 4) (r : Fin 33554432) (w : AccWidth) (v : Word),
     (s.portUp port = true → (s.access port (regAddr r)).write = false → answers (.cfgWr port r w v) s (fun t =>
       t.getF (Csr.hlAccDeny_COUNT port) = min (s.getF (Csr.hlAccDeny_COUNT port) + 1) (2 ^ (Csr.hlAccDeny_COUNT port).len - 1) ∧
       t.getF (Csr.hlAccDeny_LAST port) = accOffset (regAddr r) w % 2 ^ (Csr.hlAccDeny_LAST port).len ∧
       s.OnlyFields t [Csr.hlAccDeny_COUNT port, Csr.hlAccDeny_LAST port])) ∧
     (s.portUp port = false → exec (.cfgWr port r w v) s = .next s)) ∧
  (∀ (s : State) (port : Fin 4) (r : Fin 33554432) (v : Word), s.OwnerPort port →
     (∀ m x, regWrite port (regAddr r) s x m = s.store (regAddr r) x m) →
       (answers (.cfgWr port r .full v) s (fun t => (∀ a, a ≠ regAddr r → t.rd a = s.rd a) ∧
         t.rd (regAddr r) = writeFields (fieldsAt (regAddr r)) (BitVec.ofNat 64 allBits) v (s.rd (regAddr r)) ∧
         t = { s with csr := t.csr })) ∧
       (ctrAt (regAddr r) = none → answers (.rcRead port r .full) s (fun t => (∀ a, a ≠ regAddr r → t.rd a = s.rd a) ∧
         t.rd (regAddr r) = clearRcFields (fieldsAt (regAddr r)) allBits (s.rd (regAddr r)) ∧
         t.replies = s.replies ++ [⟨port, .ok, leBytes 8 (readFields (fieldsAt (regAddr r)) (s.rd (regAddr r))).toNat⟩] ∧ t.mem = s.mem)))

/-- The field types (R8, R11): fields that lie apart are written each by its type, and the other bits keep their value; a
whole RW field takes a written value that it may hold and keeps its value otherwise, RO, RC and WO fields are not
stored to, W1C loses and W1S gains the bits written as 1. -/
def Obligations.FieldTypesOnWrite : Prop :=
  (∀ (fs : List FieldSpec) (mask v w : Word),
    (∀ f ∈ fs, f.lo + f.len ≤ 64) → fs.Pairwise (fun f g => f.lo + f.len ≤ g.lo ∨ g.lo + g.len ≤ f.lo) →
    (∀ f ∈ fs, wordGet (writeFields fs mask v w) f.lo f.len =
      f.written (wordGet w f.lo f.len) (wordGet v f.lo f.len) (wordGet mask f.lo f.len) % 2 ^ f.len) ∧
    (∀ lo len, (∀ f ∈ fs, f.lo + f.len ≤ lo ∨ lo + len ≤ f.lo) → wordGet (writeFields fs mask v w) lo len = wordGet w lo len)) ∧
  (∀ (f : FieldSpec) (o v : Nat), o < 2 ^ f.len → v < 2 ^ f.len → f.len ≠ 0 →
    let whole := 2 ^ f.len - 1
    (f.ty = .rw → f.zlow = 0 → f.vmin ≤ v → v ≤ f.vmax → f.written o v whole = v) ∧
    (f.ty = .rw → f.zlow = 0 → (v < f.vmin ∨ f.vmax < v) → f.written o v whole = o) ∧
    (f.ty = .ro ∨ f.ty = .rc ∨ f.ty = .wo → f.written o v whole = o) ∧
    (f.ty = .w1c → ∀ i, (f.written o v whole).testBit i = (o.testBit i && !v.testBit i)) ∧
    (f.ty = .w1s → ∀ i, (f.written o v whole).testBit i = (o.testBit i || v.testBit i)))

/-! ## Partitions and performance counters -/

/-- A full write of SYS.PART[p].CFG by the management owner (R241): EN = 1 enables a partition that may be enabled, EN = 0
disables one that may be disabled, and HL.PARTS and CTX.STATE.PART show it; otherwise EN stays and EN_ERR is set. `s1`
is the state with the register's other fields stored. MIG.PART.CFG.MODE (R209): a write of another mode is taken while
the partition has no object; with objects it sets MODE_IGN. `s1` is the state with the register's other fields stored.
A write of PFT.CTR (R338) stores the counter. -/
def Obligations.PartitionsAndModes : Prop :=
  (∀ (s : State) (port : Fin 4) (p : Fin 8) (v : Word),
     let s1 := if s.partOn p then s.storeBut (Csr.sysPartCfg p) v.toNat allBits
         [Csr.sysPartCfg_EN p, Csr.sysPartCfg_HOSTMASK p, Csr.sysPartCfg_EVT_PORT p]
       else s.storeBut (Csr.sysPartCfg p) v.toNat allBits [Csr.sysPartCfg_EN p]
     let en := wroteF v.toNat allBits (Csr.sysPartCfg_EN p)
     s.OwnerPort port →
     (en = some 1 → s1.partOn p = false → s1.mayEnable p = true → exec (.partitionEnable port p .full v) s =
       .next ((s1.setF (Csr.sysPartCfg_EN p) 1).showPartition p)) ∧
     (en = some 1 → s1.partOn p = false → s1.mayEnable p = false → exec (.partitionEnable port p .full v) s =
       .next (s1.setF (Csr.sysPartCfg_EN_ERR p) 1)) ∧
     (en = some 0 → s1.partOn p = true → s1.mayDisable p = true → exec (.partitionEnable port p .full v) s =
       .next (((s1.planUnload p).setF (Csr.sysPartCfg_EN p) 0).showPartition p)) ∧
     (en = some 0 → s1.partOn p = true → s1.mayDisable p = false → exec (.partitionEnable port p .full v) s =
       .next (s1.setF (Csr.sysPartCfg_EN_ERR p) 1)) ∧
     (en = some (s1.partOn p).toNat → exec (.partitionEnable port p .full v) s = .next s1)) ∧
  (∀ (s : State) (port : Fin 4) (p : Fin 8) (v : Word), s.OwnerPort port →
     (let s1 := s.storeBut (Csr.migPartCfg p) v.toNat allBits [Csr.migPartCfg_MODE p]
      s.merged v.toNat allBits (Csr.migPartCfg_MODE p) ≠ s.getF (Csr.migPartCfg_MODE p) →
       (s.objsOf p = [] → exec (.migModeWrite port p .full v) s =
         .next (s1.setF (Csr.migPartCfg_MODE p) (s.merged v.toNat allBits (Csr.migPartCfg_MODE p)))) ∧
       (s.objsOf p ≠ [] → exec (.migModeWrite port p .full v) s = .next (s1.setF (Csr.migPartCfg_MODE_IGN p) 1))) ∧
     (∀ n : Fin 4096, exec (.triggerCounterWrite port n .full v) s = .next (s.store (Csr.pftCtr n) v.toNat allBits)))

/-- Counters (R402 to R405): in NORMAL mode a counter that rises by `n` holds the sum modulo 2^48 and its OVF bit is set
exactly by a wrap that happens now or was noted before; in TEST and DEBUG it stops at 2^48 − 1. -/
def Obligations.CountersWrapOrSaturate : Prop :=
  ∀ (s : State) (b u k n : Nat), ctrExists b u k = true →
    let c := ctrValue b u k
    let t := s.countPlain b u k n
    (s.normalMode = true → t.getF c = (s.getF c + n) % 2 ^ 48 ∧
      bitOf (t.getF (ctrOvf b u)) k = (bitOf (s.getF (ctrOvf b u)) k || decide (2 ^ 48 ≤ s.getF c + n))) ∧
    (s.normalMode = false → t.getF c = min (s.getF c + n) (2 ^ 48 - 1))

/-- Counting cycles and aggregates (R402, R406, R411): a unit's cycle adds to each of its counters what the cycle gives
for its event, an aggregate adds the increments of its own partition's units, and under FREEZE nothing counts.
SAMPLE_WRITE (R367, R413, R414): the oldest sample of a die goes into its partition's ring where the ring has room,
the slot is good and free to take it; WR and the classroom's WRITTEN are one higher. Without room it is dropped and
counted in LOST and DROPPED; with a bad slot LOST and ERR say so; while its tile moves or is write-protected it stays. -/
def Obligations.CountersAndSamples : Prop :=
  (∀ (s : State) (u : Fin 64) (p : Fin 8) (adv empty : BitVec 4) (l : List (Nat × Nat × Nat)) (incs : List (Nat × Nat × Nat × Nat)),
     let ev (b k : Nat) : Nat := s.getF (ctrEvent b u k)
     let q (b k : Nat) : Nat := s.getF (ctrQual b u k)
     exec (.pmcCycle 0 u adv empty l) s = .next ((s.countAll 0 u (fun k =>
       s.clsAmount u (ev 0 k) (q 0 k) adv.toNat empty.toNat l)).arrayCounters u l) ∧
     (u.val < 32 → exec (.pmcCycle 1 u adv empty l) s = .next (s.countAll 1 u (fun k => s.niAmount u (ev 1 k) (q 1 k) l))) ∧
     (u.val < 48 → exec (.pmcCycle 2 u adv empty l) s = .next (s.countAll 2 u (fun k => s.memAmount u (ev 2 k)
       (if s.flag (Csr.memPmcSel_PFILT u k) then some (q 2 k) else none) l))) ∧
     (∀ ni : Bool, exec (.aggregateUpdate p ni incs) s = .next (s.countAll 3 p (fun k =>
       let e := s.getF (ctrEvent 3 p k)
       let mask := if ni then s.getF (Csr.sysPartNi_MASK p) else s.getF (Csr.sysPartCls_MASK p)
       if decide (s.getF (Csr.pmuPartAggSel_SRC p k) = ni.toNat) then
         Amounts.total ((incs.filter (fun x => bitOf mask x.1)).map (fun x => x.2)) e
           (if qualified ni e then some (s.getF (ctrQual 3 p k)) else none)
       else 0))) ∧
     (s.flag Csr.pmuCtrl_FREEZE = true → ∀ b v f, s.countAll b v f = s)) ∧
  (∀ (s : State) (die : Fin 2) (x : Sample),
     let p := x.part
     let wr := s.getF (Csr.pmuPartSbufWr_INDEX p)
     let n := 2 ^ s.getF (Csr.pmuPartSbufBase_LOG2 p)
     let dva := s.getF (Csr.pmuPartSbufBase_DVA p) + 32 * (wr % n)
     let room : Bool := decide ((wr + 2 ^ 32 - s.getF (Csr.pmuPartSbufRd_INDEX p)) % 2 ^ 32 < n)
     let t : State := { s with samples := s.samples.erase x }
     s.samples.find? (fun y => decide (y.cls / 32 = die.val)) = some x →
     (room = false → exec (.sampleWrite die) s = .next ((t.addF (Csr.pmuPartSbufStat_LOST p) 1).addF (Csr.clsPsampStat_DROPPED x.cls) 1)) ∧
     (room = true → s.sampleFits p dva = false → exec (.sampleWrite die) s =
       .next ((t.addF (Csr.pmuPartSbufStat_LOST p) 1).setF (Csr.pmuPartSbufStat_ERR p) 1)) ∧
     (room = true → s.sampleFits p dva = true → s.writeWaits p dva = true → exec (.sampleWrite die) s = .next s) ∧
     (room = true → s.sampleFits p dva = true → s.writeWaits p dva = false → exec (.sampleWrite die) s =
       .next (((t.writeAll p (bytesAt dva x.bytes)).setF (Csr.pmuPartSbufWr_INDEX p) (wr + 1)).addF (Csr.clsPsampStat_WRITTEN x.cls) 1)))

/-- Counter accesses by the management owner (R402, R403): a write of a counter that exists stores it; a read of the even
counter of a chained pair is answered with it and latches the odd one; a read of the odd one is answered with the
latch. PMU.CTRL (R406): a full write stores its other fields, and CLR_ALL gives every counter and every OVF register
its reset value and leaves every other register but PMU.STATUS. -/
def Obligations.CounterAccesses : Prop :=
  (∀ (s : State) (port b : Fin 4) (u : Fin 64) (k : Fin 16) (v : Word), s.OwnerPort port → ctrExists b u k = true →
     let c := ctrValue b u k
     exec (.counterWrite port b u k .full v) s = .next (s.store c.addr v.toNat allBits) ∧
     (s.chained b u k = true → k.val % 2 = 0 → answers (.chainedCounterRead port b u k .full) s (fun t =>
       t.latches.get (fun _ => 0) (ctrValue b u (k.val + 1)).addr = s.getF (ctrValue b u (k.val + 1)) ∧
       t.replies = s.replies ++ [⟨port, .ok, leBytes 8 (s.getF c)⟩] ∧ t.csr = s.csr ∧ t.mem = s.mem)) ∧
     (s.chained b u k = true → k.val % 2 = 1 → answers (.chainedCounterRead port b u k .full) s (fun t =>
       t.replies = s.replies ++ [⟨port, .ok, leBytes 8 (s.latches.get (fun _ => 0) c.addr % 2 ^ 64)⟩] ∧ t.latches = s.latches ∧ t.csr = s.csr)) ∧
     (s.chained b u k = false → answers (.chainedCounterRead port b u k .full) s (fun t =>
       t.replies = s.replies ++ [⟨port, .ok, leBytes 8 (s.getF c)⟩] ∧ t.latches = s.latches ∧ t.csr = s.csr))) ∧
  (∀ (s : State) (port : Fin 4) (v : Word), s.OwnerPort port →
     let s1 := s.storeBut Csr.pmuCtrl v.toNat allBits [Csr.pmuCtrl_CLR_ALL]
     (wrote1 v.toNat allBits Csr.pmuCtrl_CLR_ALL = false → exec (.pmuFreeze port .full v) s = .next s1) ∧
     (wrote1 v.toNat allBits Csr.pmuCtrl_CLR_ALL = true → exec (.clrAll port .full v) s = .next s1.clearCounters) ∧
     (∀ a, a ≠ Csr.pmuStatus → s.clearCounters.rd a = if (ctrAt a).isSome || isOvf a then Csr.reset a else s.rd a))

/-! ## Reset, boot, faults, security -/

/-- PORn and the loss of VAUX (R437, R441, R442): every register is at its reset value, but that PORn keeps ERR.FATAL;
every address below the boot flash reads as after reset; everything else in the device is as after reset, but for the
fuses and keys, the retired frames, what the optical service keeps in the flash and in the modules, and what lies
outside the device; with VAUX gone the device does nothing else. WRSTn (R442, R443): the classrooms, contexts,
sorters, groups, operations, moves and samples start afresh, the boot's cause is WRSTn, the time, the node and the
partitions' registers stay, and, where the tables have their form and the frames of the SRAM tier lie in it, every
byte of the SLOW tier; without VAUX nothing happens. -/
def Obligations.ResetsClear : Prop :=
  (∀ s : State,
     let like (t : State) (vaux : Bool) : Prop := t = { State.reset with
       csr := t.csr, mem := t.mem, retired := s.retired, security := t.security, optics := t.optics, jtag := s.jtag, noVaux := !vaux,
       events := s.events, replies := s.replies, wire := s.wire, peer := s.peer, drawn := t.drawn, pending := s.pending }
     answers .porn s (fun t => like t true ∧ (∀ a, a ≠ Csr.errFatal → t.rd a = Csr.reset a) ∧ t.rd Csr.errFatal = s.rd Csr.errFatal ∧
       (∀ a, a < flashBase → t.peek a = memDefault a) ∧ t.security.vendor = s.security.vendor ∧ t.optics.saved = s.optics.saved) ∧
     answers .vauxLoss s (fun t => like t false ∧ (∀ a, t.rd a = Csr.reset a) ∧ (∀ a, a < flashBase → t.peek a = memDefault a) ∧
       t.security.vendor = s.security.vendor ∧ t.optics.saved = s.optics.saved)) ∧
  (∀ s : State,
     (s.noVaux = false → answers .wrstn s (fun t => t.getF Csr.sysBoot_CAUSE = 1 ∧ t.cls = [] ∧ t.ctxs = [] ∧ t.groups = [] ∧
       t.sorters = [] ∧ t.ops = [] ∧ t.early = [] ∧ t.moves = [] ∧ t.samples = [] ∧ t.fatal = false ∧ t.rd Csr.clkTime = s.rd Csr.clkTime ∧
       t.rd Csr.sysNode = s.rd Csr.sysNode ∧ (∀ a, Csr.sysPartCfg 0 ≤ a → a < Csr.sysPartCfg 8 → t.rd a = s.rd a) ∧
       (s.canonical = true → (∀ e ∈ s.tiles, sramAddr e.2.slice e.2.sframe 65535 < slowBase) →
         ∀ a, slowBase ≤ a → a < obBase → t.peek a = s.peek a))) ∧
     (s.noVaux = true → exec .wrstn s = .next s))

/-- Partition and context reset (R444, R445) by the management owner: a REQ bit of an enabled partition resets that
partition, one of another does nothing; GO resets the context that CTX names, a CLOSED one stays as it is, and without
GO nothing is reset; a context that is closed so reads CLOSED with its unstarted commands discarded. -/
def Obligations.PartitionAndContextReset : Prop :=
  ∀ (s : State) (port : Fin 4) (v : Word), s.OwnerPort port →
    (∀ p : Fin 8, (wroteF v.toNat allBits Csr.sysPrst_REQ) = some (2 ^ p.val) →
      let s1 := s.storeBut Csr.sysPrst v.toNat allBits [Csr.sysPrst_REQ]
      exec (.partitionReset port .full v) s = .next (if s1.partOn p then s1.resetPart p else s1)) ∧
    (let s1 := s.storeBut Csr.sysCrst v.toNat allBits [Csr.sysCrst_GO]
     let x := s1.getF Csr.sysCrst_CTX
     (wrote1 v.toNat allBits Csr.sysCrst_GO = true → s1.ctxSt x ≠ 0 → exec (.contextReset port .full v) s = .next (s1.resetCtx x)) ∧
     (wrote1 v.toNat allBits Csr.sysCrst_GO = true → s1.ctxSt x = 0 → exec (.contextReset port .full v) s = .next s1) ∧
     (wrote1 v.toNat allBits Csr.sysCrst_GO = false → exec (.contextReset port .full v) s = .next s1)) ∧
    (∀ x : Fin 65536, (s.closeCtx x).ctxSt x = 0 ∧ (s.closeCtx x).getF (Csr.ctxSqHead_HEAD x) = s.getF (Csr.ctxSqTail_TAIL x) ∧
      (s.closeCtx x).ctx x = Ctx.closed)

/-- The boot (R290, R379, R428, R448, R449): the steps before the first attempt are part of it; the first slot tried is
NEXT with TRY, which is cleared, and else ACTIVE, the second is the other; a slot that verifies is BOOTED and its
firmware starts; one that does not leaves its code, and after the second the device is in RECOVERY; the ready firmware
sets READY, starts the optical service and reports a fallback. -/
def Obligations.BootTriesItsSlots : Prop :=
  ∀ (s : State),
    (s.noVaux = false → s.getF Csr.sysBoot_STATE ≤ 2 → ∀ readErr : Bool,
      let s0 := if s.getF Csr.sysBoot_STATE = 2 then s else s.bootPrep
      (s0.security.first = none → exec (.bootSlotAttempt readErr) s = .next (s0.chooseSlot.2.trySlot s0.chooseSlot.1 readErr false)) ∧
      (∀ b, s0.security.first = some b → exec (.bootSlotAttempt readErr) s = .next (s0.trySlot (1 - b) readErr true))) ∧
    (s.chooseSlot.1 = (if s.flag Csr.rgsFw_TRY then s.getF Csr.rgsFw_NEXT else s.getF Csr.rgsFw_ACTIVE) ∧
      s.chooseSlot.2.getF Csr.rgsFw_TRY = 0 ∧ s.chooseSlot.2.security.first = some s.chooseSlot.1) ∧
    (∀ (b : Nat) (readErr second : Bool), b < 2 →
      let t := s.trySlot b readErr second
      let code := if readErr then 9 else s.verifySlot b
      t.getF (slotErr b) = code ∧
      (code = 0 → t.getF Csr.sysBoot_STATE = 3 ∧ t.getF Csr.rgsFw_BOOTED = b ∧ t.getF (slotValid b) = 1) ∧
      (code ≠ 0 → second = false → t.getF Csr.sysBoot_STATE = s.getF Csr.sysBoot_STATE ∧ t.security = s.security) ∧
      (code ≠ 0 → second = true → t.getF Csr.sysBoot_STATE = 5 ∧ t.getF Csr.secStatus_MODE = 3)) ∧
    (∀ ms proto, s.getF Csr.sysBoot_STATE = 3 →
      let s1 := (s.setMode (if s.flag Csr.secStatus_DEBUG then 2 else 0)).setFs [(Csr.sysBoot_STATE, 4), (Csr.sysBoot_BOOT_MS, ms.toNat),
        (Csr.sysNode_PROTO, proto.toNat), (Csr.pwrVset_MV, s.getF Csr.pwrVset_FUSE_MV)]
      let s2 := (List.range 16).foldl (fun t i => t.setF (Csr.prcCoreStatus_STATE i) 1) s1
      exec (.bootReady ms proto) s = .next (((s2.startBuses.readCommissioned.bootLight 0).bootLight 1).fallback))

/-- Fatal faults (R200, R245, R383, R392, R491): an uncorrectable error in a frame of the reserved area is captured and
stops its partition, or without one the device; a working core that fails counts an error of its cache, or its
watchdog, and is FAILED; one that has failed before does nothing. -/
def Obligations.FatalFaults : Prop :=
  ∀ (s : State) (ch : Fin 48) (frame : Fin 262144) (k : Fin 16),
    (261120 ≤ frame.val →
      (∀ p : Fin 8, exec (.reservedUe ch frame (some p)) s = .next ((s.captureUe ch frame p false).partitionFatal p
        ⟨0x0205, 4, p, 2, ch, 0xFFFF, 0, [(1, ch.val), (4, frame.val)]⟩)) ∧
      exec (.reservedUe ch frame none) s = .next ((s.captureUe ch frame 0 false).deviceFatal
        ⟨0x0205, 5, 255, 2, ch, 0xFFFF, 0, [(1, ch.val), (4, frame.val)]⟩)) ∧
    (frame.val < 261120 → ∀ p, exec (.reservedUe ch frame p) s = .next s) ∧
    (∀ q r, q ∈ (s.partitionFatal q r).partFatal) ∧ (∀ r, (s.deviceFatal r).fatal = true) ∧
    (s.coreWorks k = true → exec (.proctorFailed k) s = .next ((s.addF (Csr.prcCoreEcc_UE k) 1).failCore k false) ∧
      exec (.proctorWatchdog k) s = .next (s.failCore k true)) ∧
    (s.coreWorks k = false → exec (.proctorFailed k) s = .next s ∧ exec (.proctorWatchdog k) s = .next s)

/-- RGS.FW and RGS.ARB (R379 to R381), written whole by the management owner: CONFIRM makes the booted slot ACTIVE, and
slot control is saved; a RAISE that R380 accepts is under way, to the larger value where one is already; another sets
ARB_IGN; RAISE = 0 asks for nothing; when the fuses are blown VALUE is the raised one. Owner fuses (R456, R457): GO by
the management owner starts the programming of the staged bits that are not blown yet, or sets PROG_IGN, and while a
programming runs changes nothing of it; at its end those bits are blown, GO and BITS_LEFT are 0 and the fuses show. -/
def Obligations.FirmwareAndFuses : Prop :=
  (∀ (s : State) (port : Fin 4) (v : Word), s.OwnerPort port →
     (let s1 := s.storeBut Csr.rgsFw v.toNat allBits [Csr.rgsFw_CONFIRM]
      (wrote1 v.toNat allBits Csr.rgsFw_CONFIRM = true → exec (.confirm port .full v) s =
        .next (s1.setF Csr.rgsFw_ACTIVE (s1.getF Csr.rgsFw_BOOTED)).saveSlots) ∧
      (wrote1 v.toNat allBits Csr.rgsFw_CONFIRM = false → exec (.confirm port .full v) s = .next s1.saveSlots) ∧
      (∀ t : State, t.saveSlots.security.slots.active = t.getF Csr.rgsFw_ACTIVE ∧ t.saveSlots.security.slots.next = t.getF Csr.rgsFw_NEXT ∧
        t.saveSlots.csr = t.csr ∧ t.saveSlots.mem = t.mem)) ∧
     (let s1 := s.storeBut Csr.rgsArb v.toNat allBits [Csr.rgsArb_RAISE]
      ∀ r, wroteF v.toNat allBits Csr.rgsArb_RAISE = some r →
       (r = 0 → exec (.arbRaise port .full v) s = .next s1) ∧
       (r ≠ 0 → s1.raiseOk r = true → exec (.arbRaise port .full v) s = .next (s1.setFs
         [(Csr.rgsArb_RAISE, if s1.flag Csr.rgsArb_BUSY then max r (s1.getF Csr.rgsArb_RAISE) else r), (Csr.rgsArb_BUSY, 1)])) ∧
       (r ≠ 0 → s1.raiseOk r = false → exec (.arbRaise port .full v) s = .next (s1.setF Csr.rgsArb_ARB_IGN 1))) ∧
     (s.flag Csr.rgsArb_BUSY = true →
       let n := s.getF Csr.rgsArb_RAISE
       exec .arbBlowDone s = .next ((s.withSec (fun x => { x with arb := n })).setFs
         [(Csr.rgsArb_VALUE, n), (Csr.rgsArb_RAISE, 0), (Csr.rgsArb_BUSY, 0)]))) ∧
  (∀ (s : State) (port : Fin 4) (v : Word),
     let s1 := s.storeBut Csr.secFuseProg v.toNat allBits [Csr.secFuseProg_GO]
     let f := s1.getF Csr.secFuseProg_FIELD
     let staged := leNat (s1.getWords Csr.secFuseStage 4)
     let bits := staged - (staged &&& s1.security.owner.get f)
     s.OwnerPort port →
     (wrote1 v.toNat allBits Csr.secFuseProg_GO = true → s.flag Csr.secFuseProg_GO = false →
       (s1.progIgnored f staged = true → exec (.fuseProg port .full v) s = .next (s1.setF Csr.secFuseProg_PROG_IGN 1)) ∧
       (s1.progIgnored f staged = false → exec (.fuseProg port .full v) s = .next ((s1.withSec (fun x => { x with prog := some (f, bits) })).setFs
         [(Csr.secFuseProg_GO, 1), (Csr.secFuseProg_BITS_LEFT, countBits bits 256)]))) ∧
     ((wrote1 v.toNat allBits Csr.secFuseProg_GO = false ∨ s.flag Csr.secFuseProg_GO = true) → exec (.fuseProg port .full v) s = .next s1) ∧
     (∀ x, s.security.prog = some x → exec .fuseProgrammingDone s = .next
       ((((s.withSec (fun y => { y with owner := y.owner.blow x.1 x.2, prog := none })).setFs
         [(Csr.secFuseProg_GO, 0), (Csr.secFuseProg_BITS_LEFT, 0)]).showOwner))))

/-- The boot flash (R454), from the management owner's port: GO starts the operation, or sets FLASH_IGN where one runs or
the region is protected; OP 0 starts nothing; at its end an erased sector reads as 0xFF, a page programmed holds
FLASH_BUF's bytes and a page read is in FLASH_BUF; an error sets FAIL, and what a sector or page then holds is free. -/
def Obligations.FlashOperations : Prop :=
  ∀ (s : State) (port : Fin 4) (v : Word),
    let s1 := s.storeBut Csr.secFlashCmd v.toNat allBits [Csr.secFlashCmd_GO]
    let op := s1.getF Csr.secFlashCmd_OP
    let o := flashAddr op (s1.getF Csr.secFlashCmd_ADDR)
    s.OwnerPort port →
    (∀ i : Instr, (i = .erase64k port .full v ∨ i = .program4k port .full v ∨ i = .read4k port .full v) →
      (wrote1 v.toNat allBits Csr.secFlashCmd_GO = true → op ≠ 0 →
        (s1.flashIgnored op o = false → exec i s =
          .next ((s1.withSec (fun x => { x with flash := some (op, o) })).setF Csr.secFlashCmd_GO 1)) ∧
        (s1.flashIgnored op o = true → exec i s = .next (s1.setF Csr.secFlashCmd_FLASH_IGN 1))) ∧
      ((wrote1 v.toNat allBits Csr.secFlashCmd_GO = false ∨ op = 0) → exec i s = .next s1)) ∧
    (∀ k n, s.security.flash = some (k, n) →
      let t := (s.withSec (fun x => { x with flash := none })).setF Csr.secFlashCmd_GO 0
      (k = 1 → answers (.flashOperationDone false) s (fun u => u.csr = t.csr ∧ u.security = t.security ∧
        ∀ a, u.peek a = if flashBase + n ≤ a ∧ a < flashBase + n + 65536 then memDefault a else s.peek a)) ∧
      (k = 2 → exec (.flashOperationDone false) s = .next (t.pokeN (flashBase + n) (s.getWords Csr.secFlashBuf 512))) ∧
      (k = 3 → flashOwn n = false → exec (.flashOperationDone false) s =
        .next (t.putWords Csr.secFlashBuf 512 (s.peekN (flashBase + n) 4096))) ∧
      (k = 3 → flashOwn n = true → exec (.flashOperationDone false) s =
        .next ((t.freeBytes 4096).2.putWords Csr.secFlashBuf 512 (t.freeBytes 4096).1)) ∧
      (k = 3 → exec (.flashOperationDone true) s = .next (((t.freeBytes 4096).2.putWords Csr.secFlashBuf 512 (t.freeBytes 4096).1).setF
        Csr.secFlashCmd_FAIL 1)) ∧
      (k ≠ 3 → exec (.flashOperationDone true) s = .next ((t.loseFlash n (flashSpan k)).setF Csr.secFlashCmd_FAIL 1)))

/-- Attestation (R462, R467), from the management owner's port: GO with an attestation key starts a report, without one
sets NOKEY, and while one is made sets ATT_IGN; the report is its body followed by the signature of it, and a key
erased meanwhile sets NOKEY. Debug unlock (R466, R467): a challenge is 32 free bytes and the serial number; a response
of 129 bytes that its key verifies opens debug, erases the attestation key and ends NORMAL mode; any other clears the
challenge and changes no register. -/
def Obligations.AttestationAndUnlock : Prop :=
  (∀ (s : State) (port : Fin 4) (v : Word), s.OwnerPort port →
     (wrote1 v.toNat allBits Csr.secAttCtrl_GO = true →
       (s.flag Csr.secAttCtrl_GO = true → answers (.attGo port .full v) s (fun t => t.getF Csr.secAttCtrl_ATT_IGN = 1 ∧
         t.getF Csr.secAttCtrl_GO = 1 ∧ (∀ a, a ≠ Csr.secAttCtrl → t.rd a = s.rd a) ∧ t = { s with csr := t.csr })) ∧
       (s.flag Csr.secAttCtrl_GO = false → s.flag Csr.secStatus_AK_VALID = true → answers (.attGo port .full v) s (fun t =>
         t.getF Csr.secAttCtrl_GO = 1 ∧ (∀ a, a ≠ Csr.secAttCtrl → t.rd a = s.rd a) ∧ t = { s with csr := t.csr })) ∧
       (s.flag Csr.secAttCtrl_GO = false → s.flag Csr.secStatus_AK_VALID = false → answers (.attGo port .full v) s (fun t =>
         t.getF Csr.secAttCtrl_NOKEY = 1 ∧ t.getF Csr.secAttCtrl_GO = 0 ∧ (∀ a, a ≠ Csr.secAttCtrl → t.rd a = s.rd a) ∧
         t = { s with csr := t.csr }))) ∧
     (∀ ak, s.flag Csr.secAttCtrl_GO = true → s.security.ak = some ak → answers .attReportDone s (fun t =>
       let body := (s.setF Csr.secAttCtrl_GO 0).reportBody
       t.getF Csr.secAttCtrl_GO = 0 ∧ t = { s with csr := t.csr } ∧
       ∀ i, i < 32 → t.rd (Csr.secAttReport i) = BitVec.ofNat 64 (fieldAt (body ++ signature ak body) (8 * i) 8))) ∧
     (s.flag Csr.secAttCtrl_GO = true → s.security.ak = none → exec .attReportDone s =
       .next ((s.setF Csr.secAttCtrl_GO 0).setF Csr.secAttCtrl_NOKEY 1))) ∧
  (∀ (s : State) (resp : List Byte),
     let ok : Bool := decide (resp.length = 129) && s.unlocks (fieldAt resp 0 1) ((resp.drop 1).take 64) (resp.drop 65)
     answers .dbgChal s (fun t => t.csr = s.csr ∧ t.mem = s.mem ∧ t.security = { s.security with challenge := some t.jtag.out } ∧
       t.jtag.out.length = 40 ∧ t.jtag.out.drop 32 = leBytes 8 (s.getF Csr.sysSerial_SERIAL) ∧ t.drawn = s.drawn + 1) ∧
     (ok = true → answers (.dbgResp resp) s (fun t => t.security = { s.security with ak := none } ∧ t.getF Csr.secStatus_DEBUG = 1 ∧
       t.getF Csr.secStatus_AK_VALID = 0 ∧ (s.getF Csr.secStatus_MODE = 0 → t.getF Csr.secStatus_MODE = 2 ∧ t.getF Csr.pmuStatus_MODE = 2) ∧
       (s.getF Csr.secStatus_MODE ≠ 0 → t.getF Csr.secStatus_MODE = s.getF Csr.secStatus_MODE) ∧ t.mem = s.mem)) ∧
     (ok = false → answers (.dbgResp resp) s (fun t => t.csr = s.csr ∧ t.mem = s.mem ∧
       t.security = { s.security with challenge := none })))

/-- The scan instructions (R464): each is the port's instruction, BYPASS and IDCODE leave the lands to the device's
functions, and IDCODE shifts out 0x1240014B; SAMPLE_PRELOAD shifts out the lands as captured and keeps what was
shifted in. -/
def Obligations.ScanInstructions : Prop :=
  ∀ (s : State) (captured shifted : List Bool),
    let only (t : State) : Prop := t = { s with jtag := t.jtag }
    answers .bypass s (fun t => only t ∧ t.jtag.instr = .bypass ∧ t.jtag.lands = .function ∧ t.jtag.boundary = s.jtag.boundary) ∧
    answers .idcode s (fun t => only t ∧ t.jtag.instr = .idcode ∧ t.jtag.lands = .function ∧ leNat t.jtag.out = 0x1240014B) ∧
    answers (.samplePreload captured shifted) s (fun t => only t ∧ t.jtag.instr = .samplePreload ∧ t.jtag.lands = .function ∧
      t.jtag.boundary = shifted ∧ ∀ i, i < captured.length →
        bitOf (leNat t.jtag.out) i = captured.getD i false)

/-- R465: while PORn or WRSTn is low EXTEST and CLAMP drive the lands from the boundary register and HIGHZ releases them;
outside reset each acts as BYPASS, and the lands keep their function. -/
def Obligations.BoundaryScanOnlyInReset : Prop :=
  ∀ (s : State) (captured shifted : List Bool),
    answers (.extest true captured shifted) s (fun t => t = { s with jtag := t.jtag } ∧ t.jtag.lands = .boundary ∧
      t.jtag.boundary = shifted) ∧
    answers (.clamp true) s (fun t => t = { s with jtag := t.jtag } ∧ t.jtag.lands = .boundary ∧ t.jtag.boundary = s.jtag.boundary) ∧
    answers (.highz true) s (fun t => t = { s with jtag := t.jtag } ∧ t.jtag.lands = .released) ∧
    exec (.extest false captured shifted) s = exec .bypass s ∧ exec (.clamp false) s = exec .bypass s ∧
    exec (.highz false) s = exec .bypass s ∧ answers .bypass s (fun t => t.jtag.lands = .function)

/-! ## Memory tiers and the Registrar -/

/-- OBJ_CREATE, OBJ_DESTROY, FENCE (R194, R195, R206): an entry that passes the checks places its tiles and ends DONE with
all of them, one that fails ends with that check's status; a destroy of an object with no write-protected tile has it
dying until its moves are over; a FENCE ends DONE. PIN, UNPIN, QUERY, RESTORE_TILE (R197, R206, R212): once no earlier
entry acts on the range, PIN and UNPIN mark its tiles and end DONE with all of them; QUERY writes its records, each as
the tile stands, and goes on later where the buffer's tile holds one; RESTORE_TILE gives a poisoned tile the bytes of
its source. -/
def Obligations.ObjectsAndTiles : Prop :=
  (∀ (s : State) (p : Fin 8) (e : MigEntry),
     (s.freshEntry p 1 = some e →
       (s.createCheck p e = none →
         let ok := objKey p e.obj
         let so := bitOf e.oflags 1
         let s1 := s.setObj ok (some ⟨e.dva, e.count, bitOf e.oflags 0, so, e.chmask, false⟩)
         exec (.objCreate p) s = .next ((if so then (s1.grantSram ok 0 (setBits e.slicemask 64) e.count).addSram p e.count
           else (s1.grantSlow ok 0 (setBits e.chmask 48) e.count).addF (Csr.migPartUsage_LP p) e.count).endEntry p { e with done := e.count } 0)) ∧
       (∀ st, s.createCheck p e = some st → exec (.objCreate p) s = .next (s.endEntry p e st))) ∧
     (s.freshEntry p 2 = some e →
       (∀ o, s.entryObj p e = some o → (List.range o.tiles).any (fun t => (s.tile (tileKey (objKey p e.obj) t)).wp) = false →
         exec (.objDestroy p) s = .next (((s.setObj (objKey p e.obj) (some { o with dying := true })).setEntry p
           { e with fresh := false }).settleDestroys p)) ∧
       (∀ o, s.entryObj p e = some o → (List.range o.tiles).any (fun t => (s.tile (tileKey (objKey p e.obj) t)).wp) = true →
         exec (.objDestroy p) s = .next (s.endEntry p e 0x0C))) ∧
     (s.freshEntry p 9 = some e → answers (.fence p) s (fun t => t = s.endEntry p e 0 ∧ t.mem = s.mem ∧ t.csr = s.csr ∧ t.tiles = s.tiles))) ∧
  (∀ (s : State) (p : Fin 8) (e : MigEntry),
     let idle := s.earlierActs p e e.obj e.first e.count = false
     (s.freshEntry p 5 = some e → idle → exec (.pin p) s =
       .next ((s.mapTiles p e (fun x => { x with pin := true })).endEntry p { e with done := e.count } 0)) ∧
     (s.freshEntry p 6 = some e → idle → exec (.unpin p) s =
       .next ((s.mapTiles p e (fun x => { x with pin := false })).endEntry p { e with done := e.count } 0)) ∧
     (∀ v i, i ∈ rangeOf e → ((s.mapTiles p e (fun x => { x with pin := v })).tile (tileKey (objKey p e.obj) i)).pin = v) ∧
     (s.freshEntry p 8 = some e → idle → 1 ≤ e.count → e.count ≤ 4096 → e.dva % 16 = 0 →
       let r := s.queryFrom p e e.done (e.count - e.done)
       (∀ st, r.2.2 = some st → exec (.query p) s = .next (r.1.endEntry p { e with done := r.2.1 } st)) ∧
       (r.2.2 = none → exec (.query p) s = .next (r.1.setEntry p { e with done := r.2.1 })) ∧
       ((∀ i, e.done ≤ i → i < e.count → ∀ w ∈ s.queryBytes p e i, s.writable p w.1 = .ok ()) → e.done + 1 = e.count →
         (∀ w ∈ s.queryBytes p e e.done, w.1 < obWindow ∧ s.writeWaits p w.1 = false) →
         r = (s.writeAll p (s.queryBytes p e e.done), e.count, some 0))) ∧
     (∀ o bs r, s.freshEntry p 7 = some e → s.entryObj p e = some o → s.earlierActs p e e.obj e.first 1 = false → e.count = 1 →
       e.dva % 65536 = 0 → s.inTile p e.dva = true → (s.tile (tileKey (objKey p e.obj) e.first)).poison = true →
       s.restoreSource p e.dva = .ok bs →
       (let tk := tileKey (objKey p e.obj) e.first
        (if o.sramOnly then s.restoreSram p tk [] else s.restoreSlow p tk o []) ≠ none →
        (if o.sramOnly then s.restoreSram p tk bs else s.restoreSlow p tk o bs) = some r →
        exec (.restoreTile p) s = .next ((r.touch p [e.dva]).endEntry p { e with done := 1 } 0))))

/-- PROMOTE, DEMOTE and their tiles (R206 to R208): the tiles of an entry's range wait for movers; a tile on which no
earlier entry acts, neither moving nor protected, is served while fewer than 64 move: one that PROMOTE or DEMOTE
passes over is counted as skipped, a ZERO tile and a clean one change tier at once, and another starts to move, with
MOVING set and a mover taken; a move's last byte switches its tile's entry, and its corrected reads are counted (R202,
R203). Aging and prefetch (R209, R232): with AGE_TICK set, a tick ages the SRAM tiles of partitions in POOL mode, each
by one up to 255 or, accessed since, back to 0, and nothing else; a prefetch of a die leaves its queue when no command
entry waits: its tile is promoted into the classroom's slice, or counted as resident, or dropped. -/
def Obligations.TilesMove : Prop :=
  (∀ (s : State) (p : Fin 8) (e : MigEntry),
     let waiting : MigEntry := { e with fresh := false, todo := rangeOf e }
     (s.freshEntry p 3 = some e → e.slicemask ≠ 0 → 1 ≤ e.count → answers (.promote p) s (fun t => t = s.setEntry p waiting ∧
       (t.mig p).started = (s.mig p).started.map (fun x => if x.idx = e.idx then waiting else x))) ∧
     (s.freshEntry p 3 = some e → e.slicemask = 0 → exec (.promote p) s = .next (s.endEntry p e 0x0E)) ∧
     (s.freshEntry p 4 = some e → 1 ≤ e.count → answers (.demote p) s (fun t => t = s.setEntry p waiting ∧
       (t.mig p).started = (s.mig p).started.map (fun x => if x.idx = e.idx then waiting else x))) ∧
     (∀ idx t, (s.mig p).started.find? (fun e => decide (e.idx = idx) && decide (t ∈ e.todo)) = some e → s.fatal = false →
       s.earlierActs p e e.obj t 1 = false → (s.tile (tileKey (objKey p e.obj) t)).wp = false →
       (s.tile (tileKey (objKey p e.obj) t)).moving = false → s.moves.length < 64 →
       let tk := tileKey (objKey p e.obj) t
       let x := s.tile tk
       let i := Instr.tileMoveStart p idx t
       let skip (u : State) : State := u.settleEntry p { e with todo := e.todo.erase t, skipped := e.skipped + 1 }
       let done (u : State) : State := u.settleEntry p { e with todo := e.todo.erase t, done := e.done + 1 }
       let start (u : State) (m : Move) : State :=
         let v := u.setEntry p { e with todo := e.todo.erase t, moving := e.moving + 1 }
         (({ v with moves := v.moves ++ [m] }).setTile tk { v.tile tk with moving := true }).addF Csr.migStat_MOVERS_BUSY 1
       (e.op = 3 →
         let sl := promoteSlice e t
         let g := s.promoteFrame p sl 0
         ((x.sram = true ∨ x.poison = true ∨ bitOf (s.getF (Csr.migPartSlices_MASK p)) sl = false) →
           exec i s = .next ((skip s).settleDestroys p)) ∧
         (x.sram = false → x.poison = false → bitOf (s.getF (Csr.migPartSlices_MASK p)) sl = true →
           (g.1 = none → exec i s = .next ((skip g.2).settleDestroys p)) ∧
           (∀ f, g.1 = some f → x.zero = true → exec i s = .next ((done ((g.2.addSram p 1).toSram tk sl f)).settleDestroys p)) ∧
           (∀ f, g.1 = some f → x.zero = false → exec i s =
             .next ((start (g.2.addSram p 1) ⟨tk, some (p, e.idx), none, true, sl, f⟩).settleDestroys p)))) ∧
       (e.op ≠ 3 →
         ((x.sram = false ∨ x.pin = true ∨ x.noHome = true ∨ x.poison = true) → exec i s = .next ((skip s).settleDestroys p)) ∧
         (x.sram = true → x.pin = false → x.noHome = false → x.poison = false →
           (x.zero = true ∨ x.dirty = false → exec i s = .next ((done (s.toSlow tk)).settleDestroys p)) ∧
           (x.zero = false → x.dirty = true → exec i s =
             .next ((start s ⟨tk, some (p, e.idx), none, false, 0, 0⟩).settleDestroys p))))) ∧
     (∀ n k m, s.moves[n]? = some m → s.fatal = false →
       let s1 := if (s.tile m.key).sram then s.addF Csr.migSramEcc_CE k else s.addF (Csr.memCe_ONDIE (s.tile m.key).homeCh) k
       (m.toSram = true → exec (.tileEntrySwitch n k) s = .next ((s1.toSram m.key m.slice m.frame).endMove m true)) ∧
       (m.toSram = false → exec (.tileEntrySwitch n k) s = .next ((s1.toSlow m.key).endMove m true)))) ∧
  (∀ (s : State), s.fatal = false →
     (s.getF Csr.migCtrl_AGE_TICK ≠ 0 → SMap.wf (fun _ => TileEntry.absent) s.tiles = true → answers .agingTick s (fun t =>
       t = { s with tiles := t.tiles } ∧ ∀ k, t.tile k = if (s.tile k).sram && s.pool (partOfTile k) then
         { s.tile k with age := if (s.tile k).accessed then 0 else min ((s.tile k).age + 1) 255, accessed := false } else s.tile k)) ∧
     (∀ (die : Fin 2) r, s.prefq.find? (fun r => decide (r.cls / 32 = die.val)) = some r → s.migWaits = false → s.moves.length < 64 →
       (s.tile r.tile).wp = false →
       let e := s.tile r.tile
       let p := partOfTile r.tile
       let s1 : State := { s with prefq := s.prefq.erase r }
       let i := Instr.mprefPromotion die
       (e.valid = false ∨ e.poison = true → exec i s = .next (s1.addF (Csr.clsMprefDrop_DROPPED r.cls) 1)) ∧
       (∀ o, s.obj (r.tile / 16777216) = some o → o.dying = false → e.valid = true → e.poison = false →
         (e.sram = true ∨ e.moving = true → exec i s = .next (s1.addF (Csr.clsMprefDrop_RESIDENT r.cls) 1)) ∧
         (e.sram = false → e.moving = false → bitOf (s.getF (Csr.migPartSlices_MASK p)) r.cls = true →
           let g := s1.promoteFrame p r.cls (s.getF Csr.migCtrl_PREF_AGE)
           (g.1 = none → exec i s = .next (g.2.addF (Csr.clsMprefDrop_DROPPED r.cls) 1)) ∧
           (∀ f, g.1 = some f → e.zero = true →
             exec i s = .next (((g.2.addSram p 1).toSram r.tile r.cls f).addF (Csr.clsMprefStat_PROMOTED r.cls) 1)) ∧
           (∀ f, g.1 = some f → e.zero = false →
             exec i s = .next ((g.2.addSram p 1).beginMove ⟨r.tile, none, some r.cls, true, r.cls, f⟩))))))

/-- The MIG's rings (R205, R207, R266): an entry is read when one is there and none is fresh: it is started as read, or
with its status where it cannot be read or is malformed; the oldest entry that is done writes its 16-byte record and
Q_HEAD is past it, announcing a status that is not DONE, and both wait while the record's tile moves or is protected;
the timer announces the first completion. -/
def Obligations.MigEntriesComplete : Prop :=
  ∀ (s : State) (p : Fin 8), s.fatal = false →
    (s.migNext p ≠ s.getF (Csr.migPartQTail_TAIL p) → (s.mig p).started.any (fun e => e.fresh) = false →
      let i := s.migNext p
      let slot := s.getF (Csr.migPartQBase_DVA p) + 64 * (i % 2 ^ s.getF (Csr.migPartQBase_LOG2 p))
      (∀ x, s.readObjs p slot 64 = .error x → answers (.migEntryRead p) s (fun t => (t.mig p).started = (s.mig p).started ++
        [unreadMig i (match x with | .access _ => 0x0D | .poison _ => 0x10)] ∧ t.mem = s.mem)) ∧
      (∀ b, s.readObjs p slot 64 = .ok b → (bitOf (fieldAt b 1 1) 0 = true → (s.mig p).started = []) →
        s.entryDying p (parseMig i b) = false → answers (.migEntryRead p) s (fun t => (t.mig p).started = (s.mig p).started ++
          [if s.entryOk p b (parseMig i b) then parseMig i b else { parseMig i b with fresh := false, status := some 0x0E }] ∧
          t.mem = s.mem))) ∧
    (∀ e r st, (s.mig p).started = e :: r → e.status = some st →
      let slot := s.getF (Csr.migPartCqBase_DVA p) + 16 * (e.idx % 2 ^ s.getF (Csr.migPartQBase_LOG2 p))
      let s1 := (s.writeRing p slot (leBytes 4 e.tag ++ leBytes 1 st ++ leBytes 3 0 ++ leBytes 4 e.done ++ leBytes 4 e.skipped)).setF
        (Csr.migPartQHead_HEAD p) (e.idx + 1)
      let s2 := s1.setMig p { started := r, unannounced := some st }
      (s.ringWaits p slot 16 = false → exec (.migCompletion p) s = .next (if st = 0 then s2 else s2.sendMigCq p st)) ∧
      (s.ringWaits p slot 16 = true → answers (.migCompletion p) s (fun t => t.mem = s.mem ∧ (t.mig p).started = e :: r ∧
        t.getF (Csr.migPartQHead_HEAD p) = s.getF (Csr.migPartQHead_HEAD p)))) ∧
    (∀ st, (s.mig p).unannounced = some st → answers (.migCqEventTimer p) s (fun t => (t.mig p).unannounced = none ∧ t.mem = s.mem ∧
      (s.getF (Csr.hlStatus_STATE (s.getF (Csr.sysPartCfg_EVT_PORT p))) = 3 → t.csr = s.csr ∧ t.events = s.events ++
        [⟨s.getF (Csr.sysPartCfg_EVT_PORT p), 3, p, 0, s.getF (Csr.migPartQHead_HEAD p), st⟩])))

/-- Memory errors (R202 to R204, R210): an uncorrectable error in a tile counts at its tier and poisons the tile, once;
the patrol scrub of a channel that is up counts a corrected error and poisons the tile whose home frame it finds lost.
Failed components (R213, R361): a failed SRAM die abandons its moves, sends its clean tiles home, poisons the others,
records them and stops its classrooms; a failed channel shows FAILED, its tiles in the SRAM tier lose their home, and
its others are poisoned. -/
def Obligations.ErrorsAndFailures : Prop :=
  (∀ (s : State) (p : Fin 8) (oi : Fin 1048576) (t : Nat) (ch : Fin 48) (frame : Fin 262144),
     (let tk := tileKey (objKey p oi) t
      let e := s.tile tk
      (e.valid = true → e.poison = false → e.zero = false → exec (.poisonTile p oi t) s =
        .next ((if e.sram then s.addF Csr.migSramEcc_UE 1 else s.captureUe e.homeCh e.homeFrame (partOfTile tk) false).poisonFrame tk (tileAddr e 0))) ∧
      (e.zero = true ∨ e.poison = true → exec (.poisonTile p oi t) s = .next s) ∧
      (∀ n, ((s.poisonTile tk n).tile tk).poison = true ∧ (s.poisonTile tk n).getF Csr.migPoison_TILES =
        min (s.getF Csr.migPoison_TILES + 1) (2 ^ Csr.migPoison_TILES.len - 1))) ∧
     (s.flag (Csr.memScrub_EN ch) = true → s.getF (Csr.memStatus_STATE ch) = 1 →
       exec (.scrubRead ch frame .clean) s = .next s ∧
       answers (.scrubRead ch frame .corrected) s (fun t => t.getF (Csr.memCe_ONDIE ch) =
         min (s.getF (Csr.memCe_ONDIE ch) + 1) (2 ^ (Csr.memCe_ONDIE ch).len - 1) ∧ s.OnlyFields t [Csr.memCe_ONDIE ch]) ∧
       (s.homeOf ch frame = none → exec (.scrubRead ch frame .uncorrectable) s = .next (s.captureUe ch frame 0 true)) ∧
       (∀ tk, s.homeOf ch frame = some tk → (s.tile tk).poison = false → exec (.scrubRead ch frame .uncorrectable) s =
         .next ((s.captureUe ch frame (partOfTile tk) true).poisonFrame tk (slowAddr ch frame 0))) ∧
       (s.captureUe ch frame 0 true).getF (Csr.memUe_COUNT ch) = min (s.getF (Csr.memUe_COUNT ch) + 1) (2 ^ (Csr.memUe_COUNT ch).len - 1))) ∧
  (∀ (s : State) (h : Fin 8) (ch : Fin 48),
     (h.val ∉ s.deadDies →
       let s0 : State := { s with deadDies := s.deadDies ++ [h.val] }
       let s1 := (s0.moves.filter (fun m => m.toSram && decide (m.slice / 8 = h.val))).foldl (fun t m => t.abandonMove m) s0
       let here := s1.tiles.filter (fun e => e.2.valid && e.2.sram && decide (e.2.slice / 8 = h.val))
       let lost := (here.filter (fun e => (e.2.dirty || e.2.noHome) && !e.2.poison)).map (fun e => e.1)
       let s2 := (here.filter (fun e => !e.2.dirty && !e.2.noHome && !e.2.poison)).foldl (fun t e => (t.abandonTile e.1).toSlow e.1) s1
       let owners : List Nat := (List.range 8).filterMap (fun i => s2.clsPart (8 * h.val + i))
       let parts := (List.range 8).filter (fun p => s2.partOn p && (decide (p ∈ owners) || here.any (fun e => decide (partOfTile e.1 = p))))
       let s4 := lost.foldl (fun t k => t.poisonNow k) (s2.failRecord 0x0202 13 h lost parts)
       exec (.sramDieFailed h) s = .next (((List.range 8).foldl (fun t i => t.loseClassroom (8 * h.val + i)) s4).releaseHeld)) ∧
     (s.getF (Csr.memStatus_STATE ch) ≠ 2 →
       let s0 := s.setF (Csr.memStatus_STATE ch) 2
       let here := s0.tiles.filter (fun e => e.2.valid && s0.homed e.1 && decide (e.2.homeCh = ch.val))
       let slow := (here.filter (fun e => !e.2.sram && !e.2.poison)).map (fun e => e.1)
       let s1 := (here.filter (fun e => e.2.sram)).foldl
         (fun t e => (t.abandonTile e.1).setTile e.1 { (t.abandonTile e.1).tile e.1 with noHome := true }) s0
       let parts := (List.range 8).filter (fun p => s1.partOn p && here.any (fun e => decide (partOfTile e.1 = p)))
       exec (.channelFailed ch) s = .next (slow.foldl (fun t k => t.poisonNow k) (s1.failRecord 0x0203 2 ch slow parts))))

/-- Requests to a channel (R217 to R225): of a requester other than an M engine's reads, with a tag, fewer than 8 parked
and the channel up, a read that finds its bytes in the write buffer, or a request whose bank has room and no older one
parked, is accepted: a write into the write buffer while that has room, a read merged with a waiting one of its lines,
and another waits; one without room is parked and counted in HOT.COUNT; with none of that it stalls. A request under a
tag for another slice waits at the slice. A parked one is admitted when its bank has room. An M engine's demand read
that its prefetcher's buffer does not hold goes the same way. The sorter serves (R203, R223, R224, R226, R227): a bank
takes the request that it chooses, a row hit of a read counts; with none it drains a write; a transfer counts its
retries and what the link or the die corrected, and one that is lost poisons its tile; a request becomes urgent once;
a bank at a limit is recorded and its number shown. -/
def Obligations.SortersAdmitAndServe : Prop :=
  (∀ (s : State) (ch : Fin 48) (who : Requester) (p : Fin 8) (frame : Fin 262144) (block first : Fin 256) (len : Nat) (write : Bool) (ecc : Ecc),
     let r : SortReq := ⟨who, p, frame, block, first, len, write, false, []⟩
     let q := s.sorter ch
     let go := q.buffered r || (s.bankRoom ch r && q.noneParked r)
     let i := Instr.requestAdmission (.channel ch) who p frame block first len write ecc
     r.ok = true →
     (∀ c, who = .mPrefetch c → (s.room c).prefetch = none → exec i s = .next s) ∧
     ((∀ c, who ≠ .mPrefetch c ∧ (who = .mDemand c → write = true ∨ (s.room c).prefetch = none)) →
       (s.getF (Csr.memStatus_STATE ch) = 1 → s.tagFree who = true → s.parkedBy who < 8 →
         (go = true → exec i s = .next (s.setSorter ch (q.accept r) [who])) ∧
         (go = false → exec i s = .next ((s.addF (Csr.memHot_COUNT ch) 1).setSorter ch { q with parked := q.parked ++ [r] } [who]))) ∧
       (s.getF (Csr.memStatus_STATE ch) ≠ 1 ∨ s.tagFree who = false ∨ 8 ≤ s.parkedBy who → exec i s = .next s)) ∧
     (write = true → q.wbuf.length < 64 → q.accept r = { q with wbuf := q.wbuf ++ [r] }) ∧
     (q.buffered r = true → q.accept r = q) ∧
     (write = false → q.buffered r = false → q.waiting.any (fun x => sameRead x r) = false → q.accept r = { q with waiting := q.waiting ++ [r] }) ∧
     (∀ (sl : Fin 64) (k : Fin 32), who = .ni k → s.tagFree who = true → sl.val / 8 ∉ s.deadDies →
       exec (.requestAdmission (.slice sl) who p frame block first len write .clean) s =
         .next (({ s with sliceReqs := s.sliceReqs ++ [(sl.val, r)] } : State).showTags who)) ∧
     (∀ x, q.parked.find? (fun r => s.bankRoom ch r) = some x → s.tagFree x.who = true →
       exec (.parkedAdmission ch) s = .next (s.setSorter ch ({ q with parked := q.parked.erase x }.accept x) [x.who]))) ∧
  (∀ (s : State) (ch : Fin 48) (b : Fin 16),
     let q := s.sorter ch
     (∀ r ecc link, q.choose b = some r →
       let s1 := s.transfer ch r ecc link
       let q1 := s1.sorter ch
       let hit := decide (some r.row = ofBank q1.rows b)
       let streak := if hit && q1.overtakes r then (ofBank q1.streaks b).getD 0 + 1 else 0
       exec (.bankCommand ch b ecc link) s = .next ((if hit && !r.write then s1.addF (Csr.memSortCnt_ROW_HITS ch) 1 else s1).setSorter ch
         { q1 with waiting := q1.waiting.erase r, rows := setBank q1.rows b r.row, streaks := setBank q1.streaks b streak, lastPart := r.part }
         (r.who :: r.merged)) ∧
       (ecc ≠ .uncorrectable → link ≠ .failed → q1 = q ∧ s1.mem = s.mem ∧ s1.tiles = s.tiles ∧
         s1.getF (Csr.memUe_RETRIES ch) = min (s.getF (Csr.memUe_RETRIES ch) + linkRetries link) (2 ^ (Csr.memUe_RETRIES ch).len - 1) ∧
         s1.getF (Csr.memCe_LINK ch) = min (s.getF (Csr.memCe_LINK ch) + (linkMended link).toNat) (2 ^ (Csr.memCe_LINK ch).len - 1) ∧
         s1.getF (Csr.memCe_ONDIE ch) = min (s.getF (Csr.memCe_ONDIE ch) + (decide (ecc = .corrected)).toNat) (2 ^ (Csr.memCe_ONDIE ch).len - 1)) ∧
       (∀ tk, s.tileIn (.channel ch) r.frame = some tk → (ecc = .uncorrectable ∨ link = .failed) → (s.tile tk).poison = false →
         (s.tile tk).zero = false → s1 = (s.countTransfer ch ecc link).failTile tk)) ∧
     (∀ ecc link, q.choose b = none → exec (.bankCommand ch b ecc link) s = .next (s.drainBank ch b ecc link)) ∧
     (∀ link, exec (.writeBufferDrain ch b link) s = .next (s.drainBank ch b .clean link)) ∧
     (∀ w ecc link, q.wbuf.find? (fun r => decide (r.bank = b.val)) = some w → q.mayDrain b = true →
       s.drainBank ch b ecc link = (s.drainWrite ch b).transfer ch w ecc link) ∧
     (∀ ecc link, q.mayDrain b = false → s.drainBank ch b ecc link = s) ∧
     (∀ n r, q.waiting[n]? = some r → r.urgent = false → exec (.requestUrgent ch n) s =
       .next ((s.addF (Csr.memSortCnt_AGED ch) 1).setSorter ch { q with waiting := q.waiting.set n { r with urgent := true } } [])) ∧
     (∀ n r, q.waiting[n]? = some r → r.urgent = true → exec (.requestUrgent ch n) s = .next s) ∧
     (∀ due, (s.bankLimit ch false ≤ q.onBank b false ∨ s.bankLimit ch true ≤ q.onBank b true) →
       s.getF (Csr.memSortCtrl_HOT_TMO ch) ≠ 0 →
       let p := q.busiest b
       let d : List (Nat × Nat) := [(1, ch.val), (1, b.val), (1, p), (2, (q.waiting.filter (fun r => decide (r.bank = b.val))).length),
         (2, (q.parked.filter (fun r => decide (r.bank = b.val))).length)]
       exec (.bankHotspot ch b due) s = .next (if q.hot && !due then s.withhold ⟨0x0204, 0, p, 2, ch, 0xFFFF, 0, d⟩
         else (((s.recordDP (some p) 0x0204 0 2 ch d).addF (Csr.memHot_RECORDS ch) 1).setF (Csr.memHot_LAST_BANK ch) b).setSorter ch
           { q with hot := true } [])))

/-- SNAP_BEGIN and its protection (R362 to R364, R371): a good list with no snapshot open begins one; when every listed
tile is protected the snapshot is OPEN with its number, and SNAP_BEGIN completes with the number. SNAP_COMMIT,
sealing, verifying, aborting (R371 to R375): a commit of the OPEN snapshot with an area large enough seals it; when
every tile has drained and no shard is to be verified the manifest is written and it finishes; verified exchanges end
it; an aborted one ends by ABORTED. -/
def Obligations.SnapshotsOpenAndClose : Prop :=
  (∀ (s : State),
     (∀ (x : Fin 65536) (c : Cmd) (p : Fin 8) head tab, s.freshCmd x 0x18 = some c → s.ctxPart x = some p.val →
       s.readBytes p (fieldAt c.bytes 8 8) 64 = .ok head → listHeadOk head = true →
       s.readBytes p (fieldAt head 0x18 8) (32 * fieldAt head 0 2) = .ok tab → s.snapCheck p head tab = none →
       let s1 := s.touch p (tileSpan (fieldAt c.bytes 8 8) 64 ++ tileSpan (fieldAt head 0x18 8) (32 * fieldAt head 0 2))
       exec (.snapBegin x) s = .next ((s1.unfresh x c).beginSnap x p head tab)) ∧
     (∀ p : Fin 8, s.snapSt p = 1 → (s.snap p).tiles.all (fun t => decide (t.stage ≠ .todo) || (s.tile t.key).wp) = true →
       let n := cnt s.snapNums p + 1
       let s2 := ({ s with snapNums := setCnt s.snapNums p n } : State).setFs
         [(Csr.rgsPartState_STATE p, 2), (Csr.rgsPartState_SNAP_ID p, n)]
       exec (.snapshotProtected p) s = .next
         ((s2.waitingCmds (s.snap p).ctx 0x18).foldl (fun t c => t.complete (s.snap p).ctx c 0 (n % 2 ^ 32) 0) s2))) ∧
  (∀ (s : State) (p : Fin 8),
     (∀ (x : Fin 65536) (c : Cmd), s.freshCmd x 0x19 = some c → s.ctxPart x = some p.val → (s.snap p).ctx = x.val →
       (s.snapSt p ≠ 0 → c.aborts = true → exec (.snapCommit x) s = .next ((s.unfresh x c).setF (Csr.rgsPartState_STATE p) 5)) ∧
       (s.snapSt p = 2 → c.aborts = false → s.inObject p (fieldAt c.bytes 8 8) (fieldAt c.bytes 0x10 4) true = true →
         s.manifestSize p ≤ fieldAt c.bytes 0x10 4 → exec (.snapCommit x) s = .next (((s.unfresh x c).setSnap p
           { s.snap p with area := some (fieldAt c.bytes 8 8, fieldAt c.bytes 0x10 4) }).setF (Csr.rgsPartState_STATE p) 3))) ∧
     (let x := s.snap p
      let s1 := s.setSnap p { x with shards := x.shards.mapIdx (hashShard x) }
      ∀ a u, s.snapSt p = 3 → x.tiles.any (fun t => decide (t.stage ≠ .drained)) = false → x.area = some a → s1.manifestSize p ≤ a.2 →
       s1.writableAll p (bytesAt a.1 (List.replicate (s1.manifestSize p) 0)) = .ok u → x.shards.filter (fun h => h.verify) = [] →
       exec (.snapshotSealed p) s = .next ((s1.writeManifest p).finishSnap p)) ∧
     (s.snapSt p = 4 → s.fatal = false →
       let s1 := ((s.snap p).exchange.foldl (fun t e => t.exchangeStep p e) s).pump
       (s.snap p).exchange.all (fun e => s1.exchangeDone e) = true → exec (.snapshotVerify p) s =
         .next (((((s.snap p).exchange.foldl (fun t e => t.exchangeEnd p e) s1).writeManifest p)).finishSnap p)) ∧
     (s.snapSt p = 5 → exec (.snapAborted p) s = .next (s.abortSnap p)))

/-- Copying (R367 to R370): the first tile that a write waits on, and in the background the next of a die while entries
are left, is taken into a buffer; a tile read without an error is held with its digest and unprotected, a poisoned one
is counted with a digest of 0xFF; a held tile drains to its LOCAL target, or is sent to its peer and drains with the
acknowledgement; a failed target fails the snapshot. A peer's copy (R325, R370), at a port enabled for data: for this
node with the port's job it is a write into the partition that owns the port, answered with the last message or when
refused; for another node it goes on by its route; another job's is dropped and counted. RESTORE (R376, R377): a
manifest and shards that pass the checks, with no target tile moving, are restored, and the command completes as that
ends; one that fails a check completes with its status. -/
def Obligations.SnapshotsCopyAndRestore : Prop :=
  (∀ (s : State) (p : Fin 8),
     let x := s.snap p
     let ts := x.tiles.mapIdx (fun i t => (i, t))
     (∀ n t, ts.find? (fun y => decide (y.2.stage = .todo) && (s.tile y.2.key).wp && s.writeWaitsAt p y.2.key) = some (n, t) →
       1 ≤ s.snapSt p → s.snapSt p ≤ 3 → s.bufUsed (s.copyDie t.key) (fun _ => true) < 64 →
       exec (.firstTouchCopy p) s = .next (s.setSnapTile p n { t with stage := .reading, touched := true, die := s.copyDie t.key })) ∧
     (∀ (die : Fin 2) n t, ts.find? (fun y => decide (y.2.stage = .todo) && (s.tile y.2.key).wp && decide (s.copyDie y.2.key = die)) =
       some (n, t) → (s.snapSt p = 2 ∨ s.snapSt p = 3) → s.bufUsed die (fun u => !u.touched) < s.getF Csr.rgsCtrl_BG_ENTRIES →
       s.bufUsed die (fun _ => true) < 64 → exec (.backgroundCopy p die) s = .next (s.setSnapTile p n { t with stage := .reading, touched := false, die := s.copyDie t.key })) ∧
     (∀ n t stall, x.tiles[n]? = some t → t.stage = .reading →
       let s0 := s.addF (Csr.rgsPartStall_TIME p) stall
       ((s.tile t.key).zero = false → (s.tile t.key).poison = false →
         exec (.tileCopied p n .clean stall) s = .next ((s0.setSnapTile p n
           { t with stage := .held, copy := s.tileBytes t.key, digest := sha256 (s.tileBytes t.key) }).unprotect t.key) ∧
         exec (.tileCopied p n .corrected stall) s = .next (((s0.countCorrected (s.tile t.key) 1).setSnapTile p n
           { t with stage := .held, copy := s.tileBytes t.key, digest := sha256 (s.tileBytes t.key) }).unprotect t.key) ∧
         exec (.tileCopied p n .uncorrectable stall) s = .next (((s0.failTile t.key).snapPoison p n t).unprotect t.key)) ∧
       (∀ ecc, (s.tile t.key).zero = true → (s.tile t.key).poison = false → exec (.tileCopied p n ecc stall) s = .next ((s0.setSnapTile p n
         { t with stage := .held, zero := true, digest := sha256 (List.replicate 65536 0) }).unprotect t.key)) ∧
       (∀ ecc, (s.tile t.key).poison = true → exec (.tileCopied p n ecc stall) s = .next ((s0.snapPoison p n t).unprotect t.key))) ∧
     (∀ n t h, x.tiles[n]? = some t → x.shards[t.shard]? = some h → t.stage = .held → s.snapSt p < 5 →
       (∀ u, h.peer = false → s.writable p (targetDva h t) = .ok u → s.writeWaits p (targetDva h t) = false → exec (.copyEntryDrain p n) s = .next
         ((s.writeTarget p (targetDva h t) t).setSnapTile p n { t with stage := .drained, copy := [] })) ∧
       (∀ e, h.peer = false → s.writable p (targetDva h t) = .error e → exec (.copyEntryDrain p n) s = .next ((s.countHit e).snapFail p t.shard)) ∧
       (h.peer = true → (s.portsOf p).any (fun k => s.dataOn k) = true → exec (.copyEntryDrain p n) s = .next
         (({ s with peer := s.peer ++ [.tile h.tnode x.job (targetDva h t) (if t.zero then List.replicate 65536 0 else t.copy)] } : State).setSnapTile p n
           { t with stage := .sent })) ∧
       (h.peer = true → (s.portsOf p).any (fun k => s.dataOn k) = false → exec (.copyEntryDrain p n) s = .next (s.snapFail p t.shard))) ∧
     (∀ n t h, x.tiles[n]? = some t → x.shards[t.shard]? = some h → t.stage = .sent → s.snapSt p < 5 →
       exec (.copyEntryDrain p n) s = .next (s.setSnapTile p n { t with stage := .drained, copy := [] })) ∧
     (∀ n, 1 ≤ s.snapSt p → s.snapSt p ≤ 4 → x.tiles.any (fun t => decide (t.shard = n) && decide (t.stage = .sent)) = true →
       answers (.snapshotTargetFailure p n) s (fun t => t = s.snapFail p n ∧ t.snapSt p = 5 ∧ (t.snap p).failed = some n))) ∧
  (∀ (s : State) (k : Fin 32) (p : Nat) (dest job : BitVec 16) (dva : BitVec 48) (data : List Byte),
     let ws := bytesAt dva.toNat data
     let i (last due : Bool) := Instr.peerCopyReceive k dest job dva data last due
     s.niPart k = some p → s.dataOn k = true →
     (dest.toNat = s.getF Csr.sysNode_NODE → job.toNat = s.getF (Csr.niPmap_JOB k) → job.toNat ≠ 0 →
       (∀ u last due, s.writableAll p ws = .ok u → (ws.map (fun w => w.1)).any (fun a => s.writeWaits p a) = false →
         answers (i last due) s (fun t => t.mem = (s.demandWrite p ws).mem ∧
           t.peer = s.peer ++ (if last then [.answer k dva.toNat true] else []))) ∧
       (∀ e last due, s.writableAll p ws = .error e → answers (i last due) s (fun t =>
         t.mem = s.mem ∧ t.peer = s.peer ++ [.answer k dva.toNat false]))) ∧
     (∀ o last due, dest.toNat ≠ s.getF Csr.sysNode_NODE → s.route k dest.toNat job.toNat = some o →
       exec (i last due) s = .next { s with peer := s.peer ++ [.pass o dest.toNat job.toNat dva.toNat data] }) ∧
     (∀ last due, dest.toNat = s.getF Csr.sysNode_NODE → (job.toNat ≠ s.getF (Csr.niPmap_JOB k) ∨ job.toNat = 0) →
       exec (i last due) s = .next ((s.addF (Csr.niRcStat_TAG_DROP k) 1).limited due
         ⟨0x0604, 2, 255, 4, k, 0xFFFF, 0, [(2, job.toNat), (2, dest.toNat)]⟩))) ∧
  (∀ (s : State) (x : Fin 65536) (far : List (List Byte)) (c : Cmd) (p : Fin 8), s.freshCmd x 0x1A = some c → s.ctxPart x = some p.val →
     (∀ r, s.restoreCheck x p (fieldAt c.bytes 8 8) far = .ok r → s.shardMoves p r.1 = false →
       let a := (s.touch p (s.restoreReads p (fieldAt c.bytes 8 8) r.1)).applySnap x p r.1 r.2
       exec (.restore x far) s = .next (a.1.complete x c a.2.1 a.2.2.1 a.2.2.2)) ∧
     (∀ e, s.restoreCheck x p (fieldAt c.bytes 8 8) far = .error e → exec (.restore x far) s = .next ((s.countRead e.2.2).complete x c e.1 e.2.1 0)))

/-- Policies (R390, R396, R398): POLICY_SET of a policy that the context may set gives it its state and answers with the
old one; a bad one is refused; the end of a port's second with few failed CRCs only starts the count again, and with
enough of them and PORT_QUARANTINE armed the port is recorded and enters QUARANTINE with RC_QUARANTINE (R323); an
advisory event waits its time out. -/
def Obligations.PoliciesAct : Prop :=
  ∀ (s : State),
    (∀ (x : Fin 65536) (c : Cmd) (own : Fin 8),
      let id := fieldAt c.bytes 8 1
      let arm := fieldAt c.bytes 9 1
      s.freshCmd x 0x20 = some c → s.ctxPart x = some own.val → fieldAt c.bytes 0x0A 1 = 0xFF →
      (1 ≤ id → id ≤ 6 → arm ≤ 1 → fieldAt c.bytes 0x0C 4 = 0 → exec (.policySet x) s = .next (((s.putPolicy id own (decide (arm = 1))
        0).policyChanged id own (decide (arm = 1)) 0).complete x c 0 (s.policyArmed id own).toNat (s.policyParam id own))) ∧
      ((id = 0 ∨ 7 < id ∨ 1 < arm) → exec (.policySet x) s = .next (s.complete x c 0x0E 0 0))) ∧
    (∀ (k : Fin 32) (p : Nat),
      let s1 := s.setNi k { s.ni k with crcFails := 0 }
      s.niPart k = some p → s.dataOn k = true →
      ((s.ni k).crcFails < s.getF (Csr.errPartPolicy_PQ_PARAM p) → exec (.portQuarantine k) s = .next s1) ∧
      (s.getF (Csr.errPartPolicy_PQ_PARAM p) ≤ (s.ni k).crcFails → s.partArmed p 7 = true → exec (.portQuarantine k) s =
        .next ((s1.recordP (some p) 0x0505 1 4 k 0xFFFF 0 [(4, (s.ni k).crcFails), (1, 1)]).quarantine k 0)) ∧
      (∀ (u : State) m, u.quarantine k m = (((u.setF (Csr.niRcState_MISMATCH k) m).addF (Csr.niRcStat_QUAR k) 1).recordP (u.niPart k) 0x0601
        (u.flag (Csr.niExpId_VALID k)).toNat 4 k 0xFFFF 0 ((1, m) :: ((u.ni k).farRec.take 24).map (fun b => (1, b.toNat)))).setRc k 4)) ∧
    (∀ ring : Fin 9, ((s.ring ring).waiting = true → exec (.advisoryEventTimer ring) s =
        .next ((s.ringEvent ring).setRing ring ⟨true, false⟩)) ∧
      ((s.ring ring).waiting = false → exec (.advisoryEventTimer ring) s = .next (s.setRing ring RingTimer.quiet)))

/-! ## The Prefect and the links -/

/-- GROUP_JOIN and GROUP_LEAVE (R333, R335, R336): a record that passes the checks makes the partition's group, JOINED
rises, and the command answers with the group's number; one that fails a check ends with its status, one that cannot
be read with the status of the access; a group left goes once nothing that its completions announce is held back, one
that is not there is BAD_DESC. -/
def Obligations.GroupsAreJoinedAndLeft : Prop :=
  ∀ (s : State) (x : Fin 65536) (c : Cmd) (p : Fin 8), s.ctxPart x = some p.val →
    (s.freshCmd x 0x10 = some c →
      (∀ b, s.readBytes p (fieldAt c.bytes 8 8) 64 = .ok b →
        (∀ table, s.joinCheck p b = .ok table → exec (.groupJoin x) s = .next ((((s.touch p (tileSpan (fieldAt c.bytes 8 8) 64 ++
          tileSpan (fieldAt b 0x28 8) (2 * recSize b))).setGroup p (fieldAt b 0 2) (some ⟨x, b, table, fieldAt b 6 2⟩)).addF
          (Csr.pftPartGroups_JOINED p) 1).complete x c 0 (fieldAt b 0 2) 0)) ∧
        (∀ st, s.joinCheck p b = .error st → exec (.groupJoin x) s = .next (s.complete x c st (fieldAt b 0 2) 0))) ∧
      (∀ e, s.readBytes p (fieldAt c.bytes 8 8) 64 = .error e →
        exec (.groupJoin x) s = .next ((s.countHit e).complete x c (accStatus e) 0 0))) ∧
    (s.freshCmd x 0x11 = some c →
      (∀ g, s.group p (fieldAt c.bytes 8 2) = some g → exec (.groupLeave x) s = .next (if s.groupWaits p (fieldAt c.bytes 8 2) then s
        else (s.leaveGroup p (fieldAt c.bytes 8 2)).complete x c 0 0 0)) ∧
      (s.group p (fieldAt c.bytes 8 2) = none → exec (.groupLeave x) s = .next (s.complete x c 0x0E 0 0)))

/-- Posting and firing (R339, R340, R342, R343, R357, R358): the next entry of a posting ring, when it passes the checks
and its port holds fewer than 256, is posted and Q_HEAD is past it; at 256 it stays; one that fails is refused and one
that cannot be read ends with the status of the access; the first operation whose trigger holds fires, and a stream
sends its next chunk; the first that has done its part writes its position where POS_WB asks for it, ends and leaves;
one without progress is recorded, ends with what it has not sent poisoned, and leaves. A completion whose record meets
a tile that is moving waits. The operations start (R341, R344 to R349, R353): with an operation of its kind to start,
each of the ten reads its source, which may meet what it cannot read, does what its rule gives and goes on; the oldest
Bell message at a port, or without one the oldest chunk, is taken. -/
def Obligations.OperationsRun : Prop :=
  (∀ (s : State) (p : Fin 8), s.fatal = false →
     (let i := s.getF (Csr.pftPartQHead_HEAD p)
      let step (t : State) : State := t.setF (Csr.pftPartQHead_HEAD p) (i + 1)
      let s0 := s.touch p (spread (s.getF (Csr.pftPartQBase_DVA p) + 64 * (i % 2 ^ s.getF (Csr.pftPartQBase_LOG2 p))) 64)
      i ≠ s.getF (Csr.pftPartQTail_TAIL p) →
       (∀ b g, s.nextEntry p = .ok b → s.postCheck p b = .ok g →
         exec (.operationPost p) s = .next (if 256 ≤ (s.entries.filter (fun o => decide (o.home = s.homeNi p (draftOp p b) g))).length then s
           else (step s0).postOp p b g)) ∧
       (∀ b st, s.nextEntry p = .ok b → s.postCheck p b = .error st →
         exec (.operationPost p) s = .next (if s.pftCqWaits p 1 then s.pftStall p 1 else (step s0).refuseEntry p st b)) ∧
       (∀ e, s.nextEntry p = .error e → exec (.operationPost p) s =
         .next (if s.pftCqWaits p 1 then s.pftStall p 1 else (step (s.countHit e)).pftCq p 0 (accStatus e) 0 0 0 0 0))) ∧
     (∀ o, s.posts.find? (fun o => (!o.fired && s.trigHolds o 0) || s.streamDue o) = some o →
       (o.fired = false → exec .operationFire s = .next (s.setOp { o with fired := true })) ∧
       (∀ g, o.fired = true → s.group o.part o.gid = some g → exec .operationFire s =
         .next (((s.sendChunk o g o.emitted.length).1.setOp (s.sendChunk o g o.emitted.length).2).pump))) ∧
     (∀ o, s.posts.find? (fun o => match s.group o.part o.gid with
         | some g => s.opDone o g
         | none => false) = some o →
       let t := s.putDst o (fieldAt o.bytes 0x38 8) (leBytes 4 o.pos)
       exec .operationComplete s = .next (if s.pftCqWaits o.part 1 then s.pftStall o.part 1
         else if o.writesPos then (t.1.endOp o t.2.1.status 0).dropOp o else (s.endOp o o.status 0).dropOp o)) ∧
     (∀ n o g, s.posts[n]? = some o → s.group o.part o.gid = some g → o.running = true → s.getF Csr.pftCtrl_WD_TMO ≠ 0 → s.opHeld o = false →
       let left (t : State) : State := (((t.poisonRest o g).1.setOp { (t.poisonRest o g).2 with gone := true }).showPft o.home).pump
       (s.pftCqWaits o.part 1 = true → exec (.prefectWatchdog n) s = .next (s.pftStall o.part 1)) ∧
       (s.pftCqWaits o.part 1 = false → s.otherGroup o g = none → exec (.prefectWatchdog n) s =
         .next (left ((s.recordP (some o.part) 0x0703 2 10 0 0xFFFF 0 [(2, o.gid), (2, o.label), (1, Config.freeNat 13 o.cause)]).endOp o 0x13 0))) ∧
       (∀ c, s.pftCqWaits o.part 1 = false → s.otherGroup o g = some c → exec (.prefectWatchdog n) s =
         .next (left (((s.addF Csr.pftErr_ORDER 1).recordP (some o.part) 0x0702 2 10 0 0xFFFF 0
           [(2, o.gid), (2, o.label), (2, fieldAt c.bytes 0x0A 2), (2, fieldAt c.bytes 0x0C 2)]).endOp o 0x12 (fieldAt c.bytes 0x0A 2)))))) ∧
  (∀ (s : State) (o : PftOp) (g : Group),
     let starts (i : Instr) (op : Nat) (t : State × PftOp) : Prop :=
       s.toStart op = some (o, g) → exec i s = .next ((t.1.setOp t.2).goOn t.2)
     let on : PftOp := { o with running := true }
     let chunks := if o.stream && !noCtr o.trig then 1 else ceilDiv (o.count * o.esz) o.chunk
     let met := s.meetSrc o o.src o.count o.esz
     let normed := (s.normReads o).foldl (fun t x => t.1.meetSrc t.2 x.1 x.2.1 x.2.2) (s, o)
     starts .prefectSend 1 ((List.range chunks).foldl (fun t i => t.1.sendChunk t.2 g i) (s, on)) ∧
     starts .recv 2 (s, on) ∧
     starts .allReduce 3 (if o.bell then met.1.startBell met.2 g (s.srcElems o.part o.src o.count o.esz) else s.startRing o g) ∧
     starts .reduceScatter 4 (s.startRing o g) ∧ starts .allGather 5 (s.startRing o g) ∧
     starts .allToAll 6 ((List.range (recSize g.record)).foldl (fun (t : State × PftOp) j =>
       let blk := o.count / recSize g.record
       let v := t.1.srcElems o.part (o.src + j * blk * o.esz) blk o.esz
       let m := t.1.meetSrc t.2 (o.src + j * blk * o.esz) blk o.esz
       if j = ownRank g.record then m.1.writeChunks m.2 (o.dst + j * blk * o.esz) v o.esz o.per blk
       else m.1.emitAll m.2 g 0 j v o.esz o.per 0 blk) (s, on)) ∧
     (ownRank g.record ≠ o.peer → starts .broadcast 7 (s, on)) ∧
     (ownRank g.record = o.peer → starts .broadcast 7 ((o.halfSizes.mapIdx (fun h e => (h, e))).foldl (fun (t : State × PftOp) x =>
       let at0 := o.dstBase g x.1 * o.esz
       let v := t.1.srcElems o.part (o.src + at0) x.2 o.esz
       let m := t.1.meetSrc t.2 (o.src + at0) x.2 o.esz
       ((o.hops g).filter (fun h => decide (h.half = x.1))).foldl (fun u h =>
         u.1.emit u.2 g (h.half, h.step, h.off) ((v.drop (h.off / max 1 o.esz)).take (h.len / max 1 o.esz)) o.esz)
         (m.1.writeChunks m.2 (o.dst + at0) v o.esz o.per x.2)) (s, on))) ∧
     starts .barrier 8 (s.startBell o g [some 0]) ∧ starts .norm 9 (normed.1.startBell normed.2 g (s.normVector o)) ∧
     starts .ctrAdd 10 (s.emit on g (0, 0, 0) [] 1) ∧
     (∀ k : Fin 32, s.fatal = false → (∀ t, s.takeClass k 3 = some t → exec (.chunkArrival k) s = .next t) ∧
       (∀ t, s.takeClass k 3 = none → s.takeClass k 2 = some t → exec (.chunkArrival k) s = .next t)))

/-- A port's states (R299, R304): EN = 1 by the management owner takes an OFF port to DOWN, EN = 0 takes any port off;
RENEG takes an UP port with nothing to resend to NEGOTIATE, where its own bounds and epoch are offered; a lane LOCKED
on its own tone takes DOWN to ALIGN with an epoch that is free, the frames of the epoch before discarded; a common
version takes NEGOTIATE to UP with that version, and without one the bounds are offered again and the absence is
recorded once; a worn frame or darkness takes UP to ALIGN; 10 ms without an admitted lane end in DOWN; a lane that has
decoded 4 frames is admitted. -/
def Obligations.PortStates : Prop :=
  ∀ (s : State) (k : Fin 32) (lane : Fin 8),
    (∀ (port : Fin 4) (v : Word), s.OwnerPort port →
      let b := Csr.niCtrl_BELL_BURST k
      let nb := s.merged v.toNat allBits b
      let s1 := s.storeBut (Csr.niCtrl k) v.toNat allBits [b]
      let s2 := if 1 ≤ nb ∧ nb ≤ 16 then (s1.setNi k ((s1.ni k).capBell nb)).setF b nb else s1
      (s2.flag (Csr.niCtrl_EN k) = true → s2.niSt k = 0 → exec (.niEnable port k .full v) s = .next (s2.setF (Csr.niStatus_STATE k) 1)) ∧
      (s2.flag (Csr.niCtrl_EN k) = true → s2.niSt k ≠ 0 → exec (.niEnable port k .full v) s = .next (s2.renegCheck k)) ∧
      (s2.flag (Csr.niCtrl_EN k) = false → exec (.niEnable port k .full v) s = .next ((s2.portOff k).renegCheck k)) ∧
      (s2.flag (Csr.niCtrl_EN k) = true → s2.niSt k = 4 → s2.flag (Csr.niCtrl_RENEG k) = true → (s2.ni k).retry = [] →
        exec (.reneg port k .full v) s =
          .next ((((s2.setFs [(Csr.niStatus_STATE k, 3), (Csr.niVer_NEG k, 0)]).linkChange k).sendOffer k).bound k))) ∧
    (s.niSt k = 1 → s.fatal = false → s.rxLane k lane = 2 → s.flag (Csr.glvRxMon_TONE_OK (gloveOf k) (gloveLane k lane)) = true →
      let t := (s.draw 7).2.dropRetry k
      exec (.portAlign k lane) s =
        .next ((t.setNi k { t.ni k with epoch := (s.draw 7).1 % 2 ^ 32 }).setF (Csr.niStatus_STATE k) 2)) ∧
    (∀ (farMin farMax : BitVec 8) (farEpoch : BitVec 32),
      let s0 := s.setF (Csr.niVer_FAR_MAX k) farMax.toNat
      let pair := some ((s.ni k).epoch, farEpoch.toNat)
      let up (t : State) (v : Nat) : State := ((((t.setNi k { t.ni k with held := pair, versionSaid := false }).setFs
        [(Csr.niStatus_STATE k, 4), (Csr.niVer_NEG k, v), (Csr.niCtrl_RENEG k, 0)]).linkChange k).dealLanes k).showCredits k
      s.niSt k = 3 → s.fatal = false →
      (∀ v, s.commonVersion k farMin.toNat farMax.toNat = some v →
        ((s.ni k).held = pair → exec (.negotiate k farMin farMax farEpoch) s = .next (((up s0 v).sendOwed k).bound k)) ∧
        ((s.ni k).held ≠ pair → exec (.negotiate k farMin farMax farEpoch) s =
          .next (((up ((s0.dropRetry k).setNi k ((s0.dropRetry k).ni k).fresh) v).rcUp k).bound k))) ∧
      (s.commonVersion k farMin.toNat farMax.toNat = none → exec (.negotiate k farMin farMax farEpoch) s = .next (s0.sendOffer k))) ∧
    (∀ (farMin farMax : BitVec 8), s.niSt k = 3 → s.commonVersion k farMin.toNat farMax.toNat = none →
      ((s.ni k).versionSaid = false → exec (.linkVersion k farMin farMax) s = .next (((s.setF (Csr.niVer_FAR_MAX k) farMax.toNat).setNi k
        { s.ni k with versionSaid := true }).recordD 0x0501 1 4 k [(1, s.getF (Csr.niVer_MIN k)), (1, s.getF (Csr.niVer_MAX k)),
        (1, farMin.toNat), (1, farMax.toNat)])) ∧
      ((s.ni k).versionSaid = true → exec (.linkVersion k farMin farMax) s = .next s)) ∧
    (s.niSt k = 4 →
      let worn := (s.ni k).retry.find? (fun f => decide (16 ≤ f.resends))
      let retrain (fseq : Nat) : State := (((s.draw 10).2.addF (Csr.niRetry_RETRAIN k) 1).recordD 0x0502 1 4 k [(2, fseq)]).portTo k 2
      (∀ dark f, worn = some f → exec (.linkRetrain k dark) s = .next (retrain f.fseq)) ∧
      (worn = none → exec (.linkRetrain k true) s = .next (retrain (s.draw 10).1))) ∧
    ((s.niSt k = 2 ∨ s.niSt k = 3) → (s.ni k).accepts &&& s.txOffers k = 0 → s.getF (Csr.niStatus_RX_ADMIT k) = 0 →
      exec (.portAlignTimeout k) s = .next (s.portDown k)) ∧
    (2 ≤ s.niSt k → 4 ≤ cnt (s.ni k).runs lane → s.rxOffered k lane = true →
      let f := Csr.niStatus_RX_ADMIT k
      exec (.laneReadmit k lane) s = .next (((s.setF f (setBit (s.getF f) lane)).alignCheck k).bound k))

/-- Frames (R296, R300 to R303, R311, R312): an admitted lane of an UP port sends the port's next frame, and leaves with
one marked LAST when it is withdrawn; with the retry buffer full nothing is sent and it is counted; a lane of a port
in ALIGN sends its training frame. The wire's codewords are decoded; a good frame's control is applied and its new
flits taken, a duplicate counts in DUP, one with LAST takes its lane out, a bad one fails; a frame on a lane that is
not admitted trains it. A frame not acknowledged is due again; a ping goes with the next frame; more than 16 bad
codewords of a lane in a second are recorded or withheld. -/
def Obligations.FramesCross : Prop :=
  ∀ (s : State) (k : Fin 32) (lane : Fin 8),
    (∀ (dly : BitVec 10), s.fatal = false →
      (s.niSt k = 4 → bitOf (s.getF (Csr.niStatus_TX_ADMIT k)) lane = true →
        let t := Csr.niStatus_TX_ADMIT k
        (∀ s1 f, s.pump.nextFrame k = some (s1, f) →
          let s2 (last : Bool) : State := s1.putFrame k lane dly.toNat f.fseq f.flits last false
          (s.closing k lane = false → exec (.frameSend k lane dly) s = .next (s2 false)) ∧
          (s.closing k lane = true → exec (.frameSend k lane dly) s = .next ((((s2 true).setNi k (((s2 true).ni k).leave (2 ^ lane.val))).setF t
            (clearBit ((s2 true).getF t) lane)).bound k))) ∧
        (s.pump.nextFrame k = none → exec (.frameSend k lane dly) s = .next (s.pump.withheldFrame k))) ∧
      (s.niSt k = 2 → s.txLane k lane = 2 → exec (.frameSend k lane dly) s = .next (s.trainFrame k lane dly.toNat))) ∧
    (∀ (wire : BitVec 38080) (rtt : BitVec 16), s.fatal = false →
      let d := decodeFrame wire
      let v := d.bits.toNat
      let c := readControl v
      let s0 := (s.addF (Csr.niLaneErr_SYM_CE k lane) d.corrected).addF (Csr.niLaneErr_UCW k lane) d.lost
      let readable : Bool := d.words.head? ≠ some none && controlOk v
      let good : Bool := readable && d.clean && decide (c.ver = s.getF (Csr.niVer_NEG k)) && (readFlits v).all (fun r => !r.valid || r.good)
      let s1 := s0.applyControl k c rtt.toNat
      let s2 := if (s1.ni k).isNew c.fseq then s1.takeFlits k lane c.fseq (readFlits v) else s1.addF (Csr.niDrop_DUP k) 1
      (s.niSt k = 4 → bitOf (s.getF (Csr.niStatus_RX_ADMIT k)) lane = true →
        (good = true → exec (.frameReceive k lane wire rtt) s =
          .next ((if c.last then s2.keepRx k (255 - 2 ^ lane.val) else s2).pump.renegCheck k)) ∧
        (good = false → exec (.frameReceive k lane wire rtt) s = .next (s0.failFrame k readable c.fseq))) ∧
      (2 ≤ s.niSt k → (s.niSt k ≠ 4 ∨ bitOf (s.getF (Csr.niStatus_RX_ADMIT k)) lane = false) →
        exec (.frameReceive k lane wire rtt) s = .next (s0.trainRx k lane (readable && d.clean) c))) ∧
    (∀ (fseq : BitVec 16), s.niSt k = 4 → exec (.retryTimeout k fseq) s = .next (s.setNi k ((s.ni k).makeDue fseq.toNat))) ∧
    (∀ (id : Fin 255), s.niSt k = 4 → s.fatal = false → exec (.ping k id) s =
      .next (s.setNi k { s.ni k with ping := id.val + 1, pingDue := true })) ∧
    (∀ (count : BitVec 32) (due : Bool),
      let r : Rec := ⟨0x0504, 0, 255, 4, k, 0xFFFF, 0, [(1, lane.val), (4, count.toNat)]⟩
      (16 < count.toNat → exec (.laneErrors k lane count due) s = .next (if due then s.record true none r else s.withhold r)) ∧
      (count.toNat ≤ 16 → exec (.laneErrors k lane count due) s = .next s))

/-- Roll call (R314, R317 to R322): the oldest message of TC0, where it is a record, is heard and its buffer freed; a
record is resent while the port is UP and not ENABLED; RC_TMO with a plan and an expected serial ends in state 5; a
plan is loaded by GO and unloaded by UNLOAD; RECHECK of a quarantined port evaluates it; SYS.NODE changes only while
no port carries data. Messages (R302, R316, R321, R325 to R327): the oldest of its class is taken: a monitor exchange
is heard whatever the port's state, a record waits for roll call; one that came in before the port was ENABLED is
dropped and counted; one for this node with the port's job goes to the inbox, where its class has one; one with
another job, or for another node without a route, is dropped, counted and recorded; one that has a route waits for its
port; a forwarded one goes out there unless another of its class is still on its way, or is dropped, counted and
recorded where that port carries no data. -/
def Obligations.ExchangesAndMessages : Prop :=
  (∀ (s : State) (k : Fin 32),
     (∀ m r, (s.ni k).nextIn 0 = some (m, r) → isRcRecord m = true → exec (.rollCallRecord k) s =
       .next ((s.setNi k (({ s.ni k with msgs := r } : NiPort).free 0 m.flits)).hearRecord k m.data)) ∧
     (s.niSt k = 4 → s.rcSt k ≠ 3 → exec (.rollCallResend k) s = .next (s.sendRecord k)) ∧
     (s.planLoaded k = true → s.flag (Csr.niExpId_VALID k) = true → (s.rcSt k = 0 ∨ s.rcSt k = 1) → exec (.rcTmoExpiry k) s =
       .next (s.setRc k 5)) ∧
     (∀ (port : Fin 4) (v : Word), s.OwnerPort port →
       (∀ p : Fin 8, let s1 := s.storeBut (Csr.sysPlanCtrl p) v.toNat allBits [Csr.sysPlanCtrl_GO p, Csr.sysPlanCtrl_UNLOAD p]
         (wrote1 v.toNat allBits (Csr.sysPlanCtrl_GO p) = true → wrote1 v.toNat allBits (Csr.sysPlanCtrl_UNLOAD p) = false →
           exec (.planGo port p .full v) s = .next (s1.planGo p)) ∧
         (wrote1 v.toNat allBits (Csr.sysPlanCtrl_GO p) = false → wrote1 v.toNat allBits (Csr.sysPlanCtrl_UNLOAD p) = true →
           exec (.planUnload port p .full v) s = .next (s1.planUnload p))) ∧
       (wrote1 v.toNat allBits (Csr.niRcState_RECHECK k) = true → s.rcSt k = 4 → s.flag (Csr.niFarId_VALID k) = true →
         exec (.recheck port k .full v) s = .next (s.evaluate k true)) ∧
       ((List.range 32).any (fun k => s.dataOn k) = true → exec (.nodeWrite port .full v) s =
         .next ((s.storeBut Csr.sysNode v.toNat allBits [Csr.sysNode_NODE]).setF Csr.sysNode_NODE_IGN 1)) ∧
       (v.toNat / 2 ^ Csr.sysNode_NODE.lo % 2 ^ Csr.sysNode_NODE.len ≠ s.getF Csr.sysNode_NODE →
         (List.range 32).any (fun k => s.dataOn k) = false →
         exec (.nodeWrite port .full v) s = .next ((List.range 32).foldl (fun t k => (t.sendRecord k).matchStep k)
           ((s.storeBut Csr.sysNode v.toNat allBits [Csr.sysNode_NODE]).setF Csr.sysNode_NODE (v.toNat / 2 ^ Csr.sysNode_NODE.lo % 2 ^ Csr.sysNode_NODE.len)))))) ∧
  (∀ (s : State) (k : Fin 32) (cls : Fin 4) (due : Bool) (m : InMsg) (r : List InMsg),
     let n := s.ni k
     let gone := s.setNi k (({ n with msgs := r } : NiPort).free m.cls m.flits)
     let here : Bool := decide (msgDest m.data = s.getF Csr.sysNode_NODE)
     let ours : Bool := decide (msgJob m.data = s.getF (Csr.niPmap_JOB k)) && decide (msgJob m.data ≠ 0)
     (n.nextIn cls = some (m, r) →
       (isRcRecord m = true → exec (.messageDispatch k cls due) s = .next s) ∧
       (isRcRecord m = false → m.cls = 0 → Config.isMonitor m.data = true → exec (.messageDispatch k cls due) s =
         .next (gone.hearMonitor k m.data)) ∧
       (isRcRecord m = false → ¬(m.cls = 0 ∧ Config.isMonitor m.data = true) →
         (m.enabled = false → exec (.messageDispatch k cls due) s = .next (gone.addF (Csr.niRcStat_TAG_DROP k) 1)) ∧
         (m.enabled = true → here = true → ours = true → exec (.messageDispatch k cls due) s =
           .next (if m.cls = 2 ∨ m.cls = 3 then s.setNi k { n with msgs := r, inbox := n.inbox ++ [m] } else gone)) ∧
         (m.enabled = true → here = true → ours = false → exec (.messageDispatch k cls due) s = .next (gone.tagDrop k m.data due)) ∧
         (m.enabled = true → here = false → s.route k (msgDest m.data) (msgJob m.data) = none →
           exec (.messageDispatch k cls due) s = .next (gone.tagDrop k m.data due)) ∧
         (∀ o, m.enabled = true → here = false → s.route k (msgDest m.data) (msgJob m.data) = some o →
           exec (.messageDispatch k cls due) s = .next (s.setNi k { n with msgs := r ++ [{ m with out := some o }] })))) ∧
     (∀ o, takeMsg n.msgs (fun m => decide (m.cls = cls) && m.out.isSome) = some (m, r) → m.out = some o →
       (s.dataOn o = true → exec (.transitForward k cls due) s =
         .next (if (s.ni o).txq.any (fun t => t.fwd && decide (t.cls = m.cls)) then s else gone.sendMsg o m.cls m.data true none)) ∧
       (s.dataOn o = false → exec (.transitForward k cls due) s = .next ((gone.addF (Csr.niRcStat_XDROP k) 1).limited due
         ⟨0x0605, 2, 255, 4, k, 0xFFFF, 0, [(1, k.val), (1, o), (2, msgJob m.data)]⟩))))

/-! ## Optics, clocks, heat -/

/-- A lane's states by measurement (R282, R283, R293): light above DARK_FLOOR starts a sweep of a DARK lane of a glove
that serves its lanes; with pilot tones on, a resonance with the lane's own tone locks it and offers it for admission,
one with another tone leaves what was read, the third sweep without one is recorded; a deficit above LOCK_TOL has it
drifting, one at most LOCK_TOL locks it again, one three times as high unlocks it; power below DARK_FLOOR has it dark.
Each leaves the reading in the lane's register. Withdrawal and admission (R283, R284): GLV.RETIRE, written by the
management owner, retires and readmits lanes by its bits; a lane that LANE_RETIRE withdrew and that has been LOCKED
for 1 ms is admitted, unless software or a switch of its wavelength holds it back; a suspended bound holds again when
nothing suspends it. -/
def Obligations.LanesComeAndGo : Prop :=
  (∀ (s : State) (g : Fin 16) (tx : Bool) (l : Fin 16) (x : BitVec 16),
     let st := s.getF (laneState g tx l)
     let tol := s.getF (Csr.glvCtrl_LOCK_TOL g)
     let p := s.setF (lanePower g tx l) x.toNat
     let d := s.setF (lanePilot g tx l) x.toNat
     (st = 0 → s.laneLit g tx = true → x.toNat ≠ noReading → signed 16 (s.getF (Csr.glvCtrl_DARK_FLOOR g)) < signed 16 x.toNat →
       exec (.laneLightDetect g tx l x) s = .next (p.setLane g tx l 1)) ∧
     ((st ≠ 0 ∨ s.laneLit g tx = false) → exec (.laneLightDetect g tx l x) s = .next p) ∧
     (∀ tone : Fin 8, (st = 1 ∨ st = 4) → s.flag (Csr.glvCtrl_TONE_EN g) = true →
       let ok := tx || decide (tone.val = l.val % 8)
       let s1 := s.setFs [(laneHeater g tx l, x.toNat), (laneToneWl g tx l, if tx then 0 else tone.val), (laneToneOk g tx l, ok.toNat)]
       let n := cnt s.optics.sweeps (laneKey g tx l) + 1
       let s2 := s.withOptics (fun o => { o with sweeps := setCnt o.sweeps (laneKey g tx l) n })
       (ok = true → exec (.sweepDone g tx l true x tone) s = .next (((s1.noteLock g tx l x.toNat).setLane g tx l 2).offer g tx l)) ∧
       (ok = false → exec (.sweepDone g tx l true x tone) s = .next s1) ∧
       (st = 1 → exec (.sweepDone g tx l false x tone) s =
         .next (if n = 3 then s2.recordD 0x0409 1 5 g [(1, dirCode tx), (1, l.val)] else s2))) ∧
     (st = 2 → (d.steep g = true ∨ Int.ofNat tol < d.pilotDeficit g tx l) → ∀ due : Bool,
       let s1 := (d.addF (Csr.glvCnt_DRIFT g) 1).setLane g tx l 3
       let r : Rec := ⟨0x040A, 0, 255, 5, g, 0xFFFF, 0, [(1, portOfLane g l), (2, s.getF (Csr.glvStatus_SLOPE g))]⟩
       exec (.laneDrift g tx l x due) s = .next (if due then s1.record true none r else s1.withhold r)) ∧
     (st = 3 → d.steep g = false → d.pilotDeficit g tx l ≤ Int.ofNat tol → exec (.driftCleared g tx l x) s = .next (d.setLane g tx l 2)) ∧
     ((st = 2 ∨ st = 3) → (Int.ofNat (3 * tol) < d.pilotDeficit g tx l ∨ 600 < d.pilotDeficit g tx l) → exec (.laneUnlocked g tx l x) s =
       .next ((((d.addF (Csr.glvCnt_UNLOCK g) 1).setLane g tx l 4).unlockRecord g tx l).retireStep g tx l)) ∧
     ((x.toNat = noReading ∨ signed 16 x.toNat < signed 16 (s.getF (Csr.glvCtrl_DARK_FLOOR g))) →
       exec (.laneDark g tx l x) s = .next (p.laneDark g tx l true))) ∧
  (∀ (s : State) (g : Fin 16),
     (∀ (port : Fin 4) (v : Word), s.OwnerPort port → exec (.softwareRetire port g .full v) s =
       .next (s.setRetire g ((s.store (Csr.glvRetire g) v.toNat allBits).rd (Csr.glvRetire g)).toNat)) ∧
     (∀ (tx : Bool) (l : Fin 16), s.getF (laneState g tx l) = 2 → s.heldBack g tx l ≠ 0 →
       let t := s.setHeldBack g tx l 2
       (s.softRetired g tx l = false → s.switching g tx l = false → exec (.laneReadmitted g tx l) s = .next (t.admitLane g tx l)) ∧
       ((s.softRetired g tx l = true ∨ s.switching g tx l = true) → exec (.laneReadmitted g tx l) s = .next t)) ∧
     (∀ k : Fin 32, s.portSuspends k = false → exec (.boundSuspensionEnd k) s = .next ((s.setF (suspField k) 0).bound k)) ∧
     (∀ k : Fin 32, s.portSuspends k = true → exec (.boundSuspensionEnd k) s = .next s))

/-- Gloves (R276 to R279, R281, R282, R285, R290, R291): a heater's code is its table's value, of a lit lane with the
feedforward of its die's power and the correction; the temperature is the mean of two sensors and the slope its change
over ten samples; a LOCKED ring's nearest entry moves an eighth of the way; EN = 0 turns the glove off and CAL_REQ
starts a recalibration; bring-up goes step by step to READY, from POWERUP only once its module answers, is ready and
has light, or fails; the fibre taps are read, this device's readings go to the far end as a message of TC0 and losses
are located. Interlocks (R274, R275, R288, R479): a cause opens the interlock of its module and LIGHT_EN is 0; an open
receptacle is not PRES, a present one is; LSFLTmn sets FAULT, abandons a switch and fails its sources, and its end
clears it and offers the lanes that a switch had withdrawn; LIGHT_EN written by the management owner opens or raises
both. -/
def Obligations.GlovesAndInterlocks : Prop :=
  (∀ (s : State) (g : Fin 16),
     (∀ (r : Fin 32),
       let tx := decide (r.val < 16)
       let lane := s.getF (laneState g tx (r.val % 16))
       let heater := laneHeater g tx (r.val % 16)
       let b := s.ringRec g r
       let ff := feedForward b (s.diePower g)
       let step := Int.ofNat (fieldAt b 4 2)
       let k := min ((2 * (s.gloveTemp g - signed 16 (fieldAt b 2 2)) + step) / (2 * step)).toNat 15
       let h := Int.ofNat (fieldAt b (8 + 2 * k) 2)
       let aim := Int.ofNat (s.getF heater) - ff
       ringOk b = true →
         (∀ corr : BitVec 16, exec (.heaterUpdate g r corr) s = .next (s.setF heater (heaterCode
           (if lane = 0 then ringTable b (s.gloveTemp g) else ringTable b (s.gloveTemp g) + ff + signed 16 corr.toNat)))) ∧
         (lane = 2 → exec (.ringRefine g r) s =
           .next (s.putRing g r (b.take (8 + 2 * k) ++ leBytes 2 (heaterCode (h + Int.tdiv (aim - h) 8)) ++ b.drop (10 + 2 * k))))) ∧
     (∀ a b : BitVec 12,
       let t := (signed 12 a.toNat + signed 12 b.toNat) / 2
       let hist := (toSigned 12 t :: s.optics.temps.get (fun _ => []) g).take 11
       exec (.gloveTempSample g a b) s = .next ((s.withOptics (fun o => { o with temps := o.temps.put (fun _ => []) g hist })).setFs
         [(Csr.glvStatus_TEMP g, toSigned 12 t), (Csr.glvStatus_SLOPE g, toSigned 16 (match hist[10]? with
           | some x => (t - signed 12 x) * 10
           | none => 0))])) ∧
     (∀ (port : Fin 4) (v : Word), s.OwnerPort port →
       let rate := Csr.glvCtrl_DRIFT_RATE g
       let s1 := s.storeBut (Csr.glvCtrl g) v.toNat allBits [rate, Csr.glvCtrl_CAL_REQ g]
       let s2 := if s.merged v.toNat allBits rate ≤ 0x80 then s1.setF rate (s.merged v.toNat allBits rate) else s1
       (wrote1 v.toNat allBits (Csr.glvCtrl_CAL_REQ g) = false →
         exec (.gloveEnable port g .full v) s = .next (if s2.flag (Csr.glvCtrl_EN g) then s2 else s2.gloveOff g 0)) ∧
       (s2.flag (Csr.glvCtrl_EN g) = true → wrote1 v.toNat allBits (Csr.glvCtrl_CAL_REQ g) = true →
         exec (.calReq port g .full v) s = .next (if s2.flag (Csr.glvCtrl_CAL_REQ g) then s2 else s2.calStart g))) ∧
     (let st := s.getF (Csr.glvStatus_STATE g)
      let m := g.val / 8
      s.flag (Csr.glvCtrl_EN g) = true → s.service = true → st < 3 →
       exec (.gloveBringup g false) s = .next (s.gloveOff g 4) ∧
       (st = 0 → exec (.gloveBringup g true) s = .next (s.setF (Csr.glvStatus_STATE g) 1)) ∧
       (st = 1 → exec (.gloveBringup g true) s =
         .next (if s.flag (Csr.elsStatus_PRESENT m) && s.flag (Csr.elsStatus_READY m) && s.flag (Csr.elsStatus_LIGHT m) then
           ((s.setF (Csr.glvStatus_STATE g) 2).checkFibre (2 * g.val)).checkFibre (2 * g.val + 1) else s)) ∧
       (let s1 := s.setFs [(Csr.glvStatus_STATE g, 3), (Csr.glvCtrl_CAL_REQ g, 0)]
        let now := (s1.rd (Csr.glvRetire g)).toNat
        st = 2 → exec (.gloveBringup g true) s = .next ((s1.withOptics (fun o => { o with calSet := setCnt o.calSet g 0 })).setRetire g
         (now - (now &&& cnt s.optics.calSet g))))) ∧
     (∀ (k : Fin 32) (txTap rxTap : BitVec 16) (fresh : Bool),
       let s0 := s.setFs [(Csr.glvFibMon_POWER (gloveOf k) (k.val % 2), txTap.toNat), (Csr.glvFibMon_POWER (gloveOf k) (2 + k.val % 2), rxTap.toNat)]
       let own := (exchangeKeys true).flatMap (fun x => (List.range 8).map (fun i => s0.monitor k x.1 x.2 i))
       let s1 := if s.niSt k = 4 then
           (s0.withOptics (fun o => { o with sent := o.sent ++ [(k.val, own)] })).sendMsg k 0 (monitorMessage own) false none
         else s0
       exec (.monitorExchange k txTap rxTap fresh) s =
         .next (if s.flag (Csr.glvCtrl_TONE_EN (gloveOf k)) then (s1.locate k true fresh).locate k false fresh else s1))) ∧
  (∀ (s : State) (m : Fin 2),
     (∀ c, s.openCause m = some c → exec (.interlockOpen m) s = .next ((s.openInterlock m c).setLightEn m false)) ∧
     (s.openCause m = none → exec (.interlockOpen m) s = .next s) ∧
     (∀ r : Fin 6,
       let n := if r.val < 4 then r.val / 2 else r.val - 4
       exec (.receptacleOpen r) s = .next (((s.setF Csr.elsStatus_PRES (clearBit (s.getF Csr.elsStatus_PRES) r)).openInterlock n
         (if r.val < 4 then 4 else 3)).setLightEn n false) ∧
       exec (.receptaclePresent r) s = .next ((s.setF Csr.elsStatus_PRES (setBit (s.getF Csr.elsStatus_PRES) r)).bootLight n)) ∧
     (∀ status : BitVec 16,
       (s.flag (Csr.elsStatus_FAULT m) = false → exec (.laserFault m status) s = .next ((List.range 8).foldl
         (fun t w => if bitOf status.toNat (w + 1) then t.sourceFault m w else t) (((s.setFs [(Csr.elsStatus_FAULT m, 1), (Csr.elsStatus_READY
           m, status.toNat)]).recordD 0x0403 1 6 m [(2, status.toNat)]).abandonSwitch m))) ∧
       (s.flag (Csr.elsStatus_FAULT m) = true → exec (.laserFault m status) s = .next s)) ∧
     exec (.laserFaultCleared m) s = .next ((moduleLanes m).foldl
       (fun t x => if t.getF (laneCause x.1 true x.2) = 2 then t.offer x.1 true x.2 else t) ((s.setF (Csr.elsStatus_FAULT m) 0).bootLight m)) ∧
     (∀ (port : Fin 4) (v : Word), s.OwnerPort port →
       let s1 := s.storeBut Csr.elsCtrl v.toNat allBits [Csr.elsCtrl_COMMISSION, Csr.elsCtrl_SAVE_TAB]
       let s2 := (s1.lightStep 0).lightStep 1
       let c := v.toNat / 2 ^ Csr.elsCtrl_COMMISSION.lo % 2 ^ Csr.elsCtrl_COMMISSION.len
       let save := wrote1 v.toNat allBits Csr.elsCtrl_SAVE_TAB
       let s3 := if bitOf c 0 then s2.commission 0 else s2
       let s4 := if bitOf c 1 then s3.commission 1 else s3
       let end_ := if save then s4.saveTables else s4
       exec (.lightEnWrite port .full v) s = .next end_ ∧ exec (.saveTab port .full v) s = .next end_ ∧
         exec (.commission port .full v) s = .next end_))

/-- Polls and switches (R273, R275, R286 to R288): a good poll shows the module's identity, state and temperature, takes
its readings and lets light that waits for it rise; the third failed one in a row loses the module; sources are judged
while it answers; SRC_CMD asks for a switch to the source it names, or sets CMD_IGN for the active or a failed source.
A switch of sources (R288) goes through its states: on an idle module the lowest pending wavelength that still has
somewhere to go starts and its lanes are withdrawn; once they have left the new source is warmed; it is warm and the
module ramps to it, or it has failed to be in time and the lanes return; the light has crossed over and the rings are
swept again; the rings are locked, or the time is up and those that are not are recorded; DONE counts it and the
record names the lanes that stay away. -/
def Obligations.LasersAndSources : Prop :=
  (∀ (s : State) (m : Fin 2),
     (∀ (status : BitVec 16) (ident : BitVec 56) (temp : BitVec 16) (rs : List (BitVec 16)), s.service = true →
       exec (.laserPoll m true status ident temp rs) s = .next ((((s.withOptics (fun o => { o with fails := setCnt o.fails m 0 })).setFs
         [(Csr.elsStatus_PRESENT m, 1), (Csr.elsStatus_READY m, status.toNat), (Csr.elsModId_SERIAL m, ident.toNat),
          (Csr.elsModId_FW_VER m, ident.toNat / 2 ^ 48), (Csr.elsModTemp_TEMP m, temp.toNat)]).pollReadings m (rs.map (fun r => r.toNat))).bootLight m) ∧
       (let n := cnt s.optics.fails m + 1
        let s1 := (s.withOptics (fun o => { o with fails := setCnt o.fails m n })).pushHist m (fun _ => noReading)
        exec (.laserPoll m false status ident temp rs) s = .next (if n = 3 then (s1.setF (Csr.elsStatus_PRESENT m) 0).recordD 0x0401 1 6 m []
          else s1))) ∧
     (s.flag (Csr.elsStatus_PRESENT m) = true → exec (.fadeEvaluation m) s = .next ((List.range 8).foldl (fun t w => t.evalFade m w) s)) ∧
     (s.flag (Csr.elsStatus_PRESENT m) = false → exec (.fadeEvaluation m) s = .next s) ∧
     (∀ (port : Fin 4) (v : Word), s.OwnerPort port →
       let s1 := s.storeBut (Csr.elsModSrcCmd m) v.toNat allBits [Csr.elsModSrcCmd_GO m]
       let w := s1.getF (Csr.elsModSrcCmd_WL m)
       let src := s1.getF (Csr.elsModSrcCmd_TO_SPARE m)
       (wrote1 v.toNat allBits (Csr.elsModSrcCmd_GO m) = false → exec (.srcCmd port m .full v) s = .next s1) ∧
       (wrote1 v.toNat allBits (Csr.elsModSrcCmd_GO m) = true →
         ((s1.activeSrc m w = src ∨ s1.flag (failedFld m w src) = true) →
           exec (.srcCmd port m .full v) s = .next (s1.setF Csr.elsStatus_CMD_IGN 1)) ∧
         (s1.activeSrc m w ≠ src → s1.flag (failedFld m w src) = false →
           exec (.srcCmd port m .full v) s = .next (s1.askSwitch m w src true))))) ∧
  (∀ (s : State) (m : Fin 2),
     let w := s.getF (Csr.elsModSw_WL m)
     let waits := setBits (s.getF (Csr.elsModSw_PENDING m)) 8
     let s0 := (waits.filter (fun x => !s.startable m x)).foldl (fun t x => t.dropSwitch m x) s
     (∀ x, s.swSt m = 0 → waits.find? (fun x => s.startable m x) = some x → exec (.spareSwitchStart m) s = .next
       ((waveLanes m x).foldl (fun t y => t.withdraw y.1 true y.2 2) (((s0.dropSwitch m x).setFs [(Csr.elsModSw_STATE m, 1),
         (Csr.elsModSw_WL m, x), (Csr.elsModSw_ELAPSED m, 0)]).withOptics
           (fun o => { o with started := setCnt o.started m (s.rd Csr.clkTime).toNat })))) ∧
     (s.swSt m = 0 → waits.find? (fun x => s.startable m x) = none → exec (.spareSwitchStart m) s = .next s0) ∧
     (s.swSt m = 1 → (List.range 16).all (fun f => !bitOf (s.getF (Csr.niStatus_TX_ADMIT (fibrePort m f))) w) = true →
       exec (.spareRetiringDone m) s = .next ((s.swTo m 2).warmSpare m w true)) ∧
     (s.swSt m = 2 → exec (.spareWarmed m) s = .next ((s.swTo m 3).rampTo m w (1 - s.activeSrc m w)) ∧
       exec (.spareWarmTimeout m) s = .next (((((s.setF (failedFld m w (1 - s.activeSrc m w)) 1).swTo m 0).addF
         (Csr.elsModSw_ABANDONED m) 1).readmitWave m w).recordD 0x0406 1 6 m [(1, w)])) ∧
     (s.swSt m = 3 →
       let src := 1 - s.activeSrc m w
       let s1 := (s.swTo m 4).setActive m w src
       exec (.crossoverDone m) s = .next ((waveLanes m w).foldl (fun t x => if t.getF (laneState x.1 true x.2) = 0 then t
         else t.setLane x.1 true x.2 1) (if src = 0 then s1.warmSpare m w false else s1))) ∧
     (s.swSt m = 4 → ∀ timeout : Bool,
       let away := (waveLanes m w).filter (fun x => decide (s.getF (laneState x.1 true x.2) ≠ 2))
       ((timeout = true ∨ away = []) → exec (.relockDone m timeout) s =
         .next (away.foldl (fun t x => t.recordD 0x0409 1 5 x.1 [(1, 0), (1, x.2)]) (s.swTo m 5))) ∧
       (timeout = false → away ≠ [] → exec (.relockDone m timeout) s = .next s)) ∧
     (s.swSt m = 5 →
       let s1 := (s.swTo m 0).readmitWave m w
       let left := ((waveLanes m w).mapIdx (fun f x => (f, x))).foldl
         (fun n y => if s1.flag (laneAdmit y.2.1 true y.2.2) then n else n + 2 ^ y.1) 0
       exec (.laserSpareDone m) s = .next ((s1.addF (Csr.elsModSw_DONE m) 1).recordD 0x0407 0 6 m
         [(1, w), (2, left), (2, s1.getF (Csr.elsModSw_ELAPSED m))])))

/-- Clocks and supplies (R361, R421, R422, R426 to R429): a lost reference, PLL or rail shows and is DEVICE_FATAL, and
without the reference or a core rail every port is dark or down; a SerDes PLL counts its loss and takes its glove off
or its link down, and a glove's comes back; PWR.VSET takes a value of its range and refuses others; polls show the
rails and the third failure in a row is AVS_FAIL; KEEP moves by one towards TARGET. Heat (R393, R433 to R437): the
sensors are sampled and judged; hot after 100 microseconds TARGET falls by STEP but not below KEEP_MIN; cool for 1 ms
recovery begins and TARGET rises, and goes on rising while the device is not hot or the policy is disarmed; three
readings of CRIT trip the latch once, which is captured; HOLD = 1 wakes the arrays. -/
def Obligations.ClocksAndHeat : Prop :=
  (∀ (s : State),
     (let lost (t : State) (c : Nat) : State := t.deviceFatal ⟨0x0904, 5, 255, 11, 0, 0xFFFF, 0, [(1, c)]⟩
      let rail (r : Nat) : State := s.setF Csr.pwrRails_GOOD (clearBit (s.getF Csr.pwrRails_GOOD) (r - 0x10))
      exec (.clockOrSupply 1) s = .next (lost (s.setFs [(Csr.clkStatus_REF_OK, 0), (Csr.clkStatus_OSC_ACTIVE, 1)]) 1).goDark ∧
      exec (.clockOrSupply 2) s = .next (lost (s.setFs [(Csr.clkStatus_SPLL_LOCK, 0), (Csr.clkStatus_OSC_ACTIVE, 1)]) 2) ∧
      exec (.clockOrSupply 3) s = .next (if s.flag Csr.clkStatus_TSRC then
        lost (s.setFs [(Csr.clkStatus_TPLL_LOCK, 0), (Csr.clkStatus_OSC_ACTIVE, 1)]) 3 else s) ∧
      (∀ r : BitVec 8, 0x10 ≤ r.toNat → r.toNat ≤ 0x19 → exec (.clockOrSupply r) s =
        .next (if r.toNat ≤ 0x11 then (lost (rail r.toNat) r.toNat).goDark else lost (rail r.toNat) r.toNat))) ∧
     (∀ n : Fin 20,
       let s1 := s.addF Csr.clkSerdes_UNLOCKS 1
       let k := n.val - 16
       let s2 := s1.setF Csr.clkSerdes_ZHL_LOCK (clearBit (s.getF Csr.clkSerdes_ZHL_LOCK) k)
       (n.val < 16 → exec (.serdesUnlock n) s = .next ((s1.setF Csr.clkSerdes_GLV_LOCK
         (clearBit (s.getF Csr.clkSerdes_GLV_LOCK) n)).gloveOff n 4)) ∧
       (16 ≤ n.val → exec (.serdesUnlock n) s = .next (if s.hlState k = 3 then s2.zhlDown k 0 else s2))) ∧
     (∀ g : Fin 16, bitOf (s.getF Csr.clkSerdes_GLV_LOCK) g = false →
       let s1 := s.setF Csr.clkSerdes_GLV_LOCK (setBit (s.getF Csr.clkSerdes_GLV_LOCK) g)
       exec (.glovePllRetry g false) s = .next s ∧
       exec (.glovePllRetry g true) s = .next (if s.flag (Csr.glvCtrl_EN g) then s1.setF (Csr.glvStatus_STATE g) 1 else s1)) ∧
     (∀ (port : Fin 4) (v : Word), s.OwnerPort port →
       let mv := v.toNat / 2 ^ Csr.pwrVset_MV.lo % 2 ^ Csr.pwrVset_MV.len
       let fuse := s.getF Csr.pwrVset_FUSE_MV
       (fuse ≤ mv ∧ mv ≤ min (fuse + 50) 800 → answers (.vsetWrite port .full v) s (fun t => t.getF Csr.pwrVset_MV = mv ∧
         (∀ a, a ≠ Csr.pwrVset → t.rd a = s.rd a) ∧ t.mem = s.mem)) ∧
       (¬(fuse ≤ mv ∧ mv ≤ min (fuse + 50) 800) → answers (.vsetWrite port .full v) s (fun t =>
         t.getF Csr.pwrVset_MV = s.getF Csr.pwrVset_MV ∧ t.getF Csr.pwrVset_VSET_IGN = 1 ∧ (∀ a, a ≠ Csr.pwrVset → t.rd a = s.rd a) ∧
         t.mem = s.mem))) ∧
     (∀ (e slow warn : Bool) (mv : BitVec 10) (amps : BitVec 12) (temp status : BitVec 16),
       let s1 := (s.withPower (fun p => { p with fails := setCnt p.fails e.toNat 0 })).setFs
         [(vcoreMv e, mv.toNat), (vcoreAmps e, amps.toNat), (vcoreStale e, 0)]
       let s2 := s1.setFs [(vcoreTemp e, temp.toNat), (vcoreStatus e, status.toNat)]
       let n := min (cnt s.power.fails e.toNat + 1) 3
       let s3 := s.withPower (fun p => { p with fails := setCnt p.fails e.toNat n })
       exec (.avsbusPoll e true slow warn mv amps temp status) s =
         .next (if slow then (if warn then s2.setF Csr.pwrAlert_VR_WARN 1 else s2) else s1) ∧
       exec (.avsbusPoll e false slow warn mv amps temp status) s =
         .next (if n = 3 then s3.setFs [(Csr.pwrAlert_AVS_FAIL, 1), (vcoreStale e, 1)] else s3)) ∧
     (s.getF Csr.clkTclk_KEEP ≠ s.getF Csr.clkTclk_TARGET →
       (s.rampHold.length ≤ 14 ∨ s.flag Csr.clkTclk_SLEWING = true) → answers .keepSlewStep s (fun t =>
       (s.getF Csr.clkTclk_KEEP < s.getF Csr.clkTclk_TARGET → t.getF Csr.clkTclk_KEEP = (s.getF Csr.clkTclk_KEEP + 1) % 2 ^ Csr.clkTclk_KEEP.len) ∧
       (s.getF Csr.clkTclk_TARGET < s.getF Csr.clkTclk_KEEP → t.getF Csr.clkTclk_KEEP = s.getF Csr.clkTclk_KEEP - 1) ∧
       t.getF Csr.clkTclk_TARGET = s.getF Csr.clkTclk_TARGET ∧ t.mem = s.mem)) ∧
     (s.getF Csr.clkTclk_KEEP ≠ s.getF Csr.clkTclk_TARGET → 14 < s.rampHold.length → s.flag Csr.clkTclk_SLEWING = false →
       exec .keepSlewStep s = .next s)) ∧
  (∀ (s : State),
     (∀ (rs : List (BitVec 13)) (due : Bool),
       let s1 := (List.range 48).foldl (fun t i => t.readSensor i (rs.getD i 0)) s
       let est := (s1.estimate :: s.power.estimates).take 100
       let limit := s.threshold Csr.pwrThermCtrl_CRIT
       let crit := (List.range 40).foldl (fun m i => setCnt m i (match s1.sensor i with
         | some t => if limit ≤ t then min (cnt s.power.crit i + 1) 3 else 0
         | none => 0)) s.power.crit
       let s2 := (s1.withPower (fun p => { p with estimates := est, crit := crit })).setF Csr.pwrPower_AVG_W
         (min (est.foldl (fun a b => a + b) 0 / est.length / 1000) 4095)
       exec (.sensorSample rs due) s = .next ((((s2.showHottest).judgeHot due).judgeMem (due && !(s2.hot && !s2.flag
         Csr.pwrThermStat_HOT))).judgeThrottle)) ∧
     (let t := s.getF Csr.clkTclk_TARGET
      s.getF Csr.clkTclk_TSTATE = 1 → s.devArmed 5 = true → s.hot = true → s.getF Csr.clkTclk_KEEP = t →
       exec .throttleStillHot s = .next (s.setF Csr.clkTclk_TARGET (max (t - s.getF Csr.clkTclk_STEP) (s.getF Csr.clkTclk_KEEP_MIN)))) ∧
     (s.getF Csr.clkTclk_TSTATE = 1 → s.cool = true → exec .throttleCoolHeld s = .next ((s.setF Csr.clkTclk_TSTATE 2).raiseTarget)) ∧
     (s.getF Csr.clkTclk_TSTATE = 2 → (s.hot = false ∨ s.devArmed 5 = false) → exec .throttleRaise s = .next s.raiseTarget) ∧
     (s.flag Csr.pwrThermStat_TRIP = false → (List.range 40).any (fun i => decide (cnt s.power.crit i = 3)) = true →
       exec .thermtrip s = .next ((s.setF Csr.pwrThermStat_TRIP 1).captureFatal ⟨0x0903, 5, 255, 11, 0, 0xFFFF, 0, []⟩)) ∧
     (s.flag Csr.pwrThermStat_TRIP = true → exec .thermtrip s = .next s) ∧
     (∀ (port : Fin 4) (c : Fin 64) (v : Word), s.OwnerPort port →
       let t := s.store (Csr.clsArrCtrl c) v.toNat allBits
       (t.flag (Csr.clsArrCtrl_HOLD c) = false → exec (.hold port c .full v) s = .next t) ∧
       (s.flag (Csr.clsArrCtrl_HOLD c) = false → t.flag (Csr.clsArrCtrl_HOLD c) = true → exec (.hold port c .full v) s =
         .next (t.wakeArrays c false))))
end

