-- ==== Sys2Proof/Laws/Bytes.lean ====
section
/-! SUPPORT. Numbers as bytes, the lowest first, and back (R13). -/

namespace Sys2Proof.Machine

@[simp] theorem length_leBytes : ∀ {n v : Nat}, (leBytes n v).length = n
  | 0, _ => rfl
  | n + 1, v => by rw [leBytes, List.length_cons, length_leBytes]

theorem leNat_leBytes : ∀ {n v : Nat}, leNat (leBytes n v) = v % 256 ^ n
  | 0, v => by simp [leBytes, leNat, Nat.mod_one]
  | n + 1, v => by
    rw [leBytes, leNat, leNat_leBytes, BitVec.toNat_ofNat]
    have : (2 : Nat) ^ 8 = 256 := by decide
    rw [this, Nat.pow_succ, Nat.mul_comm (256 ^ n) 256, Nat.mod_mul]

theorem leBytes_leNat : ∀ (bs : List Byte), leBytes bs.length (leNat bs) = bs
  | [] => rfl
  | b :: r => by
    have h : b.toNat < 256 := b.isLt
    rw [List.length_cons, leBytes, leNat]
    have h1 : (b.toNat + 256 * leNat r) / 256 = leNat r := by omega
    rw [h1, leBytes_leNat r]
    congr 1
    apply BitVec.eq_of_toNat_eq
    rw [BitVec.toNat_ofNat]
    omega

end Sys2Proof.Machine
end

