-- ==== Sys2Proof/Laws/Map.lean ====
section
/-! SUPPORT. The laws of sparse tables: read after write, and that every operation keeps the canonical form. -/

namespace Sys2Proof.Machine

variable {V : Type} {d : Nat → V} {m : SMap V} {k j b : Nat} {v : V}

/-! ## Read after write -/

theorem SMap.get_erase : (SMap.erase m k).get d j = if j = k then d j else m.get d j := by
  induction m with
  | nil => simp [SMap.erase, SMap.get]
  | cons e r ih =>
    obtain ⟨k', v'⟩ := e
    unfold SMap.erase
    by_cases h : k' = k <;> by_cases g : k' = j <;> by_cases hj : j = k <;> simp_all [SMap.get]

theorem SMap.get_insert : (SMap.insert m k v).get d j = if j = k then v else m.get d j := by
  induction m with
  | nil =>
    simp only [SMap.insert, SMap.get]
    by_cases h : j = k
    · simp [h]
    · simp [h, Ne.symm h]
  | cons e r ih =>
    obtain ⟨k', v'⟩ := e
    unfold SMap.insert
    split
    · simp only [SMap.get]
      by_cases h : j = k
      · simp [h]
      · simp [h, Ne.symm h]
    · split
      · rename_i hk
        simp only [SMap.get]
        by_cases h : j = k
        · simp [h]
        · simp [h, hk, Ne.symm h]
      · simp only [SMap.get, ih]
        by_cases h : j = k
        · subst h
          simp [*]
        · simp [h]

/-- Writing a key changes what that key reads as, and nothing else. -/
@[simp] theorem SMap.get_put [DecidableEq V] : (SMap.put d m k v).get d j = if j = k then v else m.get d j := by
  unfold SMap.put
  split
  · rw [SMap.get_erase]
    split <;> simp_all
  · exact SMap.get_insert

/-! ## The canonical form -/

theorem SMap.wfFrom_mono [DecidableEq V] (h : SMap.wfFrom d b m = true) (hj : j ≤ b) : SMap.wfFrom d j m = true := by
  cases m with
  | nil => rfl
  | cons e r =>
    obtain ⟨k', v'⟩ := e
    simp only [SMap.wfFrom, Bool.and_eq_true, decide_eq_true_eq] at *
    exact ⟨⟨by omega, h.1.2⟩, h.2⟩

theorem SMap.wfFrom_erase [DecidableEq V] (h : SMap.wfFrom d b m = true) : SMap.wfFrom d b (SMap.erase m k) = true := by
  induction m generalizing b with
  | nil => rfl
  | cons e r ih =>
    obtain ⟨k', v'⟩ := e
    simp only [SMap.wfFrom, Bool.and_eq_true, decide_eq_true_eq] at h
    unfold SMap.erase
    split
    · exact SMap.wfFrom_mono (ih h.2) (by omega)
    · simp only [SMap.wfFrom, Bool.and_eq_true, decide_eq_true_eq]
      exact ⟨h.1, ih h.2⟩

theorem SMap.wfFrom_insert [DecidableEq V] (h : SMap.wfFrom d b m = true) (hb : b ≤ k) (hv : v ≠ d k) :
    SMap.wfFrom d b (SMap.insert m k v) = true := by
  induction m generalizing b with
  | nil => simp [SMap.insert, SMap.wfFrom, hb, hv]
  | cons e r ih =>
    obtain ⟨k', v'⟩ := e
    simp only [SMap.wfFrom, Bool.and_eq_true, decide_eq_true_eq] at h
    unfold SMap.insert
    split
    · simp only [SMap.wfFrom, Bool.and_eq_true, decide_eq_true_eq]
      exact ⟨⟨hb, hv⟩, ⟨by omega, h.1.2⟩, h.2⟩
    · split
      · simp only [SMap.wfFrom, Bool.and_eq_true, decide_eq_true_eq]
        exact ⟨⟨hb, hv⟩, SMap.wfFrom_mono h.2 (by omega)⟩
      · simp only [SMap.wfFrom, Bool.and_eq_true, decide_eq_true_eq]
        exact ⟨h.1, ih h.2 (by omega)⟩

theorem SMap.wfFrom_filter [DecidableEq V] (p : Nat × V → Bool) (h : SMap.wfFrom d b m = true) :
    SMap.wfFrom d b (m.filter p) = true := by
  induction m generalizing b with
  | nil => rfl
  | cons e r ih =>
    obtain ⟨k', v'⟩ := e
    simp only [SMap.wfFrom, Bool.and_eq_true, decide_eq_true_eq] at h
    rw [List.filter_cons]
    split
    · simp only [SMap.wfFrom, Bool.and_eq_true, decide_eq_true_eq]
      exact ⟨h.1, ih h.2⟩
    · exact SMap.wfFrom_mono (ih h.2) (by omega)

@[simp] theorem SMap.wf_nil [DecidableEq V] : SMap.wf d ([] : SMap V) = true := rfl

theorem SMap.wf_put [DecidableEq V] (h : SMap.wf d m = true) : SMap.wf d (SMap.put d m k v) = true := by
  unfold SMap.put
  split
  · exact SMap.wfFrom_erase h
  · exact SMap.wfFrom_insert h (Nat.zero_le k) ‹_›

theorem SMap.wf_filter [DecidableEq V] (p : Nat × V → Bool) (h : SMap.wf d m = true) : SMap.wf d (m.filter p) = true :=
  SMap.wfFrom_filter p h

/-- Changing values so that none becomes the default keeps the form. -/
theorem SMap.wf_map [DecidableEq V] (f : V → V) (hf : ∀ k v, v ≠ d k → f v ≠ d k) (h : SMap.wf d m = true) :
    SMap.wf d (m.map (fun e => (e.1, f e.2))) = true := by
  unfold SMap.wf at h ⊢
  generalize 0 = b at h ⊢
  induction m generalizing b with
  | nil => rfl
  | cons e r ih =>
    obtain ⟨k', v'⟩ := e
    simp only [SMap.wfFrom, Bool.and_eq_true, decide_eq_true_eq, List.map_cons] at h ⊢
    exact ⟨⟨h.1.1, hf _ _ h.1.2⟩, ih _ h.2⟩

/-- Changing values, each into one that is not its default, keeps the form; entries that become their default are
dropped first. -/
theorem SMap.wfFrom_map_filter [DecidableEq V] (f : V → V) (x : V) (h : SMap.wfFrom (fun _ => x) b m = true) :
    SMap.wfFrom (fun _ => x) b ((m.map (fun e => (e.1, f e.2))).filter (fun e => decide (e.2 ≠ x))) = true := by
  induction m generalizing b with
  | nil => rfl
  | cons e r ih =>
    obtain ⟨k', v'⟩ := e
    simp only [SMap.wfFrom, Bool.and_eq_true, decide_eq_true_eq] at h
    rw [List.map_cons, List.filter_cons]
    split
    · rename_i hx
      simp only [SMap.wfFrom, Bool.and_eq_true, decide_eq_true_eq]
      exact ⟨⟨h.1.1, by simpa using hx⟩, ih h.2⟩
    · exact SMap.wfFrom_mono (ih h.2) (by omega)

theorem SMap.wf_map_filter [DecidableEq V] (f : V → V) (x : V) (h : SMap.wf (fun _ => x) m = true) :
    SMap.wf (fun _ => x) ((m.map (fun e => (e.1, f e.2))).filter (fun e => decide (e.2 ≠ x))) = true :=
  SMap.wfFrom_map_filter f x h

/-- Two canonical tables that read alike are equal. -/
theorem SMap.ext_of_wf [DecidableEq V] {n : SMap V} (hm : SMap.wf d m = true) (hn : SMap.wf d n = true)
    (h : ∀ j, m.get d j = n.get d j) : m = n := by
  have low : ∀ {b : Nat} {m : SMap V} {j : Nat}, SMap.wfFrom d b m = true → j < b → m.get d j = d j := by
    intro b m
    induction m generalizing b with
    | nil => intros; rfl
    | cons e r ih =>
      intro j hw hj
      obtain ⟨k', v'⟩ := e
      simp only [SMap.wfFrom, Bool.and_eq_true, decide_eq_true_eq] at hw
      simp only [SMap.get]
      rw [if_neg (by omega)]
      exact ih hw.2 (by omega)
  suffices gen : ∀ {b : Nat} {m n : SMap V}, SMap.wfFrom d b m = true → SMap.wfFrom d b n = true →
      (∀ j, m.get d j = n.get d j) → m = n from gen hm hn h
  intro b m
  induction m generalizing b with
  | nil =>
    intro n _ hn h
    cases n with
    | nil => rfl
    | cons e r =>
      obtain ⟨k', v'⟩ := e
      simp only [SMap.wfFrom, Bool.and_eq_true, decide_eq_true_eq] at hn
      have := h k'
      simp only [SMap.get, if_true] at this
      exact absurd this.symm hn.1.2
  | cons e r ih =>
    intro n hm hn h
    obtain ⟨k1, v1⟩ := e
    have hm' := hm
    simp only [SMap.wfFrom, Bool.and_eq_true, decide_eq_true_eq] at hm
    cases n with
    | nil =>
      have := h k1
      simp only [SMap.get, if_true] at this
      exact absurd this hm.1.2
    | cons e2 r2 =>
      obtain ⟨k2, v2⟩ := e2
      have hn' := hn
      simp only [SMap.wfFrom, Bool.and_eq_true, decide_eq_true_eq] at hn
      rcases Nat.lt_trichotomy k1 k2 with lt | eq | gt
      · have := h k1
        rw [low (b := k2) (m := (k2, v2) :: r2) (by simp [SMap.wfFrom, hn.1.2, hn.2]) lt] at this
        simp only [SMap.get, if_true] at this
        exact absurd this hm.1.2
      · subst eq
        have hv := h k1
        simp only [SMap.get, if_true] at hv
        subst hv
        congr 1
        refine ih hm.2 hn.2 (fun j => ?_)
        by_cases hj : j ≤ k1
        · rw [low hm.2 (by omega), low hn.2 (by omega)]
        · have := h j
          simp only [SMap.get] at this
          rwa [if_neg (by omega), if_neg (by omega)] at this
      · have := h k2
        rw [low (b := k1) (m := (k1, v1) :: r) (by simp [SMap.wfFrom, hm.1.2, hm.2]) gt] at this
        simp only [SMap.get, if_true] at this
        exact absurd this.symm hn.1.2

theorem SMap.le_of_mem [DecidableEq V] : ∀ {m : SMap V} {b : Nat} {e : Nat × V}, SMap.wfFrom d b m = true → e ∈ m → b ≤ e.1
  | (k, v) :: r, b, e, h, he => by
    simp only [SMap.wfFrom, Bool.and_eq_true, decide_eq_true_eq] at h
    rcases List.mem_cons.mp he with rfl | he
    · exact h.1.1
    · have := SMap.le_of_mem h.2 he
      omega

/-- In a canonical table a key has one entry. -/
theorem SMap.eq_of_mem [DecidableEq V] : ∀ {m : SMap V} {b : Nat} {e f : Nat × V}, SMap.wfFrom d b m = true → e ∈ m → f ∈ m →
    e.1 = f.1 → e = f
  | (k, v) :: r, b, e, f, h, he, hf, hk => by
    simp only [SMap.wfFrom, Bool.and_eq_true, decide_eq_true_eq] at h
    rcases List.mem_cons.mp he with rfl | he <;> rcases List.mem_cons.mp hf with rfl | hf
    · rfl
    · have := SMap.le_of_mem h.2 hf
      simp only at hk
      omega
    · have := SMap.le_of_mem h.2 he
      simp only at hk
      omega
    · exact SMap.eq_of_mem h.2 he hf hk

end Sys2Proof.Machine
end

