-- ==== Sys2Proof/Laws/Csr.lean ====
section
/-! SUPPORT. Reading a CSR field after a field has been set. -/

namespace Sys2Proof.Machine

section Words

variable {w : Word} {lo len lo' len' v : Nat}

theorem add_mul_lt {a b A B : Nat} (ha : a < A) (hb : b < B) : a + A * b < A * B :=
  Nat.lt_of_lt_of_le (Nat.add_lt_add_right ha _) (by rw [Nat.add_comm, ← Nat.mul_succ]; exact Nat.mul_le_mul_left _ hb)

/-- The number that a register holds once a field is set. -/
theorem wordSet_toNat (h : lo + len ≤ 64) :
    (wordSet w lo len v).toNat = w.toNat % 2 ^ lo + 2 ^ lo * (v % 2 ^ len + 2 ^ len * (w.toNat / 2 ^ (lo + len))) := by
  have e : w.toNat % 2 ^ lo + (v % 2 ^ len) * 2 ^ lo + w.toNat / 2 ^ (lo + len) * 2 ^ (lo + len) =
      w.toNat % 2 ^ lo + 2 ^ lo * (v % 2 ^ len + 2 ^ len * (w.toNat / 2 ^ (lo + len))) := by
    rw [Nat.pow_add]
    ring
  have small : w.toNat % 2 ^ lo + 2 ^ lo * (v % 2 ^ len + 2 ^ len * (w.toNat / 2 ^ (lo + len))) < 2 ^ 64 := by
    have h1 : w.toNat % 2 ^ lo < 2 ^ lo := Nat.mod_lt _ (by positivity)
    have h2 : v % 2 ^ len < 2 ^ len := Nat.mod_lt _ (by positivity)
    have h3 : w.toNat / 2 ^ (lo + len) < 2 ^ (64 - (lo + len)) := by
      apply Nat.div_lt_of_lt_mul
      rw [← Nat.pow_add, Nat.add_sub_cancel' h]
      exact w.isLt
    have h5 : (2 : Nat) ^ 64 = 2 ^ lo * (2 ^ len * 2 ^ (64 - (lo + len))) := by
      rw [← Nat.pow_add, ← Nat.pow_add]
      congr 1
      omega
    rw [h5]
    exact add_mul_lt h1 (add_mul_lt h2 h3)
  unfold wordSet
  rw [BitVec.toNat_ofNat, e, Nat.mod_eq_of_lt small]

theorem wordGet_wordSet_same (h : lo + len ≤ 64) : wordGet (wordSet w lo len v) lo len = v % 2 ^ len := by
  unfold wordGet
  rw [wordSet_toNat h, Nat.add_mul_div_left _ _ (by positivity), Nat.div_eq_of_lt (Nat.mod_lt _ (by positivity)), Nat.zero_add,
    Nat.add_mul_mod_self_left, Nat.mod_mod]

theorem wordGet_wordSet_below (h : lo + len ≤ 64) (hd : lo' + len' ≤ lo) :
    wordGet (wordSet w lo len v) lo' len' = wordGet w lo' len' := by
  have split : ∀ x : Nat, x / 2 ^ lo' % 2 ^ len' = x % 2 ^ lo / 2 ^ lo' % 2 ^ len' := by
    intro x
    rw [← Nat.mod_mul_right_div_self, ← Nat.mod_mul_right_div_self, ← Nat.pow_add, Nat.mod_mod_of_dvd]
    exact Nat.pow_dvd_pow 2 hd
  unfold wordGet
  rw [wordSet_toNat h, split, split w.toNat, Nat.add_mul_mod_self_left, Nat.mod_mod]

theorem wordGet_wordSet_above (h : lo + len ≤ 64) (hd : lo + len ≤ lo') :
    wordGet (wordSet w lo len v) lo' len' = wordGet w lo' len' := by
  have split : ∀ x : Nat, x / 2 ^ lo' = x / 2 ^ lo / 2 ^ len / 2 ^ (lo' - (lo + len)) := by
    intro x
    rw [Nat.div_div_eq_div_mul, Nat.div_div_eq_div_mul, ← Nat.pow_add, ← Nat.pow_add]
    congr 2
    omega
  unfold wordGet
  rw [wordSet_toNat h, split, Nat.add_mul_div_left _ _ (by positivity), Nat.div_eq_of_lt (Nat.mod_lt _ (by positivity)), Nat.zero_add,
    Nat.add_mul_div_left _ _ (by positivity), Nat.div_eq_of_lt (Nat.mod_lt _ (by positivity)), Nat.zero_add, Nat.pow_add,
    ← Nat.div_div_eq_div_mul, ← split]

end Words

variable {s : State} {f g : Fld} {a b v n : Nat} {w : Word}

@[simp] theorem State.rd_wr : (s.wr a w).rd b = if b = a then w else s.rd b := SMap.get_put

/-- Fields of different registers are apart. -/
theorem Fld.apart_of_addr (h : f.addr ≠ g.addr) : f.apart g = true := by
  unfold Fld.apart
  simp [h]

/-- A field reads as the low bits of what it was set to. -/
theorem State.getF_setF_same (h : f.fits = true) : (s.setF f v).getF f = v % 2 ^ f.len := by
  unfold State.getF State.setF
  rw [State.rd_wr, if_pos rfl, wordGet_wordSet_same (by simpa [Fld.fits] using h)]

/-- Setting a field leaves every field apart from it. -/
theorem State.getF_setF_apart (h : f.fits = true) (hd : f.apart g = true) : (s.setF f v).getF g = s.getF g := by
  unfold State.getF State.setF
  rw [State.rd_wr]
  split
  · rename_i ha
    simp only [Fld.apart, Fld.fits, Bool.or_eq_true, decide_eq_true_eq] at hd h
    rw [ha]
    rcases hd with (hd | hd) | hd
    · exact absurd ha.symm hd
    · exact wordGet_wordSet_above h hd
    · exact wordGet_wordSet_below h hd
  · rfl

theorem State.getF_addF_same (h : f.fits = true) : (s.addF f n).getF f = min (s.getF f + n) (2 ^ f.len - 1) := by
  unfold State.addF
  rw [State.getF_setF_same h]
  exact Nat.mod_eq_of_lt (Nat.lt_of_le_of_lt (Nat.min_le_right _ _) (Nat.sub_lt (by positivity) (by decide)))

theorem State.getF_addF_apart (h : f.fits = true) (hd : f.apart g = true) : (s.addF f n).getF g = s.getF g :=
  State.getF_setF_apart h hd

theorem State.getF_lt : s.getF f < 2 ^ f.len := Nat.mod_lt _ (by positivity)

theorem State.getF_subF_same (h : f.fits = true) : (s.subF f n).getF f = s.getF f - n := by
  unfold State.subF
  rw [State.getF_setF_same h]
  exact Nat.mod_eq_of_lt (Nat.lt_of_le_of_lt (Nat.sub_le _ _) State.getF_lt)

theorem State.getF_subF_apart (h : f.fits = true) (hd : f.apart g = true) : (s.subF f n).getF g = s.getF g :=
  State.getF_setF_apart h hd

/-- Setting a field changes that field alone. -/
theorem State.onlyFields_setF (h : f.fits = true) : s.OnlyFields (s.setF f v) [f] :=
  ⟨rfl, fun _ _ hd => State.getF_setF_apart h (hd f (List.mem_singleton.mpr rfl))⟩

theorem State.onlyFields_addF (h : f.fits = true) : s.OnlyFields (s.addF f n) [f] := State.onlyFields_setF h

theorem State.onlyFields_subF (h : f.fits = true) : s.OnlyFields (s.subF f n) [f] := State.onlyFields_setF h

/-- Two changes of registers one after the other change the fields of both. -/
theorem State.OnlyFields.trans {t u : State} {fs gs : List Fld} (h1 : s.OnlyFields t fs) (h2 : t.OnlyFields u gs) :
    s.OnlyFields u (fs ++ gs) := by
  refine ⟨?_, fun g hg hd => ?_⟩
  · have e := h2.rest
    rw [h1.rest] at e
    exact e
  · rw [h2.apart g hg (fun f hf => hd f (by simp [hf])), h1.apart g hg (fun f hf => hd f (by simp [hf]))]

end Sys2Proof.Machine
end

