-- ==== Sys2Proof/Laws/Follows.lean ====
section
/-! SUPPORT. What follows a state (State.Follows): the relation, how it goes through the shapes that the operations are made
of, and the operations on which all others rest. -/

namespace Sys2Proof.Machine

variable {s0 s t : State}

theorem State.Follows.refl (s : State) : s.Follows s := ⟨id, rfl, Nat.le_refl _⟩

theorem State.Follows.trans (h : s0.Follows s) (g : s.Follows t) : s0.Follows t :=
  ⟨fun c => g.canonical (h.canonical c), g.pending.trans h.pending, Nat.le_trans h.drawn g.drawn⟩

/-! ## Shapes -/

theorem State.Follows.ite {c : Prop} [Decidable c] (h : s0.Follows s) (g : s0.Follows t) : s0.Follows (if c then s else t) := by
  split
  · exact h
  · exact g

theorem State.Follows.foldl {A : Type} {l : List A} {f : State → A → State} (h : s0.Follows s)
    (hf : ∀ t x, s0.Follows t → s0.Follows (f t x)) : s0.Follows (l.foldl f s) := by
  induction l generalizing s with
  | nil => exact h
  | cons x r ih => exact ih (hf s x h)

theorem State.Follows.foldl_fst {A B : Type} {l : List A} {x : State × B} {f : State × B → A → State × B} (h : s0.Follows x.1)
    (hf : ∀ t x, s0.Follows t.1 → s0.Follows (f t x).1) : s0.Follows (l.foldl f x).1 := by
  induction l generalizing x with
  | nil => exact h
  | cons y r ih => exact ih (hf x y h)

theorem State.Follows.getD {o : Option State} (h : ∀ t, o = some t → s0.Follows t) (hs : s0.Follows s) : s0.Follows (o.getD s) := by
  cases o with
  | none => exact hs
  | some t => exact h t rfl

/-! ## Fields that neither hold a table nor count -/

theorem State.follows_retired (h : s0.Follows s) (x : List Nat) : s0.Follows { s with retired := x } := ⟨h.canonical, h.pending, h.drawn⟩
theorem State.follows_held (h : s0.Follows s) (x : List HeldWrite) : s0.Follows { s with held := x } := ⟨h.canonical, h.pending, h.drawn⟩
theorem State.follows_moves (h : s0.Follows s) (x : List Move) : s0.Follows { s with moves := x } := ⟨h.canonical, h.pending, h.drawn⟩
theorem State.follows_prefq (h : s0.Follows s) (x : List PrefReq) : s0.Follows { s with prefq := x } := ⟨h.canonical, h.pending, h.drawn⟩
theorem State.follows_rampReq (h : s0.Follows s) (x : List (Nat × Nat)) : s0.Follows { s with rampReq := x } := ⟨h.canonical, h.pending, h.drawn⟩
theorem State.follows_rampHold (h : s0.Follows s) (x : List Nat) : s0.Follows { s with rampHold := x } := ⟨h.canonical, h.pending, h.drawn⟩
theorem State.follows_sliceReqs (h : s0.Follows s) (x : List (Nat × SortReq)) : s0.Follows { s with sliceReqs := x } := ⟨h.canonical, h.pending, h.drawn⟩
theorem State.follows_samples (h : s0.Follows s) (x : List Sample) : s0.Follows { s with samples := x } := ⟨h.canonical, h.pending, h.drawn⟩
theorem State.follows_events (h : s0.Follows s) (x : List Event) : s0.Follows { s with events := x } := ⟨h.canonical, h.pending, h.drawn⟩
theorem State.follows_replies (h : s0.Follows s) (x : List Reply) : s0.Follows { s with replies := x } := ⟨h.canonical, h.pending, h.drawn⟩
theorem State.follows_peer (h : s0.Follows s) (x : List PeerMsg) : s0.Follows { s with peer := x } := ⟨h.canonical, h.pending, h.drawn⟩
theorem State.follows_power (h : s0.Follows s) (x : Power) : s0.Follows { s with power := x } := ⟨h.canonical, h.pending, h.drawn⟩
theorem State.follows_security (h : s0.Follows s) (x : Security) : s0.Follows { s with security := x } := ⟨h.canonical, h.pending, h.drawn⟩
theorem State.follows_jtag (h : s0.Follows s) (x : Jtag) : s0.Follows { s with jtag := x } := ⟨h.canonical, h.pending, h.drawn⟩
theorem State.follows_noVaux (h : s0.Follows s) (x : Bool) : s0.Follows { s with noVaux := x } := ⟨h.canonical, h.pending, h.drawn⟩
theorem State.follows_optics (h : s0.Follows s) (x : Optics) : s0.Follows { s with optics := x } := ⟨h.canonical, h.pending, h.drawn⟩
theorem State.follows_wire (h : s0.Follows s) (x : List WireFrame) : s0.Follows { s with wire := x } := ⟨h.canonical, h.pending, h.drawn⟩
theorem State.follows_early (h : s0.Follows s) (x : List EarlyChunk) : s0.Follows { s with early := x } := ⟨h.canonical, h.pending, h.drawn⟩
theorem State.follows_ops (h : s0.Follows s) (x : List PftOp) : s0.Follows { s with ops := x } := ⟨h.canonical, h.pending, h.drawn⟩
theorem State.follows_posted (h : s0.Follows s) (x : Nat) : s0.Follows { s with posted := x } := ⟨h.canonical, h.pending, h.drawn⟩
theorem State.follows_fatal (h : s0.Follows s) (x : Bool) : s0.Follows { s with fatal := x } := ⟨h.canonical, h.pending, h.drawn⟩
theorem State.follows_partFatal (h : s0.Follows s) (x : List Nat) : s0.Follows { s with partFatal := x } := ⟨h.canonical, h.pending, h.drawn⟩
theorem State.follows_deadDies (h : s0.Follows s) (x : List Nat) : s0.Follows { s with deadDies := x } := ⟨h.canonical, h.pending, h.drawn⟩
theorem State.follows_satFlags (h : s0.Follows s) (x : List SatFlag) : s0.Follows { s with satFlags := x } := ⟨h.canonical, h.pending, h.drawn⟩

/-- Drawing free values goes on, never back. -/
theorem State.follows_drawn_of (h : s0.Follows s) (x : Nat) (hx : s0.drawn ≤ x) : s0.Follows { s with drawn := x } :=
  ⟨h.canonical, h.pending, hx⟩

theorem State.follows_drawn (h : s0.Follows s) (x : Nat) (hx : s.drawn ≤ x) : s0.Follows { s with drawn := x } :=
  State.follows_drawn_of h x (Nat.le_trans h.drawn hx)

/-! ## What the canonical form says of each table -/

theorem State.canonical_mem (c : s.canonical = true) : SMap.wf memDefault s.mem = true := by
  simp only [State.canonical, Memory.wf, Bool.and_eq_true] at c
  simp only [c]

theorem State.canonical_csr (c : s.canonical = true) : SMap.wf Csr.reset s.csr = true := by
  simp only [State.canonical, Memory.wf, Bool.and_eq_true] at c
  simp only [c]

theorem State.canonical_cls (c : s.canonical = true) : SMap.wf (fun _ => Classroom.idle) s.cls = true := by
  simp only [State.canonical, Memory.wf, Bool.and_eq_true] at c
  simp only [c]

theorem State.canonical_ctxs (c : s.canonical = true) : SMap.wf (fun _ => Ctx.closed) s.ctxs = true := by
  simp only [State.canonical, Memory.wf, Bool.and_eq_true] at c
  simp only [c]

theorem State.canonical_bars (c : s.canonical = true) : SMap.wf (fun _ => Barrier.empty) s.bars = true := by
  simp only [State.canonical, Memory.wf, Bool.and_eq_true] at c
  simp only [c]

theorem State.canonical_snaps (c : s.canonical = true) : SMap.wf (fun _ => Snap.none) s.snaps = true := by
  simp only [State.canonical, Memory.wf, Bool.and_eq_true] at c
  simp only [c]

theorem State.canonical_snapNums (c : s.canonical = true) : SMap.wf (fun _ => 0) s.snapNums = true := by
  simp only [State.canonical, Memory.wf, Bool.and_eq_true] at c
  simp only [c]

theorem State.canonical_objs (c : s.canonical = true) : SMap.wf (fun _ => none) s.objs = true := by
  simp only [State.canonical, Memory.wf, Bool.and_eq_true] at c
  simp only [c]

theorem State.canonical_tiles (c : s.canonical = true) : SMap.wf (fun _ => TileEntry.absent) s.tiles = true := by
  simp only [State.canonical, Memory.wf, Bool.and_eq_true] at c
  simp only [c]

theorem State.canonical_migs (c : s.canonical = true) : SMap.wf (fun _ => MigQueue.empty) s.migs = true := by
  simp only [State.canonical, Memory.wf, Bool.and_eq_true] at c
  simp only [c]

theorem State.canonical_sorters (c : s.canonical = true) : SMap.wf (fun _ => Sorter.empty) s.sorters = true := by
  simp only [State.canonical, Memory.wf, Bool.and_eq_true] at c
  simp only [c]

theorem State.canonical_latches (c : s.canonical = true) : SMap.wf (fun _ => 0) s.latches = true := by
  simp only [State.canonical, Memory.wf, Bool.and_eq_true] at c
  simp only [c]

theorem State.canonical_ringTimer (c : s.canonical = true) : SMap.wf (fun _ => RingTimer.quiet) s.ringTimer = true := by
  simp only [State.canonical, Memory.wf, Bool.and_eq_true] at c
  simp only [c]

theorem State.canonical_nis (c : s.canonical = true) : SMap.wf (fun _ => NiPort.down) s.nis = true := by
  simp only [State.canonical, Memory.wf, Bool.and_eq_true] at c
  simp only [c]

theorem State.canonical_groups (c : s.canonical = true) : SMap.wf (fun _ => none) s.groups = true := by
  simp only [State.canonical, Memory.wf, Bool.and_eq_true] at c
  simp only [c]

theorem State.canonical_linkTimer (c : s.canonical = true) : SMap.wf (fun _ => RingTimer.quiet) s.linkTimer = true := by
  simp only [State.canonical, Memory.wf, Bool.and_eq_true] at c
  simp only [c]

theorem State.canonical_withheld (c : s.canonical = true) : SMap.wf (fun _ => 0) s.withheld = true := by
  simp only [State.canonical, Memory.wf, Bool.and_eq_true] at c
  simp only [c]

/-! ## Tables -/

theorem State.follows_csr (h : s0.Follows s) (x : SMap Word) (hx : s.canonical = true → SMap.wf Csr.reset x = true) :
    s0.Follows { s with csr := x } :=
  ⟨fun c => by have a := h.canonical c; have b := hx a; simp only [State.canonical, Memory.wf, Bool.and_eq_true] at a b ⊢; simp_all only [and_self], h.pending, h.drawn⟩

theorem State.follows_mem (h : s0.Follows s) (x : List Host.Cell) (hx : s.canonical = true → SMap.wf memDefault x = true) :
    s0.Follows { s with mem := x } :=
  ⟨fun c => by have a := h.canonical c; have b := hx a; simp only [State.canonical, Memory.wf, Bool.and_eq_true] at a b ⊢; simp_all only [and_self], h.pending, h.drawn⟩

theorem State.follows_cls (h : s0.Follows s) (x : SMap Classroom) (hx : s.canonical = true → SMap.wf (fun _ => Classroom.idle) x = true) :
    s0.Follows { s with cls := x } :=
  ⟨fun c => by have a := h.canonical c; have b := hx a; simp only [State.canonical, Memory.wf, Bool.and_eq_true] at a b ⊢; simp_all only [and_self], h.pending, h.drawn⟩

theorem State.follows_ctxs (h : s0.Follows s) (x : SMap Ctx) (hx : s.canonical = true → SMap.wf (fun _ => Ctx.closed) x = true) :
    s0.Follows { s with ctxs := x } :=
  ⟨fun c => by have a := h.canonical c; have b := hx a; simp only [State.canonical, Memory.wf, Bool.and_eq_true] at a b ⊢; simp_all only [and_self], h.pending, h.drawn⟩

theorem State.follows_bars (h : s0.Follows s) (x : SMap Barrier) (hx : s.canonical = true → SMap.wf (fun _ => Barrier.empty) x = true) :
    s0.Follows { s with bars := x } :=
  ⟨fun c => by have a := h.canonical c; have b := hx a; simp only [State.canonical, Memory.wf, Bool.and_eq_true] at a b ⊢; simp_all only [and_self], h.pending, h.drawn⟩

theorem State.follows_snaps (h : s0.Follows s) (x : SMap Snap) (hx : s.canonical = true → SMap.wf (fun _ => Snap.none) x = true) :
    s0.Follows { s with snaps := x } :=
  ⟨fun c => by have a := h.canonical c; have b := hx a; simp only [State.canonical, Memory.wf, Bool.and_eq_true] at a b ⊢; simp_all only [and_self], h.pending, h.drawn⟩

theorem State.follows_snapNums (h : s0.Follows s) (x : SMap Nat) (hx : s.canonical = true → SMap.wf (fun _ => 0) x = true) :
    s0.Follows { s with snapNums := x } :=
  ⟨fun c => by have a := h.canonical c; have b := hx a; simp only [State.canonical, Memory.wf, Bool.and_eq_true] at a b ⊢; simp_all only [and_self], h.pending, h.drawn⟩

theorem State.follows_objs (h : s0.Follows s) (x : SMap (Option Obj)) (hx : s.canonical = true → SMap.wf (fun _ => none) x = true) :
    s0.Follows { s with objs := x } :=
  ⟨fun c => by have a := h.canonical c; have b := hx a; simp only [State.canonical, Memory.wf, Bool.and_eq_true] at a b ⊢; simp_all only [and_self], h.pending, h.drawn⟩

theorem State.follows_tiles (h : s0.Follows s) (x : SMap TileEntry) (hx : s.canonical = true → SMap.wf (fun _ => TileEntry.absent) x = true) :
    s0.Follows { s with tiles := x } :=
  ⟨fun c => by have a := h.canonical c; have b := hx a; simp only [State.canonical, Memory.wf, Bool.and_eq_true] at a b ⊢; simp_all only [and_self], h.pending, h.drawn⟩

theorem State.follows_migs (h : s0.Follows s) (x : SMap MigQueue) (hx : s.canonical = true → SMap.wf (fun _ => MigQueue.empty) x = true) :
    s0.Follows { s with migs := x } :=
  ⟨fun c => by have a := h.canonical c; have b := hx a; simp only [State.canonical, Memory.wf, Bool.and_eq_true] at a b ⊢; simp_all only [and_self], h.pending, h.drawn⟩

theorem State.follows_sorters (h : s0.Follows s) (x : SMap Sorter) (hx : s.canonical = true → SMap.wf (fun _ => Sorter.empty) x = true) :
    s0.Follows { s with sorters := x } :=
  ⟨fun c => by have a := h.canonical c; have b := hx a; simp only [State.canonical, Memory.wf, Bool.and_eq_true] at a b ⊢; simp_all only [and_self], h.pending, h.drawn⟩

theorem State.follows_latches (h : s0.Follows s) (x : SMap Nat) (hx : s.canonical = true → SMap.wf (fun _ => 0) x = true) :
    s0.Follows { s with latches := x } :=
  ⟨fun c => by have a := h.canonical c; have b := hx a; simp only [State.canonical, Memory.wf, Bool.and_eq_true] at a b ⊢; simp_all only [and_self], h.pending, h.drawn⟩

theorem State.follows_ringTimer (h : s0.Follows s) (x : SMap RingTimer) (hx : s.canonical = true → SMap.wf (fun _ => RingTimer.quiet) x = true) :
    s0.Follows { s with ringTimer := x } :=
  ⟨fun c => by have a := h.canonical c; have b := hx a; simp only [State.canonical, Memory.wf, Bool.and_eq_true] at a b ⊢; simp_all only [and_self], h.pending, h.drawn⟩

theorem State.follows_nis (h : s0.Follows s) (x : SMap NiPort) (hx : s.canonical = true → SMap.wf (fun _ => NiPort.down) x = true) :
    s0.Follows { s with nis := x } :=
  ⟨fun c => by have a := h.canonical c; have b := hx a; simp only [State.canonical, Memory.wf, Bool.and_eq_true] at a b ⊢; simp_all only [and_self], h.pending, h.drawn⟩

theorem State.follows_groups (h : s0.Follows s) (x : SMap (Option Group)) (hx : s.canonical = true → SMap.wf (fun _ => none) x = true) :
    s0.Follows { s with groups := x } :=
  ⟨fun c => by have a := h.canonical c; have b := hx a; simp only [State.canonical, Memory.wf, Bool.and_eq_true] at a b ⊢; simp_all only [and_self], h.pending, h.drawn⟩

theorem State.follows_linkTimer (h : s0.Follows s) (x : SMap RingTimer) (hx : s.canonical = true → SMap.wf (fun _ => RingTimer.quiet) x = true) :
    s0.Follows { s with linkTimer := x } :=
  ⟨fun c => by have a := h.canonical c; have b := hx a; simp only [State.canonical, Memory.wf, Bool.and_eq_true] at a b ⊢; simp_all only [and_self], h.pending, h.drawn⟩

theorem State.follows_withheld (h : s0.Follows s) (x : SMap Nat) (hx : s.canonical = true → SMap.wf (fun _ => 0) x = true) :
    s0.Follows { s with withheld := x } :=
  ⟨fun c => by have a := h.canonical c; have b := hx a; simp only [State.canonical, Memory.wf, Bool.and_eq_true] at a b ⊢; simp_all only [and_self], h.pending, h.drawn⟩

end Sys2Proof.Machine
end

