-- ==== Sys2Proof/Laws/FollowsOps.lean ====
section
/-! SUPPORT. What the operations of Machine/Ops.lean do to the queue, to the canonical form and to the count of free values:
their result follows the state that they are given. -/

namespace Sys2Proof.Machine

theorem State.wr_follows {s0 s : State} (h : s0.Follows s) (a : Nat) (w : Word) : s0.Follows (s.wr a w) := by
  unfold State.wr
  repeat' (first | intro _ | with_reducible assumption | with_reducible apply State.Follows.ite
                 | with_reducible apply State.Follows.foldl | with_reducible apply State.Follows.foldl_fst | split
                 | dsimp only | refine State.follows_csr ?_ _ (fun c => SMap.wf_put (State.canonical_csr c))
                 | refine State.follows_csr ?_ _ (fun c => SMap.wf_filter _ (State.canonical_csr c)))

theorem State.setF_follows {s0 s : State} (h : s0.Follows s) (f : Fld) (v : Nat) : s0.Follows (s.setF f v) := by
  unfold State.setF
  repeat' (first | intro _ | with_reducible assumption | with_reducible apply State.wr_follows
                 | with_reducible apply State.Follows.ite | with_reducible apply State.Follows.foldl
                 | with_reducible apply State.Follows.foldl_fst | split | dsimp only)

theorem State.addF_follows {s0 s : State} (h : s0.Follows s) (f : Fld) (n : Nat) : s0.Follows (s.addF f n) := by
  unfold State.addF
  repeat' (first | intro _ | with_reducible assumption | with_reducible apply State.setF_follows
                 | with_reducible apply State.Follows.ite | with_reducible apply State.Follows.foldl
                 | with_reducible apply State.Follows.foldl_fst | split | dsimp only)

theorem State.subF_follows {s0 s : State} (h : s0.Follows s) (f : Fld) (n : Nat) : s0.Follows (s.subF f n) := by
  unfold State.subF
  repeat' (first | intro _ | with_reducible assumption | with_reducible apply State.setF_follows
                 | with_reducible apply State.Follows.ite | with_reducible apply State.Follows.foldl
                 | with_reducible apply State.Follows.foldl_fst | split | dsimp only)

theorem State.setFs_follows {s0 s : State} (h : s0.Follows s) (l : List (Fld × Nat)) : s0.Follows (s.setFs l) := by
  unfold State.setFs
  repeat' (first | intro _ | with_reducible assumption | with_reducible apply State.setF_follows
                 | with_reducible apply State.Follows.ite | with_reducible apply State.Follows.foldl
                 | with_reducible apply State.Follows.foldl_fst | split | dsimp only)

theorem State.setRoom_follows {s0 s : State} (h : s0.Follows s) (c : Nat) (r : Classroom) : s0.Follows (s.setRoom c r)
    := by
  unfold State.setRoom
  repeat' (first | intro _ | with_reducible assumption | with_reducible apply State.Follows.ite
                 | with_reducible apply State.Follows.foldl | with_reducible apply State.Follows.foldl_fst | split
                 | dsimp only | refine State.follows_cls ?_ _ (fun c => SMap.wf_put (State.canonical_cls c))
                 | refine State.follows_cls ?_ _ (fun c => SMap.wf_filter _ (State.canonical_cls c)))

theorem State.draw_follows {s0 s : State} (h : s0.Follows s) (purpose : Nat) : s0.Follows (s.draw purpose).2 := by
  unfold State.draw
  repeat' (first | intro _ | with_reducible assumption | with_reducible apply State.Follows.ite
                 | with_reducible apply State.Follows.foldl | with_reducible apply State.Follows.foldl_fst | split
                 | dsimp only | refine State.follows_drawn ?_ _ (Nat.le_add_right _ _))

theorem State.setCtx_follows {s0 s : State} (h : s0.Follows s) (x : Nat) (r : Ctx) : s0.Follows (s.setCtx x r) := by
  unfold State.setCtx
  repeat' (first | intro _ | with_reducible assumption | with_reducible apply State.Follows.ite
                 | with_reducible apply State.Follows.foldl | with_reducible apply State.Follows.foldl_fst | split
                 | dsimp only | refine State.follows_ctxs ?_ _ (fun c => SMap.wf_put (State.canonical_ctxs c))
                 | refine State.follows_ctxs ?_ _ (fun c => SMap.wf_filter _ (State.canonical_ctxs c)))

theorem State.setCtxSt_follows {s0 s : State} (h : s0.Follows s) (x : Nat) (v : Nat) : s0.Follows (s.setCtxSt x v) := by
  unfold State.setCtxSt
  repeat' (first | intro _ | with_reducible assumption | with_reducible apply State.setF_follows
                 | with_reducible apply State.Follows.ite | with_reducible apply State.Follows.foldl
                 | with_reducible apply State.Follows.foldl_fst | split | dsimp only)

theorem State.setSnap_follows {s0 s : State} (h : s0.Follows s) (p : Nat) (x : Snap) : s0.Follows (s.setSnap p x) := by
  unfold State.setSnap
  repeat' (first | intro _ | with_reducible assumption | with_reducible apply State.Follows.ite
                 | with_reducible apply State.Follows.foldl | with_reducible apply State.Follows.foldl_fst | split
                 | dsimp only | refine State.follows_snaps ?_ _ (fun c => SMap.wf_put (State.canonical_snaps c))
                 | refine State.follows_snaps ?_ _ (fun c => SMap.wf_filter _ (State.canonical_snaps c)))

theorem State.poke_follows {s0 s : State} (h : s0.Follows s) (a : Nat) (b : Byte) : s0.Follows (s.poke a b) := by
  unfold State.poke
  repeat' (first | intro _ | with_reducible assumption | with_reducible apply State.Follows.ite
                 | with_reducible apply State.Follows.foldl | with_reducible apply State.Follows.foldl_fst | split
                 | dsimp only | refine State.follows_mem ?_ _ (fun c => SMap.wf_put (State.canonical_mem c))
                 | refine State.follows_mem ?_ _ (fun c => SMap.wf_filter _ (State.canonical_mem c)))

theorem State.pokeN_follows {s0 s : State} (h : s0.Follows s) (a : Nat) (bs : List Byte) : s0.Follows (s.pokeN a bs) := by
  induction bs generalizing s a with
  | nil =>
    unfold State.pokeN
    repeat' (first | intro _ | with_reducible assumption | with_reducible apply State.poke_follows
                   | with_reducible apply State.Follows.ite | with_reducible apply State.Follows.foldl
                   | with_reducible apply State.Follows.foldl_fst | split | dsimp only)
  | cons x r ih =>
    unfold State.pokeN
    repeat' (first | with_reducible apply ih | intro _ | with_reducible assumption | with_reducible apply State.poke_follows
                   | with_reducible apply State.Follows.ite | with_reducible apply State.Follows.foldl
                   | with_reducible apply State.Follows.foldl_fst | split | dsimp only)

theorem State.zeroFrame_follows {s0 s : State} (h : s0.Follows s) (a : Nat) : s0.Follows (s.zeroFrame a) := by
  unfold State.zeroFrame
  repeat' (first | intro _ | with_reducible assumption | with_reducible apply State.Follows.ite
                 | with_reducible apply State.Follows.foldl | with_reducible apply State.Follows.foldl_fst | split
                 | dsimp only | refine State.follows_mem ?_ _ (fun c => SMap.wf_put (State.canonical_mem c))
                 | refine State.follows_mem ?_ _ (fun c => SMap.wf_filter _ (State.canonical_mem c)))

theorem State.copyFrame_follows {s0 s : State} (h : s0.Follows s) (src : Nat) (dst : Nat) : s0.Follows (s.copyFrame src
    dst) := by
  unfold State.copyFrame
  repeat' (first | intro _ | with_reducible assumption | with_reducible apply State.poke_follows
                 | with_reducible apply State.zeroFrame_follows | with_reducible apply State.Follows.ite
                 | with_reducible apply State.Follows.foldl | with_reducible apply State.Follows.foldl_fst | split
                 | dsimp only)

theorem State.setObj_follows {s0 s : State} (h : s0.Follows s) (ok : Nat) (o : Option Obj) : s0.Follows (s.setObj ok o)
    := by
  unfold State.setObj
  repeat' (first | intro _ | with_reducible assumption | with_reducible apply State.Follows.ite
                 | with_reducible apply State.Follows.foldl | with_reducible apply State.Follows.foldl_fst | split
                 | dsimp only | refine State.follows_objs ?_ _ (fun c => SMap.wf_put (State.canonical_objs c))
                 | refine State.follows_objs ?_ _ (fun c => SMap.wf_filter _ (State.canonical_objs c)))

theorem State.setTile_follows {s0 s : State} (h : s0.Follows s) (tk : Nat) (e : TileEntry) : s0.Follows (s.setTile tk e)
    := by
  unfold State.setTile
  repeat' (first | intro _ | with_reducible assumption | with_reducible apply State.Follows.ite
                 | with_reducible apply State.Follows.foldl | with_reducible apply State.Follows.foldl_fst | split
                 | dsimp only | refine State.follows_tiles ?_ _ (fun c => SMap.wf_put (State.canonical_tiles c))
                 | refine State.follows_tiles ?_ _ (fun c => SMap.wf_filter _ (State.canonical_tiles c)))

theorem State.clearTag_follows {s0 s : State} (h : s0.Follows s) (c : Nat) (off : Nat) : s0.Follows (s.clearTag c off)
    := by
  unfold State.clearTag
  repeat' (first | intro _ | with_reducible assumption | with_reducible apply State.setRoom_follows
                 | with_reducible apply State.Follows.ite | with_reducible apply State.Follows.foldl
                 | with_reducible apply State.Follows.foldl_fst | split | dsimp only)

theorem State.writeByte_follows {s0 s : State} (h : s0.Follows s) (p : Nat) (dva : Nat) (b : Byte) : s0.Follows
    (s.writeByte p dva b) := by
  unfold State.writeByte
  repeat' (first | intro _ | with_reducible assumption | with_reducible apply State.clearTag_follows
                 | with_reducible apply State.poke_follows | with_reducible apply State.setTile_follows
                 | with_reducible apply State.zeroFrame_follows | with_reducible apply State.Follows.ite
                 | with_reducible apply State.Follows.foldl | with_reducible apply State.Follows.foldl_fst | split
                 | dsimp only)

theorem State.writeAll_follows {s0 s : State} (h : s0.Follows s) (p : Nat) (ws : List (Nat × Byte)) : s0.Follows
    (s.writeAll p ws) := by
  unfold State.writeAll
  repeat' (first | intro _ | with_reducible assumption | with_reducible apply State.writeByte_follows
                 | with_reducible apply State.Follows.ite | with_reducible apply State.Follows.foldl
                 | with_reducible apply State.Follows.foldl_fst | split | dsimp only)

theorem State.stall_follows {s0 s : State} (h : s0.Follows s) (src : HoldSrc) (p : Nat) (as : List Nat) : s0.Follows
    (s.stall src p as) := by
  unfold State.stall
  repeat' (first | intro _ | with_reducible assumption | with_reducible apply State.addF_follows
                 | with_reducible apply State.Follows.ite | with_reducible apply State.Follows.foldl
                 | with_reducible apply State.Follows.foldl_fst | split | dsimp only
                 | with_reducible apply State.follows_held)

theorem State.writeFrom_follows {s0 s : State} (h : s0.Follows s) (src : HoldSrc) (p : Nat) (ws : List (Nat × Byte)) :
    s0.Follows (s.writeFrom src p ws) := by
  unfold State.writeFrom
  repeat' (first | intro _ | with_reducible assumption | with_reducible apply State.addF_follows
                 | with_reducible apply State.touch_follows | with_reducible apply State.writeAll_follows
                 | with_reducible apply State.Follows.ite | with_reducible apply State.Follows.foldl
                 | with_reducible apply State.Follows.foldl_fst | split | dsimp only
                 | with_reducible apply State.follows_held)

theorem State.demandWrite_follows {s0 s : State} (h : s0.Follows s) (p : Nat) (ws : List (Nat × Byte)) : s0.Follows
    (s.demandWrite p ws) := by
  unfold State.demandWrite
  repeat' (first | intro _ | with_reducible assumption | with_reducible apply State.writeFrom_follows
                 | with_reducible apply State.Follows.ite | with_reducible apply State.Follows.foldl
                 | with_reducible apply State.Follows.foldl_fst | split | dsimp only)

theorem State.touch_follows {s0 s : State} (h : s0.Follows s) (p : Nat) (as : List Nat) : s0.Follows (s.touch p as) :=
    by
  unfold State.touch
  repeat' (first | intro _ | with_reducible assumption | with_reducible apply State.setTile_follows
                 | with_reducible apply State.Follows.ite | with_reducible apply State.Follows.foldl
                 | with_reducible apply State.Follows.foldl_fst | split | dsimp only)

theorem State.countHit_follows {s0 s : State} (h : s0.Follows s) (e : AccErr) : s0.Follows (s.countHit e) := by
  unfold State.countHit
  repeat' (first | intro _ | with_reducible assumption | with_reducible apply State.addF_follows
                 | with_reducible apply State.Follows.ite | with_reducible apply State.Follows.foldl
                 | with_reducible apply State.Follows.foldl_fst | split | dsimp only)

theorem State.sendEvent_follows {s0 s : State} (h : s0.Follows s) (e : Event) : s0.Follows (s.sendEvent e) := by
  unfold State.sendEvent
  repeat' (first | intro _ | with_reducible assumption | with_reducible apply State.addF_follows
                 | with_reducible apply State.Follows.ite | with_reducible apply State.Follows.foldl
                 | with_reducible apply State.Follows.foldl_fst | split | dsimp only
                 | with_reducible apply State.follows_events)

theorem State.writeRecWords_follows {s0 s : State} (h : s0.Follows s) (f : Nat → Nat) (bs : List Byte) : s0.Follows
    (s.writeRecWords f bs) := by
  unfold State.writeRecWords
  repeat' (first | intro _ | with_reducible assumption | with_reducible apply State.wr_follows
                 | with_reducible apply State.Follows.ite | with_reducible apply State.Follows.foldl
                 | with_reducible apply State.Follows.foldl_fst | split | dsimp only)

theorem State.ringEvent_follows {s0 s : State} (h : s0.Follows s) (ring : Nat) : s0.Follows (s.ringEvent ring) := by
  unfold State.ringEvent
  repeat' (first | intro _ | with_reducible assumption | with_reducible apply State.sendEvent_follows
                 | with_reducible apply State.Follows.ite | with_reducible apply State.Follows.foldl
                 | with_reducible apply State.Follows.foldl_fst | split | dsimp only)

theorem State.setRing_follows {s0 s : State} (h : s0.Follows s) (ring : Nat) (t : RingTimer) : s0.Follows (s.setRing
    ring t) := by
  unfold State.setRing
  repeat' (first | intro _ | with_reducible assumption | with_reducible apply State.Follows.ite
                 | with_reducible apply State.Follows.foldl | with_reducible apply State.Follows.foldl_fst | split
                 | dsimp only | refine State.follows_ringTimer ?_ _ (fun c => SMap.wf_put (State.canonical_ringTimer c))
                 | refine State.follows_ringTimer ?_ _ (fun c => SMap.wf_filter _ (State.canonical_ringTimer c)))

theorem State.notifyRing_follows {s0 s : State} (h : s0.Follows s) (ring : Nat) (sev : Nat) : s0.Follows (s.notifyRing
    ring sev) := by
  unfold State.notifyRing
  repeat' (first | intro _ | with_reducible assumption | with_reducible apply State.ringEvent_follows
                 | with_reducible apply State.setRing_follows | with_reducible apply State.Follows.ite
                 | with_reducible apply State.Follows.foldl | with_reducible apply State.Follows.foldl_fst | split
                 | dsimp only)

theorem State.devRecord_follows {s0 s : State} (h : s0.Follows s) (r : Rec) (flags : Nat) (count : Nat) : s0.Follows
    (s.devRecord r flags count) := by
  unfold State.devRecord
  repeat' (first | intro _ | with_reducible assumption | with_reducible apply State.notifyRing_follows
                 | with_reducible apply State.setF_follows | with_reducible apply State.writeRecWords_follows
                 | with_reducible apply State.Follows.ite | with_reducible apply State.Follows.foldl
                 | with_reducible apply State.Follows.foldl_fst | split | dsimp only)

theorem State.partRecord_follows {s0 s : State} (h : s0.Follows s) (p : Nat) (r : Rec) (flags : Nat) (count : Nat) :
    s0.Follows (s.partRecord p r flags count) := by
  unfold State.partRecord
  repeat' (first | intro _ | with_reducible assumption | with_reducible apply State.notifyRing_follows
                 | with_reducible apply State.setF_follows | with_reducible apply State.writeRecWords_follows
                 | with_reducible apply State.Follows.ite | with_reducible apply State.Follows.foldl
                 | with_reducible apply State.Follows.foldl_fst | split | dsimp only)

theorem State.captureFatal_follows {s0 s : State} (h : s0.Follows s) (r : Rec) : s0.Follows (s.captureFatal r) := by
  unfold State.captureFatal
  repeat' (first | intro _ | with_reducible assumption | with_reducible apply State.setFs_follows
                 | with_reducible apply State.Follows.ite | with_reducible apply State.Follows.foldl
                 | with_reducible apply State.Follows.foldl_fst | split | dsimp only)

theorem State.record_follows {s0 s : State} (h : s0.Follows s) (dev : Bool) (part : Option Nat) (r : Rec) : s0.Follows
    (s.record dev part r) := by
  unfold State.record
  repeat' (first | intro _ | with_reducible assumption | with_reducible apply State.addF_follows
                 | with_reducible apply State.devRecord_follows | with_reducible apply State.partRecord_follows
                 | with_reducible apply State.Follows.ite | with_reducible apply State.Follows.foldl
                 | with_reducible apply State.Follows.foldl_fst | split | dsimp only
                 | refine State.follows_withheld ?_ _ (fun c => SMap.wf_put (State.canonical_withheld c))
                 | refine State.follows_withheld ?_ _ (fun c => SMap.wf_filter _ (State.canonical_withheld c))
                 | with_reducible apply State.follows_held)

theorem State.withhold_follows {s0 s : State} (h : s0.Follows s) (r : Rec) : s0.Follows (s.withhold r) := by
  unfold State.withhold
  repeat' (first | intro _ | with_reducible assumption | with_reducible apply State.Follows.ite
                 | with_reducible apply State.Follows.foldl | with_reducible apply State.Follows.foldl_fst | split
                 | dsimp only | refine State.follows_withheld ?_ _ (fun c => SMap.wf_put (State.canonical_withheld c))
                 | refine State.follows_withheld ?_ _ (fun c => SMap.wf_filter _ (State.canonical_withheld c)))

theorem State.recordD_follows {s0 s : State} (h : s0.Follows s) (type : Nat) (sev : Nat) (kind : Nat) (unit : Nat)
    (detail : List (Nat × Nat)) : s0.Follows (s.recordD type sev kind unit detail) := by
  unfold State.recordD
  repeat' (first | intro _ | with_reducible assumption | with_reducible apply State.record_follows
                 | with_reducible apply State.Follows.ite | with_reducible apply State.Follows.foldl
                 | with_reducible apply State.Follows.foldl_fst | split | dsimp only)

theorem State.recordP_follows {s0 s : State} (h : s0.Follows s) (p : Option Nat) (type : Nat) (sev : Nat) (kind : Nat)
    (unit : Nat) (ctx : Nat) (addr : Nat) (detail : List (Nat × Nat)) : s0.Follows (s.recordP p type sev kind unit ctx
    addr detail) := by
  unfold State.recordP
  repeat' (first | intro _ | with_reducible assumption | with_reducible apply State.record_follows
                 | with_reducible apply State.Follows.ite | with_reducible apply State.Follows.foldl
                 | with_reducible apply State.Follows.foldl_fst | split | dsimp only)

theorem State.recordDP_follows {s0 s : State} (h : s0.Follows s) (p : Option Nat) (type : Nat) (sev : Nat) (kind : Nat)
    (unit : Nat) (detail : List (Nat × Nat)) : s0.Follows (s.recordDP p type sev kind unit detail) := by
  unfold State.recordDP
  repeat' (first | intro _ | with_reducible assumption | with_reducible apply State.record_follows
                 | with_reducible apply State.Follows.ite | with_reducible apply State.Follows.foldl
                 | with_reducible apply State.Follows.foldl_fst | split | dsimp only)

theorem State.poisonTile_follows {s0 s : State} (h : s0.Follows s) (tk : Nat) (waiters : Nat) : s0.Follows (s.poisonTile
    tk waiters) := by
  unfold State.poisonTile
  repeat' (first | intro _ | with_reducible assumption | with_reducible apply State.addF_follows
                 | with_reducible apply State.recordP_follows | with_reducible apply State.setTile_follows
                 | with_reducible apply State.Follows.ite | with_reducible apply State.Follows.foldl
                 | with_reducible apply State.Follows.foldl_fst | split | dsimp only)

end Sys2Proof.Machine
end

