-- ==== Sys2Proof/Laws/FollowsHostOps.lean ====
section
/-! SUPPORT. What the operations of Machine/HostOps.lean do to the queue, to the canonical form and to the count of free values:
their result follows the state that they are given. -/

namespace Sys2Proof.Machine

theorem State.deny_follows {s0 s : State} (h : s0.Follows s) (k : Nat) (a : Nat) (w : AccWidth) : s0.Follows (s.deny k a
    w) := by
  unfold State.deny
  repeat' (first | intro _ | with_reducible assumption | with_reducible apply State.addF_follows
                 | with_reducible apply State.setF_follows | with_reducible apply State.Follows.ite
                 | with_reducible apply State.Follows.foldl | with_reducible apply State.Follows.foldl_fst | split
                 | dsimp only)

theorem State.hostWrite_follows {s0 s : State} (h : s0.Follows s) (k : Nat) (a : Nat) (w : AccWidth) (v : Word) (act : State →
    Nat → Nat → State) (hact : ∀ t x1 x2, s0.Follows t → s0.Follows (act t x1 x2)) : s0.Follows (s.hostWrite k a w v act) :=
    by
  unfold State.hostWrite
  repeat' (first | intro _ | with_reducible assumption | with_reducible apply hact | with_reducible apply State.deny_follows
                 | with_reducible apply State.Follows.ite | with_reducible apply State.Follows.foldl
                 | with_reducible apply State.Follows.foldl_fst | split | dsimp only)

theorem State.store_follows {s0 s : State} (h : s0.Follows s) (a : Nat) (v : Nat) (m : Nat) : s0.Follows (s.store a v m)
    := by
  unfold State.store
  repeat' (first | intro _ | with_reducible assumption | with_reducible apply State.wr_follows
                 | with_reducible apply State.Follows.ite | with_reducible apply State.Follows.foldl
                 | with_reducible apply State.Follows.foldl_fst | split | dsimp only)

theorem State.storeBut_follows {s0 s : State} (h : s0.Follows s) (a : Nat) (v : Nat) (m : Nat) (fs : List Fld) :
    s0.Follows (s.storeBut a v m fs) := by
  unfold State.storeBut
  repeat' (first | intro _ | with_reducible assumption | with_reducible apply State.store_follows
                 | with_reducible apply State.Follows.ite | with_reducible apply State.Follows.foldl
                 | with_reducible apply State.Follows.foldl_fst | split | dsimp only)

theorem State.hostRead_follows {s0 s : State} (h : s0.Follows s) (k : Nat) (a : Nat) (w : AccWidth) (act : State → Nat → State
    × Word) (hact : ∀ t x1, s0.Follows t → s0.Follows (act t x1).1) : s0.Follows (s.hostRead k a w act) := by
  unfold State.hostRead
  repeat' (first | intro _ | with_reducible assumption | with_reducible apply hact | with_reducible apply State.deny_follows
                 | with_reducible apply State.Follows.ite | with_reducible apply State.Follows.foldl
                 | with_reducible apply State.Follows.foldl_fst | split | dsimp only
                 | with_reducible apply State.follows_replies)

theorem State.fetch_follows {s0 s : State} (h : s0.Follows s) (a : Nat) (m : Nat) : s0.Follows (s.fetch a m).1 := by
  unfold State.fetch
  repeat' (first | intro _ | with_reducible assumption | with_reducible apply State.wr_follows
                 | with_reducible apply State.Follows.ite | with_reducible apply State.Follows.foldl
                 | with_reducible apply State.Follows.foldl_fst | split | dsimp only)

end Sys2Proof.Machine
end

