-- ==== Sys2Proof/Laws/FollowsHostLink.lean ====
section
/-! SUPPORT. What the operations of Machine/HostLink.lean do to the queue, to the canonical form and to the count of free values:
their result follows the state that they are given. -/

namespace Sys2Proof.Machine

theorem State.setLinkT_follows {s0 s : State} (h : s0.Follows s) (src : Nat) (t : RingTimer) : s0.Follows (s.setLinkT
    src t) := by
  unfold State.setLinkT
  repeat' (first | intro _ | with_reducible assumption | with_reducible apply State.Follows.ite
                 | with_reducible apply State.Follows.foldl | with_reducible apply State.Follows.foldl_fst | split
                 | dsimp only | refine State.follows_linkTimer ?_ _ (fun c => SMap.wf_put (State.canonical_linkTimer c))
                 | refine State.follows_linkTimer ?_ _ (fun c => SMap.wf_filter _ (State.canonical_linkTimer c)))

theorem State.sendLink_follows {s0 s : State} (h : s0.Follows s) (src : Nat) : s0.Follows (s.sendLink src) := by
  unfold State.sendLink
  repeat' (first | intro _ | with_reducible assumption | with_reducible apply State.sendEvent_follows
                 | with_reducible apply State.Follows.ite | with_reducible apply State.Follows.foldl
                 | with_reducible apply State.Follows.foldl_fst | split | dsimp only)

theorem State.linkChange_follows {s0 s : State} (h : s0.Follows s) (src : Nat) : s0.Follows (s.linkChange src) := by
  unfold State.linkChange
  repeat' (first | intro _ | with_reducible assumption | with_reducible apply State.sendLink_follows
                 | with_reducible apply State.setLinkT_follows | with_reducible apply State.Follows.ite
                 | with_reducible apply State.Follows.foldl | with_reducible apply State.Follows.foldl_fst | split
                 | dsimp only)

theorem State.setHl_follows {s0 s : State} (h : s0.Follows s) (k : Nat) (st : Nat) (width : Nat) (lanes : Nat) :
    s0.Follows (s.setHl k st width lanes) := by
  unfold State.setHl
  repeat' (first | intro _ | with_reducible assumption | with_reducible apply State.setF_follows
                 | with_reducible apply State.setFs_follows | with_reducible apply State.Follows.ite
                 | with_reducible apply State.Follows.foldl | with_reducible apply State.Follows.foldl_fst | split
                 | dsimp only)

theorem State.dropInFlight_follows {s0 s : State} (h : s0.Follows s) (k : Nat) : s0.Follows (s.dropInFlight k) := by
  unfold State.dropInFlight
  repeat' (first | intro _ | with_reducible assumption | with_reducible apply State.Follows.ite
                 | with_reducible apply State.Follows.foldl | with_reducible apply State.Follows.foldl_fst | split
                 | dsimp only | with_reducible apply State.follows_held)

theorem State.zhlDown_follows {s0 s : State} (h : s0.Follows s) (k : Nat) (lanes : Nat) : s0.Follows (s.zhlDown k lanes)
    := by
  unfold State.zhlDown
  repeat' (first | intro _ | with_reducible assumption | with_reducible apply State.addF_follows
                 | with_reducible apply State.dropInFlight_follows | with_reducible apply State.linkChange_follows
                 | with_reducible apply State.recordD_follows | with_reducible apply State.setHl_follows
                 | with_reducible apply State.Follows.ite | with_reducible apply State.Follows.foldl
                 | with_reducible apply State.Follows.foldl_fst | split | dsimp only)

theorem State.zhlSetEn_follows {s0 s : State} (h : s0.Follows s) (k : Nat) (en : Bool) : s0.Follows (s.zhlSetEn k en) :=
    by
  unfold State.zhlSetEn
  repeat' (first | intro _ | with_reducible assumption | with_reducible apply State.addF_follows
                 | with_reducible apply State.dropInFlight_follows | with_reducible apply State.linkChange_follows
                 | with_reducible apply State.setHl_follows | with_reducible apply State.Follows.ite
                 | with_reducible apply State.Follows.foldl | with_reducible apply State.Follows.foldl_fst | split
                 | dsimp only)

theorem zhlCtrlWrite_follows {s0 s : State} (h : s0.Follows s) (k : Nat) (v : Nat) (m : Nat) : s0.Follows (zhlCtrlWrite
    k s v m) := by
  unfold zhlCtrlWrite
  repeat' (first | intro _ | with_reducible assumption | with_reducible apply State.store_follows
                 | with_reducible apply State.zhlSetEn_follows | with_reducible apply State.Follows.ite
                 | with_reducible apply State.Follows.foldl | with_reducible apply State.Follows.foldl_fst | split
                 | dsimp only)

theorem State.showPartition_follows {s0 s : State} (h : s0.Follows s) (p : Nat) : s0.Follows (s.showPartition p) := by
  unfold State.showPartition
  repeat' (first | intro _ | with_reducible assumption | with_reducible apply State.setF_follows
                 | with_reducible apply State.Follows.ite | with_reducible apply State.Follows.foldl
                 | with_reducible apply State.Follows.foldl_fst | split | dsimp only)

theorem sqTailWrite_follows {s0 s : State} (h : s0.Follows s) (k : Nat) (x : Nat) (v : Nat) (m : Nat) : s0.Follows
    (sqTailWrite k x s v m) := by
  unfold sqTailWrite
  repeat' (first | intro _ | with_reducible assumption | with_reducible apply State.deny_follows
                 | with_reducible apply State.setCtx_follows | with_reducible apply State.setF_follows
                 | with_reducible apply State.Follows.ite | with_reducible apply State.Follows.foldl
                 | with_reducible apply State.Follows.foldl_fst | split | dsimp only)

theorem ctxStateWrite_follows {s0 s : State} (h : s0.Follows s) (k : Nat) (x : Nat) (v : Nat) (m : Nat) : s0.Follows
    (ctxStateWrite k x s v m) := by
  unfold ctxStateWrite
  repeat' (first | intro _ | with_reducible assumption | with_reducible apply State.setF_follows
                 | with_reducible apply State.storeBut_follows | with_reducible apply State.Follows.ite
                 | with_reducible apply State.Follows.foldl | with_reducible apply State.Follows.foldl_fst | split
                 | dsimp only)

theorem State.reply_follows {s0 s : State} (h : s0.Follows s) (k : Nat) (st : ReplyStatus) (bs : List Byte) : s0.Follows
    (s.reply k st bs) := by
  unfold State.reply
  repeat' (first | intro _ | with_reducible assumption | with_reducible apply State.Follows.ite
                 | with_reducible apply State.Follows.foldl | with_reducible apply State.Follows.foldl_fst | split
                 | dsimp only | with_reducible apply State.follows_replies)

theorem State.memError_follows {s0 s : State} (h : s0.Follows s) (k : Nat) : s0.Follows (s.memError k) := by
  unfold State.memError
  repeat' (first | intro _ | with_reducible assumption | with_reducible apply State.addF_follows
                 | with_reducible apply State.reply_follows | with_reducible apply State.Follows.ite
                 | with_reducible apply State.Follows.foldl | with_reducible apply State.Follows.foldl_fst | split
                 | dsimp only)

theorem State.memRead_follows {s0 s : State} (h : s0.Follows s) (k : Nat) (p : Nat) (a : Nat) (n : Nat) : s0.Follows
    (s.memRead k p a n) := by
  unfold State.memRead
  repeat' (first | intro _ | with_reducible assumption | with_reducible apply State.countHit_follows
                 | with_reducible apply State.memError_follows | with_reducible apply State.reply_follows
                 | with_reducible apply State.touch_follows | with_reducible apply State.Follows.ite
                 | with_reducible apply State.Follows.foldl | with_reducible apply State.Follows.foldl_fst | split
                 | dsimp only)

theorem State.memWrite_follows {s0 s : State} (h : s0.Follows s) (k : Nat) (p : Nat) (a : Nat) (data : List Byte) :
    s0.Follows (s.memWrite k p a data) := by
  unfold State.memWrite
  repeat' (first | intro _ | with_reducible assumption | with_reducible apply State.countHit_follows
                 | with_reducible apply State.memError_follows | with_reducible apply State.reply_follows
                 | with_reducible apply State.writeFrom_follows | with_reducible apply State.Follows.ite
                 | with_reducible apply State.Follows.foldl | with_reducible apply State.Follows.foldl_fst | split
                 | dsimp only)

theorem State.memAccess_follows {s0 s : State} (h : s0.Follows s) (k : Nat) (p : Nat) (x : HostAcc) : s0.Follows
    (s.memAccess k p x) := by
  unfold State.memAccess
  repeat' (first | intro _ | with_reducible assumption | with_reducible apply State.memRead_follows
                 | with_reducible apply State.memWrite_follows | with_reducible apply State.Follows.ite
                 | with_reducible apply State.Follows.foldl | with_reducible apply State.Follows.foldl_fst | split
                 | dsimp only)

theorem State.queueAccess_follows {s0 s : State} (h : s0.Follows s) (k : Nat) (p : Nat) (x : HostAcc) : s0.Follows
    (s.queueAccess k p x) := by
  unfold State.queueAccess
  repeat' (first | intro _ | with_reducible assumption | with_reducible apply State.Follows.ite
                 | with_reducible apply State.Follows.foldl | with_reducible apply State.Follows.foldl_fst | split
                 | dsimp only | with_reducible apply State.follows_held)

end Sys2Proof.Machine
end

