-- ==== Sys2Proof/Laws/FollowsFrames.lean ====
section
/-! SUPPORT. What the operations of Machine/Frames.lean do to the queue, to the canonical form and to the count of free values:
their result follows the state that they are given. -/

namespace Sys2Proof.Machine

theorem State.freeSram_follows {s0 s : State} (h : s0.Follows s) (sl : Nat) : s0.Follows (s.freeSram sl).2 := by
  unfold State.freeSram
  repeat' (first | intro _ | with_reducible assumption | with_reducible apply State.draw_follows
                 | with_reducible apply State.Follows.ite | with_reducible apply State.Follows.foldl
                 | with_reducible apply State.Follows.foldl_fst | split | dsimp only)

theorem State.freeSlow_follows {s0 s : State} (h : s0.Follows s) (ch : Nat) : s0.Follows (s.freeSlow ch).2 := by
  unfold State.freeSlow
  repeat' (first | intro _ | with_reducible assumption | with_reducible apply State.draw_follows
                 | with_reducible apply State.Follows.ite | with_reducible apply State.Follows.foldl
                 | with_reducible apply State.Follows.foldl_fst | split | dsimp only)

theorem State.addSram_follows {s0 s : State} (h : s0.Follows s) (p : Nat) (n : Nat) : s0.Follows (s.addSram p n) := by
  unfold State.addSram
  repeat' (first | intro _ | with_reducible assumption | with_reducible apply State.addF_follows
                 | with_reducible apply State.Follows.ite | with_reducible apply State.Follows.foldl
                 | with_reducible apply State.Follows.foldl_fst | split | dsimp only)

theorem State.subSram_follows {s0 s : State} (h : s0.Follows s) (p : Nat) (n : Nat) : s0.Follows (s.subSram p n) := by
  unfold State.subSram
  repeat' (first | intro _ | with_reducible assumption | with_reducible apply State.subF_follows
                 | with_reducible apply State.Follows.ite | with_reducible apply State.Follows.foldl
                 | with_reducible apply State.Follows.foldl_fst | split | dsimp only)

theorem State.setMig_follows {s0 s : State} (h : s0.Follows s) (p : Nat) (q : MigQueue) : s0.Follows (s.setMig p q) :=
    by
  unfold State.setMig
  repeat' (first | intro _ | with_reducible assumption | with_reducible apply State.Follows.ite
                 | with_reducible apply State.Follows.foldl | with_reducible apply State.Follows.foldl_fst | split
                 | dsimp only | refine State.follows_migs ?_ _ (fun c => SMap.wf_put (State.canonical_migs c))
                 | refine State.follows_migs ?_ _ (fun c => SMap.wf_filter _ (State.canonical_migs c)))

theorem State.dstFailed_follows {s0 s : State} (h : s0.Follows s) (stamp : Nat) (access : Bool) : s0.Follows
    (s.dstFailed stamp access) := by
  unfold State.dstFailed
  repeat' (first | intro _ | with_reducible assumption | with_reducible apply State.Follows.ite
                 | with_reducible apply State.Follows.foldl | with_reducible apply State.Follows.foldl_fst | split
                 | dsimp only | with_reducible apply State.follows_ops)

theorem State.holdDone_follows {s0 s : State} (hf : s0.Follows s) (h : HeldWrite) (st : ReplyStatus) : s0.Follows
    (s.holdDone h st) := by
  unfold State.holdDone
  repeat' (first | intro _ | with_reducible assumption
                 | with_reducible apply State.reply_follows
                 | with_reducible apply State.queryFailed_follows | with_reducible apply State.dstFailed_follows
                 | with_reducible apply State.Follows.ite | with_reducible apply State.Follows.foldl
                 | with_reducible apply State.Follows.foldl_fst | split | dsimp only)

theorem State.retryWrite_follows {s0 s : State} (hf : s0.Follows s) (h : HeldWrite) : s0.Follows
    (s.retryWrite h) := by
  unfold State.retryWrite
  repeat' (first | intro _ | with_reducible assumption
                 | with_reducible apply State.holdDone_follows
                 | with_reducible apply State.writeAll_follows
                 | with_reducible apply State.Follows.ite | with_reducible apply State.Follows.foldl
                 | with_reducible apply State.Follows.foldl_fst | split | dsimp only
                 | with_reducible apply State.follows_held)

theorem State.retryHeld_follows {s0 s : State} (hf : s0.Follows s) (h : HeldWrite) : s0.Follows
    (s.retryHeld h) := by
  unfold State.retryHeld
  repeat' (first | intro _ | with_reducible assumption
                 | with_reducible apply State.memAccess_follows
                 | with_reducible apply State.retryWrite_follows
                 | with_reducible apply State.Follows.ite | with_reducible apply State.Follows.foldl
                 | with_reducible apply State.Follows.foldl_fst | split | dsimp only
                 | with_reducible apply State.follows_held)

theorem State.releaseHeld_follows {s0 s : State} (h : s0.Follows s) : s0.Follows s.releaseHeld := by
  unfold State.releaseHeld
  repeat' (first | intro _ | with_reducible assumption | with_reducible apply State.retryHeld_follows
                 | with_reducible apply State.Follows.ite | with_reducible apply State.Follows.foldl
                 | with_reducible apply State.Follows.foldl_fst | split | dsimp only
                 | with_reducible apply State.follows_held)

theorem State.dropSram_follows {s0 s : State} (h : s0.Follows s) (tk : Nat) : s0.Follows (s.dropSram tk) := by
  unfold State.dropSram
  repeat' (first | intro _ | with_reducible assumption | with_reducible apply State.subSram_follows
                 | with_reducible apply State.zeroFrame_follows | with_reducible apply State.Follows.ite
                 | with_reducible apply State.Follows.foldl | with_reducible apply State.Follows.foldl_fst | split
                 | dsimp only)

theorem State.toSram_follows {s0 s : State} (h : s0.Follows s) (tk : Nat) (sl : Nat) (f : Nat) : s0.Follows (s.toSram tk
    sl f) := by
  unfold State.toSram
  repeat' (first | intro _ | with_reducible assumption | with_reducible apply State.copyFrame_follows
                 | with_reducible apply State.setTile_follows | with_reducible apply State.Follows.ite
                 | with_reducible apply State.Follows.foldl | with_reducible apply State.Follows.foldl_fst | split
                 | dsimp only)

theorem State.toSlow_follows {s0 s : State} (h : s0.Follows s) (tk : Nat) : s0.Follows (s.toSlow tk) := by
  unfold State.toSlow
  repeat' (first | intro _ | with_reducible assumption | with_reducible apply State.copyFrame_follows
                 | with_reducible apply State.dropSram_follows | with_reducible apply State.setTile_follows
                 | with_reducible apply State.Follows.ite | with_reducible apply State.Follows.foldl
                 | with_reducible apply State.Follows.foldl_fst | split | dsimp only)

theorem State.evict_follows {s0 s : State} (h : s0.Follows s) (p : Nat) (tk : Nat) : s0.Follows (s.evict p tk) := by
  unfold State.evict
  repeat' (first | intro _ | with_reducible assumption | with_reducible apply State.addF_follows
                 | with_reducible apply State.toSlow_follows | with_reducible apply State.Follows.ite
                 | with_reducible apply State.Follows.foldl | with_reducible apply State.Follows.foldl_fst | split
                 | dsimp only)

theorem State.promoteFrame_follows {s0 s : State} (h : s0.Follows s) (p : Nat) (sl : Nat) (minAge : Nat) : s0.Follows
    (s.promoteFrame p sl minAge).2 := by
  unfold State.promoteFrame
  repeat' (first | intro _ | with_reducible assumption | with_reducible apply State.evict_follows
                 | with_reducible apply State.freeSram_follows | with_reducible apply State.Follows.ite
                 | with_reducible apply State.Follows.foldl | with_reducible apply State.Follows.foldl_fst | split
                 | dsimp only)

end Sys2Proof.Machine
end

