-- ==== Sys2Proof/Laws/FollowsIssue.lean ====
section
/-! SUPPORT. What the operations of Machine/Issue.lean do to the queue, to the canonical form and to the count of free values:
their result follows the state that they are given. -/

namespace Sys2Proof.Machine

theorem State.recordStop_follows {s0 s : State} (h : s0.Follows s) (c : Nat) (q : Nat) (pc : Nat) (enc : Nat) (f :
    FaultInfo) : s0.Follows (s.recordStop c q pc enc f) := by
  unfold State.recordStop
  repeat' (first | intro _ | with_reducible assumption | with_reducible apply State.setF_follows
                 | with_reducible apply State.setFs_follows | with_reducible apply State.setRoom_follows
                 | with_reducible apply State.Follows.ite | with_reducible apply State.Follows.foldl
                 | with_reducible apply State.Follows.foldl_fst | split | dsimp only)

theorem State.faultCls_follows {s0 s : State} (h : s0.Follows s) (c : Nat) (q : Nat) (pc : Nat) (enc : Nat) (f :
    FaultInfo) : s0.Follows (s.faultCls c q pc enc f) := by
  unfold State.faultCls
  repeat' (first | intro _ | with_reducible assumption | with_reducible apply State.addF_follows
                 | with_reducible apply State.recordStop_follows | with_reducible apply State.Follows.ite
                 | with_reducible apply State.Follows.foldl | with_reducible apply State.Follows.foldl_fst | split
                 | dsimp only)

theorem State.faultStart_follows {s0 s : State} (h : s0.Follows s) (c : Nat) (f : FaultInfo) : s0.Follows (s.faultStart
    c f) := by
  unfold State.faultStart
  repeat' (first | intro _ | with_reducible assumption | with_reducible apply State.draw_follows
                 | with_reducible apply State.faultCls_follows | with_reducible apply State.Follows.ite
                 | with_reducible apply State.Follows.foldl | with_reducible apply State.Follows.foldl_fst | split
                 | dsimp only)

theorem State.tokenAdd_follows {s0 s : State} (h : s0.Follows s) (c : Nat) (t : Nat) (d : Int) (q : Nat) (pc : Nat) (enc
    : Nat) : s0.Follows (s.tokenAdd c t d q pc enc) := by
  unfold State.tokenAdd
  repeat' (first | intro _ | with_reducible assumption | with_reducible apply State.faultCls_follows
                 | with_reducible apply State.setF_follows | with_reducible apply State.Follows.ite
                 | with_reducible apply State.Follows.foldl | with_reducible apply State.Follows.foldl_fst | split
                 | dsimp only)

theorem State.popHead_follows {s0 s : State} (h : s0.Follows s) (c : Nat) (q : Queue) (e : QEntry) : s0.Follows
    (s.popHead c q e) := by
  unfold State.popHead
  repeat' (first | intro _ | with_reducible assumption | with_reducible apply State.setF_follows
                 | with_reducible apply State.setRoom_follows | with_reducible apply State.tokenAdd_follows
                 | with_reducible apply State.Follows.ite | with_reducible apply State.Follows.foldl
                 | with_reducible apply State.Follows.foldl_fst | split | dsimp only)

theorem State.formSample_follows {s0 s : State} (h : s0.Follows s) (c : Nat) (q : Queue) (e : QEntry) (wait : Nat) (lat
    : Nat) (stopped : Bool) : s0.Follows (s.formSample c q e wait lat stopped) := by
  unfold State.formSample
  repeat' (first | intro _ | with_reducible assumption | with_reducible apply State.addF_follows
                 | with_reducible apply State.Follows.ite | with_reducible apply State.Follows.foldl
                 | with_reducible apply State.Follows.foldl_fst | split | dsimp only
                 | with_reducible apply State.follows_samples)

theorem State.countSample_follows {s0 s : State} (h : s0.Follows s) (c : Nat) : s0.Follows (s.countSample c).2 := by
  unfold State.countSample
  repeat' (first | intro _ | with_reducible assumption | with_reducible apply State.setRoom_follows
                 | with_reducible apply State.Follows.ite | with_reducible apply State.Follows.foldl
                 | with_reducible apply State.Follows.foldl_fst | split | dsimp only)

theorem State.sampleIssue_follows {s0 s : State} (h : s0.Follows s) (c : Nat) (q : Queue) : s0.Follows (s.sampleIssue c
    q).2 := by
  unfold State.sampleIssue
  repeat' (first | intro _ | with_reducible assumption | with_reducible apply State.countSample_follows
                 | with_reducible apply State.draw_follows | with_reducible apply State.Follows.ite
                 | with_reducible apply State.Follows.foldl | with_reducible apply State.Follows.foldl_fst | split
                 | dsimp only)

theorem State.sampleEnd_follows {s0 s : State} (h : s0.Follows s) (c : Nat) (q : Queue) (e : QEntry) (chosen : Bool)
    (wait : Nat) (stopped : Bool) : s0.Follows (s.sampleEnd c q e chosen wait stopped) := by
  unfold State.sampleEnd
  repeat' (first | intro _ | with_reducible assumption | with_reducible apply State.countSample_follows
                 | with_reducible apply State.draw_follows | with_reducible apply State.formSample_follows
                 | with_reducible apply State.Follows.ite | with_reducible apply State.Follows.foldl
                 | with_reducible apply State.Follows.foldl_fst | split | dsimp only)

theorem State.launchInsn_follows {s0 s : State} (h : s0.Follows s) (c : Nat) (q : Queue) (e : QEntry) (x : Result) :
    s0.Follows (s.launchInsn c q e x) := by
  unfold State.launchInsn
  repeat' (first | intro _ | with_reducible assumption | with_reducible apply State.sampleIssue_follows
                 | with_reducible apply State.setRoom_follows | with_reducible apply State.Follows.ite
                 | with_reducible apply State.Follows.foldl | with_reducible apply State.Follows.foldl_fst | split
                 | dsimp only)

theorem State.issueFault_follows {s0 s : State} (h : s0.Follows s) (c : Nat) (q : Queue) (e : QEntry) (f : FaultInfo) :
    s0.Follows (s.issueFault c q e f) := by
  unfold State.issueFault
  repeat' (first | intro _ | with_reducible assumption | with_reducible apply State.faultCls_follows
                 | with_reducible apply State.sampleEnd_follows | with_reducible apply State.sampleIssue_follows
                 | with_reducible apply State.Follows.ite | with_reducible apply State.Follows.foldl
                 | with_reducible apply State.Follows.foldl_fst | split | dsimp only)

theorem State.touchSources_follows {s0 s : State} (h : s0.Follows s) (c : Nat) (e : QEntry) : s0.Follows (s.touchSources
    c e) := by
  unfold State.touchSources
  repeat' (first | intro _ | with_reducible assumption | with_reducible apply State.touch_follows
                 | with_reducible apply State.Follows.ite | with_reducible apply State.Follows.foldl
                 | with_reducible apply State.Follows.foldl_fst | split | dsimp only)

theorem State.issue_follows {s0 s : State} (h : s0.Follows s) (c : Nat) (q : Queue) (op : Op) (run : QEntry → Except
    FaultInfo Result) : s0.Follows (s.issue c q op run) := by
  unfold State.issue
  repeat' (first | intro _ | with_reducible assumption | with_reducible apply State.issueFault_follows
                 | with_reducible apply State.launchInsn_follows | with_reducible apply State.popHead_follows
                 | with_reducible apply State.touchSources_follows | with_reducible apply State.Follows.ite
                 | with_reducible apply State.Follows.foldl | with_reducible apply State.Follows.foldl_fst | split
                 | dsimp only)

theorem State.signal_follows {s0 s : State} (h : s0.Follows s) (c : Nat) (q : Queue) (f : InFlight) : s0.Follows
    (s.signal c q f) := by
  unfold State.signal
  repeat' (first | intro _ | with_reducible assumption | with_reducible apply State.setF_follows
                 | with_reducible apply State.tokenAdd_follows | with_reducible apply State.Follows.ite
                 | with_reducible apply State.Follows.foldl | with_reducible apply State.Follows.foldl_fst | split
                 | dsimp only)

theorem State.raiseFlags_follows {s0 s : State} (h : s0.Follows s) (c : Nat) (eng : Nat) (pc : Nat) (f : NFlags) :
    s0.Follows (s.raiseFlags c eng pc f) := by
  unfold State.raiseFlags
  repeat' (first | intro _ | with_reducible assumption | with_reducible apply State.setF_follows
                 | with_reducible apply State.setFs_follows | with_reducible apply State.Follows.ite
                 | with_reducible apply State.Follows.foldl | with_reducible apply State.Follows.foldl_fst | split
                 | dsimp only)

theorem State.writeIfOk_follows {s0 s : State} (h : s0.Follows s) (p : Nat) (dva : Nat) (bs : List Byte) : s0.Follows
    (s.writeIfOk p dva bs) := by
  unfold State.writeIfOk
  repeat' (first | intro _ | with_reducible assumption | with_reducible apply State.countHit_follows
                 | with_reducible apply State.demandWrite_follows | with_reducible apply State.Follows.ite
                 | with_reducible apply State.Follows.foldl | with_reducible apply State.Follows.foldl_fst | split
                 | dsimp only)

theorem State.writeRing_follows {s0 s : State} (h : s0.Follows s) (p : Nat) (dva : Nat) (bs : List Byte) : s0.Follows
    (s.writeRing p dva bs) := by
  unfold State.writeRing
  repeat' (first | intro _ | with_reducible assumption | with_reducible apply State.writeIfOk_follows
                 | with_reducible apply State.Follows.ite | with_reducible apply State.Follows.foldl
                 | with_reducible apply State.Follows.foldl_fst | split | dsimp only)

theorem State.addF32_follows {s0 s : State} (h : s0.Follows s) (p : Nat) (dva : Nat) (bits : Nat) : s0.Follows (s.addF32
    p dva bits).1 := by
  unfold State.addF32
  repeat' (first | intro _ | with_reducible assumption | with_reducible apply State.writeIfOk_follows
                 | with_reducible apply State.Follows.ite | with_reducible apply State.Follows.foldl
                 | with_reducible apply State.Follows.foldl_fst | split | dsimp only)

theorem State.maxF32_follows {s0 s : State} (h : s0.Follows s) (p : Nat) (dva : Nat) (bits : Nat) : s0.Follows (s.maxF32
    p dva bits) := by
  unfold State.maxF32
  repeat' (first | intro _ | with_reducible assumption | with_reducible apply State.writeIfOk_follows
                 | with_reducible apply State.Follows.ite | with_reducible apply State.Follows.foldl
                 | with_reducible apply State.Follows.foldl_fst | split | dsimp only)

theorem State.trigger_follows {s0 s : State} (h : s0.Follows s) (ctr : Nat) (v : Nat) : s0.Follows (s.trigger ctr v) :=
    by
  unfold State.trigger
  repeat' (first | intro _ | with_reducible assumption | with_reducible apply State.setF_follows
                 | with_reducible apply State.Follows.ite | with_reducible apply State.Follows.foldl
                 | with_reducible apply State.Follows.foldl_fst | split | dsimp only)

theorem State.quizTile_follows {s0 s : State} (h : s0.Follows s) (c : Nat) (pc : Nat) (layer : Nat) (tile : Nat) (bin :
    Nat) : s0.Follows (s.quizTile c pc layer tile bin) := by
  unfold State.quizTile
  repeat' (first | intro _ | with_reducible assumption | with_reducible apply State.addF_follows
                 | with_reducible apply State.setFs_follows | with_reducible apply State.Follows.ite
                 | with_reducible apply State.Follows.foldl | with_reducible apply State.Follows.foldl_fst | split
                 | dsimp only)

theorem State.setFlagBit_follows {s0 s : State} (h : s0.Follows s) (p : Nat) (a : Nat) (b : Nat) : s0.Follows
    (s.setFlagBit p a b).1 := by
  unfold State.setFlagBit
  repeat' (first | intro _ | with_reducible assumption | with_reducible apply State.writeIfOk_follows
                 | with_reducible apply State.Follows.ite | with_reducible apply State.Follows.foldl
                 | with_reducible apply State.Follows.foldl_fst | split | dsimp only)

theorem State.markOther_follows {s0 s : State} (h : s0.Follows s) (p : Nat) (a : Nat) (b : Nat) (own : SatFlag → Bool) :
    s0.Follows (s.markOther p a b own) := by
  unfold State.markOther
  repeat' (first | intro _ | with_reducible assumption | with_reducible apply State.Follows.ite
                 | with_reducible apply State.Follows.foldl | with_reducible apply State.Follows.foldl_fst | split
                 | dsimp only | with_reducible apply State.follows_satFlags)

theorem State.noteSatFlag_follows {s0 s : State} (h : s0.Follows s) (p : Nat) (rec : Nat) (a : Nat) (b : Nat) (before :
    Bool) : s0.Follows (s.noteSatFlag p rec a b before) := by
  unfold State.noteSatFlag
  repeat' (first | intro _ | with_reducible assumption | with_reducible apply State.markOther_follows
                 | with_reducible apply State.Follows.ite | with_reducible apply State.Follows.foldl
                 | with_reducible apply State.Follows.foldl_fst | split | dsimp only
                 | with_reducible apply State.follows_satFlags)

theorem State.applyEffect_follows {s0 s : State} (h : s0.Follows s) (c : Nat) (p : Nat) (pc : Nat) (e : Effect) :
    s0.Follows (s.applyEffect c p pc e).1 := by
  unfold State.applyEffect
  repeat' (first | intro _ | with_reducible assumption | with_reducible apply State.addF32_follows
                 | with_reducible apply State.markOther_follows | with_reducible apply State.noteSatFlag_follows
                 | with_reducible apply State.quizTile_follows | with_reducible apply State.setF_follows
                 | with_reducible apply State.setFlagBit_follows | with_reducible apply State.setRoom_follows
                 | with_reducible apply State.trigger_follows | with_reducible apply State.Follows.ite
                 | with_reducible apply State.Follows.foldl | with_reducible apply State.Follows.foldl_fst | split
                 | dsimp only)

theorem State.applyEffects_follows {s0 s : State} (h : s0.Follows s) (c : Nat) (p : Nat) (pc : Nat) (es : List Effect) (f :
    NFlags) : s0.Follows (s.applyEffects c p pc es f).1 := by
  induction es generalizing s c p pc f with
  | nil =>
    unfold State.applyEffects
    repeat' (first | intro _ | with_reducible assumption | with_reducible apply State.applyEffect_follows
                   | with_reducible apply State.Follows.ite | with_reducible apply State.Follows.foldl
                   | with_reducible apply State.Follows.foldl_fst | split | dsimp only)
  | cons x r ih =>
    unfold State.applyEffects
    repeat' (first | with_reducible apply ih | intro _ | with_reducible assumption
                   | with_reducible apply State.applyEffect_follows | with_reducible apply State.Follows.ite
                   | with_reducible apply State.Follows.foldl | with_reducible apply State.Follows.foldl_fst | split
                   | dsimp only)

end Sys2Proof.Machine
end

