-- ==== Sys2Proof/Laws/FollowsParams.lean ====
section
/-! SUPPORT. What the operations of Machine/Params.lean do to the queue, to the canonical form and to the count of free values:
their result follows the state that they are given. -/

namespace Sys2Proof.Machine

theorem State.memPut_follows {s0 s : State} (h : s0.Follows s) (p : Nat) (dva : Nat) (n : Nat) (v : Nat) : s0.Follows
    (s.memPut p dva n v) := by
  unfold State.memPut
  repeat' (first | intro _ | with_reducible assumption | with_reducible apply State.writeIfOk_follows
                 | with_reducible apply State.Follows.ite | with_reducible apply State.Follows.foldl
                 | with_reducible apply State.Follows.foldl_fst | split | dsimp only)

end Sys2Proof.Machine
end

