-- ==== Sys2Proof/Laws/FollowsSatchel.lean ====
section
/-! SUPPORT. What the operations of Machine/Satchel.lean do to the queue, to the canonical form and to the count of free values:
their result follows the state that they are given. -/

namespace Sys2Proof.Machine

theorem State.setSatHead_follows {s0 s : State} (h : s0.Follows s) (c : Nat) (k : Option SatEntry) : s0.Follows
    (s.setSatHead c k) := by
  unfold State.setSatHead
  repeat' (first | intro _ | with_reducible assumption | with_reducible apply State.setFs_follows
                 | with_reducible apply State.setRoom_follows | with_reducible apply State.Follows.ite
                 | with_reducible apply State.Follows.foldl | with_reducible apply State.Follows.foldl_fst | split
                 | dsimp only)

theorem State.dropSatHead_follows {s0 s : State} (h : s0.Follows s) (c : Nat) : s0.Follows (s.dropSatHead c) := by
  unfold State.dropSatHead
  repeat' (first | intro _ | with_reducible assumption | with_reducible apply State.setRoom_follows
                 | with_reducible apply State.setSatHead_follows | with_reducible apply State.Follows.ite
                 | with_reducible apply State.Follows.foldl | with_reducible apply State.Follows.foldl_fst | split
                 | dsimp only)

theorem State.satFault_follows {s0 s : State} (h : s0.Follows s) (c : Nat) (x : SatEntry) (f : FaultInfo) : s0.Follows
    (s.satFault c x f) := by
  unfold State.satFault
  repeat' (first | intro _ | with_reducible assumption | with_reducible apply State.dropSatHead_follows
                 | with_reducible apply State.faultCls_follows | with_reducible apply State.sampleEnd_follows
                 | with_reducible apply State.Follows.ite | with_reducible apply State.Follows.foldl
                 | with_reducible apply State.Follows.foldl_fst | split | dsimp only)

theorem State.touchRecord_follows {s0 s : State} (h : s0.Follows s) (p : Nat) (base : Nat) (q : Params) : s0.Follows
    (s.touchRecord p base q) := by
  unfold State.touchRecord
  repeat' (first | intro _ | with_reducible assumption | with_reducible apply State.touch_follows
                 | with_reducible apply State.Follows.ite | with_reducible apply State.Follows.foldl
                 | with_reducible apply State.Follows.foldl_fst | split | dsimp only)

theorem State.latchPolicy_follows {s0 s : State} (h : s0.Follows s) (p : Nat) (rec : Nat) : s0.Follows (s.latchPolicy p
    rec) := by
  unfold State.latchPolicy
  repeat' (first | intro _ | with_reducible assumption | with_reducible apply State.memPut_follows
                 | with_reducible apply State.Follows.ite | with_reducible apply State.Follows.foldl
                 | with_reducible apply State.Follows.foldl_fst | split | dsimp only)

theorem State.touchRanges_follows {s0 s : State} (h : s0.Follows s) (p : Nat) (l : List (Nat × Nat × Bool)) : s0.Follows
    (s.touchRanges p l) := by
  unfold State.touchRanges
  repeat' (first | intro _ | with_reducible assumption | with_reducible apply State.touch_follows
                 | with_reducible apply State.Follows.ite | with_reducible apply State.Follows.foldl
                 | with_reducible apply State.Follows.foldl_fst | split | dsimp only)

theorem State.touchUpdate_follows {s0 s : State} (h : s0.Follows s) (c : Nat) (p : Nat) (q : Params) (m : RDesc) (g :
    RDesc) : s0.Follows (s.touchUpdate c p q m g) := by
  unfold State.touchUpdate
  repeat' (first | intro _ | with_reducible assumption | with_reducible apply State.touch_follows
                 | with_reducible apply State.Follows.ite | with_reducible apply State.Follows.foldl
                 | with_reducible apply State.Follows.foldl_fst | split | dsimp only)

theorem State.withSlots_follows {s0 s : State} (h : s0.Follows s) (c : Nat) (l : List Word) : s0.Follows (s.withSlots c
    l) := by
  unfold State.withSlots
  repeat' (first | intro _ | with_reducible assumption | with_reducible apply State.wr_follows
                 | with_reducible apply State.Follows.ite | with_reducible apply State.Follows.foldl
                 | with_reducible apply State.Follows.foldl_fst | split | dsimp only)

theorem State.holdUpdate_follows {s0 s : State} (h : s0.Follows s) (c : Nat) (x : SatEntry) (q : Params) (m g : RDesc) (u : Upd) :
    s0.Follows (s.holdUpdate c x q m g u) := by
  unfold State.holdUpdate
  dsimp only
  split
  · exact State.satFault_follows h _ _ _
  · with_reducible refine State.follows_drawn_of ?_ _ (Nat.le_succ_of_le h.drawn)
    exact State.setSatHead_follows h _ _

theorem State.startUpdate_follows {s0 s : State} (h : s0.Follows s) (c : Nat) (x : SatEntry) (m : RDesc) (g :
    RDesc) : s0.Follows (s.startUpdate c x m g) := by
  unfold State.startUpdate
  dsimp only
  split
  · exact State.satFault_follows h _ _ _
  · split
    · exact State.stall_follows h _ _ _
    · have h1 := State.latchPolicy_follows (State.touch_follows h (s.getF (Csr.clsStatus_PART c)) [x.stepRec, x.stepRec + 127])
        (s.getF (Csr.clsStatus_PART c)) x.stepRec
      generalize (s.touch (s.getF (Csr.clsStatus_PART c)) [x.stepRec, x.stepRec + 127]).latchPolicy
        (s.getF (Csr.clsStatus_PART c)) x.stepRec = s1 at h1 ⊢
      split
      · exact State.satFault_follows h1 _ _ _
      · split
        · exact State.setSatHead_follows h1 _ _
        · split
          · exact State.satFault_follows h1 _ _ _
          · exact State.holdUpdate_follows (State.touchUpdate_follows h1 _ _ _ _ _) _ _ _ _ _ _

theorem State.markFence_follows {s0 s : State} (h : s0.Follows s) (x : Nat) : s0.Follows (s.markFence x) := by
  unfold State.markFence
  repeat' (first | intro _ | with_reducible assumption | with_reducible apply State.setCtx_follows
                 | with_reducible apply State.Follows.ite | with_reducible apply State.Follows.foldl
                 | with_reducible apply State.Follows.foldl_fst | split | dsimp only)

theorem State.closeAmax_follows {s0 s : State} (h : s0.Follows s) (p : Nat) (tab : Nat) (step : Nat) (i : Nat) :
    s0.Follows (s.closeAmax p tab step i) := by
  unfold State.closeAmax
  repeat' (first | intro _ | with_reducible assumption | with_reducible apply State.memPut_follows
                 | with_reducible apply State.Follows.ite | with_reducible apply State.Follows.foldl
                 | with_reducible apply State.Follows.foldl_fst | split | dsimp only)

theorem State.closeCard_follows {s0 s : State} (h : s0.Follows s) (p : Nat) (rec : Nat) : s0.Follows (s.closeCard p rec)
    := by
  unfold State.closeCard
  repeat' (first | intro _ | with_reducible assumption | with_reducible apply State.writeIfOk_follows
                 | with_reducible apply State.Follows.ite | with_reducible apply State.Follows.foldl
                 | with_reducible apply State.Follows.foldl_fst | split | dsimp only)

theorem State.bumpBlock_follows {s0 s : State} (h : s0.Follows s) (p : Nat) (base : Nat) (n : Nat) : s0.Follows
    (s.bumpBlock p base n).1 := by
  unfold State.bumpBlock
  repeat' (first | intro _ | with_reducible assumption | with_reducible apply State.memPut_follows
                 | with_reducible apply State.Follows.ite | with_reducible apply State.Follows.foldl
                 | with_reducible apply State.Follows.foldl_fst | split | dsimp only)

theorem State.closeArea_follows {s0 s : State} (h : s0.Follows s) (c : Nat) (p : Nat) (rec : Nat) (tab : Nat) (i : Nat)
    (bump : Bool) : s0.Follows (s.closeArea c p rec tab i bump) := by
  unfold State.closeArea
  repeat' (first | intro _ | with_reducible assumption | with_reducible apply State.bumpBlock_follows
                 | with_reducible apply State.recordP_follows | with_reducible apply State.writeIfOk_follows
                 | with_reducible apply State.Follows.ite | with_reducible apply State.Follows.foldl
                 | with_reducible apply State.Follows.foldl_fst | split | dsimp only)

theorem State.closeScratch_follows {s0 s : State} (h : s0.Follows s) (p : Nat) (rec : Nat) : s0.Follows (s.closeScratch
    p rec) := by
  unfold State.closeScratch
  repeat' (first | intro _ | with_reducible assumption | with_reducible apply State.memPut_follows
                 | with_reducible apply State.writeIfOk_follows | with_reducible apply State.Follows.ite
                 | with_reducible apply State.Follows.foldl | with_reducible apply State.Follows.foldl_fst | split
                 | dsimp only)

theorem State.closeStep_follows {s0 s : State} (h : s0.Follows s) (c : Nat) (p : Nat) (rec : Nat) : s0.Follows
    (s.closeStep c p rec) := by
  unfold State.closeStep
  repeat' (first | intro _ | with_reducible assumption | with_reducible apply State.closeAmax_follows
                 | with_reducible apply State.closeArea_follows | with_reducible apply State.closeCard_follows
                 | with_reducible apply State.closeScratch_follows | with_reducible apply State.memPut_follows
                 | with_reducible apply State.recordP_follows | with_reducible apply State.Follows.ite
                 | with_reducible apply State.Follows.foldl | with_reducible apply State.Follows.foldl_fst | split
                 | dsimp only
                 | with_reducible apply State.follows_satFlags)

theorem State.leaveSatchel_follows {s0 s : State} (h : s0.Follows s) (c : Nat) (x : SatEntry) (fl : NFlags) : s0.Follows
    (s.leaveSatchel c x fl) := by
  unfold State.leaveSatchel
  repeat' (first | intro _ | with_reducible assumption | with_reducible apply State.dropSatHead_follows
                 | with_reducible apply State.raiseFlags_follows | with_reducible apply State.sampleEnd_follows
                 | with_reducible apply State.signal_follows | with_reducible apply State.Follows.ite
                 | with_reducible apply State.Follows.foldl | with_reducible apply State.Follows.foldl_fst | split
                 | dsimp only)

theorem State.landUpdate_follows {s0 s : State} (h : s0.Follows s) (c : Nat) (p : Nat) (x : SatEntry) : s0.Follows
    (s.landUpdate c p x).1 := by
  unfold State.landUpdate
  repeat' (first | intro _ | with_reducible assumption | with_reducible apply State.addF_follows
                 | with_reducible apply State.applyEffects_follows | with_reducible apply State.demandWrite_follows
                 | with_reducible apply State.maxF32_follows | with_reducible apply State.memPut_follows
                 | with_reducible apply State.Follows.ite | with_reducible apply State.Follows.foldl
                 | with_reducible apply State.Follows.foldl_fst | split | dsimp only)

theorem State.endMupd_follows {s0 s : State} (h : s0.Follows s) (c : Nat) (x : SatEntry) : s0.Follows (s.endMupd c x) :=
    by
  unfold State.endMupd
  repeat' (first | intro _ | with_reducible assumption | with_reducible apply State.closeStep_follows
                 | with_reducible apply State.landUpdate_follows | with_reducible apply State.leaveSatchel_follows
                 | with_reducible apply State.satFault_follows | with_reducible apply State.touchRanges_follows
                 | with_reducible apply State.Follows.ite | with_reducible apply State.Follows.foldl
                 | with_reducible apply State.Follows.foldl_fst | split | dsimp only)

end Sys2Proof.Machine
end

