-- ==== Sys2Proof/Laws/FollowsSorter.lean ====
section
/-! SUPPORT. What the operations of Machine/Sorter.lean do to the queue, to the canonical form and to the count of free values:
their result follows the state that they are given. -/

namespace Sys2Proof.Machine

theorem State.showTags_follows {s0 s : State} (h : s0.Follows s) (r : Requester) : s0.Follows (s.showTags r) := by
  unfold State.showTags
  repeat' (first | intro _ | with_reducible assumption | with_reducible apply State.setF_follows
                 | with_reducible apply State.setFs_follows | with_reducible apply State.Follows.ite
                 | with_reducible apply State.Follows.foldl | with_reducible apply State.Follows.foldl_fst | split
                 | dsimp only)

theorem State.setSorter_follows {s0 s : State} (h : s0.Follows s) (ch : Nat) (q : Sorter) (who : List Requester) :
    s0.Follows (s.setSorter ch q who) := by
  unfold State.setSorter
  repeat' (first | intro _ | with_reducible assumption | with_reducible apply State.setFs_follows
                 | with_reducible apply State.showTags_follows | with_reducible apply State.Follows.ite
                 | with_reducible apply State.Follows.foldl | with_reducible apply State.Follows.foldl_fst | split
                 | dsimp only | refine State.follows_sorters ?_ _ (fun c => SMap.wf_put (State.canonical_sorters c))
                 | refine State.follows_sorters ?_ _ (fun c => SMap.wf_filter _ (State.canonical_sorters c)))

theorem State.admitChannel_follows {s0 s t : State} (h : s0.Follows s) {ch : Nat} {r : SortReq} (e : s.admitChannel ch r = some t) :
    s0.Follows t := by
  unfold State.admitChannel at e
  dsimp only at e
  split at e
  · cases e
  · split at e <;> cases e
    · exact State.setSorter_follows h _ _ _
    · exact State.setSorter_follows (State.addF_follows h _ _) _ _ _

theorem State.admitSlice_follows {s0 s t : State} (h : s0.Follows s) {sl : Nat} {r : SortReq} (e : s.admitSlice sl r = some t) :
    s0.Follows t := by
  unfold State.admitSlice at e
  split at e <;> cases e
  exact State.showTags_follows (State.follows_sliceReqs h _) _

theorem State.admitTo_follows {s0 s t : State} (h : s0.Follows s) {dest : Target} {r : SortReq} (e : s.admitTo dest r = some t) :
    s0.Follows t := by
  unfold State.admitTo at e
  split at e
  · exact State.admitChannel_follows h e
  · exact State.admitSlice_follows h e

theorem State.startPrefetch_follows {s0 s : State} (h : s0.Follows s) (c : Nat) (src : Option RDesc) : s0.Follows
    (s.startPrefetch c src) := by
  unfold State.startPrefetch
  repeat' (first | intro _ | with_reducible assumption | with_reducible apply State.setRoom_follows
                 | with_reducible apply State.Follows.ite | with_reducible apply State.Follows.foldl
                 | with_reducible apply State.Follows.foldl_fst | split | dsimp only)

theorem State.endPrefetch_follows {s0 s : State} (h : s0.Follows s) (c : Nat) : s0.Follows (s.endPrefetch c) := by
  unfold State.endPrefetch
  repeat' (first | intro _ | with_reducible assumption | with_reducible apply State.addF_follows
                 | with_reducible apply State.setRoom_follows | with_reducible apply State.Follows.ite
                 | with_reducible apply State.Follows.foldl | with_reducible apply State.Follows.foldl_fst | split
                 | dsimp only)

theorem State.prefetchRequest_follows {s0 s : State} (h : s0.Follows s) (c : Nat) (dest : Target) (r : SortReq) :
    s0.Follows (s.prefetchRequest c dest r) := by
  unfold State.prefetchRequest
  repeat' (first | intro _ | with_reducible assumption | with_reducible apply State.addF_follows
                 | with_reducible refine State.admitTo_follows ?_ (by assumption)
                 | with_reducible apply State.setRoom_follows | with_reducible apply State.Follows.getD
                 | with_reducible apply State.Follows.ite | with_reducible apply State.Follows.foldl
                 | with_reducible apply State.Follows.foldl_fst | split | dsimp only)

theorem State.prefetchHit_follows {s0 s t : State} (h : s0.Follows s) {c : Fin 64} {dest : Target} {r : SortReq}
    (e : s.prefetchHit c dest r = some t) : s0.Follows t := by
  unfold State.prefetchHit at e
  split at e
  · cases e
  · split at e <;> cases e
    repeat' (first | with_reducible apply State.setRoom_follows | with_reducible apply State.addF_follows | split | assumption)

theorem State.moveDemand_follows {s0 s : State} (h : s0.Follows s) (c : Nat) (dest : Target) (r : SortReq) : s0.Follows
    (s.moveDemand c dest r) := by
  unfold State.moveDemand
  repeat' (first | intro _ | with_reducible assumption | with_reducible apply State.setRoom_follows
                 | with_reducible apply State.Follows.ite | with_reducible apply State.Follows.foldl
                 | with_reducible apply State.Follows.foldl_fst | split | dsimp only)

theorem State.request_follows {s0 s : State} (h : s0.Follows s) (dest : Target) (r : SortReq) : s0.Follows (s.request dest r) := by
  have ha (dest : Target) : s0.Follows ((s.admitTo dest r).getD s) := State.Follows.getD (fun t e => State.admitTo_follows h e) h
  have hb (dest : Target) (c : Nat) : s0.Follows (((s.admitTo dest r).map (fun t => t.moveDemand c dest r)).getD s) := by
    refine State.Follows.getD (fun t e => ?_) h
    cases hu : s.admitTo dest r with
    | none => rw [hu] at e; cases e
    | some u => rw [hu] at e; cases e; exact State.moveDemand_follows (State.admitTo_follows h hu) _ _ _
  unfold State.request
  repeat' (first | exact h | exact ha _ | exact hb _ _ | with_reducible exact State.prefetchRequest_follows h _ _ _
                 | exact State.prefetchHit_follows h (by assumption) | split | dsimp only)

theorem State.drainWrite_follows {s0 s : State} (h : s0.Follows s) (ch : Nat) (b : Nat) : s0.Follows (s.drainWrite ch b)
    := by
  unfold State.drainWrite
  repeat' (first | intro _ | with_reducible assumption | with_reducible apply State.setSorter_follows
                 | with_reducible apply State.Follows.ite | with_reducible apply State.Follows.foldl
                 | with_reducible apply State.Follows.foldl_fst | split | dsimp only)

theorem State.serveRequest_follows {s0 s : State} (h : s0.Follows s) (ch : Nat) (b : Nat) (r : SortReq) : s0.Follows
    (s.serveRequest ch b r) := by
  unfold State.serveRequest
  repeat' (first | intro _ | with_reducible assumption | with_reducible apply State.addF_follows
                 | with_reducible apply State.setSorter_follows | with_reducible apply State.Follows.ite
                 | with_reducible apply State.Follows.foldl | with_reducible apply State.Follows.foldl_fst | split
                 | dsimp only)

end Sys2Proof.Machine
end

