-- ==== Sys2Proof/Laws/FollowsMig.lean ====
section
/-! SUPPORT. What the operations of Machine/Mig.lean do to the queue, to the canonical form and to the count of free values:
their result follows the state that they are given. -/

namespace Sys2Proof.Machine

theorem State.setEntry_follows {s0 s : State} (h : s0.Follows s) (p : Nat) (e : MigEntry) : s0.Follows (s.setEntry p e)
    := by
  unfold State.setEntry
  repeat' (first | intro _ | with_reducible assumption | with_reducible apply State.setMig_follows
                 | with_reducible apply State.Follows.ite | with_reducible apply State.Follows.foldl
                 | with_reducible apply State.Follows.foldl_fst | split | dsimp only)

theorem State.endEntry_follows {s0 s : State} (h : s0.Follows s) (p : Nat) (e : MigEntry) (status : Nat) : s0.Follows
    (s.endEntry p e status) := by
  unfold State.endEntry
  repeat' (first | intro _ | with_reducible assumption | with_reducible apply State.setEntry_follows
                 | with_reducible apply State.Follows.ite | with_reducible apply State.Follows.foldl
                 | with_reducible apply State.Follows.foldl_fst | split | dsimp only)

theorem State.settleEntry_follows {s0 s : State} (h : s0.Follows s) (p : Nat) (e : MigEntry) : s0.Follows (s.settleEntry
    p e) := by
  unfold State.settleEntry
  repeat' (first | intro _ | with_reducible assumption | with_reducible apply State.endEntry_follows
                 | with_reducible apply State.setEntry_follows | with_reducible apply State.Follows.ite
                 | with_reducible apply State.Follows.foldl | with_reducible apply State.Follows.foldl_fst | split
                 | dsimp only)

theorem migTailWrite_follows {s0 s : State} (h : s0.Follows s) (p : Nat) (v : Nat) (m : Nat) : s0.Follows (migTailWrite
    p s v m) := by
  unfold migTailWrite
  repeat' (first | intro _ | with_reducible assumption | with_reducible apply State.setF_follows
                 | with_reducible apply State.Follows.ite | with_reducible apply State.Follows.foldl
                 | with_reducible apply State.Follows.foldl_fst | split | dsimp only)

theorem migBaseWrite_follows {s0 s : State} (h : s0.Follows s) (p : Nat) (cq : Bool) (v : Nat) (m : Nat) : s0.Follows
    (migBaseWrite p cq s v m) := by
  unfold migBaseWrite
  repeat' (first | intro _ | with_reducible assumption | with_reducible apply State.setF_follows
                 | with_reducible apply State.store_follows | with_reducible apply State.Follows.ite
                 | with_reducible apply State.Follows.foldl | with_reducible apply State.Follows.foldl_fst | split
                 | dsimp only)

theorem migCfgWrite_follows {s0 s : State} (h : s0.Follows s) (p : Nat) (v : Nat) (m : Nat) : s0.Follows (migCfgWrite p
    s v m) := by
  unfold migCfgWrite
  repeat' (first | intro _ | with_reducible assumption | with_reducible apply State.setF_follows
                 | with_reducible apply State.storeBut_follows | with_reducible apply State.Follows.ite
                 | with_reducible apply State.Follows.foldl | with_reducible apply State.Follows.foldl_fst | split
                 | dsimp only)

theorem State.migRead_follows {s0 s : State} (h : s0.Follows s) (p : Nat) : s0.Follows (s.migRead p) := by
  unfold State.migRead
  repeat' (first | intro _ | with_reducible assumption | with_reducible apply State.countHit_follows
                 | with_reducible apply State.setMig_follows | with_reducible apply State.touch_follows
                 | with_reducible apply State.Follows.ite | with_reducible apply State.Follows.foldl
                 | with_reducible apply State.Follows.foldl_fst | split | dsimp only)

theorem State.sendMigCq_follows {s0 s : State} (h : s0.Follows s) (p : Nat) (status : Nat) : s0.Follows (s.sendMigCq p
    status) := by
  unfold State.sendMigCq
  repeat' (first | intro _ | with_reducible assumption | with_reducible apply State.sendEvent_follows
                 | with_reducible apply State.setMig_follows | with_reducible apply State.Follows.ite
                 | with_reducible apply State.Follows.foldl | with_reducible apply State.Follows.foldl_fst | split
                 | dsimp only)

theorem State.grantSlow_follows {s0 s : State} (h : s0.Follows s) (ok : Nat) (t : Nat) (chs : List Nat) (n : Nat) : s0.Follows
    (s.grantSlow ok t chs n) := by
  induction n generalizing s ok t chs with
  | zero =>
    unfold State.grantSlow
    repeat' (first | intro _ | with_reducible assumption | with_reducible apply State.freeSlow_follows
                   | with_reducible apply State.setTile_follows | with_reducible apply State.Follows.ite
                   | with_reducible apply State.Follows.foldl | with_reducible apply State.Follows.foldl_fst | split
                   | dsimp only)
  | succ k ih =>
    unfold State.grantSlow
    repeat' (first | with_reducible apply ih | intro _ | with_reducible assumption
                   | with_reducible apply State.freeSlow_follows | with_reducible apply State.setTile_follows
                   | with_reducible apply State.Follows.ite | with_reducible apply State.Follows.foldl
                   | with_reducible apply State.Follows.foldl_fst | split | dsimp only)

theorem State.grantSram_follows {s0 s : State} (h : s0.Follows s) (ok : Nat) (t : Nat) (sls : List Nat) (n : Nat) : s0.Follows
    (s.grantSram ok t sls n) := by
  induction n generalizing s ok t sls with
  | zero =>
    unfold State.grantSram
    repeat' (first | intro _ | with_reducible assumption | with_reducible apply State.freeSram_follows
                   | with_reducible apply State.setTile_follows | with_reducible apply State.Follows.ite
                   | with_reducible apply State.Follows.foldl | with_reducible apply State.Follows.foldl_fst | split
                   | dsimp only)
  | succ k ih =>
    unfold State.grantSram
    repeat' (first | with_reducible apply ih | intro _ | with_reducible assumption
                   | with_reducible apply State.freeSram_follows | with_reducible apply State.setTile_follows
                   | with_reducible apply State.Follows.ite | with_reducible apply State.Follows.foldl
                   | with_reducible apply State.Follows.foldl_fst | split | dsimp only)

theorem State.removeTile_follows {s0 s : State} (h : s0.Follows s) (p : Nat) (ok : Nat) (t : Nat) : s0.Follows
    (s.removeTile p ok t) := by
  unfold State.removeTile
  repeat' (first | intro _ | with_reducible assumption | with_reducible apply State.dropSram_follows
                 | with_reducible apply State.setTile_follows | with_reducible apply State.subF_follows
                 | with_reducible apply State.zeroFrame_follows | with_reducible apply State.Follows.ite
                 | with_reducible apply State.Follows.foldl | with_reducible apply State.Follows.foldl_fst | split
                 | dsimp only)

theorem State.removeObj_follows {s0 s : State} (h : s0.Follows s) (p : Nat) (ok : Nat) (o : Obj) : s0.Follows
    (s.removeObj p ok o) := by
  unfold State.removeObj
  repeat' (first | intro _ | with_reducible assumption | with_reducible apply State.releaseHeld_follows
                 | with_reducible apply State.removeTile_follows | with_reducible apply State.setObj_follows
                 | with_reducible apply State.Follows.ite | with_reducible apply State.Follows.foldl
                 | with_reducible apply State.Follows.foldl_fst | split | dsimp only)

theorem State.settleDestroys_follows {s0 s : State} (h : s0.Follows s) (p : Nat) : s0.Follows (s.settleDestroys p) := by
  unfold State.settleDestroys
  repeat' (first | intro _ | with_reducible assumption | with_reducible apply State.endEntry_follows
                 | with_reducible apply State.removeObj_follows | with_reducible apply State.Follows.ite
                 | with_reducible apply State.Follows.foldl | with_reducible apply State.Follows.foldl_fst | split
                 | dsimp only)

theorem State.beginMove_follows {s0 s : State} (h : s0.Follows s) (m : Move) : s0.Follows (s.beginMove m) := by
  unfold State.beginMove
  repeat' (first | intro _ | with_reducible assumption | with_reducible apply State.addF_follows
                 | with_reducible apply State.setTile_follows | with_reducible apply State.Follows.ite
                 | with_reducible apply State.Follows.foldl | with_reducible apply State.Follows.foldl_fst | split
                 | dsimp only | with_reducible apply State.follows_moves)

theorem State.skipTile_follows {s0 s : State} (h : s0.Follows s) (p : Nat) (e : MigEntry) (t : Nat) : s0.Follows
    (s.skipTile p e t) := by
  unfold State.skipTile
  repeat' (first | intro _ | with_reducible assumption | with_reducible apply State.settleEntry_follows
                 | with_reducible apply State.Follows.ite | with_reducible apply State.Follows.foldl
                 | with_reducible apply State.Follows.foldl_fst | split | dsimp only)

theorem State.tileDone_follows {s0 s : State} (h : s0.Follows s) (p : Nat) (e : MigEntry) (t : Nat) : s0.Follows
    (s.tileDone p e t) := by
  unfold State.tileDone
  repeat' (first | intro _ | with_reducible assumption | with_reducible apply State.settleEntry_follows
                 | with_reducible apply State.Follows.ite | with_reducible apply State.Follows.foldl
                 | with_reducible apply State.Follows.foldl_fst | split | dsimp only)

theorem State.startPromote_follows {s0 s : State} (h : s0.Follows s) (p : Nat) (e : MigEntry) (t : Nat) : s0.Follows
    (s.startPromote p e t) := by
  unfold State.startPromote
  repeat' (first | intro _ | with_reducible assumption | with_reducible apply State.addSram_follows
                 | with_reducible apply State.beginMove_follows | with_reducible apply State.promoteFrame_follows
                 | with_reducible apply State.setEntry_follows | with_reducible apply State.skipTile_follows
                 | with_reducible apply State.tileDone_follows | with_reducible apply State.toSram_follows
                 | with_reducible apply State.Follows.ite | with_reducible apply State.Follows.foldl
                 | with_reducible apply State.Follows.foldl_fst | split | dsimp only)

theorem State.startDemote_follows {s0 s : State} (h : s0.Follows s) (p : Nat) (e : MigEntry) (t : Nat) : s0.Follows
    (s.startDemote p e t) := by
  unfold State.startDemote
  repeat' (first | intro _ | with_reducible assumption | with_reducible apply State.beginMove_follows
                 | with_reducible apply State.setEntry_follows | with_reducible apply State.skipTile_follows
                 | with_reducible apply State.tileDone_follows | with_reducible apply State.toSlow_follows
                 | with_reducible apply State.Follows.ite | with_reducible apply State.Follows.foldl
                 | with_reducible apply State.Follows.foldl_fst | split | dsimp only)

theorem State.countMove_follows {s0 s : State} (h : s0.Follows s) (m : Move) (moved : Bool) : s0.Follows (s.countMove m
    moved) := by
  unfold State.countMove
  repeat' (first | intro _ | with_reducible assumption | with_reducible apply State.addF_follows
                 | with_reducible apply State.settleEntry_follows | with_reducible apply State.Follows.ite
                 | with_reducible apply State.Follows.foldl | with_reducible apply State.Follows.foldl_fst | split
                 | dsimp only)

theorem State.endMove_follows {s0 s : State} (h : s0.Follows s) (m : Move) (moved : Bool) : s0.Follows (s.endMove m
    moved) := by
  unfold State.endMove
  repeat' (first | intro _ | with_reducible assumption | with_reducible apply State.countMove_follows
                 | with_reducible apply State.releaseHeld_follows | with_reducible apply State.setTile_follows
                 | with_reducible apply State.settleDestroys_follows | with_reducible apply State.subF_follows
                 | with_reducible apply State.Follows.ite | with_reducible apply State.Follows.foldl
                 | with_reducible apply State.Follows.foldl_fst | split | dsimp only
                 | with_reducible apply State.follows_moves)

theorem State.countCorrected_follows {s0 s : State} (h : s0.Follows s) (e : TileEntry) (k : Nat) : s0.Follows
    (s.countCorrected e k) := by
  unfold State.countCorrected
  repeat' (first | intro _ | with_reducible assumption | with_reducible apply State.addF_follows
                 | with_reducible apply State.Follows.ite | with_reducible apply State.Follows.foldl
                 | with_reducible apply State.Follows.foldl_fst | split | dsimp only)

theorem State.abandonMove_follows {s0 s : State} (h : s0.Follows s) (m : Move) : s0.Follows (s.abandonMove m) := by
  unfold State.abandonMove
  repeat' (first | intro _ | with_reducible assumption | with_reducible apply State.endMove_follows
                 | with_reducible apply State.setTile_follows | with_reducible apply State.subSram_follows
                 | with_reducible apply State.toSram_follows | with_reducible apply State.Follows.ite
                 | with_reducible apply State.Follows.foldl | with_reducible apply State.Follows.foldl_fst | split
                 | dsimp only)

theorem State.mapTiles_follows {s0 s : State} (h : s0.Follows s) (p : Nat) (e : MigEntry) (f : TileEntry → TileEntry) :
    s0.Follows (s.mapTiles p e f) := by
  unfold State.mapTiles
  repeat' (first | intro _ | with_reducible assumption | with_reducible apply State.setTile_follows
                 | with_reducible apply State.Follows.ite | with_reducible apply State.Follows.foldl
                 | with_reducible apply State.Follows.foldl_fst | split | dsimp only)

theorem State.queryFrom_follows {s0 s : State} (h : s0.Follows s) (p : Nat) (e : MigEntry) (i : Nat) (n : Nat) : s0.Follows
    (s.queryFrom p e i n).1 := by
  induction n generalizing s p e i with
  | zero =>
    unfold State.queryFrom
    repeat' (first | intro _ | with_reducible assumption | with_reducible apply State.countHit_follows
                   | with_reducible apply State.writeFrom_follows | with_reducible apply State.Follows.ite
                   | with_reducible apply State.Follows.foldl | with_reducible apply State.Follows.foldl_fst | split
                   | dsimp only)
  | succ k ih =>
    unfold State.queryFrom
    repeat' (first | with_reducible apply ih | intro _ | with_reducible assumption
                   | with_reducible apply State.countHit_follows | with_reducible apply State.writeAll_follows
                   | with_reducible apply State.stall_follows
                   | with_reducible apply State.Follows.ite | with_reducible apply State.Follows.foldl
                   | with_reducible apply State.Follows.foldl_fst | split | dsimp only)

theorem State.retire_follows {s0 s : State} (h : s0.Follows s) (e : TileEntry) : s0.Follows (s.retire e) := by
  unfold State.retire
  repeat' (first | intro _ | with_reducible assumption | with_reducible apply State.addF_follows
                 | with_reducible apply State.Follows.ite | with_reducible apply State.Follows.foldl
                 | with_reducible apply State.Follows.foldl_fst | split | dsimp only
                 | with_reducible apply State.follows_retired)

theorem State.leaveFrame_follows {s0 s : State} (h : s0.Follows s) (e : TileEntry) (a : Nat) : s0.Follows (s.leaveFrame
    e a) := by
  unfold State.leaveFrame
  repeat' (first | intro _ | with_reducible assumption | with_reducible apply State.zeroFrame_follows
                 | with_reducible apply State.Follows.ite | with_reducible apply State.Follows.foldl
                 | with_reducible apply State.Follows.foldl_fst | split | dsimp only)

theorem State.restoreSlow_follows {s0 s : State} (h : s0.Follows s) (p : Nat) (tk : Nat) (o : Obj) (bs : List Byte) : ∀ t,
    s.restoreSlow p tk o bs = some t → s0.Follows t := by
  intro t e
  unfold State.restoreSlow at e
  dsimp only at e
  split at e
  · cases e
  · cases e
    apply State.setTile_follows
    apply State.pokeN_follows
    split
    · exact State.subSram_follows (State.leaveFrame_follows (State.leaveFrame_follows (State.retire_follows
        (State.freeSlow_follows h _) _) _ _) _ _) _ _
    · exact State.leaveFrame_follows (State.retire_follows (State.freeSlow_follows h _) _) _ _

theorem State.restoreSram_follows {s0 s : State} (h : s0.Follows s) (p : Nat) (tk : Nat) (bs : List Byte) : ∀ t, s.restoreSram
    p tk bs = some t → s0.Follows t := by
  intro t e
  unfold State.restoreSram at e
  dsimp only at e
  split at e
  · cases e
  · split at e
    · cases e
    · cases e
      exact State.setTile_follows (State.pokeN_follows (State.leaveFrame_follows (State.retire_follows
        (State.freeSram_follows h _) _) _ _) _ _) _ _

theorem State.captureUe_follows {s0 s : State} (h : s0.Follows s) (ch : Nat) (frame : Nat) (part : Nat) (scrub : Bool) :
    s0.Follows (s.captureUe ch frame part scrub) := by
  unfold State.captureUe
  repeat' (first | intro _ | with_reducible assumption | with_reducible apply State.addF_follows
                 | with_reducible apply State.setFs_follows | with_reducible apply State.Follows.ite
                 | with_reducible apply State.Follows.foldl | with_reducible apply State.Follows.foldl_fst | split
                 | dsimp only)

theorem State.abandonTile_follows {s0 s : State} (h : s0.Follows s) (tk : Nat) : s0.Follows (s.abandonTile tk) := by
  unfold State.abandonTile
  repeat' (first | intro _ | with_reducible assumption | with_reducible apply State.abandonMove_follows
                 | with_reducible apply State.Follows.ite | with_reducible apply State.Follows.foldl
                 | with_reducible apply State.Follows.foldl_fst | split | dsimp only)

theorem State.dropWaiting_follows {s0 s : State} (h : s0.Follows s) (tk : Nat) : s0.Follows (s.dropWaiting tk) := by
  unfold State.dropWaiting
  repeat' (first | intro _ | with_reducible assumption | with_reducible apply State.setSorter_follows
                 | with_reducible apply State.showTags_follows | with_reducible apply State.Follows.ite
                 | with_reducible apply State.Follows.foldl | with_reducible apply State.Follows.foldl_fst | split
                 | dsimp only | with_reducible apply State.follows_sliceReqs)

theorem State.poisonInsn_follows {s0 s : State} (h : s0.Follows s) (c : Nat) (q : Queue) (tk : Nat) : s0.Follows
    (s.poisonInsn c q tk) := by
  unfold State.poisonInsn
  repeat' (first | intro _ | with_reducible assumption | with_reducible apply State.endPrefetch_follows
                 | with_reducible apply State.recordStop_follows | with_reducible apply State.sampleEnd_follows
                 | with_reducible apply State.setRoom_follows | with_reducible apply State.Follows.ite
                 | with_reducible apply State.Follows.foldl | with_reducible apply State.Follows.foldl_fst | split
                 | dsimp only)

theorem State.poisonMupd_follows {s0 s : State} (h : s0.Follows s) (c : Nat) (tk : Nat) : s0.Follows (s.poisonMupd c tk)
    := by
  unfold State.poisonMupd
  repeat' (first | intro _ | with_reducible assumption | with_reducible apply State.dropSatHead_follows
                 | with_reducible apply State.recordStop_follows | with_reducible apply State.sampleEnd_follows
                 | with_reducible apply State.Follows.ite | with_reducible apply State.Follows.foldl
                 | with_reducible apply State.Follows.foldl_fst | split | dsimp only)

theorem State.poisonReader_follows {s0 s : State} (h : s0.Follows s) (tk : Nat) (r : Requester) : s0.Follows
    (s.poisonReader tk r) := by
  unfold State.poisonReader
  repeat' (first | intro _ | with_reducible assumption | with_reducible apply State.poisonInsn_follows
                 | with_reducible apply State.poisonMupd_follows | with_reducible apply State.Follows.ite
                 | with_reducible apply State.Follows.foldl | with_reducible apply State.Follows.foldl_fst | split
                 | dsimp only)

theorem State.poisonWriter_follows {s0 s : State} (h : s0.Follows s) (tk : Nat) (k : HeldWrite) : s0.Follows
    (s.poisonWriter tk k) := by
  unfold State.poisonWriter
  repeat' (first | intro _ | with_reducible assumption | with_reducible apply State.poisonInsn_follows
                 | with_reducible apply State.poisonMupd_follows | with_reducible apply State.Follows.ite
                 | with_reducible apply State.Follows.foldl | with_reducible apply State.Follows.foldl_fst | split
                 | dsimp only)

theorem State.poisonNow_follows {s0 s : State} (h : s0.Follows s) (tk : Nat) : s0.Follows (s.poisonNow tk) := by
  unfold State.poisonNow
  repeat' (first | intro _ | with_reducible assumption | with_reducible apply State.abandonTile_follows
                 | with_reducible apply State.dropWaiting_follows | with_reducible apply State.poisonReader_follows
                 | with_reducible apply State.poisonTile_follows | with_reducible apply State.poisonWriter_follows
                 | with_reducible apply State.releaseHeld_follows | with_reducible apply State.Follows.ite
                 | with_reducible apply State.Follows.foldl | with_reducible apply State.Follows.foldl_fst | split
                 | dsimp only)

theorem State.poisonFrame_follows {s0 s : State} (h : s0.Follows s) (tk : Nat) (a : Nat) : s0.Follows (s.poisonFrame tk
    a) := by
  unfold State.poisonFrame
  repeat' (first | intro _ | with_reducible assumption | with_reducible apply State.poisonNow_follows
                 | with_reducible apply State.setTile_follows | with_reducible apply State.Follows.ite
                 | with_reducible apply State.Follows.foldl | with_reducible apply State.Follows.foldl_fst | split
                 | dsimp only)

theorem State.failTile_follows {s0 s : State} (h : s0.Follows s) (tk : Nat) : s0.Follows (s.failTile tk) := by
  unfold State.failTile
  repeat' (first | intro _ | with_reducible assumption | with_reducible apply State.addF_follows
                 | with_reducible apply State.captureUe_follows | with_reducible apply State.poisonFrame_follows
                 | with_reducible apply State.Follows.ite | with_reducible apply State.Follows.foldl
                 | with_reducible apply State.Follows.foldl_fst | split | dsimp only)

theorem State.failRecord_follows {s0 s : State} (h : s0.Follows s) (type : Nat) (kind : Nat) (unit : Nat) (keys : List
    Nat) (affected : List Nat) : s0.Follows (s.failRecord type kind unit keys affected) := by
  unfold State.failRecord
  repeat' (first | intro _ | with_reducible assumption | with_reducible apply State.addF_follows
                 | with_reducible apply State.devRecord_follows | with_reducible apply State.partRecord_follows
                 | with_reducible apply State.Follows.ite | with_reducible apply State.Follows.foldl
                 | with_reducible apply State.Follows.foldl_fst | split | dsimp only)

theorem State.loseClassroom_follows {s0 s : State} (h : s0.Follows s) (c : Nat) : s0.Follows (s.loseClassroom c) := by
  unfold State.loseClassroom
  have h1 : s0.Follows ({ s with rampReq := s.rampReq.filter (fun y => decide (y.2 ≠ c)), rampHold := s.rampHold.erase c } : State) :=
    ⟨h.canonical, h.pending, h.drawn⟩
  dsimp only
  generalize ({ s with rampReq := s.rampReq.filter (fun y => decide (y.2 ≠ c)), rampHold := s.rampHold.erase c } : State) = t at h1 ⊢
  split
  · exact State.recordStop_follows (State.draw_follows (State.draw_follows (State.setF_follows (State.setF_follows
      (State.setRoom_follows h1 _ _) _ _) _ _) _) _) _ _ _ _ _
  · exact State.setF_follows (State.setF_follows (State.setF_follows (State.setRoom_follows h1 _ _) _ _) _ _) _ _

theorem State.prefServe_follows {s0 s : State} (h : s0.Follows s) (r : PrefReq) : s0.Follows (s.prefServe r) := by
  unfold State.prefServe
  repeat' (first | intro _ | with_reducible assumption | with_reducible apply State.addF_follows
                 | with_reducible apply State.addSram_follows | with_reducible apply State.beginMove_follows
                 | with_reducible apply State.promoteFrame_follows | with_reducible apply State.toSram_follows
                 | with_reducible apply State.Follows.ite | with_reducible apply State.Follows.foldl
                 | with_reducible apply State.Follows.foldl_fst | split | dsimp only)

end Sys2Proof.Machine
end

