-- ==== Sys2Proof/Laws/FollowsChannel.lean ====
section
/-! SUPPORT. What the operations of Machine/Channel.lean do to the queue, to the canonical form and to the count of free values:
their result follows the state that they are given. -/

namespace Sys2Proof.Machine

theorem State.countTransfer_follows {s0 s : State} (h : s0.Follows s) (ch : Nat) (ecc : Ecc) (link : LinkEcc) :
    s0.Follows (s.countTransfer ch ecc link) := by
  unfold State.countTransfer
  repeat' (first | intro _ | with_reducible assumption | with_reducible apply State.addF_follows
                 | with_reducible apply State.Follows.ite | with_reducible apply State.Follows.foldl
                 | with_reducible apply State.Follows.foldl_fst | split | dsimp only)

theorem State.failFrameAt_follows {s0 s : State} (h : s0.Follows s) (dest : Target) (frame : Nat) (part : Nat) :
    s0.Follows (s.failFrameAt dest frame part) := by
  unfold State.failFrameAt
  repeat' (first | intro _ | with_reducible assumption | with_reducible apply State.addF_follows
                 | with_reducible apply State.captureUe_follows | with_reducible apply State.failTile_follows
                 | with_reducible apply State.Follows.ite | with_reducible apply State.Follows.foldl
                 | with_reducible apply State.Follows.foldl_fst | split | dsimp only)

theorem State.transfer_follows {s0 s : State} (h : s0.Follows s) (ch : Fin 48) (r : SortReq) (ecc : Ecc) (link :
    LinkEcc) : s0.Follows (s.transfer ch r ecc link) := by
  unfold State.transfer
  repeat' (first | intro _ | with_reducible assumption | with_reducible apply State.countTransfer_follows
                 | with_reducible apply State.failFrameAt_follows | with_reducible apply State.Follows.ite
                 | with_reducible apply State.Follows.foldl | with_reducible apply State.Follows.foldl_fst | split
                 | dsimp only)

theorem State.sliceRead_follows {s0 s : State} (h : s0.Follows s) (dest : Target) (r : SortReq) (ecc : Ecc) : s0.Follows
    (s.sliceRead dest r ecc) := by
  unfold State.sliceRead
  repeat' (first | intro _ | with_reducible assumption | with_reducible apply State.addF_follows
                 | with_reducible apply State.failFrameAt_follows | with_reducible apply State.Follows.ite
                 | with_reducible apply State.Follows.foldl | with_reducible apply State.Follows.foldl_fst | split
                 | dsimp only)

theorem State.drainBank_follows {s0 s : State} (h : s0.Follows s) (ch : Fin 48) (b : Nat) (ecc : Ecc) (link : LinkEcc) :
    s0.Follows (s.drainBank ch b ecc link) := by
  unfold State.drainBank
  repeat' (first | intro _ | with_reducible assumption | with_reducible apply State.drainWrite_follows
                 | with_reducible apply State.transfer_follows | with_reducible apply State.Follows.ite
                 | with_reducible apply State.Follows.foldl | with_reducible apply State.Follows.foldl_fst | split
                 | dsimp only)

end Sys2Proof.Machine
end

