-- ==== Sys2Proof/Laws/FollowsClock.lean ====
section
/-! SUPPORT. What the operations of Machine/Clock.lean do to the queue, to the canonical form and to the count of free values:
their result follows the state that they are given. -/

namespace Sys2Proof.Machine

theorem State.advanceTime_follows {s0 s : State} (h : s0.Follows s) : s0.Follows s.advanceTime := by
  unfold State.advanceTime
  repeat' (first | intro _ | with_reducible assumption | with_reducible apply State.wr_follows
                 | with_reducible apply State.Follows.ite | with_reducible apply State.Follows.foldl
                 | with_reducible apply State.Follows.foldl_fst | split | dsimp only)

theorem State.answerSlices_follows {s0 s : State} (h : s0.Follows s) : s0.Follows s.answerSlices := by
  unfold State.answerSlices
  split
  · exact h
  · refine State.Follows.foldl ?_ (fun _ _ g => State.showTags_follows g _)
    exact ⟨h.canonical, h.pending, Nat.le_succ_of_le h.drawn⟩

theorem State.tick_follows {s0 s : State} (h : s0.Follows s) : s0.Follows s.tick := by
  unfold State.tick
  repeat' (first | intro _ | with_reducible assumption | with_reducible apply State.advanceTime_follows
                 | with_reducible apply State.answerSlices_follows | with_reducible apply State.Follows.ite
                 | with_reducible apply State.Follows.foldl | with_reducible apply State.Follows.foldl_fst | split
                 | dsimp only)

end Sys2Proof.Machine
end

