-- ==== Sys2Proof/Laws/FollowsComplete.lean ====
section
/-! SUPPORT. What the operations of Machine/Complete.lean do to the queue, to the canonical form and to the count of free values:
their result follows the state that they are given. -/

namespace Sys2Proof.Machine

theorem State.endLoad_follows {s0 s : State} (h : s0.Follows s) (c : Nat) : s0.Follows (s.endLoad c) := by
  unfold State.endLoad
  repeat' (first | intro _ | with_reducible assumption | with_reducible apply State.setF_follows
                 | with_reducible apply State.setRoom_follows | with_reducible apply State.Follows.ite
                 | with_reducible apply State.Follows.foldl | with_reducible apply State.Follows.foldl_fst | split
                 | dsimp only)

theorem State.endStream_follows {s0 s : State} (h : s0.Follows s) (c : Nat) (n : Nat) : s0.Follows (s.endStream c n) :=
    by
  unfold State.endStream
  repeat' (first | intro _ | with_reducible assumption | with_reducible apply State.setF_follows
                 | with_reducible apply State.Follows.ite | with_reducible apply State.Follows.foldl
                 | with_reducible apply State.Follows.foldl_fst | split | dsimp only)

theorem State.quizReport_follows {s0 s : State} (h : s0.Follows s) (c : Nat) (p : Nat) (pc : Nat) (al : List (Nat × Nat
    × Nat)) : s0.Follows (s.quizReport c p pc al) := by
  unfold State.quizReport
  repeat' (first | intro _ | with_reducible assumption | with_reducible apply State.recordP_follows
                 | with_reducible apply State.setF_follows | with_reducible apply State.setRoom_follows
                 | with_reducible apply State.Follows.ite | with_reducible apply State.Follows.foldl
                 | with_reducible apply State.Follows.foldl_fst | split | dsimp only)

theorem State.finish_follows {s0 s : State} (h : s0.Follows s) (c : Nat) (q : Queue) (n : Nat) (f : InFlight) :
    s0.Follows (s.finish c q n f) := by
  unfold State.finish
  repeat' (first | intro _ | with_reducible assumption | with_reducible apply State.applyEffects_follows
                 | with_reducible apply State.demandWrite_follows | with_reducible apply State.endLoad_follows
                 | with_reducible apply State.endPrefetch_follows | with_reducible apply State.endStream_follows
                 | with_reducible apply State.faultCls_follows | with_reducible apply State.quizReport_follows
                 | with_reducible apply State.raiseFlags_follows | with_reducible apply State.sampleEnd_follows
                 | with_reducible apply State.setRoom_follows | with_reducible apply State.signal_follows
                 | with_reducible apply State.Follows.ite | with_reducible apply State.Follows.foldl
                 | with_reducible apply State.Follows.foldl_fst | split | dsimp only)

theorem State.landOrStall_follows {s0 s : State} (h : s0.Follows s) (c : Nat) (q : Queue) (n : Nat) (f : InFlight) :
    s0.Follows (s.landOrStall c q n f) := by
  unfold State.landOrStall
  repeat' (first | intro _ | with_reducible assumption | with_reducible apply State.finish_follows
                 | with_reducible apply State.stall_follows | with_reducible apply State.Follows.ite
                 | with_reducible apply State.Follows.foldl | with_reducible apply State.Follows.foldl_fst | split
                 | dsimp only)

end Sys2Proof.Machine
end

