-- ==== Sys2Proof/Laws/FollowsFrontEnd.lean ====
section
/-! SUPPORT. What the operations of Machine/FrontEnd.lean do to the queue, to the canonical form and to the count of free values:
their result follows the state that they are given. -/

namespace Sys2Proof.Machine

theorem State.setLoop_follows {s0 s : State} (h : s0.Follows s) (c : Nat) (l : Nat) (index : Nat) (count : Nat) (active
    : Bool) : s0.Follows (s.setLoop c l index count active) := by
  unfold State.setLoop
  repeat' (first | intro _ | with_reducible assumption | with_reducible apply State.setFs_follows
                 | with_reducible apply State.Follows.ite | with_reducible apply State.Follows.foldl
                 | with_reducible apply State.Follows.foldl_fst | split | dsimp only)

theorem State.loopEnd_follows {s0 s : State} (h : s0.Follows s) (c : Nat) (pc : Nat) (n : Nat) : s0.Follows (s.loopEnd c pc n)
    := by
  induction n generalizing s c pc with
  | zero =>
    unfold State.loopEnd
    repeat' (first | intro _ | with_reducible assumption | with_reducible apply State.setF_follows
                   | with_reducible apply State.setLoop_follows | with_reducible apply State.setRoom_follows
                   | with_reducible apply State.Follows.ite | with_reducible apply State.Follows.foldl
                   | with_reducible apply State.Follows.foldl_fst | split | dsimp only)
  | succ k ih =>
    unfold State.loopEnd
    repeat' (first | with_reducible apply ih | intro _ | with_reducible assumption | with_reducible apply State.setF_follows
                   | with_reducible apply State.setLoop_follows | with_reducible apply State.setRoom_follows
                   | with_reducible apply State.Follows.ite | with_reducible apply State.Follows.foldl
                   | with_reducible apply State.Follows.foldl_fst | split | dsimp only)

theorem State.openLoop_follows {s0 s : State} (h : s0.Follows s) (c : Nat) (pc : Nat) (e : Nat) : s0.Follows (s.openLoop
    c pc e) := by
  unfold State.openLoop
  repeat' (first | intro _ | with_reducible assumption | with_reducible apply State.faultCls_follows
                 | with_reducible apply State.loopEnd_follows | with_reducible apply State.setFs_follows
                 | with_reducible apply State.setLoop_follows | with_reducible apply State.setRoom_follows
                 | with_reducible apply State.Follows.ite | with_reducible apply State.Follows.foldl
                 | with_reducible apply State.Follows.foldl_fst | split | dsimp only)

theorem State.enqueue_follows {s0 s : State} (h : s0.Follows s) (c : Nat) (pc : Nat) (op : Op) (e : QEntry) : s0.Follows
    (s.enqueue c pc op e) := by
  unfold State.enqueue
  repeat' (first | intro _ | with_reducible assumption | with_reducible apply State.loopEnd_follows
                 | with_reducible apply State.setF_follows | with_reducible apply State.setRoom_follows
                 | with_reducible apply State.Follows.ite | with_reducible apply State.Follows.foldl
                 | with_reducible apply State.Follows.foldl_fst | split | dsimp only)

theorem State.stopDispatch_follows {s0 s : State} (h : s0.Follows s) (c : Nat) (pc : Nat) (e : Nat) (f : FaultInfo) :
    s0.Follows (s.stopDispatch c pc e f) := by
  unfold State.stopDispatch
  repeat' (first | intro _ | with_reducible assumption | with_reducible apply State.draw_follows
                 | with_reducible apply State.faultCls_follows | with_reducible apply State.Follows.ite
                 | with_reducible apply State.Follows.foldl | with_reducible apply State.Follows.foldl_fst | split
                 | dsimp only)

theorem State.decodeSlot_follows {s0 s : State} (h : s0.Follows s) (c : Nat) (pc : Nat) : s0.Follows (s.decodeSlot c pc)
    := by
  unfold State.decodeSlot
  repeat' (first | intro _ | with_reducible assumption | with_reducible apply State.enqueue_follows
                 | with_reducible apply State.faultCls_follows | with_reducible apply State.openLoop_follows
                 | with_reducible apply State.stopDispatch_follows | with_reducible apply State.Follows.ite
                 | with_reducible apply State.Follows.foldl | with_reducible apply State.Follows.foldl_fst | split
                 | dsimp only)

theorem State.frontEnd_follows {s0 s : State} (h : s0.Follows s) (c : Nat) (ecc : Ecc) : s0.Follows (s.frontEnd c ecc)
    := by
  unfold State.frontEnd
  repeat' (first | intro _ | with_reducible assumption | with_reducible apply State.addF_follows
                 | with_reducible apply State.decodeSlot_follows | with_reducible apply State.draw_follows
                 | with_reducible apply State.faultCls_follows | with_reducible apply State.setF_follows
                 | with_reducible apply State.Follows.ite | with_reducible apply State.Follows.foldl
                 | with_reducible apply State.Follows.foldl_fst | split | dsimp only)

end Sys2Proof.Machine
end

