-- ==== Sys2Proof/Laws/FollowsGroup.lean ====
section
/-! SUPPORT. What the operations of Machine/Group.lean do to the queue, to the canonical form and to the count of free values:
their result follows the state that they are given. -/

namespace Sys2Proof.Machine

theorem State.setGroup_follows {s0 s : State} (h : s0.Follows s) (p : Nat) (gid : Nat) (g : Option Group) : s0.Follows
    (s.setGroup p gid g) := by
  unfold State.setGroup
  repeat' (first | intro _ | with_reducible assumption | with_reducible apply State.Follows.ite
                 | with_reducible apply State.Follows.foldl | with_reducible apply State.Follows.foldl_fst | split
                 | dsimp only | refine State.follows_groups ?_ _ (fun c => SMap.wf_put (State.canonical_groups c))
                 | refine State.follows_groups ?_ _ (fun c => SMap.wf_filter _ (State.canonical_groups c)))

end Sys2Proof.Machine
end

