-- ==== Sys2Proof/Laws/FollowsLinkOps.lean ====
section
/-! SUPPORT. What the operations of Machine/LinkOps.lean do to the queue, to the canonical form and to the count of free values:
their result follows the state that they are given. -/

namespace Sys2Proof.Machine

theorem State.setNi_follows {s0 s : State} (h : s0.Follows s) (k : Nat) (n : NiPort) : s0.Follows (s.setNi k n) := by
  unfold State.setNi
  repeat' (first | intro _ | with_reducible assumption | with_reducible apply State.Follows.ite
                 | with_reducible apply State.Follows.foldl | with_reducible apply State.Follows.foldl_fst | split
                 | dsimp only | refine State.follows_nis ?_ _ (fun c => SMap.wf_put (State.canonical_nis c))
                 | refine State.follows_nis ?_ _ (fun c => SMap.wf_filter _ (State.canonical_nis c)))

theorem State.withOptics_follows {s0 s : State} (h : s0.Follows s) (f : Optics → Optics) : s0.Follows (s.withOptics f)
    := by
  unfold State.withOptics
  repeat' (first | intro _ | with_reducible assumption | with_reducible apply State.Follows.ite
                 | with_reducible apply State.Follows.foldl | with_reducible apply State.Follows.foldl_fst | split
                 | dsimp only | with_reducible apply State.follows_optics)

theorem State.hearMonitor_follows {s0 s : State} (h : s0.Follows s) (k : Nat) (b : List Byte) : s0.Follows
    (s.hearMonitor k b) := by
  unfold State.hearMonitor
  repeat' (first | intro _ | with_reducible assumption | with_reducible apply State.withOptics_follows
                 | with_reducible apply State.Follows.ite | with_reducible apply State.Follows.foldl
                 | with_reducible apply State.Follows.foldl_fst | split | dsimp only)

theorem State.bound_follows {s0 s : State} (h : s0.Follows s) (k : Nat) : s0.Follows (s.bound k) := by
  unfold State.bound
  repeat' (first | intro _ | with_reducible assumption | with_reducible apply State.record_follows
                 | with_reducible apply State.setF_follows | with_reducible apply State.setNi_follows
                 | with_reducible apply State.withhold_follows | with_reducible apply State.Follows.ite
                 | with_reducible apply State.Follows.foldl | with_reducible apply State.Follows.foldl_fst | split
                 | dsimp only | refine State.follows_drawn ?_ _ (Nat.le_add_right _ _))

theorem State.dealLanes_follows {s0 s : State} (h : s0.Follows s) (k : Nat) : s0.Follows (s.dealLanes k) := by
  unfold State.dealLanes
  repeat' (first | intro _ | with_reducible assumption | with_reducible apply State.bound_follows
                 | with_reducible apply State.setF_follows | with_reducible apply State.setNi_follows
                 | with_reducible apply State.Follows.ite | with_reducible apply State.Follows.foldl
                 | with_reducible apply State.Follows.foldl_fst | split | dsimp only)

theorem State.keepRx_follows {s0 s : State} (h : s0.Follows s) (k : Nat) (m : Nat) : s0.Follows (s.keepRx k m) := by
  unfold State.keepRx
  repeat' (first | intro _ | with_reducible assumption | with_reducible apply State.bound_follows
                 | with_reducible apply State.setF_follows | with_reducible apply State.setNi_follows
                 | with_reducible apply State.Follows.ite | with_reducible apply State.Follows.foldl
                 | with_reducible apply State.Follows.foldl_fst | split | dsimp only)

theorem State.acceptLanes_follows {s0 s : State} (h : s0.Follows s) (k : Nat) : s0.Follows (s.acceptLanes k) := by
  unfold State.acceptLanes
  repeat' (first | intro _ | with_reducible assumption | with_reducible apply State.keepRx_follows
                 | with_reducible apply State.Follows.ite | with_reducible apply State.Follows.foldl
                 | with_reducible apply State.Follows.foldl_fst | split | dsimp only)

theorem State.showCredits_follows {s0 s : State} (h : s0.Follows s) (k : Nat) : s0.Follows (s.showCredits k) := by
  unfold State.showCredits
  repeat' (first | intro _ | with_reducible assumption | with_reducible apply State.setFs_follows
                 | with_reducible apply State.Follows.ite | with_reducible apply State.Follows.foldl
                 | with_reducible apply State.Follows.foldl_fst | split | dsimp only)

theorem State.sendMsg_follows {s0 s : State} (h : s0.Follows s) (k : Nat) (cls : Nat) (data : List Byte) (fwd : Bool)
    (op : Option Nat) : s0.Follows (s.sendMsg k cls data fwd op) := by
  unfold State.sendMsg
  repeat' (first | intro _ | with_reducible assumption | with_reducible apply State.setNi_follows
                 | with_reducible apply State.Follows.ite | with_reducible apply State.Follows.foldl
                 | with_reducible apply State.Follows.foldl_fst | split | dsimp only)

theorem State.setOp_follows {s0 s : State} (h : s0.Follows s) (o : PftOp) : s0.Follows (s.setOp o) := by
  unfold State.setOp
  repeat' (first | intro _ | with_reducible assumption | with_reducible apply State.Follows.ite
                 | with_reducible apply State.Follows.foldl | with_reducible apply State.Follows.foldl_fst | split
                 | dsimp only | with_reducible apply State.follows_ops)

theorem State.pumpOut_follows {s0 s : State} (h : s0.Follows s) (o : PftOp) (out : List OutChunk) : s0.Follows (s.pumpOut o
    out).1 := by
  induction out generalizing s o with
  | nil =>
    unfold State.pumpOut
    repeat' (first | intro _ | with_reducible assumption | with_reducible apply State.addF_follows
                   | with_reducible apply State.sendMsg_follows | with_reducible apply State.Follows.ite
                   | with_reducible apply State.Follows.foldl | with_reducible apply State.Follows.foldl_fst | split
                   | dsimp only)
  | cons x r ih =>
    unfold State.pumpOut
    repeat' (first | with_reducible apply ih | intro _ | with_reducible assumption | with_reducible apply State.addF_follows
                   | with_reducible apply State.sendMsg_follows | with_reducible apply State.Follows.ite
                   | with_reducible apply State.Follows.foldl | with_reducible apply State.Follows.foldl_fst | split
                   | dsimp only)

theorem State.pump_follows {s0 s : State} (h : s0.Follows s) : s0.Follows s.pump := by
  unfold State.pump
  repeat' (first | intro _ | with_reducible assumption | with_reducible apply State.pumpOut_follows
                 | with_reducible apply State.setOp_follows | with_reducible apply State.Follows.ite
                 | with_reducible apply State.Follows.foldl | with_reducible apply State.Follows.foldl_fst | split
                 | dsimp only | with_reducible apply State.follows_ops)

end Sys2Proof.Machine
end

