-- ==== Sys2Proof/Laws/FollowsPrefect.lean ====
section
/-! SUPPORT. What the operations of Machine/Prefect.lean do to the queue, to the canonical form and to the count of free values:
their result follows the state that they are given. -/

namespace Sys2Proof.Machine

theorem State.showPft_follows {s0 s : State} (h : s0.Follows s) (k : Nat) : s0.Follows (s.showPft k) := by
  unfold State.showPft
  repeat' (first | intro _ | with_reducible assumption | with_reducible apply State.setFs_follows
                 | with_reducible apply State.wr_follows | with_reducible apply State.Follows.ite
                 | with_reducible apply State.Follows.foldl | with_reducible apply State.Follows.foldl_fst | split
                 | dsimp only)

theorem State.pftCq_follows {s0 s : State} (h : s0.Follows s) (p : Nat) (tag : Nat) (st : Nat) (op : Nat) (ni : Nat)
    (gid : Nat) (other : Nat) (poisons : Nat) : s0.Follows (s.pftCq p tag st op ni gid other poisons) := by
  unfold State.pftCq
  repeat' (first | intro _ | with_reducible assumption | with_reducible apply State.setFs_follows
                 | with_reducible apply State.writeRing_follows | with_reducible apply State.Follows.ite
                 | with_reducible apply State.Follows.foldl | with_reducible apply State.Follows.foldl_fst | split
                 | dsimp only)

theorem State.pftStall_follows {s0 s : State} (h : s0.Follows s) (p : Nat) (n : Nat) : s0.Follows (s.pftStall p n) := by
  unfold State.pftStall
  repeat' (first | intro _ | with_reducible assumption | with_reducible apply State.record_follows
                 | with_reducible apply State.stall_follows | with_reducible apply State.Follows.ite
                 | with_reducible apply State.Follows.foldl | with_reducible apply State.Follows.foldl_fst | split
                 | dsimp only)

theorem State.payOwed_follows {s0 s : State} (h : s0.Follows s) (o : PftOp) : s0.Follows (s.payOwed o) := by
  unfold State.payOwed
  repeat' (first | intro _ | with_reducible assumption | with_reducible apply State.trigger_follows
                 | with_reducible apply State.Follows.ite | with_reducible apply State.Follows.foldl
                 | with_reducible apply State.Follows.foldl_fst | split | dsimp only)

theorem State.endOp_follows {s0 s : State} (h : s0.Follows s) (o : PftOp) (st : Nat) (other : Nat) : s0.Follows (s.endOp
    o st other) := by
  unfold State.endOp
  repeat' (first | intro _ | with_reducible assumption | with_reducible apply State.payOwed_follows
                 | with_reducible apply State.pftCq_follows | with_reducible apply State.trigger_follows
                 | with_reducible apply State.Follows.ite | with_reducible apply State.Follows.foldl
                 | with_reducible apply State.Follows.foldl_fst | split | dsimp only)

theorem State.dropOp_follows {s0 s : State} (h : s0.Follows s) (o : PftOp) : s0.Follows (s.dropOp o) := by
  unfold State.dropOp
  repeat' (first | intro _ | with_reducible assumption | with_reducible apply State.showPft_follows
                 | with_reducible apply State.Follows.ite | with_reducible apply State.Follows.foldl
                 | with_reducible apply State.Follows.foldl_fst | split | dsimp only
                 | with_reducible apply State.follows_ops)

theorem State.meetSrc_follows {s0 s : State} (h : s0.Follows s) (o : PftOp) (dva : Nat) (n : Nat) (esz : Nat) :
    s0.Follows (s.meetSrc o dva n esz).1 := by
  unfold State.meetSrc
  repeat' (first | intro _ | with_reducible assumption | with_reducible apply State.countHit_follows
                 | with_reducible apply State.touch_follows | with_reducible apply State.Follows.ite
                 | with_reducible apply State.Follows.foldl | with_reducible apply State.Follows.foldl_fst | split
                 | dsimp only)

theorem State.putDst_follows {s0 s : State} (h : s0.Follows s) (o : PftOp) (dva : Nat) (bs : List Byte) : s0.Follows
    (s.putDst o dva bs).1 := by
  unfold State.putDst
  repeat' (first | intro _ | with_reducible assumption | with_reducible apply State.countHit_follows
                 | with_reducible apply State.writeFrom_follows | with_reducible apply State.Follows.ite
                 | with_reducible apply State.Follows.foldl | with_reducible apply State.Follows.foldl_fst | split
                 | dsimp only)

theorem State.writeDst_follows {s0 s : State} (h : s0.Follows s) (o : PftOp) (dva : Nat) (l : List (Option Nat)) (esz :
    Nat) : s0.Follows (s.writeDst o dva l esz).1 := by
  unfold State.writeDst
  repeat' (first | intro _ | with_reducible assumption | with_reducible apply State.putDst_follows
                 | with_reducible apply State.trigger_follows | with_reducible apply State.Follows.ite
                 | with_reducible apply State.Follows.foldl | with_reducible apply State.Follows.foldl_fst | split
                 | dsimp only)

theorem State.writeChunks_follows {s0 s : State} (h : s0.Follows s) (o : PftOp) (dva : Nat) (l : List (Option Nat)) (esz :
    Nat) (per : Nat) (fuel : Nat) : s0.Follows (s.writeChunks o dva l esz per fuel).1 := by
  induction fuel generalizing s o dva l with
  | zero => unfold State.writeChunks; exact h
  | succ f ih =>
    cases l with
    | nil => unfold State.writeChunks; exact h
    | cons x r =>
      unfold State.writeChunks
      apply ih
      repeat' (first | with_reducible assumption | with_reducible apply State.wr_follows
                     | with_reducible apply State.writeDst_follows | with_reducible apply State.emit_follows)

theorem State.emit_follows {s0 s : State} (h : s0.Follows s) (o : PftOp) (g : Group) (key : Nat × Nat × Nat) (l : List
    (Option Nat)) (esz : Nat) : s0.Follows (s.emit o g key l esz).1 := by
  unfold State.emit
  repeat' (first | intro _ | with_reducible assumption | with_reducible apply State.Follows.ite
                 | with_reducible apply State.Follows.foldl | with_reducible apply State.Follows.foldl_fst | split
                 | dsimp only | refine State.follows_drawn ?_ _ (Nat.le_add_right _ _))

theorem State.emitAll_follows {s0 s : State} (h : s0.Follows s) (o : PftOp) (g : Group) (h : Nat) (st : Nat) (l : List (Option
    Nat)) (esz : Nat) (per : Nat) (off : Nat) (fuel : Nat) : s0.Follows (s.emitAll o g h st l esz per off fuel).1 := by
  induction fuel generalizing s o l off with
  | zero => unfold State.emitAll; exact h
  | succ f ih =>
    cases l with
    | nil => unfold State.emitAll; exact h
    | cons x r =>
      unfold State.emitAll
      apply ih
      repeat' (first | with_reducible assumption | with_reducible apply State.wr_follows
                     | with_reducible apply State.writeDst_follows | with_reducible apply State.emit_follows)

theorem State.enterPhase_follows {s0 s : State} (h : s0.Follows s) (o : PftOp) (g : Group) (h : Nat) (i : Nat) (v : List
    (Option Nat)) (ps : List Phase) (fuel : Nat) : s0.Follows (s.enterPhase o g h i v ps fuel).1 := by
  induction fuel generalizing s o g h i v ps with
  | zero =>
    unfold State.enterPhase
    repeat' (first | intro _ | with_reducible assumption | with_reducible apply State.emitAll_follows
                   | with_reducible apply State.writeChunks_follows | with_reducible apply State.Follows.ite
                   | with_reducible apply State.Follows.foldl | with_reducible apply State.Follows.foldl_fst | split
                   | dsimp only)
  | succ k ih =>
    unfold State.enterPhase
    repeat' (first | with_reducible apply ih | intro _ | with_reducible assumption
                   | with_reducible apply State.emitAll_follows | with_reducible apply State.writeChunks_follows
                   | with_reducible apply State.Follows.ite | with_reducible apply State.Follows.foldl
                   | with_reducible apply State.Follows.foldl_fst | split | dsimp only)

theorem State.endPhase_follows {s0 s : State} (h : s0.Follows s) (o : PftOp) (g : Group) (k : Nat) (ps : List Phase) :
    s0.Follows (s.endPhase o g k ps).1 := by
  unfold State.endPhase
  repeat' (first | intro _ | with_reducible assumption | with_reducible apply State.enterPhase_follows
                 | with_reducible apply State.Follows.ite | with_reducible apply State.Follows.foldl
                 | with_reducible apply State.Follows.foldl_fst | split | dsimp only)

theorem State.ringChunk_follows {s0 s : State} (h : s0.Follows s) (o : PftOp) (g : Group) (a : Arrived) (p : Phase) (n :
    Nat) : s0.Follows (s.ringChunk o g a p n).1 := by
  unfold State.ringChunk
  repeat' (first | intro _ | with_reducible assumption | with_reducible apply State.emit_follows
                 | with_reducible apply State.writeDst_follows | with_reducible apply State.Follows.ite
                 | with_reducible apply State.Follows.foldl | with_reducible apply State.Follows.foldl_fst | split
                 | dsimp only)

theorem State.bellEnd_follows {s0 s : State} (h : s0.Follows s) (o : PftOp) (v : List (Option Nat)) : s0.Follows
    (s.bellEnd o v).1 := by
  unfold State.bellEnd
  repeat' (first | intro _ | with_reducible assumption | with_reducible apply State.writeDst_follows
                 | with_reducible apply State.Follows.ite | with_reducible apply State.Follows.foldl
                 | with_reducible apply State.Follows.foldl_fst | split | dsimp only)

theorem State.emitBell_follows {s0 s : State} (h : s0.Follows s) (o : PftOp) (g : Group) (step : Nat) (off : Nat) (l :
    List (Option Nat)) : s0.Follows (s.emitBell o g step off l).1 := by
  unfold State.emitBell
  repeat' (first | intro _ | with_reducible assumption | with_reducible apply State.emit_follows
                 | with_reducible apply State.Follows.ite | with_reducible apply State.Follows.foldl
                 | with_reducible apply State.Follows.foldl_fst | split | dsimp only)

theorem State.enterBell_follows {s0 s : State} (h : s0.Follows s) (o : PftOp) (g : Group) (i : Nat) (v : List (Option Nat))
    (axes : List Nat) : s0.Follows (s.enterBell o g i v axes).1 := by
  induction axes generalizing s o g i v with
  | nil =>
    unfold State.enterBell
    repeat' (first | intro _ | with_reducible assumption | with_reducible apply State.bellEnd_follows
                   | with_reducible apply State.emitBell_follows | with_reducible apply State.Follows.ite
                   | with_reducible apply State.Follows.foldl | with_reducible apply State.Follows.foldl_fst | split
                   | dsimp only)
  | cons x r ih =>
    unfold State.enterBell
    repeat' (first | with_reducible apply ih | intro _ | with_reducible assumption
                   | with_reducible apply State.bellEnd_follows | with_reducible apply State.emitBell_follows
                   | with_reducible apply State.Follows.ite | with_reducible apply State.Follows.foldl
                   | with_reducible apply State.Follows.foldl_fst | split | dsimp only)

theorem State.endBell_follows {s0 s : State} (h : s0.Follows s) (o : PftOp) (g : Group) : s0.Follows (s.endBell o g).1
    := by
  unfold State.endBell
  repeat' (first | intro _ | with_reducible assumption | with_reducible apply State.enterBell_follows
                 | with_reducible apply State.record_follows | with_reducible apply State.Follows.ite
                 | with_reducible apply State.Follows.foldl | with_reducible apply State.Follows.foldl_fst | split
                 | dsimp only)

theorem State.bellChunk_follows {s0 s : State} (h : s0.Follows s) (o : PftOp) (g : Group) (a : Arrived) (n : Nat) :
    s0.Follows (s.bellChunk o g a n).1 := by
  unfold State.bellChunk
  repeat' (first | intro _ | with_reducible assumption | with_reducible apply State.emitBell_follows
                 | with_reducible apply State.record_follows | with_reducible apply State.Follows.ite
                 | with_reducible apply State.Follows.foldl | with_reducible apply State.Follows.foldl_fst | split
                 | dsimp only)

theorem State.useChunk_follows {s0 s : State} (h : s0.Follows s) (o : PftOp) (g : Group) (a : Arrived) : s0.Follows
    (s.useChunk o g a).1 := by
  unfold State.useChunk
  repeat' (first | intro _ | with_reducible assumption | with_reducible apply State.bellChunk_follows
                 | with_reducible apply State.emit_follows | with_reducible apply State.endBell_follows
                 | with_reducible apply State.endPhase_follows | with_reducible apply State.record_follows
                 | with_reducible apply State.ringChunk_follows | with_reducible apply State.writeDst_follows
                 | with_reducible apply State.Follows.ite | with_reducible apply State.Follows.foldl
                 | with_reducible apply State.Follows.foldl_fst | split | dsimp only)

theorem State.runOp_follows {s0 s : State} (h : s0.Follows s) (o : PftOp) (g : Group) (fuel : Nat) : s0.Follows (s.runOp o g
    fuel).1 := by
  induction fuel generalizing s o g with
  | zero =>
    unfold State.runOp
    repeat' (first | intro _ | with_reducible assumption | with_reducible apply State.useChunk_follows
                   | with_reducible apply State.Follows.ite | with_reducible apply State.Follows.foldl
                   | with_reducible apply State.Follows.foldl_fst | split | dsimp only)
  | succ k ih =>
    unfold State.runOp
    repeat' (first | with_reducible apply ih | intro _ | with_reducible assumption
                   | with_reducible apply State.useChunk_follows | with_reducible apply State.Follows.ite
                   | with_reducible apply State.Follows.foldl | with_reducible apply State.Follows.foldl_fst | split
                   | dsimp only)

theorem State.goOn_follows {s0 s : State} (h : s0.Follows s) (o : PftOp) : s0.Follows (s.goOn o) := by
  unfold State.goOn
  repeat' (first | intro _ | with_reducible assumption | with_reducible apply State.pump_follows
                 | with_reducible apply State.runOp_follows | with_reducible apply State.setOp_follows
                 | with_reducible apply State.Follows.ite | with_reducible apply State.Follows.foldl
                 | with_reducible apply State.Follows.foldl_fst | split | dsimp only)

theorem State.leaveGroup_follows {s0 s : State} (h : s0.Follows s) (p : Nat) (gid : Nat) : s0.Follows (s.leaveGroup p gid) := by
  unfold State.leaveGroup
  dsimp only
  apply State.subF_follows
  apply State.setGroup_follows
  apply State.Follows.foldl
  · have h1 := fun l => State.Follows.foldl (l := l) (f := fun t o => (State.endOp t o 0x13 0).dropOp o) h
      (fun t o ht => State.dropOp_follows (State.endOp_follows ht _ _ _) _)
    exact ⟨(h1 _).canonical, (h1 _).pending, (h1 _).drawn⟩
  · intro t k ht
    exact State.showPft_follows ht _

theorem pftTailWrite_follows {s0 s : State} (h : s0.Follows s) (p : Nat) (v : Nat) (m : Nat) : s0.Follows (pftTailWrite
    p s v m) := by
  unfold pftTailWrite
  repeat' (first | intro _ | with_reducible assumption | with_reducible apply State.setF_follows
                 | with_reducible apply State.Follows.ite | with_reducible apply State.Follows.foldl
                 | with_reducible apply State.Follows.foldl_fst | split | dsimp only)

theorem pftBaseWrite_follows {s0 s : State} (h : s0.Follows s) (p : Nat) (cq : Bool) (v : Nat) (m : Nat) : s0.Follows
    (pftBaseWrite p cq s v m) := by
  unfold pftBaseWrite
  repeat' (first | intro _ | with_reducible assumption | with_reducible apply State.setF_follows
                 | with_reducible apply State.store_follows | with_reducible apply State.Follows.ite
                 | with_reducible apply State.Follows.foldl | with_reducible apply State.Follows.foldl_fst | split
                 | dsimp only)

theorem pftCtrWrite_follows {s0 s : State} (h : s0.Follows s) (n : Nat) (v : Nat) (m : Nat) : s0.Follows (pftCtrWrite n
    s v m) := by
  unfold pftCtrWrite
  repeat' (first | intro _ | with_reducible assumption | with_reducible apply State.store_follows
                 | with_reducible apply State.Follows.ite | with_reducible apply State.Follows.foldl
                 | with_reducible apply State.Follows.foldl_fst | split | dsimp only)

theorem State.receiveFor_follows {s0 s : State} (h : s0.Follows s) (o : PftOp) (g : Group) (b : List Byte) (lost : Bool)
    : s0.Follows (s.receiveFor o g b lost).1 := by
  unfold State.receiveFor
  repeat' (first | intro _ | with_reducible assumption | with_reducible apply State.addF_follows
                 | with_reducible apply State.Follows.ite | with_reducible apply State.Follows.foldl
                 | with_reducible apply State.Follows.foldl_fst | split | dsimp only)

theorem State.takeEarly_follows {s0 s : State} (h : s0.Follows s) (o : PftOp) (g : Group) : s0.Follows (s.takeEarly o
    g).1 := by
  unfold State.takeEarly
  repeat' (first | intro _ | with_reducible assumption | with_reducible apply State.receiveFor_follows
                 | with_reducible apply State.showPft_follows | with_reducible apply State.Follows.ite
                 | with_reducible apply State.Follows.foldl | with_reducible apply State.Follows.foldl_fst | split
                 | dsimp only | with_reducible apply State.follows_early)

theorem State.refuseEntry_follows {s0 s : State} (h : s0.Follows s) (p : Nat) (st : Nat) (b : List Byte) : s0.Follows
    (s.refuseEntry p st b) := by
  unfold State.refuseEntry
  repeat' (first | intro _ | with_reducible assumption | with_reducible apply State.draw_follows
                 | with_reducible apply State.pftCq_follows | with_reducible apply State.Follows.ite
                 | with_reducible apply State.Follows.foldl | with_reducible apply State.Follows.foldl_fst | split
                 | dsimp only)

theorem State.postOp_follows {s0 s : State} (h : s0.Follows s) (p : Nat) (b : List Byte) (g : Group) : s0.Follows
    (s.postOp p b g) := by
  unfold State.postOp
  repeat' (first | intro _ | with_reducible assumption | with_reducible apply State.setGroup_follows
                 | with_reducible apply State.showPft_follows | with_reducible apply State.takeEarly_follows
                 | with_reducible apply State.Follows.ite | with_reducible apply State.Follows.foldl
                 | with_reducible apply State.Follows.foldl_fst | split | dsimp only
                 | with_reducible apply State.follows_ops | with_reducible apply State.follows_posted)

theorem State.sendChunk_follows {s0 s : State} (h : s0.Follows s) (o : PftOp) (g : Group) (i : Nat) : s0.Follows
    (s.sendChunk o g i).1 := by
  unfold State.sendChunk
  repeat' (first | intro _ | with_reducible assumption | with_reducible apply State.emit_follows
                 | with_reducible apply State.meetSrc_follows | with_reducible apply State.Follows.ite
                 | with_reducible apply State.Follows.foldl | with_reducible apply State.Follows.foldl_fst | split
                 | dsimp only)

theorem State.startRing_follows {s0 s : State} (h : s0.Follows s) (o : PftOp) (g : Group) : s0.Follows (s.startRing o
    g).1 := by
  unfold State.startRing
  repeat' (first | intro _ | with_reducible assumption | with_reducible apply State.enterPhase_follows
                 | with_reducible apply State.meetSrc_follows | with_reducible apply State.record_follows
                 | with_reducible apply State.Follows.ite | with_reducible apply State.Follows.foldl
                 | with_reducible apply State.Follows.foldl_fst | split | dsimp only)

theorem State.startBell_follows {s0 s : State} (h : s0.Follows s) (o : PftOp) (g : Group) (v : List (Option Nat)) :
    s0.Follows (s.startBell o g v).1 := by
  unfold State.startBell
  repeat' (first | intro _ | with_reducible assumption | with_reducible apply State.enterBell_follows
                 | with_reducible apply State.record_follows | with_reducible apply State.Follows.ite
                 | with_reducible apply State.Follows.foldl | with_reducible apply State.Follows.foldl_fst | split
                 | dsimp only)

theorem State.startOp_follows {s0 s : State} (h : s0.Follows s) (op : Nat) (f : State → PftOp → Group → State × PftOp) (hf : ∀
    t x1 x2, s0.Follows t → s0.Follows (f t x1 x2).1) : s0.Follows (s.startOp op f) := by
  unfold State.startOp
  repeat' (first | intro _ | with_reducible assumption | with_reducible apply hf | with_reducible apply State.goOn_follows
                 | with_reducible apply State.setOp_follows | with_reducible apply State.Follows.ite
                 | with_reducible apply State.Follows.foldl | with_reducible apply State.Follows.foldl_fst | split
                 | dsimp only)

theorem State.handOver_follows {s0 s : State} (h : s0.Follows s) (o : PftOp) (b : List Byte) (lost : Bool) : s0.Follows
    (s.handOver o b lost) := by
  unfold State.handOver
  repeat' (first | intro _ | with_reducible assumption | with_reducible apply State.goOn_follows
                 | with_reducible apply State.receiveFor_follows | with_reducible apply State.setOp_follows
                 | with_reducible apply State.Follows.ite | with_reducible apply State.Follows.foldl
                 | with_reducible apply State.Follows.foldl_fst | split | dsimp only)

theorem State.takeChunk_follows {s0 s : State} (h : s0.Follows s) (k : Nat) (p : Nat) (b : List Byte) : ∀ t, s.takeChunk k p b
    = some t → s0.Follows t := by
  have h1 := State.addF_follows h (Csr.niPftChunks_RECEIVED k) 1
  unfold State.takeChunk
  dsimp only
  generalize s.addF (Csr.niPftChunks_RECEIVED k) 1 = s1 at h1 ⊢
  split
  · have h2 : ∀ f d l n, s0.Follows (((s1.addF Csr.pftErr_CRC 1).recordP (some p) 0x0701 2 4 f 0xFFFF d l).setNi k n) :=
      fun f d l n => State.setNi_follows (State.recordP_follows (State.addF_follows h1 _ _) _ _ _ _ _ _ _ _) k n
    split <;> simp only [Option.some.injEq, forall_eq']
    · exact State.handOver_follows (h2 _ _ _ _) _ _ _
    · exact h2 _ _ _ _
  · split
    · simp only [Option.some.injEq, forall_eq']
      exact h1
    · split
      · split <;> simp only [Option.some.injEq, forall_eq']
        · exact State.trigger_follows h1 _ _
        · exact State.addF_follows h1 _ _
      · split
        · simp only [Option.some.injEq, forall_eq']
          exact State.addF_follows h1 _ _
        · split
          · simp only [Option.some.injEq, forall_eq']
            exact State.handOver_follows h1 _ _ _
          · split <;> simp only [Option.some.injEq, forall_eq', reduceCtorEq, false_implies, implies_true]
            exact State.showPft_follows (State.follows_early h1 _) _

theorem State.takeClass_follows {s0 s : State} (h : s0.Follows s) (k : Nat) (c : Nat) : ∀ t, s.takeClass k c = some t →
    s0.Follows t := by
  intro t e
  unfold State.takeClass at e
  dsimp only at e
  split at e
  · exact State.takeChunk_follows (State.setNi_follows h _ _) _ _ _ _ e
  · cases e

theorem State.poisonRest_follows {s0 s : State} (h : s0.Follows s) (o : PftOp) (g : Group) : s0.Follows (s.poisonRest o
    g).1 := by
  unfold State.poisonRest
  repeat' (first | intro _ | with_reducible assumption | with_reducible apply State.emit_follows
                 | with_reducible apply State.Follows.ite | with_reducible apply State.Follows.foldl
                 | with_reducible apply State.Follows.foldl_fst | split | dsimp only)

end Sys2Proof.Machine
end

