-- ==== Sys2Proof/Laws/FollowsContext.lean ====
section
/-! SUPPORT. What the operations of Machine/Context.lean do to the queue, to the canonical form and to the count of free values:
their result follows the state that they are given. -/

namespace Sys2Proof.Machine

theorem State.cqEvent_follows {s0 s : State} (h : s0.Follows s) (x : Nat) (status : Nat) : s0.Follows (s.cqEvent x
    status) := by
  unfold State.cqEvent
  repeat' (first | intro _ | with_reducible assumption | with_reducible apply State.sendEvent_follows
                 | with_reducible apply State.setCtx_follows | with_reducible apply State.Follows.ite
                 | with_reducible apply State.Follows.foldl | with_reducible apply State.Follows.foldl_fst | split
                 | dsimp only)

theorem State.cqNotify_follows {s0 s : State} (h : s0.Follows s) (x : Nat) (status : Nat) (flagged : Bool) : s0.Follows
    (s.cqNotify x status flagged) := by
  unfold State.cqNotify
  repeat' (first | intro _ | with_reducible assumption | with_reducible apply State.cqEvent_follows
                 | with_reducible apply State.setCtx_follows | with_reducible apply State.Follows.ite
                 | with_reducible apply State.Follows.foldl | with_reducible apply State.Follows.foldl_fst | split
                 | dsimp only)

theorem State.writeCq_follows {s0 s : State} (h : s0.Follows s) (x : Nat) (tag : Nat) (status : Nat) (st : Nat) (op :
    Nat) (idx : Nat) (detail : Nat) (info : Nat) (flagged : Bool) : s0.Follows (s.writeCq x tag status st op idx detail
    info flagged) := by
  unfold State.writeCq
  repeat' (first | intro _ | with_reducible assumption | with_reducible apply State.cqNotify_follows
                 | with_reducible apply State.setFs_follows | with_reducible apply State.writeRing_follows
                 | with_reducible apply State.Follows.ite | with_reducible apply State.Follows.foldl
                 | with_reducible apply State.Follows.foldl_fst | split | dsimp only)

theorem State.putDone_follows {s0 s : State} (h : s0.Follows s) (x : Nat) (c : Cmd) (status : Nat) (detail : Nat) (info
    : Nat) : s0.Follows (s.putDone x c status detail info) := by
  unfold State.putDone
  repeat' (first | intro _ | with_reducible assumption | with_reducible apply State.setCtx_follows
                 | with_reducible apply State.setF_follows | with_reducible apply State.writeCq_follows
                 | with_reducible apply State.Follows.ite | with_reducible apply State.Follows.foldl
                 | with_reducible apply State.Follows.foldl_fst | split | dsimp only)

theorem State.restState_follows {s0 s : State} (h : s0.Follows s) (x : Nat) : s0.Follows (s.restState x) := by
  unfold State.restState
  repeat' (first | intro _ | with_reducible assumption | with_reducible apply State.setCtxSt_follows
                 | with_reducible apply State.Follows.ite | with_reducible apply State.Follows.foldl
                 | with_reducible apply State.Follows.foldl_fst | split | dsimp only)

theorem State.settleDrain_follows {s0 s : State} (h : s0.Follows s) (x : Nat) : s0.Follows (s.settleDrain x) := by
  unfold State.settleDrain
  repeat' (first | intro _ | with_reducible assumption | with_reducible apply State.putDone_follows
                 | with_reducible apply State.restState_follows | with_reducible apply State.Follows.ite
                 | with_reducible apply State.Follows.foldl | with_reducible apply State.Follows.foldl_fst | split
                 | dsimp only)

theorem State.complete_follows {s0 s : State} (h : s0.Follows s) (x : Nat) (c : Cmd) (status : Nat) (detail : Nat) (info
    : Nat) : s0.Follows (s.complete x c status detail info) := by
  unfold State.complete
  repeat' (first | intro _ | with_reducible assumption | with_reducible apply State.putDone_follows
                 | with_reducible apply State.settleDrain_follows | with_reducible apply State.Follows.ite
                 | with_reducible apply State.Follows.foldl | with_reducible apply State.Follows.foldl_fst | split
                 | dsimp only)

theorem State.faultCtx_follows {s0 s : State} (h : s0.Follows s) (x : Nat) (status : Nat) : s0.Follows (s.faultCtx x
    status) := by
  unfold State.faultCtx
  repeat' (first | intro _ | with_reducible assumption | with_reducible apply State.sendEvent_follows
                 | with_reducible apply State.setCtxSt_follows | with_reducible apply State.Follows.ite
                 | with_reducible apply State.Follows.foldl | with_reducible apply State.Follows.foldl_fst | split
                 | dsimp only)

theorem State.moveCore_follows {s0 s : State} (h : s0.Follows s) (x : Nat) (i : Nat) : s0.Follows (s.moveCore x i) := by
  unfold State.moveCore
  repeat' (first | intro _ | with_reducible assumption | with_reducible apply State.addF_follows
                 | with_reducible apply State.setF_follows | with_reducible apply State.subF_follows
                 | with_reducible apply State.Follows.ite | with_reducible apply State.Follows.foldl
                 | with_reducible apply State.Follows.foldl_fst | split | dsimp only)

theorem State.readNext_follows {s0 s : State} (h : s0.Follows s) (x : Nat) (p : Nat) : s0.Follows (s.readNext x p) := by
  unfold State.readNext
  repeat' (first | intro _ | with_reducible assumption | with_reducible apply State.addF_follows
                 | with_reducible apply State.countHit_follows | with_reducible apply State.setCtx_follows
                 | with_reducible apply State.setF_follows | with_reducible apply State.touch_follows
                 | with_reducible apply State.writeCq_follows | with_reducible apply State.Follows.ite
                 | with_reducible apply State.Follows.foldl | with_reducible apply State.Follows.foldl_fst | split
                 | dsimp only)

theorem State.unfresh_follows {s0 s : State} (h : s0.Follows s) (x : Nat) (c : Cmd) : s0.Follows (s.unfresh x c) := by
  unfold State.unfresh
  repeat' (first | intro _ | with_reducible assumption | with_reducible apply State.setCtx_follows
                 | with_reducible apply State.Follows.ite | with_reducible apply State.Follows.foldl
                 | with_reducible apply State.Follows.foldl_fst | split | dsimp only)

theorem State.putCmd_follows {s0 s : State} (h : s0.Follows s) (x : Nat) (c : Cmd) : s0.Follows (s.putCmd x c) := by
  unfold State.putCmd
  repeat' (first | intro _ | with_reducible assumption | with_reducible apply State.setCtx_follows
                 | with_reducible apply State.Follows.ite | with_reducible apply State.Follows.foldl
                 | with_reducible apply State.Follows.foldl_fst | split | dsimp only)

theorem State.refuse_follows {s0 s : State} (h : s0.Follows s) (x : Nat) (c : Cmd) (status : Nat) (detail : Nat) :
    s0.Follows (s.refuse x c status detail) := by
  unfold State.refuse
  repeat' (first | intro _ | with_reducible assumption | with_reducible apply State.addF_follows
                 | with_reducible apply State.complete_follows | with_reducible apply State.Follows.ite
                 | with_reducible apply State.Follows.foldl | with_reducible apply State.Follows.foldl_fst | split
                 | dsimp only)

theorem State.freeLessons_follows {s0 s : State} (h : s0.Follows s) (c : Nat) (gone : Resident → Bool) : s0.Follows
    (s.freeLessons c gone) := by
  unfold State.freeLessons
  repeat' (first | intro _ | with_reducible assumption | with_reducible apply State.setF_follows
                 | with_reducible apply State.setRoom_follows | with_reducible apply State.Follows.ite
                 | with_reducible apply State.Follows.foldl | with_reducible apply State.Follows.foldl_fst | split
                 | dsimp only)

theorem State.clearSegs_follows {s0 s : State} (h : s0.Follows s) (k : Nat) (f : Nat) (n : Nat) : s0.Follows
    (s.clearSegs k f n) := by
  unfold State.clearSegs
  repeat' (first | intro _ | with_reducible assumption | with_reducible apply State.freeLessons_follows
                 | with_reducible apply State.setF_follows | with_reducible apply State.Follows.ite
                 | with_reducible apply State.Follows.foldl | with_reducible apply State.Follows.foldl_fst | split
                 | dsimp only)

theorem State.writeSlots_follows {s0 s : State} (h : s0.Follows s) (k : Nat) (slot : Nat) (bs : List Byte) (fuel : Nat) :
    s0.Follows (s.writeSlots k slot bs fuel) := by
  induction fuel generalizing s slot bs with
  | zero => unfold State.writeSlots; exact h
  | succ f ih =>
    cases bs with
    | nil => unfold State.writeSlots; exact h
    | cons x r =>
      unfold State.writeSlots
      apply ih
      repeat' (first | with_reducible assumption | with_reducible apply State.wr_follows
                     | with_reducible apply State.writeDst_follows | with_reducible apply State.emit_follows)

theorem State.addLesson_follows {s0 s : State} (h : s0.Follows s) (x : Nat) (k : Nat) (f : Nat) (n : Nat) : s0.Follows
    (s.addLesson x k f n) := by
  unfold State.addLesson
  repeat' (first | intro _ | with_reducible assumption | with_reducible apply State.setF_follows
                 | with_reducible apply State.setRoom_follows | with_reducible apply State.Follows.ite
                 | with_reducible apply State.Follows.foldl | with_reducible apply State.Follows.foldl_fst | split
                 | dsimp only)

theorem State.lessonState_follows {s0 s : State} (h : s0.Follows s) (x : Nat) : s0.Follows (s.lessonState x) := by
  unfold State.lessonState
  repeat' (first | intro _ | with_reducible assumption | with_reducible apply State.setCtxSt_follows
                 | with_reducible apply State.Follows.ite | with_reducible apply State.Follows.foldl
                 | with_reducible apply State.Follows.foldl_fst | split | dsimp only)

theorem State.loadRoom_follows {s0 s : State} (h : s0.Follows s) (x : Nat) (p : Nat) (c : Cmd) (k : Nat) : s0.Follows
    (s.loadRoom x p c k).1 := by
  unfold State.loadRoom
  repeat' (first | intro _ | with_reducible assumption | with_reducible apply State.addLesson_follows
                 | with_reducible apply State.clearSegs_follows | with_reducible apply State.countHit_follows
                 | with_reducible apply State.touch_follows | with_reducible apply State.writeSlots_follows
                 | with_reducible apply State.Follows.ite | with_reducible apply State.Follows.foldl
                 | with_reducible apply State.Follows.foldl_fst | split | dsimp only)

theorem State.clearShown_follows {s0 s : State} (h : s0.Follows s) (k : Nat) : s0.Follows (s.clearShown k) := by
  unfold State.clearShown
  repeat' (first | intro _ | with_reducible assumption | with_reducible apply State.setFs_follows
                 | with_reducible apply State.setLoop_follows | with_reducible apply State.Follows.ite
                 | with_reducible apply State.Follows.foldl | with_reducible apply State.Follows.foldl_fst | split
                 | dsimp only)

theorem State.clearCls_follows {s0 s : State} (h : s0.Follows s) (k : Nat) (st : Nat) : s0.Follows (s.clearCls k st) :=
    by
  unfold State.clearCls
  repeat' (first | intro _ | with_reducible assumption | with_reducible apply State.clearShown_follows
                 | with_reducible apply State.setF_follows | with_reducible apply State.setRoom_follows
                 | with_reducible apply State.Follows.ite | with_reducible apply State.Follows.foldl
                 | with_reducible apply State.Follows.foldl_fst | split | dsimp only)

theorem State.launchFlags_follows {s0 s : State} (h : s0.Follows s) (k : Nat) : s0.Follows (s.launchFlags k) := by
  unfold State.launchFlags
  repeat' (first | intro _ | with_reducible assumption | with_reducible apply State.wr_follows
                 | with_reducible apply State.Follows.ite | with_reducible apply State.Follows.foldl
                 | with_reducible apply State.Follows.foldl_fst | split | dsimp only)

theorem State.loadTables_follows {s0 s : State} (h : s0.Follows s) (k : Nat) (f : Nat) : s0.Follows (s.loadTables k f)
    := by
  unfold State.loadTables
  repeat' (first | intro _ | with_reducible assumption | with_reducible apply State.setFs_follows
                 | with_reducible apply State.Follows.ite | with_reducible apply State.Follows.foldl
                 | with_reducible apply State.Follows.foldl_fst | split | dsimp only)

theorem State.loadDescs_follows {s0 s : State} (h : s0.Follows s) (k : Nat) (bs : List Byte) : s0.Follows (s.loadDescs k
    bs) := by
  unfold State.loadDescs
  repeat' (first | intro _ | with_reducible assumption | with_reducible apply State.wr_follows
                 | with_reducible apply State.Follows.ite | with_reducible apply State.Follows.foldl
                 | with_reducible apply State.Follows.foldl_fst | split | dsimp only)

theorem State.failStart_follows {s0 s : State} (h : s0.Follows s) (c : Nat) (f : FaultInfo) : s0.Follows (s.failStart c
    f) := by
  unfold State.failStart
  repeat' (first | intro _ | with_reducible assumption | with_reducible apply State.faultStart_follows
                 | with_reducible apply State.wr_follows | with_reducible apply State.Follows.ite
                 | with_reducible apply State.Follows.foldl | with_reducible apply State.Follows.foldl_fst | split
                 | dsimp only)

theorem State.startCls_follows {s0 s : State} (h : s0.Follows s) (c : Nat) (f : Nat) (segs : Nat) (bs : List Byte) :
    s0.Follows (s.startCls c f segs bs) := by
  unfold State.startCls
  repeat' (first | intro _ | with_reducible assumption | with_reducible apply State.clearCls_follows
                 | with_reducible apply State.launchFlags_follows | with_reducible apply State.loadDescs_follows
                 | with_reducible apply State.loadTables_follows | with_reducible apply State.setFs_follows
                 | with_reducible apply State.Follows.ite | with_reducible apply State.Follows.foldl
                 | with_reducible apply State.Follows.foldl_fst | split | dsimp only)

theorem State.abandonLaunch_follows {s0 s : State} (h : s0.Follows s) (x : Nat) : s0.Follows (s.abandonLaunch x) := by
  unfold State.abandonLaunch
  repeat' (first | intro _ | with_reducible assumption | with_reducible apply State.clearCls_follows
                 | with_reducible apply State.complete_follows | with_reducible apply State.setCtx_follows
                 | with_reducible apply State.Follows.ite | with_reducible apply State.Follows.foldl
                 | with_reducible apply State.Follows.foldl_fst | split | dsimp only)

theorem State.settleHalt_follows {s0 s : State} (h : s0.Follows s) (x : Nat) : s0.Follows (s.settleHalt x) := by
  unfold State.settleHalt
  repeat' (first | intro _ | with_reducible assumption | with_reducible apply State.abandonLaunch_follows
                 | with_reducible apply State.complete_follows | with_reducible apply State.setCtxSt_follows
                 | with_reducible apply State.Follows.ite | with_reducible apply State.Follows.foldl
                 | with_reducible apply State.Follows.foldl_fst | split | dsimp only)

theorem State.idleStopped_follows {s0 s : State} (h : s0.Follows s) (x : Nat) (m : Nat) : s0.Follows (s.idleStopped x m)
    := by
  unfold State.idleStopped
  repeat' (first | intro _ | with_reducible assumption | with_reducible apply State.clearCls_follows
                 | with_reducible apply State.Follows.ite | with_reducible apply State.Follows.foldl
                 | with_reducible apply State.Follows.foldl_fst | split | dsimp only)

theorem State.afterLaunch_follows {s0 s : State} (h : s0.Follows s) (x : Nat) (l : Launch) (status : Nat) (detail : Nat)
    (info : Nat) : s0.Follows (s.afterLaunch x l status detail info) := by
  unfold State.afterLaunch
  repeat' (first | intro _ | with_reducible assumption | with_reducible apply State.complete_follows
                 | with_reducible apply State.idleStopped_follows | with_reducible apply State.setCtx_follows
                 | with_reducible apply State.setCtxSt_follows | with_reducible apply State.settleHalt_follows
                 | with_reducible apply State.Follows.ite | with_reducible apply State.Follows.foldl
                 | with_reducible apply State.Follows.foldl_fst | split | dsimp only)

theorem State.launchFault_follows {s0 s : State} (h : s0.Follows s) (c : Nat) : s0.Follows (s.launchFault c) := by
  unfold State.launchFault
  repeat' (first | intro _ | with_reducible assumption | with_reducible apply State.faultCtx_follows
                 | with_reducible apply State.setCtx_follows | with_reducible apply State.Follows.ite
                 | with_reducible apply State.Follows.foldl | with_reducible apply State.Follows.foldl_fst | split
                 | dsimp only)

theorem State.clsFaultRecord_follows {s0 s : State} (h : s0.Follows s) (c : Nat) : s0.Follows (s.clsFaultRecord c) := by
  unfold State.clsFaultRecord
  repeat' (first | intro _ | with_reducible assumption | with_reducible apply State.recordP_follows
                 | with_reducible apply State.Follows.ite | with_reducible apply State.Follows.foldl
                 | with_reducible apply State.Follows.foldl_fst | split | dsimp only)

theorem State.haltCls_follows {s0 s : State} (h : s0.Follows s) (k : Nat) : s0.Follows (s.haltCls k) := by
  unfold State.haltCls
  repeat' (first | intro _ | with_reducible assumption | with_reducible apply State.setF_follows
                 | with_reducible apply State.setRoom_follows | with_reducible apply State.Follows.ite
                 | with_reducible apply State.Follows.foldl | with_reducible apply State.Follows.foldl_fst | split
                 | dsimp only)

theorem State.resumeCls_follows {s0 s : State} (h : s0.Follows s) (k : Nat) : s0.Follows (s.resumeCls k) := by
  unfold State.resumeCls
  repeat' (first | intro _ | with_reducible assumption | with_reducible apply State.setF_follows
                 | with_reducible apply State.setRoom_follows | with_reducible apply State.Follows.ite
                 | with_reducible apply State.Follows.foldl | with_reducible apply State.Follows.foldl_fst | split
                 | dsimp only)

end Sys2Proof.Machine
end

