-- ==== Sys2Proof/Laws/FollowsFatal.lean ====
section
/-! SUPPORT. What the operations of Machine/Fatal.lean do to the queue, to the canonical form and to the count of free values:
their result follows the state that they are given. -/

namespace Sys2Proof.Machine

theorem State.deviceFatal_follows {s0 s : State} (h : s0.Follows s) (r : Rec) : s0.Follows (s.deviceFatal r) := by
  unfold State.deviceFatal
  repeat' (first | intro _ | with_reducible assumption | with_reducible apply State.captureFatal_follows
                 | with_reducible apply State.draw_follows | with_reducible apply State.faultCtx_follows
                 | with_reducible apply State.record_follows | with_reducible apply State.Follows.ite
                 | with_reducible apply State.Follows.foldl | with_reducible apply State.Follows.foldl_fst | split
                 | dsimp only | with_reducible apply State.follows_fatal)

theorem State.partitionFatal_follows {s0 s : State} (h : s0.Follows s) (p : Nat) (r : Rec) : s0.Follows
    (s.partitionFatal p r) := by
  unfold State.partitionFatal
  repeat' (first | intro _ | with_reducible assumption | with_reducible apply State.draw_follows
                 | with_reducible apply State.faultCtx_follows | with_reducible apply State.record_follows
                 | with_reducible apply State.Follows.ite | with_reducible apply State.Follows.foldl
                 | with_reducible apply State.Follows.foldl_fst | split | dsimp only
                 | with_reducible apply State.follows_partFatal)

theorem State.loseCtx_follows {s0 s : State} (h : s0.Follows s) (x : Nat) (core : Nat) : s0.Follows (s.loseCtx x core)
    := by
  unfold State.loseCtx
  repeat' (first | intro _ | with_reducible assumption | with_reducible apply State.faultCtx_follows
                 | with_reducible apply State.putDone_follows | with_reducible apply State.recordP_follows
                 | with_reducible apply State.setCtx_follows | with_reducible apply State.Follows.ite
                 | with_reducible apply State.Follows.foldl | with_reducible apply State.Follows.foldl_fst | split
                 | dsimp only)

theorem State.failCore_follows {s0 s : State} (h : s0.Follows s) (i : Nat) (wdog : Bool) : s0.Follows (s.failCore i
    wdog) := by
  unfold State.failCore
  repeat' (first | intro _ | with_reducible assumption | with_reducible apply State.loseCtx_follows
                 | with_reducible apply State.recordD_follows | with_reducible apply State.setFs_follows
                 | with_reducible apply State.Follows.ite | with_reducible apply State.Follows.foldl
                 | with_reducible apply State.Follows.foldl_fst | split | dsimp only)

end Sys2Proof.Machine
end

