-- ==== Sys2Proof/Laws/FollowsFirmware.lean ====
section
/-! SUPPORT. What the operations of Machine/Firmware.lean do to the queue, to the canonical form and to the count of free values:
their result follows the state that they are given. -/

namespace Sys2Proof.Machine

theorem State.withSec_follows {s0 s : State} (h : s0.Follows s) (f : Security → Security) : s0.Follows (s.withSec f) :=
    by
  unfold State.withSec
  repeat' (first | intro _ | with_reducible assumption | with_reducible apply State.Follows.ite
                 | with_reducible apply State.Follows.foldl | with_reducible apply State.Follows.foldl_fst | split
                 | dsimp only | with_reducible apply State.follows_security)

theorem State.putWords_follows {s0 s : State} (h : s0.Follows s) (f : Nat → Nat) (n : Nat) (bs : List Byte) : s0.Follows
    (s.putWords f n bs) := by
  unfold State.putWords
  repeat' (first | intro _ | with_reducible assumption | with_reducible apply State.wr_follows
                 | with_reducible apply State.Follows.ite | with_reducible apply State.Follows.foldl
                 | with_reducible apply State.Follows.foldl_fst | split | dsimp only)

theorem State.freeBytes_follows {s0 s : State} (h : s0.Follows s) (n : Nat) : s0.Follows (s.freeBytes n).2 := by
  unfold State.freeBytes
  repeat' (first | intro _ | with_reducible assumption | with_reducible apply State.Follows.ite
                 | with_reducible apply State.Follows.foldl | with_reducible apply State.Follows.foldl_fst | split
                 | dsimp only | refine State.follows_drawn ?_ _ (Nat.le_add_right _ _))

theorem State.saveSlots_follows {s0 s : State} (h : s0.Follows s) : s0.Follows s.saveSlots := by
  unfold State.saveSlots
  repeat' (first | intro _ | with_reducible assumption | with_reducible apply State.withSec_follows
                 | with_reducible apply State.Follows.ite | with_reducible apply State.Follows.foldl
                 | with_reducible apply State.Follows.foldl_fst | split | dsimp only)

theorem fwWrite_follows {s0 s : State} (h : s0.Follows s) (v : Nat) (m : Nat) : s0.Follows (fwWrite s v m) := by
  unfold fwWrite
  repeat' (first | intro _ | with_reducible assumption | with_reducible apply State.saveSlots_follows
                 | with_reducible apply State.setF_follows | with_reducible apply State.storeBut_follows
                 | with_reducible apply State.Follows.ite | with_reducible apply State.Follows.foldl
                 | with_reducible apply State.Follows.foldl_fst | split | dsimp only)

theorem arbWrite_follows {s0 s : State} (h : s0.Follows s) (v : Nat) (m : Nat) : s0.Follows (arbWrite s v m) := by
  unfold arbWrite
  repeat' (first | intro _ | with_reducible assumption | with_reducible apply State.setF_follows
                 | with_reducible apply State.setFs_follows | with_reducible apply State.storeBut_follows
                 | with_reducible apply State.Follows.ite | with_reducible apply State.Follows.foldl
                 | with_reducible apply State.Follows.foldl_fst | split | dsimp only)

theorem State.showOwner_follows {s0 s : State} (h : s0.Follows s) : s0.Follows s.showOwner := by
  unfold State.showOwner
  repeat' (first | intro _ | with_reducible assumption | with_reducible apply State.putWords_follows
                 | with_reducible apply State.setFs_follows | with_reducible apply State.Follows.ite
                 | with_reducible apply State.Follows.foldl | with_reducible apply State.Follows.foldl_fst | split
                 | dsimp only)

theorem fuseProgWrite_follows {s0 s : State} (h : s0.Follows s) (v : Nat) (m : Nat) : s0.Follows (fuseProgWrite s v m)
    := by
  unfold fuseProgWrite
  repeat' (first | intro _ | with_reducible assumption | with_reducible apply State.setF_follows
                 | with_reducible apply State.setFs_follows | with_reducible apply State.storeBut_follows
                 | with_reducible apply State.withSec_follows | with_reducible apply State.Follows.ite
                 | with_reducible apply State.Follows.foldl | with_reducible apply State.Follows.foldl_fst | split
                 | dsimp only)

theorem flashCmdWrite_follows {s0 s : State} (h : s0.Follows s) (v : Nat) (m : Nat) : s0.Follows (flashCmdWrite s v m)
    := by
  unfold flashCmdWrite
  repeat' (first | intro _ | with_reducible assumption | with_reducible apply State.setF_follows
                 | with_reducible apply State.storeBut_follows | with_reducible apply State.withSec_follows
                 | with_reducible apply State.Follows.ite | with_reducible apply State.Follows.foldl
                 | with_reducible apply State.Follows.foldl_fst | split | dsimp only)

theorem State.eraseFlash_follows {s0 s : State} (h : s0.Follows s) (o : Nat) (n : Nat) : s0.Follows (s.eraseFlash o n)
    := by
  unfold State.eraseFlash
  repeat' (first | intro _ | with_reducible assumption | with_reducible apply State.Follows.ite
                 | with_reducible apply State.Follows.foldl | with_reducible apply State.Follows.foldl_fst | split
                 | dsimp only | refine State.follows_mem ?_ _ (fun c => SMap.wf_put (State.canonical_mem c))
                 | refine State.follows_mem ?_ _ (fun c => SMap.wf_filter _ (State.canonical_mem c)))

theorem State.loseFlash_follows {s0 s : State} (h : s0.Follows s) (o : Nat) (n : Nat) : s0.Follows (s.loseFlash o n) :=
    by
  unfold State.loseFlash
  repeat' (first | intro _ | with_reducible assumption | with_reducible apply State.freeBytes_follows
                 | with_reducible apply State.pokeN_follows | with_reducible apply State.Follows.ite
                 | with_reducible apply State.Follows.foldl | with_reducible apply State.Follows.foldl_fst | split
                 | dsimp only)

theorem State.flashToBuf_follows {s0 s : State} (h : s0.Follows s) (o : Nat) (fail : Bool) : s0.Follows (s.flashToBuf o
    fail) := by
  unfold State.flashToBuf
  repeat' (first | intro _ | with_reducible assumption | with_reducible apply State.freeBytes_follows
                 | with_reducible apply State.putWords_follows | with_reducible apply State.Follows.ite
                 | with_reducible apply State.Follows.foldl | with_reducible apply State.Follows.foldl_fst | split
                 | dsimp only)

theorem State.flashEffect_follows {s0 s : State} (h : s0.Follows s) (op : Nat) (o : Nat) : s0.Follows (s.flashEffect op
    o) := by
  unfold State.flashEffect
  repeat' (first | intro _ | with_reducible assumption | with_reducible apply State.eraseFlash_follows
                 | with_reducible apply State.flashToBuf_follows | with_reducible apply State.pokeN_follows
                 | with_reducible apply State.Follows.ite | with_reducible apply State.Follows.foldl
                 | with_reducible apply State.Follows.foldl_fst | split | dsimp only)

theorem attNonceWrite_follows {s0 s : State} (h : s0.Follows s) (i : Nat) (v : Nat) (m : Nat) : s0.Follows
    (attNonceWrite i s v m) := by
  unfold attNonceWrite
  repeat' (first | intro _ | with_reducible assumption | with_reducible apply State.setF_follows
                 | with_reducible apply State.store_follows | with_reducible apply State.Follows.ite
                 | with_reducible apply State.Follows.foldl | with_reducible apply State.Follows.foldl_fst | split
                 | dsimp only)

theorem attCtrlWrite_follows {s0 s : State} (h : s0.Follows s) (v : Nat) (m : Nat) : s0.Follows (attCtrlWrite s v m) :=
    by
  unfold attCtrlWrite
  repeat' (first | intro _ | with_reducible assumption | with_reducible apply State.setF_follows
                 | with_reducible apply State.storeBut_follows | with_reducible apply State.Follows.ite
                 | with_reducible apply State.Follows.foldl | with_reducible apply State.Follows.foldl_fst | split
                 | dsimp only)

theorem State.jtagInsn_follows {s0 s : State} (h : s0.Follows s) (i : JtagInstr) (lands : Lands) (out : List Byte) :
    s0.Follows (s.jtagInsn i lands out) := by
  unfold State.jtagInsn
  repeat' (first | intro _ | with_reducible assumption | with_reducible apply State.Follows.ite
                 | with_reducible apply State.Follows.foldl | with_reducible apply State.Follows.foldl_fst | split
                 | dsimp only | with_reducible apply State.follows_jtag)

theorem State.boundaryScan_follows {s0 s : State} (h : s0.Follows s) (i : JtagInstr) (lands : Lands) (captured : List
    Bool) (shifted : List Bool) : s0.Follows (s.boundaryScan i lands captured shifted) := by
  unfold State.boundaryScan
  repeat' (first | intro _ | with_reducible assumption | with_reducible apply State.jtagInsn_follows
                 | with_reducible apply State.Follows.ite | with_reducible apply State.Follows.foldl
                 | with_reducible apply State.Follows.foldl_fst | split | dsimp only
                 | with_reducible apply State.follows_jtag)

theorem State.unlock_follows {s0 s : State} (h : s0.Follows s) : s0.Follows s.unlock := by
  unfold State.unlock
  repeat' (first | intro _ | with_reducible assumption | with_reducible apply State.setFs_follows
                 | with_reducible apply State.withSec_follows | with_reducible apply State.Follows.ite
                 | with_reducible apply State.Follows.foldl | with_reducible apply State.Follows.foldl_fst | split
                 | dsimp only)

end Sys2Proof.Machine
end

