-- ==== Sys2Proof/Laws/FollowsRollCall.lean ====
section
/-! SUPPORT. What the operations of Machine/RollCall.lean do to the queue, to the canonical form and to the count of free values:
their result follows the state that they are given. -/

namespace Sys2Proof.Machine

theorem State.sendRecord_follows {s0 s : State} (h : s0.Follows s) (k : Nat) : s0.Follows (s.sendRecord k) := by
  unfold State.sendRecord
  repeat' (first | intro _ | with_reducible assumption | with_reducible apply State.sendMsg_follows
                 | with_reducible apply State.setNi_follows | with_reducible apply State.Follows.ite
                 | with_reducible apply State.Follows.foldl | with_reducible apply State.Follows.foldl_fst | split
                 | dsimp only)

theorem State.sendOwed_follows {s0 s : State} (h : s0.Follows s) (k : Nat) : s0.Follows (s.sendOwed k) := by
  unfold State.sendOwed
  repeat' (first | intro _ | with_reducible assumption | with_reducible apply State.sendRecord_follows
                 | with_reducible apply State.Follows.ite | with_reducible apply State.Follows.foldl
                 | with_reducible apply State.Follows.foldl_fst | split | dsimp only)

theorem State.showPlan_follows {s0 s : State} (h : s0.Follows s) (p : Nat) : s0.Follows (s.showPlan p) := by
  unfold State.showPlan
  repeat' (first | intro _ | with_reducible assumption | with_reducible apply State.recordP_follows
                 | with_reducible apply State.setF_follows | with_reducible apply State.setFs_follows
                 | with_reducible apply State.Follows.ite | with_reducible apply State.Follows.foldl
                 | with_reducible apply State.Follows.foldl_fst | split | dsimp only)

theorem State.setRc_follows {s0 s : State} (h : s0.Follows s) (k : Nat) (st : Nat) : s0.Follows (s.setRc k st) := by
  unfold State.setRc
  repeat' (first | intro _ | with_reducible assumption | with_reducible apply State.bound_follows
                 | with_reducible apply State.sendRecord_follows | with_reducible apply State.setF_follows
                 | with_reducible apply State.showPlan_follows | with_reducible apply State.Follows.ite
                 | with_reducible apply State.Follows.foldl | with_reducible apply State.Follows.foldl_fst | split
                 | dsimp only)

theorem State.quarantine_follows {s0 s : State} (h : s0.Follows s) (k : Nat) (mism : Nat) : s0.Follows (s.quarantine k
    mism) := by
  unfold State.quarantine
  repeat' (first | intro _ | with_reducible assumption | with_reducible apply State.addF_follows
                 | with_reducible apply State.recordP_follows | with_reducible apply State.setF_follows
                 | with_reducible apply State.setRc_follows | with_reducible apply State.Follows.ite
                 | with_reducible apply State.Follows.foldl | with_reducible apply State.Follows.foldl_fst | split
                 | dsimp only)

theorem State.matchStep_follows {s0 s : State} (h : s0.Follows s) (k : Nat) : s0.Follows (s.matchStep k) := by
  unfold State.matchStep
  repeat' (first | intro _ | with_reducible assumption | with_reducible apply State.setRc_follows
                 | with_reducible apply State.Follows.ite | with_reducible apply State.Follows.foldl
                 | with_reducible apply State.Follows.foldl_fst | split | dsimp only)

theorem State.evaluate_follows {s0 s : State} (h : s0.Follows s) (k : Nat) (recheck : Bool) : s0.Follows (s.evaluate k
    recheck) := by
  unfold State.evaluate
  repeat' (first | intro _ | with_reducible assumption | with_reducible apply State.matchStep_follows
                 | with_reducible apply State.quarantine_follows | with_reducible apply State.setF_follows
                 | with_reducible apply State.setRc_follows | with_reducible apply State.Follows.ite
                 | with_reducible apply State.Follows.foldl | with_reducible apply State.Follows.foldl_fst | split
                 | dsimp only)

theorem State.storeFar_follows {s0 s : State} (h : s0.Follows s) (k : Nat) (b : List Byte) : s0.Follows (s.storeFar k b)
    := by
  unfold State.storeFar
  repeat' (first | intro _ | with_reducible assumption | with_reducible apply State.setFs_follows
                 | with_reducible apply State.setNi_follows | with_reducible apply State.wr_follows
                 | with_reducible apply State.Follows.ite | with_reducible apply State.Follows.foldl
                 | with_reducible apply State.Follows.foldl_fst | split | dsimp only)

theorem State.hearRecord_follows {s0 s : State} (h : s0.Follows s) (k : Nat) (b : List Byte) : s0.Follows (s.hearRecord
    k b) := by
  unfold State.hearRecord
  repeat' (first | intro _ | with_reducible assumption | with_reducible apply State.addF_follows
                 | with_reducible apply State.evaluate_follows | with_reducible apply State.storeFar_follows
                 | with_reducible apply State.Follows.ite | with_reducible apply State.Follows.foldl
                 | with_reducible apply State.Follows.foldl_fst | split | dsimp only)

theorem State.rcDown_follows {s0 s : State} (h : s0.Follows s) (k : Nat) : s0.Follows (s.rcDown k) := by
  unfold State.rcDown
  repeat' (first | intro _ | with_reducible assumption | with_reducible apply State.setRc_follows
                 | with_reducible apply State.Follows.ite | with_reducible apply State.Follows.foldl
                 | with_reducible apply State.Follows.foldl_fst | split | dsimp only)

theorem State.rcUp_follows {s0 s : State} (h : s0.Follows s) (k : Nat) : s0.Follows (s.rcUp k) := by
  unfold State.rcUp
  repeat' (first | intro _ | with_reducible assumption | with_reducible apply State.sendRecord_follows
                 | with_reducible apply State.setF_follows | with_reducible apply State.setRc_follows
                 | with_reducible apply State.Follows.ite | with_reducible apply State.Follows.foldl
                 | with_reducible apply State.Follows.foldl_fst | split | dsimp only)

theorem State.planGo_follows {s0 s : State} (h : s0.Follows s) (p : Nat) : s0.Follows (s.planGo p) := by
  unfold State.planGo
  repeat' (first | intro _ | with_reducible assumption | with_reducible apply State.setF_follows
                 | with_reducible apply State.setRc_follows | with_reducible apply State.showPlan_follows
                 | with_reducible apply State.Follows.ite | with_reducible apply State.Follows.foldl
                 | with_reducible apply State.Follows.foldl_fst | split | dsimp only)

theorem State.planUnload_follows {s0 s : State} (h : s0.Follows s) (p : Nat) : s0.Follows (s.planUnload p) := by
  unfold State.planUnload
  repeat' (first | intro _ | with_reducible assumption | with_reducible apply State.setF_follows
                 | with_reducible apply State.setRc_follows | with_reducible apply State.showPlan_follows
                 | with_reducible apply State.Follows.ite | with_reducible apply State.Follows.foldl
                 | with_reducible apply State.Follows.foldl_fst | split | dsimp only)

theorem planCtrlWrite_follows {s0 s : State} (h : s0.Follows s) (p : Nat) (v : Nat) (m : Nat) : s0.Follows
    (planCtrlWrite p s v m) := by
  unfold planCtrlWrite
  repeat' (first | intro _ | with_reducible assumption | with_reducible apply State.planGo_follows
                 | with_reducible apply State.planUnload_follows | with_reducible apply State.storeBut_follows
                 | with_reducible apply State.Follows.ite | with_reducible apply State.Follows.foldl
                 | with_reducible apply State.Follows.foldl_fst | split | dsimp only)

theorem partCfgWrite_follows {s0 s : State} (h : s0.Follows s) (p : Nat) (v : Nat) (m : Nat) : s0.Follows (partCfgWrite
    p s v m) := by
  unfold partCfgWrite
  repeat' (first | intro _ | with_reducible assumption | with_reducible apply State.planUnload_follows
                 | with_reducible apply State.setF_follows | with_reducible apply State.showPartition_follows
                 | with_reducible apply State.storeBut_follows | with_reducible apply State.Follows.ite
                 | with_reducible apply State.Follows.foldl | with_reducible apply State.Follows.foldl_fst | split
                 | dsimp only)

theorem rcStateWrite_follows {s0 s : State} (h : s0.Follows s) (k : Nat) (v : Nat) (m : Nat) : s0.Follows (rcStateWrite
    k s v m) := by
  unfold rcStateWrite
  repeat' (first | intro _ | with_reducible assumption | with_reducible apply State.evaluate_follows
                 | with_reducible apply State.Follows.ite | with_reducible apply State.Follows.foldl
                 | with_reducible apply State.Follows.foldl_fst | split | dsimp only)

theorem sysNodeWrite_follows {s0 s : State} (h : s0.Follows s) (v : Nat) (m : Nat) : s0.Follows (sysNodeWrite s v m) :=
    by
  unfold sysNodeWrite
  repeat' (first | intro _ | with_reducible assumption | with_reducible apply State.matchStep_follows
                 | with_reducible apply State.sendRecord_follows | with_reducible apply State.setF_follows
                 | with_reducible apply State.storeBut_follows | with_reducible apply State.Follows.ite
                 | with_reducible apply State.Follows.foldl | with_reducible apply State.Follows.foldl_fst | split
                 | dsimp only)

theorem planEntryWrite_follows {s0 s : State} (h : s0.Follows s) (a : Nat) (k : Nat) (v : Nat) (m : Nat) : s0.Follows
    (planEntryWrite a k s v m) := by
  unfold planEntryWrite
  repeat' (first | intro _ | with_reducible assumption | with_reducible apply State.sendRecord_follows
                 | with_reducible apply State.setF_follows | with_reducible apply State.store_follows
                 | with_reducible apply State.Follows.ite | with_reducible apply State.Follows.foldl
                 | with_reducible apply State.Follows.foldl_fst | split | dsimp only)

end Sys2Proof.Machine
end

