-- ==== Sys2Proof/Laws/FollowsLink.lean ====
section
/-! SUPPORT. What the operations of Machine/Link.lean do to the queue, to the canonical form and to the count of free values:
their result follows the state that they are given. -/

namespace Sys2Proof.Machine

theorem State.portTo_follows {s0 s : State} (h : s0.Follows s) (k : Nat) (st : Nat) : s0.Follows (s.portTo k st) := by
  unfold State.portTo
  repeat' (first | intro _ | with_reducible assumption | with_reducible apply State.bound_follows
                 | with_reducible apply State.linkChange_follows | with_reducible apply State.setFs_follows
                 | with_reducible apply State.setNi_follows | with_reducible apply State.Follows.ite
                 | with_reducible apply State.Follows.foldl | with_reducible apply State.Follows.foldl_fst | split
                 | dsimp only)

theorem State.portDown_follows {s0 s : State} (h : s0.Follows s) (k : Nat) : s0.Follows (s.portDown k) := by
  unfold State.portDown
  repeat' (first | intro _ | with_reducible assumption | with_reducible apply State.portTo_follows
                 | with_reducible apply State.rcDown_follows | with_reducible apply State.Follows.ite
                 | with_reducible apply State.Follows.foldl | with_reducible apply State.Follows.foldl_fst | split
                 | dsimp only)

theorem State.darkCheck_follows {s0 s : State} (h : s0.Follows s) (k : Nat) : s0.Follows (s.darkCheck k) := by
  unfold State.darkCheck
  repeat' (first | intro _ | with_reducible assumption | with_reducible apply State.portDown_follows
                 | with_reducible apply State.Follows.ite | with_reducible apply State.Follows.foldl
                 | with_reducible apply State.Follows.foldl_fst | split | dsimp only)

theorem State.dropRetry_follows {s0 s : State} (h : s0.Follows s) (k : Nat) : s0.Follows (s.dropRetry k) := by
  unfold State.dropRetry
  repeat' (first | intro _ | with_reducible assumption | with_reducible apply State.addF_follows
                 | with_reducible apply State.setNi_follows | with_reducible apply State.Follows.ite
                 | with_reducible apply State.Follows.foldl | with_reducible apply State.Follows.foldl_fst | split
                 | dsimp only)

theorem State.portOff_follows {s0 s : State} (h : s0.Follows s) (k : Nat) : s0.Follows (s.portOff k) := by
  unfold State.portOff
  repeat' (first | intro _ | with_reducible assumption | with_reducible apply State.dropRetry_follows
                 | with_reducible apply State.portTo_follows | with_reducible apply State.rcDown_follows
                 | with_reducible apply State.setNi_follows | with_reducible apply State.showCredits_follows
                 | with_reducible apply State.Follows.ite | with_reducible apply State.Follows.foldl
                 | with_reducible apply State.Follows.foldl_fst | split | dsimp only)

theorem State.sendOffer_follows {s0 s : State} (h : s0.Follows s) (k : Nat) : s0.Follows (s.sendOffer k) := by
  unfold State.sendOffer
  repeat' (first | intro _ | with_reducible assumption | with_reducible apply State.setNi_follows
                 | with_reducible apply State.Follows.ite | with_reducible apply State.Follows.foldl
                 | with_reducible apply State.Follows.foldl_fst | split | dsimp only)

theorem State.renegCheck_follows {s0 s : State} (h : s0.Follows s) (k : Nat) : s0.Follows (s.renegCheck k) := by
  unfold State.renegCheck
  repeat' (first | intro _ | with_reducible assumption | with_reducible apply State.bound_follows
                 | with_reducible apply State.linkChange_follows | with_reducible apply State.sendOffer_follows
                 | with_reducible apply State.setFs_follows | with_reducible apply State.Follows.ite
                 | with_reducible apply State.Follows.foldl | with_reducible apply State.Follows.foldl_fst | split
                 | dsimp only)

theorem niCtrlWrite_follows {s0 s : State} (h : s0.Follows s) (k : Nat) (v : Nat) (m : Nat) : s0.Follows (niCtrlWrite k
    s v m) := by
  unfold niCtrlWrite
  repeat' (first | intro _ | with_reducible assumption | with_reducible apply State.portOff_follows
                 | with_reducible apply State.renegCheck_follows | with_reducible apply State.setF_follows
                 | with_reducible apply State.setNi_follows | with_reducible apply State.storeBut_follows
                 | with_reducible apply State.Follows.ite | with_reducible apply State.Follows.foldl
                 | with_reducible apply State.Follows.foldl_fst | split | dsimp only)

theorem State.alignCheck_follows {s0 s : State} (h : s0.Follows s) (k : Nat) : s0.Follows (s.alignCheck k) := by
  unfold State.alignCheck
  repeat' (first | intro _ | with_reducible assumption | with_reducible apply State.sendOffer_follows
                 | with_reducible apply State.setF_follows | with_reducible apply State.setNi_follows
                 | with_reducible apply State.Follows.ite | with_reducible apply State.Follows.foldl
                 | with_reducible apply State.Follows.foldl_fst | split | dsimp only)

theorem State.newFrame_follows {s0 s : State} (h : s0.Follows s) (k : Nat) : s0.Follows (s.newFrame k).1 := by
  unfold State.newFrame
  repeat' (first | intro _ | with_reducible assumption | with_reducible apply State.addF_follows
                 | with_reducible apply State.setNi_follows | with_reducible apply State.showCredits_follows
                 | with_reducible apply State.Follows.ite | with_reducible apply State.Follows.foldl
                 | with_reducible apply State.Follows.foldl_fst | split | dsimp only)

theorem State.putFrame_follows {s0 s : State} (h : s0.Follows s) (k : Nat) (lane : Nat) (dly : Nat) (fseq : Nat) (flits
    : List (Option Flit)) (last : Bool) (train : Bool) : s0.Follows (s.putFrame k lane dly fseq flits last train) := by
  unfold State.putFrame
  repeat' (first | intro _ | with_reducible assumption | with_reducible apply State.addF_follows
                 | with_reducible apply State.setNi_follows | with_reducible apply State.Follows.ite
                 | with_reducible apply State.Follows.foldl | with_reducible apply State.Follows.foldl_fst | split
                 | dsimp only | with_reducible apply State.follows_wire)

theorem State.trainFrame_follows {s0 s : State} (h : s0.Follows s) (k : Nat) (lane : Nat) (dly : Nat) : s0.Follows
    (s.trainFrame k lane dly) := by
  unfold State.trainFrame
  repeat' (first | intro _ | with_reducible assumption | with_reducible apply State.putFrame_follows
                 | with_reducible apply State.Follows.ite | with_reducible apply State.Follows.foldl
                 | with_reducible apply State.Follows.foldl_fst | split | dsimp only)

theorem State.nextFrame_follows {s0 s : State} (h : s0.Follows s) (k : Nat) : ∀ t, s.nextFrame k = some t → s0.Follows t.1 := by
  intro t e
  unfold State.nextFrame at e
  dsimp only at e
  split at e
  · simp only [Option.some.injEq] at e
    subst e
    exact State.addF_follows (State.addF_follows (State.setNi_follows h _ _) _ _) _ _
  · split at e
    · have g := State.newFrame_follows h k
      generalize s.newFrame k = r at e g
      simp only [Option.some.injEq] at e
      exact e ▸ g
    · simp only [reduceCtorEq] at e

theorem State.withheldFrame_follows {s0 s : State} (h : s0.Follows s) (k : Nat) : s0.Follows (s.withheldFrame k) := by
  unfold State.withheldFrame
  repeat' (first | intro _ | with_reducible assumption | with_reducible apply State.addF_follows
                 | with_reducible apply State.setNi_follows | with_reducible apply State.Follows.ite
                 | with_reducible apply State.Follows.foldl | with_reducible apply State.Follows.foldl_fst | split
                 | dsimp only)

theorem State.ackFrames_follows {s0 s : State} (h : s0.Follows s) (k : Nat) (ack : Nat) : s0.Follows (s.ackFrames k ack)
    := by
  unfold State.ackFrames
  repeat' (first | intro _ | with_reducible assumption | with_reducible apply State.setNi_follows
                 | with_reducible apply State.Follows.ite | with_reducible apply State.Follows.foldl
                 | with_reducible apply State.Follows.foldl_fst | split | dsimp only
                 | with_reducible apply State.follows_ops)

theorem State.measure_follows {s0 s : State} (h : s0.Follows s) (k : Nat) (rtt : Nat) (dly : Nat) : s0.Follows
    (s.measure k rtt dly) := by
  unfold State.measure
  repeat' (first | intro _ | with_reducible assumption | with_reducible apply State.bound_follows
                 | with_reducible apply State.setFs_follows | with_reducible apply State.Follows.ite
                 | with_reducible apply State.Follows.foldl | with_reducible apply State.Follows.foldl_fst | split
                 | dsimp only)

theorem State.applyControl_follows {s0 s : State} (h : s0.Follows s) (k : Nat) (c : Control) (rtt : Nat) : s0.Follows
    (s.applyControl k c rtt) := by
  unfold State.applyControl
  repeat' (first | intro _ | with_reducible assumption | with_reducible apply State.ackFrames_follows
                 | with_reducible apply State.dealLanes_follows | with_reducible apply State.measure_follows
                 | with_reducible apply State.setNi_follows | with_reducible apply State.showCredits_follows
                 | with_reducible apply State.Follows.ite | with_reducible apply State.Follows.foldl
                 | with_reducible apply State.Follows.foldl_fst | split | dsimp only)

theorem State.takeFlits_follows {s0 s : State} (h : s0.Follows s) (k : Nat) (lane : Nat) (fseq : Nat) (raw : List
    RawFlit) : s0.Follows (s.takeFlits k lane fseq raw) := by
  unfold State.takeFlits
  repeat' (first | intro _ | with_reducible assumption | with_reducible apply State.addF_follows
                 | with_reducible apply State.setNi_follows | with_reducible apply State.Follows.ite
                 | with_reducible apply State.Follows.foldl | with_reducible apply State.Follows.foldl_fst | split
                 | dsimp only)

theorem State.failFrame_follows {s0 s : State} (h : s0.Follows s) (k : Nat) (readable : Bool) (fseq : Nat) : s0.Follows
    (s.failFrame k readable fseq) := by
  unfold State.failFrame
  repeat' (first | intro _ | with_reducible assumption | with_reducible apply State.addF_follows
                 | with_reducible apply State.setNi_follows | with_reducible apply State.Follows.ite
                 | with_reducible apply State.Follows.foldl | with_reducible apply State.Follows.foldl_fst | split
                 | dsimp only)

theorem State.trainRx_follows {s0 s : State} (h : s0.Follows s) (k : Nat) (lane : Nat) (good : Bool) (c : Control) :
    s0.Follows (s.trainRx k lane good c) := by
  unfold State.trainRx
  repeat' (first | intro _ | with_reducible assumption | with_reducible apply State.alignCheck_follows
                 | with_reducible apply State.dealLanes_follows | with_reducible apply State.setNi_follows
                 | with_reducible apply State.Follows.ite | with_reducible apply State.Follows.foldl
                 | with_reducible apply State.Follows.foldl_fst | split | dsimp only)

end Sys2Proof.Machine
end

