-- ==== Sys2Proof/Laws/FollowsGlove.lean ====
section
/-! SUPPORT. What the operations of Machine/Glove.lean do to the queue, to the canonical form and to the count of free values:
their result follows the state that they are given. -/

namespace Sys2Proof.Machine

theorem State.showLanes_follows {s0 s : State} (h : s0.Follows s) (k : Nat) : s0.Follows (s.showLanes k) := by
  unfold State.showLanes
  repeat' (first | intro _ | with_reducible assumption | with_reducible apply State.setFs_follows
                 | with_reducible apply State.Follows.ite | with_reducible apply State.Follows.foldl
                 | with_reducible apply State.Follows.foldl_fst | split | dsimp only)

theorem State.laneChanged_follows {s0 s : State} (h : s0.Follows s) (g : Nat) (tx : Bool) (l : Nat) : s0.Follows
    (s.laneChanged g tx l) := by
  unfold State.laneChanged
  repeat' (first | intro _ | with_reducible assumption | with_reducible apply State.acceptLanes_follows
                 | with_reducible apply State.bound_follows | with_reducible apply State.dealLanes_follows
                 | with_reducible apply State.setF_follows | with_reducible apply State.showLanes_follows
                 | with_reducible apply State.Follows.ite | with_reducible apply State.Follows.foldl
                 | with_reducible apply State.Follows.foldl_fst | split | dsimp only)

theorem State.setHeldBack_follows {s0 s : State} (h : s0.Follows s) (g : Nat) (tx : Bool) (l : Nat) (v : Nat) :
    s0.Follows (s.setHeldBack g tx l v) := by
  unfold State.setHeldBack
  repeat' (first | intro _ | with_reducible assumption | with_reducible apply State.withOptics_follows
                 | with_reducible apply State.Follows.ite | with_reducible apply State.Follows.foldl
                 | with_reducible apply State.Follows.foldl_fst | split | dsimp only
                 | with_reducible apply State.follows_retired)

theorem State.setLane_follows {s0 s : State} (h : s0.Follows s) (g : Nat) (tx : Bool) (l : Nat) (st : Nat) : s0.Follows
    (s.setLane g tx l st) := by
  unfold State.setLane
  repeat' (first | intro _ | with_reducible assumption | with_reducible apply State.laneChanged_follows
                 | with_reducible apply State.setF_follows | with_reducible apply State.setHeldBack_follows
                 | with_reducible apply State.withOptics_follows | with_reducible apply State.Follows.ite
                 | with_reducible apply State.Follows.foldl | with_reducible apply State.Follows.foldl_fst | split
                 | dsimp only)

theorem State.withdraw_follows {s0 s : State} (h : s0.Follows s) (g : Nat) (tx : Bool) (l : Nat) (cause : Nat) :
    s0.Follows (s.withdraw g tx l cause) := by
  unfold State.withdraw
  repeat' (first | intro _ | with_reducible assumption | with_reducible apply State.addF_follows
                 | with_reducible apply State.laneChanged_follows | with_reducible apply State.recordD_follows
                 | with_reducible apply State.setF_follows | with_reducible apply State.setFs_follows
                 | with_reducible apply State.setHeldBack_follows | with_reducible apply State.Follows.ite
                 | with_reducible apply State.Follows.foldl | with_reducible apply State.Follows.foldl_fst | split
                 | dsimp only)

theorem State.admitLane_follows {s0 s : State} (h : s0.Follows s) (g : Nat) (tx : Bool) (l : Nat) : s0.Follows
    (s.admitLane g tx l) := by
  unfold State.admitLane
  repeat' (first | intro _ | with_reducible assumption | with_reducible apply State.addF_follows
                 | with_reducible apply State.laneChanged_follows | with_reducible apply State.recordD_follows
                 | with_reducible apply State.setFs_follows | with_reducible apply State.setHeldBack_follows
                 | with_reducible apply State.Follows.ite | with_reducible apply State.Follows.foldl
                 | with_reducible apply State.Follows.foldl_fst | split | dsimp only)

theorem State.offer_follows {s0 s : State} (h : s0.Follows s) (g : Nat) (tx : Bool) (l : Nat) : s0.Follows (s.offer g tx
    l) := by
  unfold State.offer
  repeat' (first | intro _ | with_reducible assumption | with_reducible apply State.admitLane_follows
                 | with_reducible apply State.Follows.ite | with_reducible apply State.Follows.foldl
                 | with_reducible apply State.Follows.foldl_fst | split | dsimp only)

theorem State.retireStep_follows {s0 s : State} (h : s0.Follows s) (g : Nat) (tx : Bool) (l : Nat) : s0.Follows
    (s.retireStep g tx l) := by
  unfold State.retireStep
  repeat' (first | intro _ | with_reducible assumption | with_reducible apply State.withdraw_follows
                 | with_reducible apply State.Follows.ite | with_reducible apply State.Follows.foldl
                 | with_reducible apply State.Follows.foldl_fst | split | dsimp only)

theorem State.putRing_follows {s0 s : State} (h : s0.Follows s) (g : Nat) (r : Nat) (b : List Byte) : s0.Follows
    (s.putRing g r b) := by
  unfold State.putRing
  repeat' (first | intro _ | with_reducible assumption | with_reducible apply State.writeRecWords_follows
                 | with_reducible apply State.Follows.ite | with_reducible apply State.Follows.foldl
                 | with_reducible apply State.Follows.foldl_fst | split | dsimp only)

theorem State.noteLock_follows {s0 s : State} (h : s0.Follows s) (g : Nat) (tx : Bool) (l : Nat) (code : Nat) :
    s0.Follows (s.noteLock g tx l code) := by
  unfold State.noteLock
  repeat' (first | intro _ | with_reducible assumption | with_reducible apply State.putRing_follows
                 | with_reducible apply State.Follows.ite | with_reducible apply State.Follows.foldl
                 | with_reducible apply State.Follows.foldl_fst | split | dsimp only
                 | refine State.follows_drawn ?_ _ (Nat.le_add_right _ _))

theorem State.unlockRecord_follows {s0 s : State} (h : s0.Follows s) (g : Nat) (tx : Bool) (l : Nat) : s0.Follows
    (s.unlockRecord g tx l) := by
  unfold State.unlockRecord
  repeat' (first | intro _ | with_reducible assumption | with_reducible apply State.recordD_follows
                 | with_reducible apply State.Follows.ite | with_reducible apply State.Follows.foldl
                 | with_reducible apply State.Follows.foldl_fst | split | dsimp only)

theorem State.laneDark_follows {s0 s : State} (h : s0.Follows s) (g : Nat) (tx : Bool) (l : Nat) (lost : Bool) :
    s0.Follows (s.laneDark g tx l lost) := by
  unfold State.laneDark
  repeat' (first | intro _ | with_reducible assumption | with_reducible apply State.darkCheck_follows
                 | with_reducible apply State.retireStep_follows | with_reducible apply State.setLane_follows
                 | with_reducible apply State.unlockRecord_follows | with_reducible apply State.Follows.ite
                 | with_reducible apply State.Follows.foldl | with_reducible apply State.Follows.foldl_fst | split
                 | dsimp only)

theorem State.softStep_follows {s0 s : State} (h : s0.Follows s) (g : Nat) (tx : Bool) (l : Nat) (was : Bool) (now :
    Bool) : s0.Follows (s.softStep g tx l was now) := by
  unfold State.softStep
  repeat' (first | intro _ | with_reducible assumption | with_reducible apply State.offer_follows
                 | with_reducible apply State.withdraw_follows | with_reducible apply State.Follows.ite
                 | with_reducible apply State.Follows.foldl | with_reducible apply State.Follows.foldl_fst | split
                 | dsimp only)

theorem State.setRetire_follows {s0 s : State} (h : s0.Follows s) (g : Nat) (v : Nat) : s0.Follows (s.setRetire g v) :=
    by
  unfold State.setRetire
  repeat' (first | intro _ | with_reducible assumption | with_reducible apply State.setFs_follows
                 | with_reducible apply State.softStep_follows | with_reducible apply State.Follows.ite
                 | with_reducible apply State.Follows.foldl | with_reducible apply State.Follows.foldl_fst | split
                 | dsimp only)

theorem glvRetireWrite_follows {s0 s : State} (h : s0.Follows s) (g : Nat) (v : Nat) (m : Nat) : s0.Follows
    (glvRetireWrite g s v m) := by
  unfold glvRetireWrite
  repeat' (first | intro _ | with_reducible assumption | with_reducible apply State.setRetire_follows
                 | with_reducible apply State.store_follows | with_reducible apply State.Follows.ite
                 | with_reducible apply State.Follows.foldl | with_reducible apply State.Follows.foldl_fst | split
                 | dsimp only)

theorem State.gloveOff_follows {s0 s : State} (h : s0.Follows s) (g : Nat) (st : Nat) : s0.Follows (s.gloveOff g st) :=
    by
  unfold State.gloveOff
  repeat' (first | intro _ | with_reducible assumption | with_reducible apply State.laneDark_follows
                 | with_reducible apply State.setF_follows | with_reducible apply State.Follows.ite
                 | with_reducible apply State.Follows.foldl | with_reducible apply State.Follows.foldl_fst | split
                 | dsimp only)

theorem State.calStart_follows {s0 s : State} (h : s0.Follows s) (g : Nat) : s0.Follows (s.calStart g) := by
  unfold State.calStart
  repeat' (first | intro _ | with_reducible assumption | with_reducible apply State.setFs_follows
                 | with_reducible apply State.setLane_follows | with_reducible apply State.setRetire_follows
                 | with_reducible apply State.withOptics_follows | with_reducible apply State.Follows.ite
                 | with_reducible apply State.Follows.foldl | with_reducible apply State.Follows.foldl_fst | split
                 | dsimp only)

theorem glvCtrlWrite_follows {s0 s : State} (h : s0.Follows s) (g : Nat) (v : Nat) (m : Nat) : s0.Follows (glvCtrlWrite
    g s v m) := by
  unfold glvCtrlWrite
  repeat' (first | intro _ | with_reducible assumption | with_reducible apply State.calStart_follows
                 | with_reducible apply State.gloveOff_follows | with_reducible apply State.setF_follows
                 | with_reducible apply State.storeBut_follows | with_reducible apply State.Follows.ite
                 | with_reducible apply State.Follows.foldl | with_reducible apply State.Follows.foldl_fst | split
                 | dsimp only)

theorem State.located_follows {s0 s : State} (h : s0.Follows s) (k : Nat) (tx : Bool) (i : Nat) (stage : Nat) (all :
    Bool) (step : Int) : s0.Follows (s.located k tx i stage all step) := by
  unfold State.located
  repeat' (first | intro _ | with_reducible assumption | with_reducible apply State.recordD_follows
                 | with_reducible apply State.setFs_follows | with_reducible apply State.Follows.ite
                 | with_reducible apply State.Follows.foldl | with_reducible apply State.Follows.foldl_fst | split
                 | dsimp only)

theorem State.locate_follows {s0 s : State} (h : s0.Follows s) (k : Nat) (tx : Bool) (fresh : Bool) : s0.Follows
    (s.locate k tx fresh) := by
  unfold State.locate
  repeat' (first | intro _ | with_reducible assumption | with_reducible apply State.located_follows
                 | with_reducible apply State.withOptics_follows | with_reducible apply State.Follows.ite
                 | with_reducible apply State.Follows.foldl | with_reducible apply State.Follows.foldl_fst | split
                 | dsimp only)

theorem State.checkFibre_follows {s0 s : State} (h : s0.Follows s) (k : Nat) : s0.Follows (s.checkFibre k) := by
  unfold State.checkFibre
  repeat' (first | intro _ | with_reducible assumption | with_reducible apply State.located_follows
                 | with_reducible apply State.Follows.ite | with_reducible apply State.Follows.foldl
                 | with_reducible apply State.Follows.foldl_fst | split | dsimp only)

end Sys2Proof.Machine
end

