-- ==== Sys2Proof/Laws/FollowsLaser.lean ====
section
/-! SUPPORT. What the operations of Machine/Laser.lean do to the queue, to the canonical form and to the count of free values:
their result follows the state that they are given. -/

namespace Sys2Proof.Machine

theorem State.i3c_follows {s0 s : State} (h : s0.Follows s) (op : BusOp) : s0.Follows (s.i3c op) := by
  unfold State.i3c
  repeat' (first | intro _ | with_reducible assumption | with_reducible apply State.withOptics_follows
                 | with_reducible apply State.Follows.ite | with_reducible apply State.Follows.foldl
                 | with_reducible apply State.Follows.foldl_fst | split | dsimp only)

theorem State.warmSpare_follows {s0 s : State} (h : s0.Follows s) (m : Nat) (w : Nat) (on : Bool) : s0.Follows
    (s.warmSpare m w on) := by
  unfold State.warmSpare
  repeat' (first | intro _ | with_reducible assumption | with_reducible apply State.i3c_follows
                 | with_reducible apply State.withOptics_follows | with_reducible apply State.Follows.ite
                 | with_reducible apply State.Follows.foldl | with_reducible apply State.Follows.foldl_fst | split
                 | dsimp only)

theorem State.rampTo_follows {s0 s : State} (h : s0.Follows s) (m : Nat) (w : Nat) (src : Nat) : s0.Follows (s.rampTo m
    w src) := by
  unfold State.rampTo
  repeat' (first | intro _ | with_reducible assumption | with_reducible apply State.i3c_follows
                 | with_reducible apply State.withOptics_follows | with_reducible apply State.Follows.ite
                 | with_reducible apply State.Follows.foldl | with_reducible apply State.Follows.foldl_fst | split
                 | dsimp only)

theorem State.startBuses_follows {s0 s : State} (h : s0.Follows s) : s0.Follows s.startBuses := by
  unfold State.startBuses
  repeat' (first | intro _ | with_reducible assumption | with_reducible apply State.i3c_follows
                 | with_reducible apply State.Follows.ite | with_reducible apply State.Follows.foldl
                 | with_reducible apply State.Follows.foldl_fst | split | dsimp only)

theorem State.setActive_follows {s0 s : State} (h : s0.Follows s) (m : Nat) (w : Nat) (src : Nat) : s0.Follows
    (s.setActive m w src) := by
  unfold State.setActive
  repeat' (first | intro _ | with_reducible assumption | with_reducible apply State.setFs_follows
                 | with_reducible apply State.withOptics_follows | with_reducible apply State.Follows.ite
                 | with_reducible apply State.Follows.foldl | with_reducible apply State.Follows.foldl_fst | split
                 | dsimp only)

theorem State.showElapsed_follows {s0 s : State} (h : s0.Follows s) (m : Nat) : s0.Follows (s.showElapsed m) := by
  unfold State.showElapsed
  repeat' (first | intro _ | with_reducible assumption | with_reducible apply State.setF_follows
                 | with_reducible apply State.Follows.ite | with_reducible apply State.Follows.foldl
                 | with_reducible apply State.Follows.foldl_fst | split | dsimp only)

theorem State.swTo_follows {s0 s : State} (h : s0.Follows s) (m : Nat) (st : Nat) : s0.Follows (s.swTo m st) := by
  unfold State.swTo
  repeat' (first | intro _ | with_reducible assumption | with_reducible apply State.setF_follows
                 | with_reducible apply State.showElapsed_follows | with_reducible apply State.Follows.ite
                 | with_reducible apply State.Follows.foldl | with_reducible apply State.Follows.foldl_fst | split
                 | dsimp only)

theorem State.abandonSwitch_follows {s0 s : State} (h : s0.Follows s) (m : Nat) : s0.Follows (s.abandonSwitch m) := by
  unfold State.abandonSwitch
  repeat' (first | intro _ | with_reducible assumption | with_reducible apply State.addF_follows
                 | with_reducible apply State.setActive_follows | with_reducible apply State.swTo_follows
                 | with_reducible apply State.Follows.ite | with_reducible apply State.Follows.foldl
                 | with_reducible apply State.Follows.foldl_fst | split | dsimp only
                 | refine State.follows_drawn ?_ _ (Nat.le_add_right _ _))

theorem State.openInterlock_follows {s0 s : State} (h : s0.Follows s) (m : Nat) (cause : Nat) : s0.Follows
    (s.openInterlock m cause) := by
  unfold State.openInterlock
  repeat' (first | intro _ | with_reducible assumption | with_reducible apply State.abandonSwitch_follows
                 | with_reducible apply State.laneDark_follows | with_reducible apply State.recordD_follows
                 | with_reducible apply State.setFs_follows | with_reducible apply State.Follows.ite
                 | with_reducible apply State.Follows.foldl | with_reducible apply State.Follows.foldl_fst | split
                 | dsimp only)

theorem State.setLightEn_follows {s0 s : State} (h : s0.Follows s) (m : Nat) (on : Bool) : s0.Follows (s.setLightEn m
    on) := by
  unfold State.setLightEn
  repeat' (first | intro _ | with_reducible assumption | with_reducible apply State.setF_follows
                 | with_reducible apply State.Follows.ite | with_reducible apply State.Follows.foldl
                 | with_reducible apply State.Follows.foldl_fst | split | dsimp only)

theorem State.lightUp_follows {s0 s : State} (h : s0.Follows s) (m : Nat) : s0.Follows (s.lightUp m) := by
  unfold State.lightUp
  repeat' (first | intro _ | with_reducible assumption | with_reducible apply State.setFs_follows
                 | with_reducible apply State.Follows.ite | with_reducible apply State.Follows.foldl
                 | with_reducible apply State.Follows.foldl_fst | split | dsimp only)

theorem State.bootLight_follows {s0 s : State} (h : s0.Follows s) (m : Nat) : s0.Follows (s.bootLight m) := by
  unfold State.bootLight
  repeat' (first | intro _ | with_reducible assumption | with_reducible apply State.lightUp_follows
                 | with_reducible apply State.setLightEn_follows | with_reducible apply State.Follows.ite
                 | with_reducible apply State.Follows.foldl | with_reducible apply State.Follows.foldl_fst | split
                 | dsimp only)

theorem State.askSwitch_follows {s0 s : State} (h : s0.Follows s) (m : Nat) (w : Nat) (src : Nat) (commanded : Bool) :
    s0.Follows (s.askSwitch m w src commanded) := by
  unfold State.askSwitch
  repeat' (first | intro _ | with_reducible assumption | with_reducible apply State.setF_follows
                 | with_reducible apply State.withOptics_follows | with_reducible apply State.Follows.ite
                 | with_reducible apply State.Follows.foldl | with_reducible apply State.Follows.foldl_fst | split
                 | dsimp only)

theorem State.dropSwitch_follows {s0 s : State} (h : s0.Follows s) (m : Nat) (w : Nat) : s0.Follows (s.dropSwitch m w)
    := by
  unfold State.dropSwitch
  repeat' (first | intro _ | with_reducible assumption | with_reducible apply State.setF_follows
                 | with_reducible apply State.withOptics_follows | with_reducible apply State.Follows.ite
                 | with_reducible apply State.Follows.foldl | with_reducible apply State.Follows.foldl_fst | split
                 | dsimp only)

theorem State.proposeSwitch_follows {s0 s : State} (h : s0.Follows s) (m : Nat) (w : Nat) : s0.Follows (s.proposeSwitch
    m w) := by
  unfold State.proposeSwitch
  repeat' (first | intro _ | with_reducible assumption | with_reducible apply State.askSwitch_follows
                 | with_reducible apply State.Follows.ite | with_reducible apply State.Follows.foldl
                 | with_reducible apply State.Follows.foldl_fst | split | dsimp only)

theorem State.readmitWave_follows {s0 s : State} (h : s0.Follows s) (m : Nat) (w : Nat) : s0.Follows (s.readmitWave m w)
    := by
  unfold State.readmitWave
  repeat' (first | intro _ | with_reducible assumption | with_reducible apply State.offer_follows
                 | with_reducible apply State.Follows.ite | with_reducible apply State.Follows.foldl
                 | with_reducible apply State.Follows.foldl_fst | split | dsimp only)

theorem State.sourceFault_follows {s0 s : State} (h : s0.Follows s) (m : Nat) (w : Nat) : s0.Follows (s.sourceFault m w)
    := by
  unfold State.sourceFault
  repeat' (first | intro _ | with_reducible assumption | with_reducible apply State.laneDark_follows
                 | with_reducible apply State.proposeSwitch_follows | with_reducible apply State.recordD_follows
                 | with_reducible apply State.setF_follows | with_reducible apply State.Follows.ite
                 | with_reducible apply State.Follows.foldl | with_reducible apply State.Follows.foldl_fst | split
                 | dsimp only)

theorem State.pushHist_follows {s0 s : State} (h : s0.Follows s) (m : Nat) (f : Nat → Nat) : s0.Follows (s.pushHist m f)
    := by
  unfold State.pushHist
  repeat' (first | intro _ | with_reducible assumption | with_reducible apply State.withOptics_follows
                 | with_reducible apply State.Follows.ite | with_reducible apply State.Follows.foldl
                 | with_reducible apply State.Follows.foldl_fst | split | dsimp only)

theorem State.pollReadings_follows {s0 s : State} (h : s0.Follows s) (m : Nat) (rs : List Nat) : s0.Follows
    (s.pollReadings m rs) := by
  unfold State.pollReadings
  repeat' (first | intro _ | with_reducible assumption | with_reducible apply State.pushHist_follows
                 | with_reducible apply State.setF_follows | with_reducible apply State.setFs_follows
                 | with_reducible apply State.withOptics_follows | with_reducible apply State.Follows.ite
                 | with_reducible apply State.Follows.foldl | with_reducible apply State.Follows.foldl_fst | split
                 | dsimp only)

theorem State.fadeStep_follows {s0 s : State} (h : s0.Follows s) (m : Nat) (w : Nat) (old : Nat) : s0.Follows
    (s.fadeStep m w old) := by
  unfold State.fadeStep
  repeat' (first | intro _ | with_reducible assumption | with_reducible apply State.dropSwitch_follows
                 | with_reducible apply State.proposeSwitch_follows | with_reducible apply State.recordD_follows
                 | with_reducible apply State.Follows.ite | with_reducible apply State.Follows.foldl
                 | with_reducible apply State.Follows.foldl_fst | split | dsimp only)

theorem State.evalFade_follows {s0 s : State} (h : s0.Follows s) (m : Nat) (w : Nat) : s0.Follows (s.evalFade m w) := by
  unfold State.evalFade
  repeat' (first | intro _ | with_reducible assumption | with_reducible apply State.fadeStep_follows
                 | with_reducible apply State.recordD_follows | with_reducible apply State.setFs_follows
                 | with_reducible apply State.Follows.ite | with_reducible apply State.Follows.foldl
                 | with_reducible apply State.Follows.foldl_fst | split | dsimp only)

theorem srcCmdWrite_follows {s0 s : State} (h : s0.Follows s) (m : Nat) (v : Nat) (mk : Nat) : s0.Follows (srcCmdWrite m
    s v mk) := by
  unfold srcCmdWrite
  repeat' (first | intro _ | with_reducible assumption | with_reducible apply State.askSwitch_follows
                 | with_reducible apply State.setF_follows | with_reducible apply State.storeBut_follows
                 | with_reducible apply State.Follows.ite | with_reducible apply State.Follows.foldl
                 | with_reducible apply State.Follows.foldl_fst | split | dsimp only)

theorem State.saveRegs_follows {s0 s : State} (h : s0.Follows s) (f : Nat → Bool) : s0.Follows (s.saveRegs f) := by
  unfold State.saveRegs
  repeat' (first | intro _ | with_reducible assumption | with_reducible apply State.withOptics_follows
                 | with_reducible apply State.Follows.ite | with_reducible apply State.Follows.foldl
                 | with_reducible apply State.Follows.foldl_fst | split | dsimp only)

theorem State.saveTables_follows {s0 s : State} (h : s0.Follows s) : s0.Follows s.saveTables := by
  unfold State.saveTables
  repeat' (first | intro _ | with_reducible assumption | with_reducible apply State.saveRegs_follows
                 | with_reducible apply State.Follows.ite | with_reducible apply State.Follows.foldl
                 | with_reducible apply State.Follows.foldl_fst | split | dsimp only)

theorem State.readCommissioned_follows {s0 s : State} (h : s0.Follows s) : s0.Follows s.readCommissioned := by
  unfold State.readCommissioned
  repeat' (first | intro _ | with_reducible assumption | with_reducible apply State.setF_follows
                 | with_reducible apply State.wr_follows | with_reducible apply State.Follows.ite
                 | with_reducible apply State.Follows.foldl | with_reducible apply State.Follows.foldl_fst | split
                 | dsimp only)

theorem State.takeRefs_follows {s0 s : State} (h : s0.Follows s) (m : Nat) : s0.Follows (s.takeRefs m) := by
  unfold State.takeRefs
  repeat' (first | intro _ | with_reducible assumption | with_reducible apply State.setF_follows
                 | with_reducible apply State.withOptics_follows | with_reducible apply State.Follows.ite
                 | with_reducible apply State.Follows.foldl | with_reducible apply State.Follows.foldl_fst | split
                 | dsimp only)

theorem State.spareP0_follows {s0 s : State} (h : s0.Follows s) (m : Nat) (w : Nat) : s0.Follows (s.spareP0 m w).1 := by
  unfold State.spareP0
  repeat' (first | intro _ | with_reducible assumption | with_reducible apply State.draw_follows
                 | with_reducible apply State.warmSpare_follows | with_reducible apply State.Follows.ite
                 | with_reducible apply State.Follows.foldl | with_reducible apply State.Follows.foldl_fst | split
                 | dsimp only)

theorem State.takeP0_follows {s0 s : State} (h : s0.Follows s) (m : Nat) : s0.Follows (s.takeP0 m) := by
  unfold State.takeP0
  repeat' (first | intro _ | with_reducible assumption | with_reducible apply State.setF_follows
                 | with_reducible apply State.spareP0_follows | with_reducible apply State.withOptics_follows
                 | with_reducible apply State.Follows.ite | with_reducible apply State.Follows.foldl
                 | with_reducible apply State.Follows.foldl_fst | split | dsimp only)

theorem State.commission_follows {s0 s : State} (h : s0.Follows s) (m : Nat) : s0.Follows (s.commission m) := by
  unfold State.commission
  repeat' (first | intro _ | with_reducible assumption | with_reducible apply State.saveRegs_follows
                 | with_reducible apply State.saveTables_follows | with_reducible apply State.setF_follows
                 | with_reducible apply State.takeP0_follows | with_reducible apply State.takeRefs_follows
                 | with_reducible apply State.Follows.ite | with_reducible apply State.Follows.foldl
                 | with_reducible apply State.Follows.foldl_fst | split | dsimp only)

theorem State.lightStep_follows {s0 s : State} (h : s0.Follows s) (m : Nat) : s0.Follows (s.lightStep m) := by
  unfold State.lightStep
  repeat' (first | intro _ | with_reducible assumption | with_reducible apply State.bootLight_follows
                 | with_reducible apply State.lightUp_follows | with_reducible apply State.openInterlock_follows
                 | with_reducible apply State.Follows.ite | with_reducible apply State.Follows.foldl
                 | with_reducible apply State.Follows.foldl_fst | split | dsimp only)

theorem elsCtrlWrite_follows {s0 s : State} (h : s0.Follows s) (v : Nat) (m : Nat) : s0.Follows (elsCtrlWrite s v m) :=
    by
  unfold elsCtrlWrite
  repeat' (first | intro _ | with_reducible assumption | with_reducible apply State.commission_follows
                 | with_reducible apply State.lightStep_follows | with_reducible apply State.saveTables_follows
                 | with_reducible apply State.storeBut_follows | with_reducible apply State.Follows.ite
                 | with_reducible apply State.Follows.foldl | with_reducible apply State.Follows.foldl_fst | split
                 | dsimp only)

end Sys2Proof.Machine
end

