-- ==== Sys2Proof/Laws/FollowsPmu.lean ====
section
/-! SUPPORT. What the operations of Machine/Pmu.lean do to the queue, to the canonical form and to the count of free values:
their result follows the state that they are given. -/

namespace Sys2Proof.Machine

theorem State.showOvf_follows {s0 s : State} (h : s0.Follows s) : s0.Follows s.showOvf := by
  unfold State.showOvf
  repeat' (first | intro _ | with_reducible assumption | with_reducible apply State.setF_follows
                 | with_reducible apply State.Follows.ite | with_reducible apply State.Follows.foldl
                 | with_reducible apply State.Follows.foldl_fst | split | dsimp only)

theorem State.setOvf_follows {s0 s : State} (h : s0.Follows s) (b : Nat) (u : Nat) (k : Nat) : s0.Follows (s.setOvf b u
    k) := by
  unfold State.setOvf
  repeat' (first | intro _ | with_reducible assumption | with_reducible apply State.setF_follows
                 | with_reducible apply State.Follows.ite | with_reducible apply State.Follows.foldl
                 | with_reducible apply State.Follows.foldl_fst | split | dsimp only)

theorem State.countPlain_follows {s0 s : State} (h : s0.Follows s) (b : Nat) (u : Nat) (k : Nat) (n : Nat) : s0.Follows
    (s.countPlain b u k n) := by
  unfold State.countPlain
  repeat' (first | intro _ | with_reducible assumption | with_reducible apply State.setF_follows
                 | with_reducible apply State.setOvf_follows | with_reducible apply State.Follows.ite
                 | with_reducible apply State.Follows.foldl | with_reducible apply State.Follows.foldl_fst | split
                 | dsimp only)

theorem State.countUp_follows {s0 s : State} (h : s0.Follows s) (b : Nat) (u : Nat) (k : Nat) (n : Nat) : s0.Follows
    (s.countUp b u k n) := by
  unfold State.countUp
  repeat' (first | intro _ | with_reducible assumption | with_reducible apply State.countPlain_follows
                 | with_reducible apply State.setF_follows | with_reducible apply State.Follows.ite
                 | with_reducible apply State.Follows.foldl | with_reducible apply State.Follows.foldl_fst | split
                 | dsimp only)

theorem State.countAll_follows {s0 s : State} (h : s0.Follows s) (b : Nat) (u : Nat) (amount : Nat → Nat) : s0.Follows
    (s.countAll b u amount) := by
  unfold State.countAll
  repeat' (first | intro _ | with_reducible assumption | with_reducible apply State.countUp_follows
                 | with_reducible apply State.showOvf_follows | with_reducible apply State.Follows.ite
                 | with_reducible apply State.Follows.foldl | with_reducible apply State.Follows.foldl_fst | split
                 | dsimp only)

theorem State.arrayCounters_follows {s0 s : State} (h : s0.Follows s) (c : Nat) (l : Amounts) : s0.Follows
    (s.arrayCounters c l) := by
  unfold State.arrayCounters
  repeat' (first | intro _ | with_reducible assumption | with_reducible apply State.addF_follows
                 | with_reducible apply State.Follows.ite | with_reducible apply State.Follows.foldl
                 | with_reducible apply State.Follows.foldl_fst | split | dsimp only)

theorem State.readCtr_follows {s0 s : State} (h : s0.Follows s) (b : Nat) (u : Nat) (k : Nat) : s0.Follows (s.readCtr b
    u k).1 := by
  unfold State.readCtr
  repeat' (first | intro _ | with_reducible assumption | with_reducible apply State.Follows.ite
                 | with_reducible apply State.Follows.foldl | with_reducible apply State.Follows.foldl_fst | split
                 | dsimp only | refine State.follows_latches ?_ _ (fun c => SMap.wf_put (State.canonical_latches c))
                 | refine State.follows_latches ?_ _ (fun c => SMap.wf_filter _ (State.canonical_latches c)))

theorem State.readReg_follows {s0 s : State} (h : s0.Follows s) (a : Nat) (m : Nat) : s0.Follows (s.readReg a m).1 := by
  unfold State.readReg
  repeat' (first | intro _ | with_reducible assumption | with_reducible apply State.fetch_follows
                 | with_reducible apply State.readCtr_follows | with_reducible apply State.Follows.ite
                 | with_reducible apply State.Follows.foldl | with_reducible apply State.Follows.foldl_fst | split
                 | dsimp only)

theorem State.clearCounters_follows {s0 s : State} (h : s0.Follows s) : s0.Follows s.clearCounters := by
  unfold State.clearCounters
  repeat' (first | intro _ | with_reducible assumption | with_reducible apply State.showOvf_follows
                 | with_reducible apply State.Follows.ite | with_reducible apply State.Follows.foldl
                 | with_reducible apply State.Follows.foldl_fst | split | dsimp only
                 | refine State.follows_csr ?_ _ (fun c => SMap.wf_put (State.canonical_csr c))
                 | refine State.follows_csr ?_ _ (fun c => SMap.wf_filter _ (State.canonical_csr c)))

theorem pmuCtrlWrite_follows {s0 s : State} (h : s0.Follows s) (v : Nat) (m : Nat) : s0.Follows (pmuCtrlWrite s v m) :=
    by
  unfold pmuCtrlWrite
  repeat' (first | intro _ | with_reducible assumption | with_reducible apply State.clearCounters_follows
                 | with_reducible apply State.storeBut_follows | with_reducible apply State.Follows.ite
                 | with_reducible apply State.Follows.foldl | with_reducible apply State.Follows.foldl_fst | split
                 | dsimp only)

theorem pmcSelWrite_follows {s0 s : State} (h : s0.Follows s) (b : Nat) (u : Nat) (k : Nat) (v : Nat) (m : Nat) :
    s0.Follows (pmcSelWrite b u k s v m) := by
  unfold pmcSelWrite
  repeat' (first | intro _ | with_reducible assumption | with_reducible apply State.setF_follows
                 | with_reducible apply State.storeBut_follows | with_reducible apply State.Follows.ite
                 | with_reducible apply State.Follows.foldl | with_reducible apply State.Follows.foldl_fst | split
                 | dsimp only)

theorem State.dropSample_follows {s0 s : State} (h : s0.Follows s) (x : Sample) : s0.Follows (s.dropSample x) := by
  unfold State.dropSample
  repeat' (first | intro _ | with_reducible assumption | with_reducible apply State.addF_follows
                 | with_reducible apply State.Follows.ite | with_reducible apply State.Follows.foldl
                 | with_reducible apply State.Follows.foldl_fst | split | dsimp only)

theorem psampWrite_follows {s0 s : State} (h : s0.Follows s) (c : Nat) (v : Nat) (m : Nat) : s0.Follows (psampWrite c s
    v m) := by
  unfold psampWrite
  repeat' (first | intro _ | with_reducible assumption | with_reducible apply State.setF_follows
                 | with_reducible apply State.store_follows | with_reducible apply State.storeBut_follows
                 | with_reducible apply State.Follows.ite | with_reducible apply State.Follows.foldl
                 | with_reducible apply State.Follows.foldl_fst | split | dsimp only)

end Sys2Proof.Machine
end

