-- ==== Sys2Proof/Laws/FollowsProducts.lean ====
section
/-! SUPPORT. What the operations of Machine/Products.lean do to the queue, to the canonical form and to the count of free values:
their result follows the state that they are given. -/

namespace Sys2Proof.Machine

theorem State.askRamp_follows {s0 s : State} (h : s0.Follows s) (c : Nat) : s0.Follows (s.askRamp c) := by
  unfold State.askRamp
  repeat' (first | intro _ | with_reducible assumption | with_reducible apply State.Follows.ite
                 | with_reducible apply State.Follows.foldl | with_reducible apply State.Follows.foldl_fst | split
                 | dsimp only | with_reducible apply State.follows_rampReq)

theorem State.unaskRamp_follows {s0 s : State} (h : s0.Follows s) (c : Nat) : s0.Follows (s.unaskRamp c) := by
  unfold State.unaskRamp
  repeat' (first | intro _ | with_reducible assumption | with_reducible apply State.Follows.ite
                 | with_reducible apply State.Follows.foldl | with_reducible apply State.Follows.foldl_fst | split
                 | dsimp only | with_reducible apply State.follows_rampReq)

theorem State.freeRamp_follows {s0 s : State} (h : s0.Follows s) (c : Nat) : s0.Follows (s.freeRamp c) := by
  unfold State.freeRamp
  repeat' (first | intro _ | with_reducible assumption | with_reducible apply State.Follows.ite
                 | with_reducible apply State.Follows.foldl | with_reducible apply State.Follows.foldl_fst | split
                 | dsimp only | with_reducible apply State.follows_rampHold)

theorem State.wakeArrays_follows {s0 s : State} (h : s0.Follows s) (c : Nat) (prod : Bool) : s0.Follows (s.wakeArrays c
    prod) := by
  unfold State.wakeArrays
  repeat' (first | intro _ | with_reducible assumption | with_reducible apply State.addF_follows
                 | with_reducible apply State.askRamp_follows | with_reducible apply State.freeRamp_follows
                 | with_reducible apply State.setF_follows | with_reducible apply State.setRoom_follows
                 | with_reducible apply State.unaskRamp_follows | with_reducible apply State.Follows.ite
                 | with_reducible apply State.Follows.foldl | with_reducible apply State.Follows.foldl_fst | split
                 | dsimp only
                 | with_reducible apply State.follows_rampReq)

theorem State.abandonLoad_follows {s0 s : State} (h : s0.Follows s) (c : Nat) : s0.Follows (s.abandonLoad c) := by
  unfold State.abandonLoad
  repeat' (first | intro _ | with_reducible assumption | with_reducible apply State.sampleEnd_follows
                 | with_reducible apply State.setF_follows | with_reducible apply State.setRoom_follows
                 | with_reducible apply State.signal_follows | with_reducible apply State.Follows.ite
                 | with_reducible apply State.Follows.foldl | with_reducible apply State.Follows.foldl_fst | split
                 | dsimp only)

theorem State.productBanks_follows {s0 s : State} (h : s0.Follows s) (c : Nat) (pre : Bool) (id : TileId) (data : List
    Nat) : s0.Follows (s.productBanks c pre id data) := by
  unfold State.productBanks
  repeat' (first | intro _ | with_reducible assumption | with_reducible apply State.abandonLoad_follows
                 | with_reducible apply State.setF_follows | with_reducible apply State.setFs_follows
                 | with_reducible apply State.setRoom_follows | with_reducible apply State.Follows.ite
                 | with_reducible apply State.Follows.foldl | with_reducible apply State.Follows.foldl_fst | split
                 | dsimp only)

theorem State.issueProduct_follows {s0 s : State} (h : s0.Follows s) (c : Nat) (op : Op) : s0.Follows (s.issueProduct c
    op) := by
  unfold State.issueProduct
  repeat' (first | intro _ | with_reducible assumption | with_reducible apply State.issueFault_follows
                 | with_reducible apply State.launchInsn_follows | with_reducible apply State.popHead_follows
                 | with_reducible apply State.productBanks_follows | with_reducible apply State.touchSources_follows
                 | with_reducible apply State.wakeArrays_follows | with_reducible apply State.Follows.ite
                 | with_reducible apply State.Follows.foldl | with_reducible apply State.Follows.foldl_fst | split
                 | dsimp only)

end Sys2Proof.Machine
end

