-- ==== Sys2Proof/Laws/FollowsPower.lean ====
section
/-! SUPPORT. What the operations of Machine/Power.lean do to the queue, to the canonical form and to the count of free values:
their result follows the state that they are given. -/

namespace Sys2Proof.Machine

theorem State.withPower_follows {s0 s : State} (h : s0.Follows s) (f : Power → Power) : s0.Follows (s.withPower f) := by
  unfold State.withPower
  repeat' (first | intro _ | with_reducible assumption | with_reducible apply State.Follows.ite
                 | with_reducible apply State.Follows.foldl | with_reducible apply State.Follows.foldl_fst | split
                 | dsimp only | with_reducible apply State.follows_power)

theorem State.goDark_follows {s0 s : State} (h : s0.Follows s) : s0.Follows s.goDark := by
  unfold State.goDark
  repeat' (first | intro _ | with_reducible assumption | with_reducible apply State.gloveOff_follows
                 | with_reducible apply State.zhlDown_follows | with_reducible apply State.Follows.ite
                 | with_reducible apply State.Follows.foldl | with_reducible apply State.Follows.foldl_fst | split
                 | dsimp only)

theorem vsetWrite_follows {s0 s : State} (h : s0.Follows s) (v : Nat) (m : Nat) : s0.Follows (vsetWrite s v m) := by
  unfold vsetWrite
  repeat' (first | intro _ | with_reducible assumption | with_reducible apply State.setF_follows
                 | with_reducible apply State.storeBut_follows | with_reducible apply State.Follows.ite
                 | with_reducible apply State.Follows.foldl | with_reducible apply State.Follows.foldl_fst | split
                 | dsimp only)

theorem State.readSensor_follows {s0 s : State} (h : s0.Follows s) (i : Nat) (r : BitVec 13) : s0.Follows (s.readSensor
    i r) := by
  unfold State.readSensor
  repeat' (first | intro _ | with_reducible assumption | with_reducible apply State.setF_follows
                 | with_reducible apply State.setFs_follows | with_reducible apply State.Follows.ite
                 | with_reducible apply State.Follows.foldl | with_reducible apply State.Follows.foldl_fst | split
                 | dsimp only)

theorem State.thermalHigh_follows {s0 s : State} (h : s0.Follows s) (due : Bool) (sensor : Nat) (temp : Nat) :
    s0.Follows (s.thermalHigh due sensor temp) := by
  unfold State.thermalHigh
  repeat' (first | intro _ | with_reducible assumption | with_reducible apply State.record_follows
                 | with_reducible apply State.withhold_follows | with_reducible apply State.Follows.ite
                 | with_reducible apply State.Follows.foldl | with_reducible apply State.Follows.foldl_fst | split
                 | dsimp only)

theorem State.throttle_follows {s0 s : State} (h : s0.Follows s) : s0.Follows s.throttle := by
  unfold State.throttle
  repeat' (first | intro _ | with_reducible assumption | with_reducible apply State.recordD_follows
                 | with_reducible apply State.setFs_follows | with_reducible apply State.Follows.ite
                 | with_reducible apply State.Follows.foldl | with_reducible apply State.Follows.foldl_fst | split
                 | dsimp only)

theorem State.raiseTarget_follows {s0 s : State} (h : s0.Follows s) : s0.Follows s.raiseTarget := by
  unfold State.raiseTarget
  repeat' (first | intro _ | with_reducible assumption | with_reducible apply State.setF_follows
                 | with_reducible apply State.Follows.ite | with_reducible apply State.Follows.foldl
                 | with_reducible apply State.Follows.foldl_fst | split | dsimp only)

theorem State.showHottest_follows {s0 s : State} (h : s0.Follows s) : s0.Follows s.showHottest := by
  unfold State.showHottest
  repeat' (first | intro _ | with_reducible assumption | with_reducible apply State.draw_follows
                 | with_reducible apply State.setFs_follows | with_reducible apply State.Follows.ite
                 | with_reducible apply State.Follows.foldl | with_reducible apply State.Follows.foldl_fst | split
                 | dsimp only)

theorem State.judgeHot_follows {s0 s : State} (h : s0.Follows s) (due : Bool) : s0.Follows (s.judgeHot due) := by
  unfold State.judgeHot
  repeat' (first | intro _ | with_reducible assumption | with_reducible apply State.addF_follows
                 | with_reducible apply State.setF_follows | with_reducible apply State.setFs_follows
                 | with_reducible apply State.thermalHigh_follows | with_reducible apply State.Follows.ite
                 | with_reducible apply State.Follows.foldl | with_reducible apply State.Follows.foldl_fst | split
                 | dsimp only)

theorem State.judgeMem_follows {s0 s : State} (h : s0.Follows s) (due : Bool) : s0.Follows (s.judgeMem due) := by
  unfold State.judgeMem
  repeat' (first | intro _ | with_reducible assumption | with_reducible apply State.setF_follows
                 | with_reducible apply State.thermalHigh_follows | with_reducible apply State.Follows.ite
                 | with_reducible apply State.Follows.foldl | with_reducible apply State.Follows.foldl_fst | split
                 | dsimp only)

theorem State.judgeThrottle_follows {s0 s : State} (h : s0.Follows s) : s0.Follows s.judgeThrottle := by
  unfold State.judgeThrottle
  repeat' (first | intro _ | with_reducible assumption | with_reducible apply State.setF_follows
                 | with_reducible apply State.throttle_follows | with_reducible apply State.Follows.ite
                 | with_reducible apply State.Follows.foldl | with_reducible apply State.Follows.foldl_fst | split
                 | dsimp only)

theorem thermCtrlWrite_follows {s0 s : State} (h : s0.Follows s) (v : Nat) (m : Nat) : s0.Follows (thermCtrlWrite s v m)
    := by
  unfold thermCtrlWrite
  repeat' (first | intro _ | with_reducible assumption | with_reducible apply State.store_follows
                 | with_reducible apply State.Follows.ite | with_reducible apply State.Follows.foldl
                 | with_reducible apply State.Follows.foldl_fst | split | dsimp only)

theorem powerWrite_follows {s0 s : State} (h : s0.Follows s) (v : Nat) (m : Nat) : s0.Follows (powerWrite s v m) := by
  unfold powerWrite
  repeat' (first | intro _ | with_reducible assumption | with_reducible apply State.setF_follows
                 | with_reducible apply State.storeBut_follows | with_reducible apply State.Follows.ite
                 | with_reducible apply State.Follows.foldl | with_reducible apply State.Follows.foldl_fst | split
                 | dsimp only)

theorem arrCtrlWrite_follows {s0 s : State} (h : s0.Follows s) (c : Nat) (v : Nat) (m : Nat) : s0.Follows (arrCtrlWrite
    c s v m) := by
  unfold arrCtrlWrite
  repeat' (first | intro _ | with_reducible assumption | with_reducible apply State.store_follows
                 | with_reducible apply State.wakeArrays_follows | with_reducible apply State.Follows.ite
                 | with_reducible apply State.Follows.foldl | with_reducible apply State.Follows.foldl_fst | split
                 | dsimp only)

end Sys2Proof.Machine
end

