-- ==== Sys2Proof/Laws/FollowsRegistrar.lean ====
section
/-! SUPPORT. What the operations of Machine/Registrar.lean do to the queue, to the canonical form and to the count of free values:
their result follows the state that they are given. -/

namespace Sys2Proof.Machine

theorem State.showSnap_follows {s0 s : State} (h : s0.Follows s) (p : Nat) : s0.Follows (s.showSnap p) := by
  unfold State.showSnap
  repeat' (first | intro _ | with_reducible assumption | with_reducible apply State.setFs_follows
                 | with_reducible apply State.Follows.ite | with_reducible apply State.Follows.foldl
                 | with_reducible apply State.Follows.foldl_fst | split | dsimp only)

theorem State.stepOf_follows {s0 s : State} (h : s0.Follows s) (p : Nat) (dva : Nat) : s0.Follows (s.stepOf p dva).2 :=
    by
  unfold State.stepOf
  repeat' (first | intro _ | with_reducible assumption | with_reducible apply State.draw_follows
                 | with_reducible apply State.touch_follows | with_reducible apply State.Follows.ite
                 | with_reducible apply State.Follows.foldl | with_reducible apply State.Follows.foldl_fst | split
                 | dsimp only)

theorem State.beginSnap_follows {s0 s : State} (h : s0.Follows s) (x : Nat) (p : Nat) (head : List Byte) (tab : List Byte) :
    s0.Follows (s.beginSnap x p head tab) := by
  unfold State.beginSnap
  repeat' (first | intro _ | with_reducible assumption | with_reducible apply State.setFs_follows
                 | with_reducible apply State.setSnap_follows | with_reducible apply State.setTile_follows
                 | with_reducible apply State.showSnap_follows | with_reducible apply State.stepOf_follows
                 | with_reducible apply State.Follows.ite | with_reducible apply State.Follows.foldl
                 | with_reducible apply State.Follows.foldl_fst | split | dsimp only)

theorem State.setSnapTile_follows {s0 s : State} (h : s0.Follows s) (p : Nat) (n : Nat) (t : SnapTile) : s0.Follows
    (s.setSnapTile p n t) := by
  unfold State.setSnapTile
  repeat' (first | intro _ | with_reducible assumption | with_reducible apply State.setSnap_follows
                 | with_reducible apply State.showSnap_follows | with_reducible apply State.Follows.ite
                 | with_reducible apply State.Follows.foldl | with_reducible apply State.Follows.foldl_fst | split
                 | dsimp only | refine State.follows_tiles ?_ _ (fun c => SMap.wf_put (State.canonical_tiles c))
                 | refine State.follows_tiles ?_ _ (fun c => SMap.wf_filter _ (State.canonical_tiles c)))

theorem State.setShard_follows {s0 s : State} (h : s0.Follows s) (p : Nat) (i : Nat) (k : Shard) : s0.Follows
    (s.setShard p i k) := by
  unfold State.setShard
  repeat' (first | intro _ | with_reducible assumption | with_reducible apply State.setSnap_follows
                 | with_reducible apply State.Follows.ite | with_reducible apply State.Follows.foldl
                 | with_reducible apply State.Follows.foldl_fst | split | dsimp only)

theorem State.takeTile_follows {s0 s : State} (h : s0.Follows s) (p : Nat) (n : Nat) (t : SnapTile) (touched : Bool) :
    s0.Follows (s.takeTile p n t touched) := by
  unfold State.takeTile
  repeat' (first | intro _ | with_reducible assumption | with_reducible apply State.setSnapTile_follows
                 | with_reducible apply State.Follows.ite | with_reducible apply State.Follows.foldl
                 | with_reducible apply State.Follows.foldl_fst | split | dsimp only)

theorem State.unprotect_follows {s0 s : State} (h : s0.Follows s) (tk : Nat) : s0.Follows (s.unprotect tk) := by
  unfold State.unprotect
  repeat' (first | intro _ | with_reducible assumption | with_reducible apply State.releaseHeld_follows
                 | with_reducible apply State.setTile_follows | with_reducible apply State.Follows.ite
                 | with_reducible apply State.Follows.foldl | with_reducible apply State.Follows.foldl_fst | split
                 | dsimp only)

theorem State.snapPoison_follows {s0 s : State} (h : s0.Follows s) (p : Nat) (n : Nat) (t : SnapTile) : s0.Follows
    (s.snapPoison p n t) := by
  unfold State.snapPoison
  repeat' (first | intro _ | with_reducible assumption | with_reducible apply State.setShard_follows
                 | with_reducible apply State.setSnapTile_follows | with_reducible apply State.Follows.ite
                 | with_reducible apply State.Follows.foldl | with_reducible apply State.Follows.foldl_fst | split
                 | dsimp only)

theorem State.snapFail_follows {s0 s : State} (h : s0.Follows s) (p : Nat) (i : Nat) : s0.Follows (s.snapFail p i) := by
  unfold State.snapFail
  repeat' (first | intro _ | with_reducible assumption | with_reducible apply State.setF_follows
                 | with_reducible apply State.setSnap_follows | with_reducible apply State.Follows.ite
                 | with_reducible apply State.Follows.foldl | with_reducible apply State.Follows.foldl_fst | split
                 | dsimp only)

theorem State.writeTarget_follows {s0 s : State} (h : s0.Follows s) (p : Nat) (dva : Nat) (t : SnapTile) : s0.Follows
    (s.writeTarget p dva t) := by
  unfold State.writeTarget
  repeat' (first | intro _ | with_reducible assumption | with_reducible apply State.demandWrite_follows
                 | with_reducible apply State.Follows.ite | with_reducible apply State.Follows.foldl
                 | with_reducible apply State.Follows.foldl_fst | split | dsimp only)

theorem State.closeSnap_follows {s0 s : State} (h : s0.Follows s) (p : Nat) : s0.Follows (s.closeSnap p) := by
  unfold State.closeSnap
  repeat' (first | intro _ | with_reducible assumption | with_reducible apply State.setF_follows
                 | with_reducible apply State.setFs_follows | with_reducible apply State.setSnap_follows
                 | with_reducible apply State.Follows.ite | with_reducible apply State.Follows.foldl
                 | with_reducible apply State.Follows.foldl_fst | split | dsimp only)

theorem State.finishSnap_follows {s0 s : State} (h : s0.Follows s) (p : Nat) : s0.Follows (s.finishSnap p) := by
  unfold State.finishSnap
  repeat' (first | intro _ | with_reducible assumption | with_reducible apply State.closeSnap_follows
                 | with_reducible apply State.complete_follows | with_reducible apply State.setFs_follows
                 | with_reducible apply State.Follows.ite | with_reducible apply State.Follows.foldl
                 | with_reducible apply State.Follows.foldl_fst | split | dsimp only)

theorem State.writeManifest_follows {s0 s : State} (h : s0.Follows s) (p : Nat) : s0.Follows (s.writeManifest p) := by
  unfold State.writeManifest
  repeat' (first | intro _ | with_reducible assumption | with_reducible apply State.demandWrite_follows
                 | with_reducible apply State.Follows.ite | with_reducible apply State.Follows.foldl
                 | with_reducible apply State.Follows.foldl_fst | split | dsimp only)

theorem State.beginExchange_follows {s0 s : State} (h : s0.Follows s) (p : Nat) (gid : Nat) : s0.Follows
    (s.beginExchange p gid) := by
  unfold State.beginExchange
  repeat' (first | intro _ | with_reducible assumption | with_reducible apply State.setGroup_follows
                 | with_reducible apply State.setSnap_follows | with_reducible apply State.takeEarly_follows
                 | with_reducible apply State.Follows.ite | with_reducible apply State.Follows.foldl
                 | with_reducible apply State.Follows.foldl_fst | split | dsimp only
                 | with_reducible apply State.follows_ops | with_reducible apply State.follows_posted)

theorem State.exchangeStep_follows {s0 s : State} (h : s0.Follows s) (p : Nat) (e : Nat × Nat) : s0.Follows
    (s.exchangeStep p e) := by
  unfold State.exchangeStep
  repeat' (first | intro _ | with_reducible assumption | with_reducible apply State.record_follows
                 | with_reducible apply State.setOp_follows | with_reducible apply State.Follows.ite
                 | with_reducible apply State.Follows.foldl | with_reducible apply State.Follows.foldl_fst | split
                 | dsimp only)

theorem State.exchangeEnd_follows {s0 s : State} (h : s0.Follows s) (p : Nat) (e : Nat × Nat) : s0.Follows
    (s.exchangeEnd p e) := by
  unfold State.exchangeEnd
  repeat' (first | intro _ | with_reducible assumption | with_reducible apply State.recordP_follows
                 | with_reducible apply State.setShard_follows | with_reducible apply State.Follows.ite
                 | with_reducible apply State.Follows.foldl | with_reducible apply State.Follows.foldl_fst | split
                 | dsimp only | with_reducible apply State.follows_ops)

theorem State.abortSnap_follows {s0 s : State} (h : s0.Follows s) (p : Nat) : s0.Follows (s.abortSnap p) := by
  unfold State.abortSnap
  repeat' (first | intro _ | with_reducible assumption | with_reducible apply State.closeSnap_follows
                 | with_reducible apply State.complete_follows | with_reducible apply State.draw_follows
                 | with_reducible apply State.recordP_follows | with_reducible apply State.releaseHeld_follows
                 | with_reducible apply State.setF_follows | with_reducible apply State.setTile_follows
                 | with_reducible apply State.Follows.ite | with_reducible apply State.Follows.foldl
                 | with_reducible apply State.Follows.foldl_fst | split | dsimp only
                 | with_reducible apply State.follows_ops)

end Sys2Proof.Machine
end

