-- ==== Sys2Proof/Laws/FollowsReset.lean ====
section
/-! SUPPORT. What the operations of Machine/Reset.lean do to the queue, to the canonical form and to the count of free values:
their result follows the state that they are given. -/

namespace Sys2Proof.Machine

theorem State.dropWork_follows {s0 s : State} (h : s0.Follows s) : s0.Follows s.dropWork := by
  unfold State.dropWork
  repeat' (first | intro _ | with_reducible assumption | with_reducible apply State.draw_follows
                 | with_reducible apply State.loseFlash_follows | with_reducible apply State.withSec_follows
                 | with_reducible apply State.Follows.ite | with_reducible apply State.Follows.foldl
                 | with_reducible apply State.Follows.foldl_fst | split | dsimp only)

theorem State.powerOn_follows {s0 s : State} (h : s0.Follows s) (captured : Bool) (vaux : Bool) : s0.Follows (s.powerOn
    captured vaux) := by
  unfold State.powerOn
  have g := State.dropWork_follows h
  dsimp only
  refine ⟨fun c => ?_, g.pending, g.drawn⟩
  have a := g.canonical c
  simp only [State.canonical, Memory.wf, Bool.and_eq_true] at a ⊢
  have m := SMap.wf_filter (fun e => decide (flashBase ≤ e.1)) a.1.1.1.1.1.1.1.1.1.1.1.1.1.1.1.1
  have r := SMap.wf_filter (fun e => decide (e.1 = Csr.errFatal)) a.1.1.1.1.1.1.1.1.1.1.1.1.1.1.1.2
  split <;> simp only [m, r, State.reset, SMap.wf_nil, and_self]

theorem State.dropMove_follows {s0 s : State} (h : s0.Follows s) (m : Move) : s0.Follows (s.dropMove m) := by
  unfold State.dropMove
  repeat' (first | intro _ | with_reducible assumption | with_reducible apply State.subSram_follows
                 | with_reducible apply State.toSram_follows | with_reducible apply State.Follows.ite
                 | with_reducible apply State.Follows.foldl | with_reducible apply State.Follows.foldl_fst | split
                 | dsimp only)

theorem State.warmTiles_follows {s0 s : State} (h : s0.Follows s) : s0.Follows s.warmTiles := by
  unfold State.warmTiles
  repeat' (first | intro _ | with_reducible assumption | with_reducible apply State.poisonTile_follows
                 | with_reducible apply State.toSlow_follows | with_reducible apply State.Follows.ite
                 | with_reducible apply State.Follows.foldl | with_reducible apply State.Follows.foldl_fst | split
                 | dsimp only)

theorem State.warmBase_follows {s0 s : State} (h : s0.Follows s) : s0.Follows (s.warmBase) := by
  unfold State.warmBase
  have g := State.dropWork_follows h
  dsimp only
  refine ⟨fun c => ?_, g.pending, g.drawn⟩
  have a := g.canonical c
  have m := fun p => SMap.wf_filter p (State.canonical_mem a)
  have r := fun p => SMap.wf_filter p (State.canonical_csr a)
  have o := fun f hf => SMap.wf_map f hf (State.canonical_objs a)
  have x := fun f => SMap.wf_map_filter f TileEntry.absent (State.canonical_tiles a)
  simp only [State.canonical, Memory.wf, Bool.and_eq_true]
  simp only [m, r, x, State.reset, SMap.wf_nil, and_self, and_true, true_and]
  exact o _ (fun v k hv => by cases v <;> simp_all)

theorem State.runOut_follows {s0 s : State} (h : s0.Follows s) (c : Nat) (q : Queue) (fuel : Nat) : s0.Follows (s.runOut c q
    fuel) := by
  induction fuel generalizing s c q with
  | zero =>
    unfold State.runOut
    repeat' (first | intro _ | with_reducible assumption | with_reducible apply State.finish_follows
                   | with_reducible apply State.Follows.ite | with_reducible apply State.Follows.foldl
                   | with_reducible apply State.Follows.foldl_fst | split | dsimp only)
  | succ k ih =>
    unfold State.runOut
    repeat' (first | with_reducible apply ih | intro _ | with_reducible assumption | with_reducible apply State.finish_follows
                   | with_reducible apply State.Follows.ite | with_reducible apply State.Follows.foldl
                   | with_reducible apply State.Follows.foldl_fst | split | dsimp only)

theorem State.stopCls_follows {s0 s : State} (h : s0.Follows s) (c : Nat) : s0.Follows (s.stopCls c) := by
  unfold State.stopCls
  repeat' (first | intro _ | with_reducible assumption | with_reducible apply State.clearCls_follows
                 | with_reducible apply State.endMupd_follows | with_reducible apply State.runOut_follows
                 | with_reducible apply State.setRoom_follows | with_reducible apply State.Follows.ite
                 | with_reducible apply State.Follows.foldl | with_reducible apply State.Follows.foldl_fst | split
                 | dsimp only)

theorem State.closeCtx_follows {s0 s : State} (h : s0.Follows s) (x : Nat) : s0.Follows (s.closeCtx x) := by
  unfold State.closeCtx
  repeat' (first | intro _ | with_reducible assumption | with_reducible apply State.setCtx_follows
                 | with_reducible apply State.setCtxSt_follows | with_reducible apply State.setF_follows
                 | with_reducible apply State.subF_follows | with_reducible apply State.Follows.ite
                 | with_reducible apply State.Follows.foldl | with_reducible apply State.Follows.foldl_fst | split
                 | dsimp only)

theorem State.resetSnap_follows {s0 s : State} (h : s0.Follows s) (p : Nat) : s0.Follows (s.resetSnap p) := by
  unfold State.resetSnap
  repeat' (first | intro _ | with_reducible assumption | with_reducible apply State.abortSnap_follows
                 | with_reducible apply State.Follows.ite | with_reducible apply State.Follows.foldl
                 | with_reducible apply State.Follows.foldl_fst | split | dsimp only)

theorem State.resetWindow_follows {s0 s : State} (h : s0.Follows s) (lo : Nat) (hi : Nat) : s0.Follows (s.resetWindow lo hi) := by
  unfold State.resetWindow
  repeat' (first | intro _ | with_reducible assumption | with_reducible apply State.Follows.ite
                 | with_reducible apply State.Follows.foldl | with_reducible apply State.Follows.foldl_fst | split
                 | dsimp only | refine State.follows_csr ?_ _ (fun c => SMap.wf_put (State.canonical_csr c))
                 | refine State.follows_csr ?_ _ (fun c => SMap.wf_filter _ (State.canonical_csr c)))

theorem State.resetMig_follows {s0 s : State} (h : s0.Follows s) (p : Nat) : s0.Follows (s.resetMig p) := by
  unfold State.resetMig
  repeat' (first | intro _ | with_reducible assumption | with_reducible apply State.endMove_follows
                 | with_reducible apply State.setF_follows | with_reducible apply State.setMig_follows
                 | with_reducible apply State.settleDestroys_follows | with_reducible apply State.toSlow_follows
                 | with_reducible apply State.toSram_follows | with_reducible apply State.Follows.ite
                 | with_reducible apply State.Follows.foldl | with_reducible apply State.Follows.foldl_fst | split
                 | dsimp only)

theorem State.resetPft_follows {s0 s : State} (h : s0.Follows s) (p : Nat) : s0.Follows (s.resetPft p) := by
  unfold State.resetPft
  dsimp only
  apply State.Follows.foldl
  · apply State.Follows.foldl
    · apply State.setFs_follows
      have h1 := State.follows_groups h (s.groups.filter (fun e => decide (e.1 / 4096 ≠ p)))
        (fun c => SMap.wf_filter _ (State.canonical_groups c))
      exact ⟨h1.canonical, h1.pending, h1.drawn⟩
    · intro t i ht
      exact State.setF_follows ht _ _
  · intro t k ht
    exact State.showPft_follows ht _

theorem State.resetNet_follows {s0 s : State} (h : s0.Follows s) (p : Nat) : s0.Follows (s.resetNet p) := by
  unfold State.resetNet
  repeat' (first | intro _ | with_reducible assumption | with_reducible apply State.planUnload_follows
                 | with_reducible apply State.sendRecord_follows | with_reducible apply State.setF_follows
                 | with_reducible apply State.wr_follows | with_reducible apply State.Follows.ite
                 | with_reducible apply State.Follows.foldl | with_reducible apply State.Follows.foldl_fst | split
                 | dsimp only)

theorem State.resetLogs_follows {s0 s : State} (h : s0.Follows s) (p : Nat) : s0.Follows (s.resetLogs p) := by
  unfold State.resetLogs
  repeat' (first | intro _ | with_reducible assumption | with_reducible apply State.resetWindow_follows
                 | with_reducible apply State.setF_follows | with_reducible apply State.setRing_follows
                 | with_reducible apply State.Follows.ite | with_reducible apply State.Follows.foldl
                 | with_reducible apply State.Follows.foldl_fst | split | dsimp only
                 | with_reducible apply State.follows_samples)

theorem State.wipe_follows {s0 s : State} (h : s0.Follows s) (p : Nat) : s0.Follows (s.wipe p) := by
  unfold State.wipe
  repeat' (first | intro _ | with_reducible assumption | with_reducible apply State.removeObj_follows
                 | with_reducible apply State.Follows.ite | with_reducible apply State.Follows.foldl
                 | with_reducible apply State.Follows.foldl_fst | split | dsimp only)

theorem State.resetPart_follows {s0 s : State} (h : s0.Follows s) (p : Nat) : s0.Follows (s.resetPart p) := by
  unfold State.resetPart
  have h1 := fun l => State.Follows.foldl (l := l) (f := fun t c => (State.stopCls t c).freeLessons c (fun _ => true)) h
    (fun t c ht => State.freeLessons_follows (State.stopCls_follows ht c) c (fun _ => true))
  have h2 := fun l m => State.Follows.foldl (l := l) (f := fun t x => State.closeCtx t x) (h1 m)
    (fun t x ht => State.closeCtx_follows ht x)
  have h3 := fun l m => State.resetNet_follows (State.resetPft_follows (State.resetMig_follows (State.resetSnap_follows
    (State.resetLogs_follows (h2 l m) p) p) p) p) p
  dsimp only
  split
  · exact ⟨(State.wipe_follows (h3 _ _) _).canonical, (State.wipe_follows (h3 _ _) _).pending,
      (State.wipe_follows (h3 _ _) _).drawn⟩
  · exact ⟨(h3 _ _).canonical, (h3 _ _).pending, (h3 _ _).drawn⟩

theorem prstWrite_follows {s0 s : State} (h : s0.Follows s) (v : Nat) (m : Nat) : s0.Follows (prstWrite s v m) := by
  unfold prstWrite
  repeat' (first | intro _ | with_reducible assumption | with_reducible apply State.resetPart_follows
                 | with_reducible apply State.storeBut_follows | with_reducible apply State.Follows.ite
                 | with_reducible apply State.Follows.foldl | with_reducible apply State.Follows.foldl_fst | split
                 | dsimp only)

theorem State.resetCtx_follows {s0 s : State} (h : s0.Follows s) (x : Nat) : s0.Follows (s.resetCtx x) := by
  unfold State.resetCtx
  repeat' (first | intro _ | with_reducible assumption | with_reducible apply State.abortSnap_follows
                 | with_reducible apply State.closeCtx_follows | with_reducible apply State.freeLessons_follows
                 | with_reducible apply State.leaveGroup_follows | with_reducible apply State.stopCls_follows
                 | with_reducible apply State.Follows.ite | with_reducible apply State.Follows.foldl
                 | with_reducible apply State.Follows.foldl_fst | split | dsimp only)

theorem crstWrite_follows {s0 s : State} (h : s0.Follows s) (v : Nat) (m : Nat) : s0.Follows (crstWrite s v m) := by
  unfold crstWrite
  repeat' (first | intro _ | with_reducible assumption | with_reducible apply State.resetCtx_follows
                 | with_reducible apply State.storeBut_follows | with_reducible apply State.Follows.ite
                 | with_reducible apply State.Follows.foldl | with_reducible apply State.Follows.foldl_fst | split
                 | dsimp only)

theorem State.loadFuses_follows {s0 s : State} (h : s0.Follows s) : s0.Follows s.loadFuses := by
  unfold State.loadFuses
  repeat' (first | intro _ | with_reducible assumption | with_reducible apply State.putWords_follows
                 | with_reducible apply State.setF_follows | with_reducible apply State.setFs_follows
                 | with_reducible apply State.showOwner_follows | with_reducible apply State.withSec_follows
                 | with_reducible apply State.Follows.ite | with_reducible apply State.Follows.foldl
                 | with_reducible apply State.Follows.foldl_fst | split | dsimp only)

theorem State.bootPrep_follows {s0 s : State} (h : s0.Follows s) : s0.Follows s.bootPrep := by
  unfold State.bootPrep
  repeat' (first | intro _ | with_reducible assumption | with_reducible apply State.loadFuses_follows
                 | with_reducible apply State.putWords_follows | with_reducible apply State.setF_follows
                 | with_reducible apply State.setFs_follows | with_reducible apply State.Follows.ite
                 | with_reducible apply State.Follows.foldl | with_reducible apply State.Follows.foldl_fst | split
                 | dsimp only | with_reducible apply State.follows_jtag)

theorem State.deriveAk_follows {s0 s : State} (h : s0.Follows s) (b : Nat) : s0.Follows (s.deriveAk b) := by
  unfold State.deriveAk
  repeat' (first | intro _ | with_reducible assumption | with_reducible apply State.putWords_follows
                 | with_reducible apply State.setF_follows | with_reducible apply State.withSec_follows
                 | with_reducible apply State.Follows.ite | with_reducible apply State.Follows.foldl
                 | with_reducible apply State.Follows.foldl_fst | split | dsimp only)

theorem State.setMode_follows {s0 s : State} (h : s0.Follows s) (v : Nat) : s0.Follows (s.setMode v) := by
  unfold State.setMode
  repeat' (first | intro _ | with_reducible assumption | with_reducible apply State.setFs_follows
                 | with_reducible apply State.Follows.ite | with_reducible apply State.Follows.foldl
                 | with_reducible apply State.Follows.foldl_fst | split | dsimp only)

theorem State.chooseSlot_follows {s0 s : State} (h : s0.Follows s) : s0.Follows s.chooseSlot.2 := by
  unfold State.chooseSlot
  repeat' (first | intro _ | with_reducible assumption | with_reducible apply State.saveSlots_follows
                 | with_reducible apply State.setF_follows | with_reducible apply State.withSec_follows
                 | with_reducible apply State.Follows.ite | with_reducible apply State.Follows.foldl
                 | with_reducible apply State.Follows.foldl_fst | split | dsimp only)

theorem State.trySlot_follows {s0 s : State} (h : s0.Follows s) (b : Nat) (readErr : Bool) (second : Bool) : s0.Follows
    (s.trySlot b readErr second) := by
  unfold State.trySlot
  repeat' (first | intro _ | with_reducible assumption | with_reducible apply State.deriveAk_follows
                 | with_reducible apply State.setF_follows | with_reducible apply State.setFs_follows
                 | with_reducible apply State.setMode_follows | with_reducible apply State.Follows.ite
                 | with_reducible apply State.Follows.foldl | with_reducible apply State.Follows.foldl_fst | split
                 | dsimp only)

theorem State.fallback_follows {s0 s : State} (h : s0.Follows s) : s0.Follows s.fallback := by
  unfold State.fallback
  repeat' (first | intro _ | with_reducible assumption | with_reducible apply State.recordD_follows
                 | with_reducible apply State.setF_follows | with_reducible apply State.Follows.ite
                 | with_reducible apply State.Follows.foldl | with_reducible apply State.Follows.foldl_fst | split
                 | dsimp only)

end Sys2Proof.Machine
end

