-- ==== Sys2Proof/Laws/FollowsHostWrite.lean ====
section
/-! SUPPORT. What the operations of Machine/HostWrite.lean do to the queue, to the canonical form and to the count of free values:
their result follows the state that they are given. -/

namespace Sys2Proof.Machine

theorem partMaskWrite_follows {s0 s : State} (h : s0.Follows s) (p : Nat) (a : Nat) (v : Nat) (m : Nat) : s0.Follows
    (partMaskWrite p a s v m) := by
  unfold partMaskWrite
  repeat' (first | intro _ | with_reducible assumption | with_reducible apply State.store_follows
                 | with_reducible apply State.Follows.ite | with_reducible apply State.Follows.foldl
                 | with_reducible apply State.Follows.foldl_fst | split | dsimp only)

theorem ctxBaseWrite_follows {s0 s : State} (h : s0.Follows s) (x : Nat) (a : Nat) (v : Nat) (m : Nat) : s0.Follows
    (ctxBaseWrite x a s v m) := by
  unfold ctxBaseWrite
  repeat' (first | intro _ | with_reducible assumption | with_reducible apply State.setF_follows
                 | with_reducible apply State.store_follows | with_reducible apply State.Follows.ite
                 | with_reducible apply State.Follows.foldl | with_reducible apply State.Follows.foldl_fst | split
                 | dsimp only)

theorem clsRestWrite_follows {s0 s : State} (h : s0.Follows s) (c : Nat) (a : Nat) (v : Nat) (m : Nat) : s0.Follows
    (clsRestWrite c a s v m) := by
  unfold clsRestWrite
  repeat' (first | intro _ | with_reducible assumption | with_reducible apply State.setF_follows
                 | with_reducible apply State.store_follows | with_reducible apply State.Follows.ite
                 | with_reducible apply State.Follows.foldl | with_reducible apply State.Follows.foldl_fst | split
                 | dsimp only)

theorem scaleWrite_follows {s0 s : State} (h : s0.Follows s) (c : Nat) (a : Nat) (v : Nat) (m : Nat) : s0.Follows
    (scaleWrite c a s v m) := by
  unfold scaleWrite
  repeat' (first | intro _ | with_reducible assumption | with_reducible apply clsRestWrite_follows
                 | with_reducible apply State.Follows.ite | with_reducible apply State.Follows.foldl
                 | with_reducible apply State.Follows.foldl_fst | split | dsimp only)

theorem niVerWrite_follows {s0 s : State} (h : s0.Follows s) (k : Nat) (v : Nat) (m : Nat) : s0.Follows (niVerWrite k s
    v m) := by
  unfold niVerWrite
  repeat' (first | intro _ | with_reducible assumption | with_reducible apply State.setF_follows
                 | with_reducible apply State.storeBut_follows | with_reducible apply State.Follows.ite
                 | with_reducible apply State.Follows.foldl | with_reducible apply State.Follows.foldl_fst | split
                 | dsimp only)

theorem rtabWrite_follows {s0 s : State} (h : s0.Follows s) (g : Nat) (a : Nat) (v : Nat) (m : Nat) : s0.Follows
    (rtabWrite g a s v m) := by
  unfold rtabWrite
  repeat' (first | intro _ | with_reducible assumption | with_reducible apply State.store_follows
                 | with_reducible apply State.Follows.ite | with_reducible apply State.Follows.foldl
                 | with_reducible apply State.Follows.foldl_fst | split | dsimp only)

theorem plainWrite_follows {s0 s : State} (h : s0.Follows s) (a : Nat) (v : Nat) (m : Nat) : s0.Follows (plainWrite a s
    v m) := by
  unfold plainWrite
  repeat' (first | intro _ | with_reducible assumption | with_reducible apply State.showOvf_follows
                 | with_reducible apply State.store_follows | with_reducible apply State.Follows.ite
                 | with_reducible apply State.Follows.foldl | with_reducible apply State.Follows.foldl_fst | split
                 | dsimp only)

theorem blockA_follows {s0 s : State} (h : s0.Follows s) (a : Nat) (v : Nat) (m : Nat) : s0.Follows (blockA a s v m) :=
    by
  unfold blockA
  repeat' (first | intro _ | with_reducible assumption | with_reducible apply attCtrlWrite_follows
                 | with_reducible apply attNonceWrite_follows | with_reducible apply crstWrite_follows
                 | with_reducible apply flashCmdWrite_follows | with_reducible apply fuseProgWrite_follows
                 | with_reducible apply partCfgWrite_follows | with_reducible apply partMaskWrite_follows
                 | with_reducible apply plainWrite_follows | with_reducible apply planCtrlWrite_follows
                 | with_reducible apply pmcSelWrite_follows | with_reducible apply pmuCtrlWrite_follows
                 | with_reducible apply powerWrite_follows | with_reducible apply prstWrite_follows
                 | with_reducible apply sysNodeWrite_follows | with_reducible apply thermCtrlWrite_follows
                 | with_reducible apply vsetWrite_follows | with_reducible apply State.Follows.ite
                 | with_reducible apply State.Follows.foldl | with_reducible apply State.Follows.foldl_fst | split
                 | dsimp only)

theorem blockB_follows {s0 s : State} (h : s0.Follows s) (port : Nat) (a : Nat) (v : Nat) (m : Nat) : s0.Follows (blockB
    port a s v m) := by
  unfold blockB
  repeat' (first | intro _ | with_reducible assumption | with_reducible apply ctxBaseWrite_follows
                 | with_reducible apply ctxStateWrite_follows | with_reducible apply plainWrite_follows
                 | with_reducible apply sqTailWrite_follows | with_reducible apply zhlCtrlWrite_follows
                 | with_reducible apply State.Follows.ite | with_reducible apply State.Follows.foldl
                 | with_reducible apply State.Follows.foldl_fst | split | dsimp only)

theorem blockCls_follows {s0 s : State} (h : s0.Follows s) (a : Nat) (c : Nat) (o : Nat) (v : Nat) (m : Nat) :
    s0.Follows (blockCls a c o s v m) := by
  unfold blockCls
  repeat' (first | intro _ | with_reducible assumption | with_reducible apply arrCtrlWrite_follows
                 | with_reducible apply clsRestWrite_follows | with_reducible apply plainWrite_follows
                 | with_reducible apply pmcSelWrite_follows | with_reducible apply psampWrite_follows
                 | with_reducible apply scaleWrite_follows | with_reducible apply State.Follows.ite
                 | with_reducible apply State.Follows.foldl | with_reducible apply State.Follows.foldl_fst | split
                 | dsimp only)

theorem blockC_follows {s0 s : State} (h : s0.Follows s) (a : Nat) (v : Nat) (m : Nat) : s0.Follows (blockC a s v m) :=
    by
  unfold blockC
  repeat' (first | intro _ | with_reducible assumption | with_reducible apply migBaseWrite_follows
                 | with_reducible apply migCfgWrite_follows | with_reducible apply migTailWrite_follows
                 | with_reducible apply niCtrlWrite_follows | with_reducible apply niVerWrite_follows
                 | with_reducible apply pftBaseWrite_follows | with_reducible apply pftTailWrite_follows
                 | with_reducible apply plainWrite_follows | with_reducible apply planEntryWrite_follows
                 | with_reducible apply pmcSelWrite_follows | with_reducible apply rcStateWrite_follows
                 | with_reducible apply State.Follows.ite | with_reducible apply State.Follows.foldl
                 | with_reducible apply State.Follows.foldl_fst | split | dsimp only)

theorem blockD_follows {s0 s : State} (h : s0.Follows s) (a : Nat) (v : Nat) (m : Nat) : s0.Follows (blockD a s v m) :=
    by
  unfold blockD
  repeat' (first | intro _ | with_reducible assumption | with_reducible apply arbWrite_follows
                 | with_reducible apply elsCtrlWrite_follows | with_reducible apply fwWrite_follows
                 | with_reducible apply glvCtrlWrite_follows | with_reducible apply glvRetireWrite_follows
                 | with_reducible apply plainWrite_follows | with_reducible apply rtabWrite_follows
                 | with_reducible apply srcCmdWrite_follows | with_reducible apply State.Follows.ite
                 | with_reducible apply State.Follows.foldl | with_reducible apply State.Follows.foldl_fst | split
                 | dsimp only)

theorem regWrite_follows {s0 s : State} (h : s0.Follows s) (port : Nat) (a : Nat) (v : Nat) (m : Nat) : s0.Follows
    (regWrite port a s v m) := by
  unfold regWrite
  repeat' (first | intro _ | with_reducible assumption | with_reducible apply blockA_follows
                 | with_reducible apply blockB_follows | with_reducible apply blockC_follows
                 | with_reducible apply blockCls_follows | with_reducible apply blockD_follows
                 | with_reducible apply State.Follows.ite | with_reducible apply State.Follows.foldl
                 | with_reducible apply State.Follows.foldl_fst | split | dsimp only)

end Sys2Proof.Machine
end

