-- ==== Sys2Proof/Laws/FollowsMove.lean ====
section
/-! SUPPORT. What the operations of Machine/Move.lean do to the queue, to the canonical form and to the count of free values:
their result follows the state that they are given. -/

namespace Sys2Proof.Machine

theorem State.deferLast_follows {s0 s : State} (h : s0.Follows s) (c : Nat) : s0.Follows (s.deferLast c) := by
  unfold State.deferLast
  repeat' (first | intro _ | with_reducible assumption | with_reducible apply State.setRoom_follows
                 | with_reducible apply State.Follows.ite | with_reducible apply State.Follows.foldl
                 | with_reducible apply State.Follows.foldl_fst | split | dsimp only)

theorem State.stopMove_follows {s0 s : State} (h : s0.Follows s) (c : Nat) (e : QEntry) (chosen : Bool) (wait : Nat) (m
    : MoveStop) : s0.Follows (s.stopMove c e chosen wait m) := by
  unfold State.stopMove
  repeat' (first | intro _ | with_reducible assumption | with_reducible apply State.demandWrite_follows
                 | with_reducible apply State.endPrefetch_follows | with_reducible apply State.faultCls_follows
                 | with_reducible apply State.sampleEnd_follows | with_reducible apply State.Follows.ite
                 | with_reducible apply State.Follows.foldl | with_reducible apply State.Follows.foldl_fst | split
                 | dsimp only)

theorem State.issueMove_follows {s0 s : State} (h : s0.Follows s) (c : Nat) (op : Op) (streamed : Bool) (run : QEntry →
    Except MoveStop Result) (reads : QEntry → List Nat) : s0.Follows (s.issueMove c op streamed run reads) := by
  unfold State.issueMove
  repeat' (first | intro _ | with_reducible assumption | with_reducible apply State.deferLast_follows
                 | with_reducible apply State.launchInsn_follows | with_reducible apply State.popHead_follows
                 | with_reducible apply State.sampleIssue_follows | with_reducible apply State.startPrefetch_follows
                 | with_reducible apply State.stopMove_follows | with_reducible apply State.touch_follows
                 | with_reducible apply State.Follows.ite | with_reducible apply State.Follows.foldl
                 | with_reducible apply State.Follows.foldl_fst | split | dsimp only)

theorem State.prefTile_follows {s0 s : State} (h : s0.Follows s) (c : Nat) (p : Nat) (nopref : Bool) (first : Option
    Nat) (a : Nat) : s0.Follows (s.prefTile c p nopref first a) := by
  unfold State.prefTile
  repeat' (first | intro _ | with_reducible assumption | with_reducible apply State.addF_follows
                 | with_reducible apply State.Follows.ite | with_reducible apply State.Follows.foldl
                 | with_reducible apply State.Follows.foldl_fst | split | dsimp only
                 | with_reducible apply State.follows_prefq)

theorem State.prefRegion_follows {s0 s : State} (h : s0.Follows s) (c : Nat) (p : Nat) (d : RDesc) : s0.Follows
    (s.prefRegion c p d) := by
  unfold State.prefRegion
  repeat' (first | intro _ | with_reducible assumption | with_reducible apply State.prefTile_follows
                 | with_reducible apply State.Follows.ite | with_reducible apply State.Follows.foldl
                 | with_reducible apply State.Follows.foldl_fst | split | dsimp only)

theorem State.stopDeferred_follows {s0 s : State} (h : s0.Follows s) (c : Nat) (n : Nat) (f : InFlight) (m : MoveStop) :
    s0.Follows (s.stopDeferred c n f m) := by
  unfold State.stopDeferred
  repeat' (first | intro _ | with_reducible assumption | with_reducible apply State.setRoom_follows
                 | with_reducible apply State.stopMove_follows | with_reducible apply State.Follows.ite
                 | with_reducible apply State.Follows.foldl | with_reducible apply State.Follows.foldl_fst | split
                 | dsimp only)

theorem State.formDeferred_follows {s0 s : State} (h : s0.Follows s) (c : Nat) (n : Nat) (g : InFlight) : s0.Follows
    (s.formDeferred c n g) := by
  unfold State.formDeferred
  repeat' (first | intro _ | with_reducible assumption | with_reducible apply State.setRoom_follows
                 | with_reducible apply State.touch_follows | with_reducible apply State.Follows.ite
                 | with_reducible apply State.Follows.foldl | with_reducible apply State.Follows.foldl_fst | split
                 | dsimp only)

end Sys2Proof.Machine
end

