-- ==== Sys2Proof/Laws/FollowsPolicy.lean ====
section
/-! SUPPORT. What the operations of Machine/Policy.lean do to the queue, to the canonical form and to the count of free values:
their result follows the state that they are given. -/

namespace Sys2Proof.Machine

theorem State.policyEffect_follows {s0 s : State} (h : s0.Follows s) (id : Nat) (was : Bool) (now : Bool) : s0.Follows
    (s.policyEffect id was now) := by
  unfold State.policyEffect
  repeat' (first | intro _ | with_reducible assumption | with_reducible apply State.retireStep_follows
                 | with_reducible apply State.setF_follows | with_reducible apply State.Follows.ite
                 | with_reducible apply State.Follows.foldl | with_reducible apply State.Follows.foldl_fst | split
                 | dsimp only)

theorem State.putPolicy_follows {s0 s : State} (h : s0.Follows s) (id : Nat) (p : Nat) (arm : Bool) (param : Nat) :
    s0.Follows (s.putPolicy id p arm param) := by
  unfold State.putPolicy
  repeat' (first | intro _ | with_reducible assumption | with_reducible apply State.policyEffect_follows
                 | with_reducible apply State.setF_follows | with_reducible apply State.Follows.ite
                 | with_reducible apply State.Follows.foldl | with_reducible apply State.Follows.foldl_fst | split
                 | dsimp only)

theorem State.policyChanged_follows {s0 s : State} (h : s0.Follows s) (id : Nat) (p : Nat) (arm : Bool) (param : Nat) :
    s0.Follows (s.policyChanged id p arm param) := by
  unfold State.policyChanged
  repeat' (first | intro _ | with_reducible assumption | with_reducible apply State.recordD_follows
                 | with_reducible apply State.recordDP_follows | with_reducible apply State.Follows.ite
                 | with_reducible apply State.Follows.foldl | with_reducible apply State.Follows.foldl_fst | split
                 | dsimp only)

end Sys2Proof.Machine
end

