-- ==== Sys2Proof/Laws/FollowsRestore.lean ====
section
/-! SUPPORT. What the operations of Machine/Restore.lean do to the queue, to the canonical form and to the count of free values:
their result follows the state that they are given. -/

namespace Sys2Proof.Machine

theorem State.restoreNet_follows {s0 s : State} (h : s0.Follows s) (p : Nat) (m : Manifest) : s0.Follows (s.restoreNet p
    m) := by
  unfold State.restoreNet
  repeat' (first | intro _ | with_reducible assumption | with_reducible apply State.planUnload_follows
                 | with_reducible apply State.sendRecord_follows | with_reducible apply State.setF_follows
                 | with_reducible apply State.store_follows | with_reducible apply State.Follows.ite
                 | with_reducible apply State.Follows.foldl | with_reducible apply State.Follows.foldl_fst | split
                 | dsimp only)

theorem State.restoreTransit_follows {s0 s : State} (h : s0.Follows s) (p : Nat) (m : Manifest) : s0.Follows
    (s.restoreTransit p m) := by
  unfold State.restoreTransit
  repeat' (first | intro _ | with_reducible assumption | with_reducible apply State.setF_follows
                 | with_reducible apply State.store_follows | with_reducible apply State.Follows.ite
                 | with_reducible apply State.Follows.foldl | with_reducible apply State.Follows.foldl_fst | split
                 | dsimp only)

theorem State.restorePolicy_follows {s0 s : State} (h : s0.Follows s) (p : Nat) (m : Manifest) : s0.Follows
    (s.restorePolicy p m) := by
  unfold State.restorePolicy
  repeat' (first | intro _ | with_reducible assumption | with_reducible apply State.policyChanged_follows
                 | with_reducible apply State.putPolicy_follows | with_reducible apply State.Follows.ite
                 | with_reducible apply State.Follows.foldl | with_reducible apply State.Follows.foldl_fst | split
                 | dsimp only)

theorem State.restoreNode_follows {s0 s : State} (h : s0.Follows s) (p : Nat) (m : Manifest) : s0.Follows (s.restoreNode
    p m).1 := by
  unfold State.restoreNode
  repeat' (first | intro _ | with_reducible assumption | with_reducible apply State.sendRecord_follows
                 | with_reducible apply State.setF_follows | with_reducible apply State.Follows.ite
                 | with_reducible apply State.Follows.foldl | with_reducible apply State.Follows.foldl_fst | split
                 | dsimp only)

theorem State.restoreCls_follows {s0 s : State} (h : s0.Follows s) (m : Manifest) : s0.Follows (s.restoreCls m) := by
  unfold State.restoreCls
  repeat' (first | intro _ | with_reducible assumption | with_reducible apply State.store_follows
                 | with_reducible apply State.Follows.ite | with_reducible apply State.Follows.foldl
                 | with_reducible apply State.Follows.foldl_fst | split | dsimp only)

theorem State.restoreGroups_follows {s0 s : State} (h : s0.Follows s) (x : Nat) (p : Nat) (m : Manifest) : s0.Follows
    (s.restoreGroups x p m) := by
  unfold State.restoreGroups
  repeat' (first | intro _ | with_reducible assumption | with_reducible apply State.addF_follows
                 | with_reducible apply State.leaveGroup_follows | with_reducible apply State.setGroup_follows
                 | with_reducible apply State.Follows.ite | with_reducible apply State.Follows.foldl
                 | with_reducible apply State.Follows.foldl_fst | split | dsimp only)

theorem State.restoreTile_follows {s0 s : State} (h : s0.Follows s) (p : Nat) (dva : Nat) (copy : Option (List Byte)) :
    s0.Follows (s.restoreTile p dva copy).1 := by
  unfold State.restoreTile
  repeat' (first | intro _ | with_reducible assumption | with_reducible apply State.writeAll_follows
                 | with_reducible apply State.Follows.ite | with_reducible apply State.Follows.foldl
                 | with_reducible apply State.Follows.foldl_fst | split | dsimp only)

theorem State.restoreShards_follows {s0 s : State} (h : s0.Follows s) (p : Nat) (m : Manifest) (copies : List (List
    (Option (List Byte)))) : s0.Follows (s.restoreShards p m copies).1 := by
  unfold State.restoreShards
  repeat' (first | intro _ | with_reducible assumption | with_reducible apply State.restoreTile_follows
                 | with_reducible apply State.Follows.ite | with_reducible apply State.Follows.foldl
                 | with_reducible apply State.Follows.foldl_fst | split | dsimp only)

theorem State.numberAt_follows {s0 s : State} (h : s0.Follows s) (p : Nat) (dva : Nat) (n : Nat) : s0.Follows
    (s.numberAt p dva n).1 := by
  unfold State.numberAt
  repeat' (first | intro _ | with_reducible assumption | with_reducible apply State.draw_follows
                 | with_reducible apply State.touch_follows | with_reducible apply State.Follows.ite
                 | with_reducible apply State.Follows.foldl | with_reducible apply State.Follows.foldl_fst | split
                 | dsimp only)

theorem State.compareAt_follows {s0 s : State} (h : s0.Follows s) (p : Nat) (index : Nat) (found : Nat) (expected : Nat)
    : s0.Follows (s.compareAt p index found expected).1 := by
  unfold State.compareAt
  repeat' (first | intro _ | with_reducible assumption | with_reducible apply State.numberAt_follows
                 | with_reducible apply State.recordP_follows | with_reducible apply State.Follows.ite
                 | with_reducible apply State.Follows.foldl | with_reducible apply State.Follows.foldl_fst | split
                 | dsimp only)

theorem State.checkStreams_follows {s0 s : State} (h : s0.Follows s) (p : Nat) (m : Manifest) : s0.Follows
    (s.checkStreams p m).1 := by
  unfold State.checkStreams
  repeat' (first | intro _ | with_reducible assumption | with_reducible apply State.compareAt_follows
                 | with_reducible apply State.numberAt_follows | with_reducible apply State.Follows.ite
                 | with_reducible apply State.Follows.foldl | with_reducible apply State.Follows.foldl_fst | split
                 | dsimp only)

theorem State.countRead_follows {s0 s : State} (h : s0.Follows s) (e : Option AccErr) : s0.Follows (s.countRead e) := by
  unfold State.countRead
  repeat' (first | intro _ | with_reducible assumption | with_reducible apply State.countHit_follows
                 | with_reducible apply State.Follows.ite | with_reducible apply State.Follows.foldl
                 | with_reducible apply State.Follows.foldl_fst | split | dsimp only)

theorem State.applySnap_follows {s0 s : State} (h : s0.Follows s) (x : Nat) (p : Nat) (m : Manifest) (copies : List
    (List (Option (List Byte)))) : s0.Follows (s.applySnap x p m copies).1 := by
  unfold State.applySnap
  repeat' (first | intro _ | with_reducible assumption | with_reducible apply State.checkStreams_follows
                 | with_reducible apply State.restoreCls_follows | with_reducible apply State.restoreGroups_follows
                 | with_reducible apply State.restoreNet_follows | with_reducible apply State.restoreNode_follows
                 | with_reducible apply State.restorePolicy_follows | with_reducible apply State.restoreShards_follows
                 | with_reducible apply State.restoreTransit_follows | with_reducible apply State.Follows.ite
                 | with_reducible apply State.Follows.foldl | with_reducible apply State.Follows.foldl_fst | split
                 | dsimp only)

end Sys2Proof.Machine
end

