-- ==== Sys2Proof/Laws/FollowsSync.lean ====
section
/-! SUPPORT. What the operations of Machine/Sync.lean do to the queue, to the canonical form and to the count of free values:
their result follows the state that they are given. -/

namespace Sys2Proof.Machine

theorem State.tokenOp_follows {s0 s : State} (h : s0.Follows s) (c : Nat) (e : QEntry) : s0.Follows (s.tokenOp c e) :=
    by
  unfold State.tokenOp
  repeat' (first | intro _ | with_reducible assumption | with_reducible apply State.setF_follows
                 | with_reducible apply State.tokenAdd_follows | with_reducible apply State.Follows.ite
                 | with_reducible apply State.Follows.foldl | with_reducible apply State.Follows.foldl_fst | split
                 | dsimp only)

theorem State.mapLastS_follows {s0 s : State} (h : s0.Follows s) (c : Nat) (f : InFlight → InFlight) : s0.Follows
    (s.mapLastS c f) := by
  unfold State.mapLastS
  repeat' (first | intro _ | with_reducible assumption | with_reducible apply State.setRoom_follows
                 | with_reducible apply State.Follows.ite | with_reducible apply State.Follows.foldl
                 | with_reducible apply State.Follows.foldl_fst | split | dsimp only)

theorem State.setBar_follows {s0 s : State} (h : s0.Follows s) (k : Nat) (b : Barrier) : s0.Follows (s.setBar k b) := by
  unfold State.setBar
  repeat' (first | intro _ | with_reducible assumption | with_reducible apply State.Follows.ite
                 | with_reducible apply State.Follows.foldl | with_reducible apply State.Follows.foldl_fst | split
                 | dsimp only | refine State.follows_bars ?_ _ (fun c => SMap.wf_put (State.canonical_bars c))
                 | refine State.follows_bars ?_ _ (fun c => SMap.wf_filter _ (State.canonical_bars c)))

theorem State.releaseBar_follows {s0 s : State} (h : s0.Follows s) (x : Nat) (b : Nat) (c : Nat) : s0.Follows
    (s.releaseBar x b c) := by
  unfold State.releaseBar
  repeat' (first | intro _ | with_reducible assumption | with_reducible apply State.setRoom_follows
                 | with_reducible apply State.Follows.ite | with_reducible apply State.Follows.foldl
                 | with_reducible apply State.Follows.foldl_fst | split | dsimp only)

end Sys2Proof.Machine
end

