-- ==== Sys2Proof/Laws/FollowsTransit.lean ====
section
/-! SUPPORT. What the operations of Machine/Transit.lean do to the queue, to the canonical form and to the count of free values:
their result follows the state that they are given. -/

namespace Sys2Proof.Machine

theorem State.limited_follows {s0 s : State} (h : s0.Follows s) (due : Bool) (r : Rec) : s0.Follows (s.limited due r) :=
    by
  unfold State.limited
  repeat' (first | intro _ | with_reducible assumption | with_reducible apply State.record_follows
                 | with_reducible apply State.withhold_follows | with_reducible apply State.Follows.ite
                 | with_reducible apply State.Follows.foldl | with_reducible apply State.Follows.foldl_fst | split
                 | dsimp only)

theorem State.tagDrop_follows {s0 s : State} (h : s0.Follows s) (k : Nat) (data : List Byte) (due : Bool) : s0.Follows
    (s.tagDrop k data due) := by
  unfold State.tagDrop
  repeat' (first | intro _ | with_reducible assumption | with_reducible apply State.addF_follows
                 | with_reducible apply State.limited_follows | with_reducible apply State.Follows.ite
                 | with_reducible apply State.Follows.foldl | with_reducible apply State.Follows.foldl_fst | split
                 | dsimp only)

end Sys2Proof.Machine
end

