-- ==== Sys2Proof/Laws/Host.lean ====
section
/-! SUPPORT. What a register write by the management owner's port does, and which fields a register write leaves. -/

namespace Sys2Proof.Machine

/-- To answer, show the next state and what holds of it. -/
theorem answers_of {i : Instr} {s t : State} {P : State → Prop} (h : exec i s = .next t) (p : P t) : answers i s P := ⟨t, h, p⟩

theorem allBits_and {n : Nat} (h : n < 2 ^ 64) : n &&& allBits = n := by
  have e : allBits = 2 ^ 64 - 1 := by decide
  rw [e, Nat.and_two_pow_sub_one_eq_mod, Nat.mod_eq_of_lt h]

/-- The management owner's port may do everything at every address once the device has booted. -/
theorem State.access_owner {s : State} {port a : Nat} (h : s.OwnerPort port) : s.access port a = .full := by
  unfold State.access
  rw [h.booted]
  simp [h.owner]

/-- The management owner's port may write every register whole. -/
theorem State.OwnerPort.full {s : State} {port a : Nat} (h : s.OwnerPort port) : s.FullPort port a :=
  ⟨h.up, State.access_owner h⟩

/-- A full write that keeps no bit back is carried out with the value as it is. -/
theorem State.hostWrite_full {s : State} {port a : Nat} {v : Word} {act : State → Nat → Nat → State} (h : s.FullPort port a) :
    s.hostWrite port a .full v act = act s v.toNat allBits := by
  unfold State.hostWrite State.portServes
  rw [h.up, h.access]
  have e : accMask .full - (accMask .full &&& Access.full.keep) = allBits := by decide
  have f : Access.full.write = true := by decide
  simp only [Bool.not_true, Bool.false_eq_true, if_false, e, f]
  rw [allBits_and v.isLt]

/-- A full write by the management owner's port is carried out with the value as it is. -/
theorem State.hostWrite_owner {s : State} {port a : Nat} {v : Word} {act : State → Nat → Nat → State} (h : s.OwnerPort port) :
    s.hostWrite port a .full v act = act s v.toNat allBits := State.hostWrite_full h.full

/-- A full read by the management owner's port is answered with what the register gives. -/
theorem State.hostRead_owner {s : State} {port a : Nat} {act : State → Nat → State × Word} (h : s.OwnerPort port) :
    s.hostRead port a .full act =
      { (act s allBits).1 with replies := (act s allBits).1.replies ++ [⟨port, .ok, leBytes 8 (act s allBits).2.toNat⟩] } := by
  unfold State.hostRead State.portServes
  rw [h.up, State.access_owner h]
  have e : accMask .full = allBits := by decide
  have f : Access.full.read = true := by decide
  simp only [Bool.not_true, Bool.false_eq_true, if_false, e, f]
  rfl

theorem wordSet_self {w : Word} {lo len : Nat} (h : lo + len ≤ 64) : wordSet w lo len (wordGet w lo len) = w := by
  apply BitVec.eq_of_toNat_eq
  rw [wordSet_toNat h]
  unfold wordGet
  rw [Nat.mod_mod]
  have : w.toNat / 2 ^ (lo + len) = w.toNat / 2 ^ lo / 2 ^ len := by rw [Nat.div_div_eq_div_mul, Nat.pow_add]
  rw [this, Nat.mod_add_div, Nat.mod_add_div]

/-- A field keeps its value where the write's mask covers none of its bits. -/
theorem FieldSpec.written_zero {f : FieldSpec} {o v : Nat} : f.written o v 0 = o := by
  unfold FieldSpec.written
  cases f.ty <;> simp

/-- A field of a type that a write does not store to. -/
def FieldSpec.unstored (f : FieldSpec) : Bool := decide (f.ty = .ro) || decide (f.ty = .rc) || decide (f.ty = .wo)

theorem FieldSpec.written_unstored {f : FieldSpec} {o v m : Nat} (h : f.unstored = true) : f.written o v m = o := by
  unfold FieldSpec.unstored at h
  unfold FieldSpec.written
  cases e : f.ty <;> simp_all

/-- A write leaves the bits of every field that it does not cover or does not store to, and the bits of no field. -/
theorem wordGet_writeFields_keep {mask v : Word} {lo len : Nat} : ∀ {fs : List FieldSpec} {w : Word},
    (∀ f ∈ fs, f.lo + f.len ≤ 64 ∧ (f.lo + f.len ≤ lo ∨ lo + len ≤ f.lo ∨ wordGet mask f.lo f.len = 0 ∨ f.unstored = true)) →
    wordGet (writeFields fs mask v w) lo len = wordGet w lo len
  | [], _, _ => rfl
  | f :: r, w, h => by
    have hf := h f (by simp)
    rw [writeFields, wordGet_writeFields_keep (fun g hg => h g (by simp [hg]))]
    rcases hf.2 with e | e | e | e
    · exact wordGet_wordSet_above hf.1 e
    · exact wordGet_wordSet_below hf.1 e
    · rw [e, FieldSpec.written_zero, wordSet_self hf.1]
    · rw [FieldSpec.written_unstored e, wordSet_self hf.1]

/-- The mask of a write leaves a field of the register alone. -/
def keepsField (a mask : Nat) (g : Fld) : Bool :=
  (fieldsAt a).all (fun f => decide (f.lo + f.len ≤ 64) && (decide (f.lo + f.len ≤ g.lo) || decide (g.lo + g.len ≤ f.lo)
    || decide (wordGet (BitVec.ofNat 64 mask) f.lo f.len = 0) || f.unstored))

theorem State.getF_store_keep {s : State} {a v m : Nat} {g : Fld} (h : g.addr ≠ a ∨ keepsField a m g = true) :
    (s.store a v m).getF g = s.getF g := by
  unfold State.store State.getF
  rw [State.rd_wr]
  split
  · rename_i e
    rcases h with h | h
    · exact absurd e h
    · rw [e]
      apply wordGet_writeFields_keep
      intro f hf
      have := List.all_eq_true.mp h f hf
      simp only [Bool.and_eq_true, Bool.or_eq_true, decide_eq_true_eq] at this
      exact ⟨this.1, by tauto⟩
  · rfl

/-- The mask of `storeBut`: all but the listed fields. -/
def butMask (m : Nat) (fs : List Fld) : Nat := fs.foldl (fun n f => n - (n &&& ((2 ^ f.len - 1) * 2 ^ f.lo))) m

theorem State.storeBut_eq {s : State} {a v m : Nat} {fs : List Fld} : s.storeBut a v m fs = s.store a v (butMask m fs) := rfl

theorem State.getF_storeBut_keep {s : State} {a v m : Nat} {fs : List Fld} {g : Fld}
    (h : g.addr ≠ a ∨ keepsField a (butMask m fs) g = true) : (s.storeBut a v m fs).getF g = s.getF g :=
  State.getF_store_keep h

@[simp] theorem State.rd_store_ne {s : State} {a b v m : Nat} (h : b ≠ a) : (s.store a v m).rd b = s.rd b := by
  unfold State.store
  rw [State.rd_wr, if_neg h]

@[simp] theorem State.rd_storeBut_ne {s : State} {a b v m : Nat} {fs : List Fld} (h : b ≠ a) : (s.storeBut a v m fs).rd b = s.rd b :=
  State.rd_store_ne h

theorem State.rd_setF_ne {s : State} {f : Fld} {b v : Nat} (h : b ≠ f.addr) : (s.setF f v).rd b = s.rd b := by
  unfold State.setF
  rw [State.rd_wr, if_neg h]

theorem State.store_rest {s : State} {a v m : Nat} : s.store a v m = { s with csr := (s.store a v m).csr } := rfl

theorem State.storeBut_rest {s : State} {a v m : Nat} {fs : List Fld} :
    s.storeBut a v m fs = { s with csr := (s.storeBut a v m fs).csr } := rfl

theorem allBits_field {lo len : Nat} (h : lo + len ≤ 64) : allBits / 2 ^ lo % 2 ^ len = 2 ^ len - 1 := by
  have e : allBits = 2 ^ 64 - 1 := by decide
  rw [e]
  apply Nat.eq_of_testBit_eq
  intro i
  rw [Nat.testBit_mod_two_pow, Nat.testBit_div_two_pow, Nat.testBit_two_pow_sub_one, Nat.testBit_two_pow_sub_one]
  by_cases hi : i < len
  · simp only [hi, decide_true, Bool.true_and, decide_eq_true_eq]
    omega
  · simp [hi]

/-- A full write names every field. -/
theorem wroteF_full {v : Nat} {f : Fld} (h : f.fits = true) (hl : f.len ≠ 0) :
    wroteF v allBits f = some (v / 2 ^ f.lo % 2 ^ f.len) := by
  have hfit : f.lo + f.len ≤ 64 := by simpa [Fld.fits] using h
  have : 2 ^ 1 ≤ 2 ^ f.len := Nat.pow_le_pow_right (by omega) (by omega)
  unfold wroteF
  rw [allBits_field hfit, if_neg (by omega)]

/-- A full write gives a field the written value. -/
theorem State.merged_full {s : State} {v : Nat} {f : Fld} (h : f.fits = true) :
    s.merged v allBits f = v / 2 ^ f.lo % 2 ^ f.len := by
  have hfit : f.lo + f.len ≤ 64 := by simpa [Fld.fits] using h
  unfold State.merged
  simp only [allBits_field hfit]
  rw [Nat.and_two_pow_sub_one_eq_mod, Nat.and_two_pow_sub_one_eq_mod, Nat.mod_mod,
    Nat.mod_eq_of_lt (State.getF_lt (s := s) (f := f)), Nat.sub_self, Nat.or_zero]

end Sys2Proof.Machine
end

