-- ==== Sys2Proof/Laws/State.lean ====
section
/-! SUPPORT. What each basic update of the state leaves as it was, field by field and reader by reader, and what the reader
of the field that it writes then reads. -/

namespace Sys2Proof.Machine

variable (s : State)

/-- Setting fields changes the registers only. -/
theorem State.setFs_eq (l : List (Fld × Nat)) : ∃ m, s.setFs l = { s with csr := m } := by
  unfold State.setFs
  induction l generalizing s with
  | nil => exact ⟨s.csr, rfl⟩
  | cons x r ih =>
    obtain ⟨m, e⟩ := ih (s.setF x.1 x.2)
    exact ⟨m, by rw [List.foldl_cons, e]; rfl⟩

/-- Writing bytes changes memory only. -/
theorem State.pokeN_eq (a : Nat) (bs : List Byte) : ∃ m, s.pokeN a bs = { s with mem := m } := by
  induction bs generalizing s a with
  | nil => exact ⟨s.mem, rfl⟩
  | cons b r ih =>
    obtain ⟨m, e⟩ := ih (s.poke a b) (a + 1)
    exact ⟨m, by rw [State.pokeN, e]; rfl⟩

/-! ## wr -/

@[simp] theorem State.wr_mem (a : Nat) (w : Word) : (s.wr a w).mem = s.mem := (rfl)
@[simp] theorem State.wr_cls (a : Nat) (w : Word) : (s.wr a w).cls = s.cls := (rfl)
@[simp] theorem State.wr_ctxs (a : Nat) (w : Word) : (s.wr a w).ctxs = s.ctxs := (rfl)
@[simp] theorem State.wr_bars (a : Nat) (w : Word) : (s.wr a w).bars = s.bars := (rfl)
@[simp] theorem State.wr_snaps (a : Nat) (w : Word) : (s.wr a w).snaps = s.snaps := (rfl)
@[simp] theorem State.wr_snapNums (a : Nat) (w : Word) : (s.wr a w).snapNums = s.snapNums := (rfl)
@[simp] theorem State.wr_objs (a : Nat) (w : Word) : (s.wr a w).objs = s.objs := (rfl)
@[simp] theorem State.wr_tiles (a : Nat) (w : Word) : (s.wr a w).tiles = s.tiles := (rfl)
@[simp] theorem State.wr_retired (a : Nat) (w : Word) : (s.wr a w).retired = s.retired := (rfl)
@[simp] theorem State.wr_held (a : Nat) (w : Word) : (s.wr a w).held = s.held := (rfl)
@[simp] theorem State.wr_migs (a : Nat) (w : Word) : (s.wr a w).migs = s.migs := (rfl)
@[simp] theorem State.wr_moves (a : Nat) (w : Word) : (s.wr a w).moves = s.moves := (rfl)
@[simp] theorem State.wr_prefq (a : Nat) (w : Word) : (s.wr a w).prefq = s.prefq := (rfl)
@[simp] theorem State.wr_sorters (a : Nat) (w : Word) : (s.wr a w).sorters = s.sorters := (rfl)
@[simp] theorem State.wr_rampReq (a : Nat) (w : Word) : (s.wr a w).rampReq = s.rampReq := (rfl)
@[simp] theorem State.wr_rampHold (a : Nat) (w : Word) : (s.wr a w).rampHold = s.rampHold := (rfl)
@[simp] theorem State.wr_sliceReqs (a : Nat) (w : Word) : (s.wr a w).sliceReqs = s.sliceReqs := (rfl)
@[simp] theorem State.wr_samples (a : Nat) (w : Word) : (s.wr a w).samples = s.samples := (rfl)
@[simp] theorem State.wr_latches (a : Nat) (w : Word) : (s.wr a w).latches = s.latches := (rfl)
@[simp] theorem State.wr_events (a : Nat) (w : Word) : (s.wr a w).events = s.events := (rfl)
@[simp] theorem State.wr_replies (a : Nat) (w : Word) : (s.wr a w).replies = s.replies := (rfl)
@[simp] theorem State.wr_ringTimer (a : Nat) (w : Word) : (s.wr a w).ringTimer = s.ringTimer := (rfl)
@[simp] theorem State.wr_peer (a : Nat) (w : Word) : (s.wr a w).peer = s.peer := (rfl)
@[simp] theorem State.wr_power (a : Nat) (w : Word) : (s.wr a w).power = s.power := (rfl)
@[simp] theorem State.wr_security (a : Nat) (w : Word) : (s.wr a w).security = s.security := (rfl)
@[simp] theorem State.wr_jtag (a : Nat) (w : Word) : (s.wr a w).jtag = s.jtag := (rfl)
@[simp] theorem State.wr_noVaux (a : Nat) (w : Word) : (s.wr a w).noVaux = s.noVaux := (rfl)
@[simp] theorem State.wr_optics (a : Nat) (w : Word) : (s.wr a w).optics = s.optics := (rfl)
@[simp] theorem State.wr_nis (a : Nat) (w : Word) : (s.wr a w).nis = s.nis := (rfl)
@[simp] theorem State.wr_wire (a : Nat) (w : Word) : (s.wr a w).wire = s.wire := (rfl)
@[simp] theorem State.wr_groups (a : Nat) (w : Word) : (s.wr a w).groups = s.groups := (rfl)
@[simp] theorem State.wr_early (a : Nat) (w : Word) : (s.wr a w).early = s.early := (rfl)
@[simp] theorem State.wr_ops (a : Nat) (w : Word) : (s.wr a w).ops = s.ops := (rfl)
@[simp] theorem State.wr_posted (a : Nat) (w : Word) : (s.wr a w).posted = s.posted := (rfl)
@[simp] theorem State.wr_linkTimer (a : Nat) (w : Word) : (s.wr a w).linkTimer = s.linkTimer := (rfl)
@[simp] theorem State.wr_withheld (a : Nat) (w : Word) : (s.wr a w).withheld = s.withheld := (rfl)
@[simp] theorem State.wr_fatal (a : Nat) (w : Word) : (s.wr a w).fatal = s.fatal := (rfl)
@[simp] theorem State.wr_partFatal (a : Nat) (w : Word) : (s.wr a w).partFatal = s.partFatal := (rfl)
@[simp] theorem State.wr_deadDies (a : Nat) (w : Word) : (s.wr a w).deadDies = s.deadDies := (rfl)
@[simp] theorem State.wr_satFlags (a : Nat) (w : Word) : (s.wr a w).satFlags = s.satFlags := (rfl)
@[simp] theorem State.wr_drawn (a : Nat) (w : Word) : (s.wr a w).drawn = s.drawn := (rfl)
@[simp] theorem State.wr_pending (a : Nat) (w : Word) : (s.wr a w).pending = s.pending := (rfl)
@[simp] theorem State.wr_peek (a : Nat) (w : Word) (b1 : Nat) : (s.wr a w).peek b1 = s.peek b1 := (rfl)
@[simp] theorem State.wr_room (a : Nat) (w : Word) (d1 : Nat) : (s.wr a w).room d1 = s.room d1 := (rfl)
@[simp] theorem State.wr_ctx (a : Nat) (w : Word) (y1 : Nat) : (s.wr a w).ctx y1 = s.ctx y1 := (rfl)
@[simp] theorem State.wr_bar (a : Nat) (w : Word) (j1 : Nat) : (s.wr a w).bar j1 = s.bar j1 := (rfl)
@[simp] theorem State.wr_snap (a : Nat) (w : Word) (q1 : Nat) : (s.wr a w).snap q1 = s.snap q1 := (rfl)
@[simp] theorem State.wr_obj (a : Nat) (w : Word) (j1 : Nat) : (s.wr a w).obj j1 = s.obj j1 := (rfl)
@[simp] theorem State.wr_tile (a : Nat) (w : Word) (j1 : Nat) : (s.wr a w).tile j1 = s.tile j1 := (rfl)
@[simp] theorem State.wr_mig (a : Nat) (w : Word) (j1 : Nat) : (s.wr a w).mig j1 = s.mig j1 := (rfl)
@[simp] theorem State.wr_ring (a : Nat) (w : Word) (j1 : Nat) : (s.wr a w).ring j1 = s.ring j1 := (rfl)
@[simp] theorem State.wr_ni (a : Nat) (w : Word) (j1 : Nat) : (s.wr a w).ni j1 = s.ni j1 := (rfl)
@[simp] theorem State.wr_linkT (a : Nat) (w : Word) (j1 : Nat) : (s.wr a w).linkT j1 = s.linkT j1 := (rfl)

/-! ## setF -/

@[simp] theorem State.setF_mem (f : Fld) (v : Nat) : (s.setF f v).mem = s.mem := (rfl)
@[simp] theorem State.setF_cls (f : Fld) (v : Nat) : (s.setF f v).cls = s.cls := (rfl)
@[simp] theorem State.setF_ctxs (f : Fld) (v : Nat) : (s.setF f v).ctxs = s.ctxs := (rfl)
@[simp] theorem State.setF_bars (f : Fld) (v : Nat) : (s.setF f v).bars = s.bars := (rfl)
@[simp] theorem State.setF_snaps (f : Fld) (v : Nat) : (s.setF f v).snaps = s.snaps := (rfl)
@[simp] theorem State.setF_snapNums (f : Fld) (v : Nat) : (s.setF f v).snapNums = s.snapNums := (rfl)
@[simp] theorem State.setF_objs (f : Fld) (v : Nat) : (s.setF f v).objs = s.objs := (rfl)
@[simp] theorem State.setF_tiles (f : Fld) (v : Nat) : (s.setF f v).tiles = s.tiles := (rfl)
@[simp] theorem State.setF_retired (f : Fld) (v : Nat) : (s.setF f v).retired = s.retired := (rfl)
@[simp] theorem State.setF_held (f : Fld) (v : Nat) : (s.setF f v).held = s.held := (rfl)
@[simp] theorem State.setF_migs (f : Fld) (v : Nat) : (s.setF f v).migs = s.migs := (rfl)
@[simp] theorem State.setF_moves (f : Fld) (v : Nat) : (s.setF f v).moves = s.moves := (rfl)
@[simp] theorem State.setF_prefq (f : Fld) (v : Nat) : (s.setF f v).prefq = s.prefq := (rfl)
@[simp] theorem State.setF_sorters (f : Fld) (v : Nat) : (s.setF f v).sorters = s.sorters := (rfl)
@[simp] theorem State.setF_rampReq (f : Fld) (v : Nat) : (s.setF f v).rampReq = s.rampReq := (rfl)
@[simp] theorem State.setF_rampHold (f : Fld) (v : Nat) : (s.setF f v).rampHold = s.rampHold := (rfl)
@[simp] theorem State.setF_sliceReqs (f : Fld) (v : Nat) : (s.setF f v).sliceReqs = s.sliceReqs := (rfl)
@[simp] theorem State.setF_samples (f : Fld) (v : Nat) : (s.setF f v).samples = s.samples := (rfl)
@[simp] theorem State.setF_latches (f : Fld) (v : Nat) : (s.setF f v).latches = s.latches := (rfl)
@[simp] theorem State.setF_events (f : Fld) (v : Nat) : (s.setF f v).events = s.events := (rfl)
@[simp] theorem State.setF_replies (f : Fld) (v : Nat) : (s.setF f v).replies = s.replies := (rfl)
@[simp] theorem State.setF_ringTimer (f : Fld) (v : Nat) : (s.setF f v).ringTimer = s.ringTimer := (rfl)
@[simp] theorem State.setF_peer (f : Fld) (v : Nat) : (s.setF f v).peer = s.peer := (rfl)
@[simp] theorem State.setF_power (f : Fld) (v : Nat) : (s.setF f v).power = s.power := (rfl)
@[simp] theorem State.setF_security (f : Fld) (v : Nat) : (s.setF f v).security = s.security := (rfl)
@[simp] theorem State.setF_jtag (f : Fld) (v : Nat) : (s.setF f v).jtag = s.jtag := (rfl)
@[simp] theorem State.setF_noVaux (f : Fld) (v : Nat) : (s.setF f v).noVaux = s.noVaux := (rfl)
@[simp] theorem State.setF_optics (f : Fld) (v : Nat) : (s.setF f v).optics = s.optics := (rfl)
@[simp] theorem State.setF_nis (f : Fld) (v : Nat) : (s.setF f v).nis = s.nis := (rfl)
@[simp] theorem State.setF_wire (f : Fld) (v : Nat) : (s.setF f v).wire = s.wire := (rfl)
@[simp] theorem State.setF_groups (f : Fld) (v : Nat) : (s.setF f v).groups = s.groups := (rfl)
@[simp] theorem State.setF_early (f : Fld) (v : Nat) : (s.setF f v).early = s.early := (rfl)
@[simp] theorem State.setF_ops (f : Fld) (v : Nat) : (s.setF f v).ops = s.ops := (rfl)
@[simp] theorem State.setF_posted (f : Fld) (v : Nat) : (s.setF f v).posted = s.posted := (rfl)
@[simp] theorem State.setF_linkTimer (f : Fld) (v : Nat) : (s.setF f v).linkTimer = s.linkTimer := (rfl)
@[simp] theorem State.setF_withheld (f : Fld) (v : Nat) : (s.setF f v).withheld = s.withheld := (rfl)
@[simp] theorem State.setF_fatal (f : Fld) (v : Nat) : (s.setF f v).fatal = s.fatal := (rfl)
@[simp] theorem State.setF_partFatal (f : Fld) (v : Nat) : (s.setF f v).partFatal = s.partFatal := (rfl)
@[simp] theorem State.setF_deadDies (f : Fld) (v : Nat) : (s.setF f v).deadDies = s.deadDies := (rfl)
@[simp] theorem State.setF_satFlags (f : Fld) (v : Nat) : (s.setF f v).satFlags = s.satFlags := (rfl)
@[simp] theorem State.setF_drawn (f : Fld) (v : Nat) : (s.setF f v).drawn = s.drawn := (rfl)
@[simp] theorem State.setF_pending (f : Fld) (v : Nat) : (s.setF f v).pending = s.pending := (rfl)
@[simp] theorem State.setF_peek (f : Fld) (v : Nat) (b1 : Nat) : (s.setF f v).peek b1 = s.peek b1 := (rfl)
@[simp] theorem State.setF_room (f : Fld) (v : Nat) (d1 : Nat) : (s.setF f v).room d1 = s.room d1 := (rfl)
@[simp] theorem State.setF_ctx (f : Fld) (v : Nat) (y1 : Nat) : (s.setF f v).ctx y1 = s.ctx y1 := (rfl)
@[simp] theorem State.setF_bar (f : Fld) (v : Nat) (j1 : Nat) : (s.setF f v).bar j1 = s.bar j1 := (rfl)
@[simp] theorem State.setF_snap (f : Fld) (v : Nat) (q1 : Nat) : (s.setF f v).snap q1 = s.snap q1 := (rfl)
@[simp] theorem State.setF_obj (f : Fld) (v : Nat) (j1 : Nat) : (s.setF f v).obj j1 = s.obj j1 := (rfl)
@[simp] theorem State.setF_tile (f : Fld) (v : Nat) (j1 : Nat) : (s.setF f v).tile j1 = s.tile j1 := (rfl)
@[simp] theorem State.setF_mig (f : Fld) (v : Nat) (j1 : Nat) : (s.setF f v).mig j1 = s.mig j1 := (rfl)
@[simp] theorem State.setF_ring (f : Fld) (v : Nat) (j1 : Nat) : (s.setF f v).ring j1 = s.ring j1 := (rfl)
@[simp] theorem State.setF_ni (f : Fld) (v : Nat) (j1 : Nat) : (s.setF f v).ni j1 = s.ni j1 := (rfl)
@[simp] theorem State.setF_linkT (f : Fld) (v : Nat) (j1 : Nat) : (s.setF f v).linkT j1 = s.linkT j1 := (rfl)

/-! ## addF -/

@[simp] theorem State.addF_mem (f : Fld) (n : Nat) : (s.addF f n).mem = s.mem := (rfl)
@[simp] theorem State.addF_cls (f : Fld) (n : Nat) : (s.addF f n).cls = s.cls := (rfl)
@[simp] theorem State.addF_ctxs (f : Fld) (n : Nat) : (s.addF f n).ctxs = s.ctxs := (rfl)
@[simp] theorem State.addF_bars (f : Fld) (n : Nat) : (s.addF f n).bars = s.bars := (rfl)
@[simp] theorem State.addF_snaps (f : Fld) (n : Nat) : (s.addF f n).snaps = s.snaps := (rfl)
@[simp] theorem State.addF_snapNums (f : Fld) (n : Nat) : (s.addF f n).snapNums = s.snapNums := (rfl)
@[simp] theorem State.addF_objs (f : Fld) (n : Nat) : (s.addF f n).objs = s.objs := (rfl)
@[simp] theorem State.addF_tiles (f : Fld) (n : Nat) : (s.addF f n).tiles = s.tiles := (rfl)
@[simp] theorem State.addF_retired (f : Fld) (n : Nat) : (s.addF f n).retired = s.retired := (rfl)
@[simp] theorem State.addF_held (f : Fld) (n : Nat) : (s.addF f n).held = s.held := (rfl)
@[simp] theorem State.addF_migs (f : Fld) (n : Nat) : (s.addF f n).migs = s.migs := (rfl)
@[simp] theorem State.addF_moves (f : Fld) (n : Nat) : (s.addF f n).moves = s.moves := (rfl)
@[simp] theorem State.addF_prefq (f : Fld) (n : Nat) : (s.addF f n).prefq = s.prefq := (rfl)
@[simp] theorem State.addF_sorters (f : Fld) (n : Nat) : (s.addF f n).sorters = s.sorters := (rfl)
@[simp] theorem State.addF_rampReq (f : Fld) (n : Nat) : (s.addF f n).rampReq = s.rampReq := (rfl)
@[simp] theorem State.addF_rampHold (f : Fld) (n : Nat) : (s.addF f n).rampHold = s.rampHold := (rfl)
@[simp] theorem State.addF_sliceReqs (f : Fld) (n : Nat) : (s.addF f n).sliceReqs = s.sliceReqs := (rfl)
@[simp] theorem State.addF_samples (f : Fld) (n : Nat) : (s.addF f n).samples = s.samples := (rfl)
@[simp] theorem State.addF_latches (f : Fld) (n : Nat) : (s.addF f n).latches = s.latches := (rfl)
@[simp] theorem State.addF_events (f : Fld) (n : Nat) : (s.addF f n).events = s.events := (rfl)
@[simp] theorem State.addF_replies (f : Fld) (n : Nat) : (s.addF f n).replies = s.replies := (rfl)
@[simp] theorem State.addF_ringTimer (f : Fld) (n : Nat) : (s.addF f n).ringTimer = s.ringTimer := (rfl)
@[simp] theorem State.addF_peer (f : Fld) (n : Nat) : (s.addF f n).peer = s.peer := (rfl)
@[simp] theorem State.addF_power (f : Fld) (n : Nat) : (s.addF f n).power = s.power := (rfl)
@[simp] theorem State.addF_security (f : Fld) (n : Nat) : (s.addF f n).security = s.security := (rfl)
@[simp] theorem State.addF_jtag (f : Fld) (n : Nat) : (s.addF f n).jtag = s.jtag := (rfl)
@[simp] theorem State.addF_noVaux (f : Fld) (n : Nat) : (s.addF f n).noVaux = s.noVaux := (rfl)
@[simp] theorem State.addF_optics (f : Fld) (n : Nat) : (s.addF f n).optics = s.optics := (rfl)
@[simp] theorem State.addF_nis (f : Fld) (n : Nat) : (s.addF f n).nis = s.nis := (rfl)
@[simp] theorem State.addF_wire (f : Fld) (n : Nat) : (s.addF f n).wire = s.wire := (rfl)
@[simp] theorem State.addF_groups (f : Fld) (n : Nat) : (s.addF f n).groups = s.groups := (rfl)
@[simp] theorem State.addF_early (f : Fld) (n : Nat) : (s.addF f n).early = s.early := (rfl)
@[simp] theorem State.addF_ops (f : Fld) (n : Nat) : (s.addF f n).ops = s.ops := (rfl)
@[simp] theorem State.addF_posted (f : Fld) (n : Nat) : (s.addF f n).posted = s.posted := (rfl)
@[simp] theorem State.addF_linkTimer (f : Fld) (n : Nat) : (s.addF f n).linkTimer = s.linkTimer := (rfl)
@[simp] theorem State.addF_withheld (f : Fld) (n : Nat) : (s.addF f n).withheld = s.withheld := (rfl)
@[simp] theorem State.addF_fatal (f : Fld) (n : Nat) : (s.addF f n).fatal = s.fatal := (rfl)
@[simp] theorem State.addF_partFatal (f : Fld) (n : Nat) : (s.addF f n).partFatal = s.partFatal := (rfl)
@[simp] theorem State.addF_deadDies (f : Fld) (n : Nat) : (s.addF f n).deadDies = s.deadDies := (rfl)
@[simp] theorem State.addF_satFlags (f : Fld) (n : Nat) : (s.addF f n).satFlags = s.satFlags := (rfl)
@[simp] theorem State.addF_drawn (f : Fld) (n : Nat) : (s.addF f n).drawn = s.drawn := (rfl)
@[simp] theorem State.addF_pending (f : Fld) (n : Nat) : (s.addF f n).pending = s.pending := (rfl)
@[simp] theorem State.addF_peek (f : Fld) (n : Nat) (b1 : Nat) : (s.addF f n).peek b1 = s.peek b1 := (rfl)
@[simp] theorem State.addF_room (f : Fld) (n : Nat) (d1 : Nat) : (s.addF f n).room d1 = s.room d1 := (rfl)
@[simp] theorem State.addF_ctx (f : Fld) (n : Nat) (y1 : Nat) : (s.addF f n).ctx y1 = s.ctx y1 := (rfl)
@[simp] theorem State.addF_bar (f : Fld) (n : Nat) (j1 : Nat) : (s.addF f n).bar j1 = s.bar j1 := (rfl)
@[simp] theorem State.addF_snap (f : Fld) (n : Nat) (q1 : Nat) : (s.addF f n).snap q1 = s.snap q1 := (rfl)
@[simp] theorem State.addF_obj (f : Fld) (n : Nat) (j1 : Nat) : (s.addF f n).obj j1 = s.obj j1 := (rfl)
@[simp] theorem State.addF_tile (f : Fld) (n : Nat) (j1 : Nat) : (s.addF f n).tile j1 = s.tile j1 := (rfl)
@[simp] theorem State.addF_mig (f : Fld) (n : Nat) (j1 : Nat) : (s.addF f n).mig j1 = s.mig j1 := (rfl)
@[simp] theorem State.addF_ring (f : Fld) (n : Nat) (j1 : Nat) : (s.addF f n).ring j1 = s.ring j1 := (rfl)
@[simp] theorem State.addF_ni (f : Fld) (n : Nat) (j1 : Nat) : (s.addF f n).ni j1 = s.ni j1 := (rfl)
@[simp] theorem State.addF_linkT (f : Fld) (n : Nat) (j1 : Nat) : (s.addF f n).linkT j1 = s.linkT j1 := (rfl)

/-! ## subF -/

@[simp] theorem State.subF_mem (f : Fld) (n : Nat) : (s.subF f n).mem = s.mem := (rfl)
@[simp] theorem State.subF_cls (f : Fld) (n : Nat) : (s.subF f n).cls = s.cls := (rfl)
@[simp] theorem State.subF_ctxs (f : Fld) (n : Nat) : (s.subF f n).ctxs = s.ctxs := (rfl)
@[simp] theorem State.subF_bars (f : Fld) (n : Nat) : (s.subF f n).bars = s.bars := (rfl)
@[simp] theorem State.subF_snaps (f : Fld) (n : Nat) : (s.subF f n).snaps = s.snaps := (rfl)
@[simp] theorem State.subF_snapNums (f : Fld) (n : Nat) : (s.subF f n).snapNums = s.snapNums := (rfl)
@[simp] theorem State.subF_objs (f : Fld) (n : Nat) : (s.subF f n).objs = s.objs := (rfl)
@[simp] theorem State.subF_tiles (f : Fld) (n : Nat) : (s.subF f n).tiles = s.tiles := (rfl)
@[simp] theorem State.subF_retired (f : Fld) (n : Nat) : (s.subF f n).retired = s.retired := (rfl)
@[simp] theorem State.subF_held (f : Fld) (n : Nat) : (s.subF f n).held = s.held := (rfl)
@[simp] theorem State.subF_migs (f : Fld) (n : Nat) : (s.subF f n).migs = s.migs := (rfl)
@[simp] theorem State.subF_moves (f : Fld) (n : Nat) : (s.subF f n).moves = s.moves := (rfl)
@[simp] theorem State.subF_prefq (f : Fld) (n : Nat) : (s.subF f n).prefq = s.prefq := (rfl)
@[simp] theorem State.subF_sorters (f : Fld) (n : Nat) : (s.subF f n).sorters = s.sorters := (rfl)
@[simp] theorem State.subF_rampReq (f : Fld) (n : Nat) : (s.subF f n).rampReq = s.rampReq := (rfl)
@[simp] theorem State.subF_rampHold (f : Fld) (n : Nat) : (s.subF f n).rampHold = s.rampHold := (rfl)
@[simp] theorem State.subF_sliceReqs (f : Fld) (n : Nat) : (s.subF f n).sliceReqs = s.sliceReqs := (rfl)
@[simp] theorem State.subF_samples (f : Fld) (n : Nat) : (s.subF f n).samples = s.samples := (rfl)
@[simp] theorem State.subF_latches (f : Fld) (n : Nat) : (s.subF f n).latches = s.latches := (rfl)
@[simp] theorem State.subF_events (f : Fld) (n : Nat) : (s.subF f n).events = s.events := (rfl)
@[simp] theorem State.subF_replies (f : Fld) (n : Nat) : (s.subF f n).replies = s.replies := (rfl)
@[simp] theorem State.subF_ringTimer (f : Fld) (n : Nat) : (s.subF f n).ringTimer = s.ringTimer := (rfl)
@[simp] theorem State.subF_peer (f : Fld) (n : Nat) : (s.subF f n).peer = s.peer := (rfl)
@[simp] theorem State.subF_power (f : Fld) (n : Nat) : (s.subF f n).power = s.power := (rfl)
@[simp] theorem State.subF_security (f : Fld) (n : Nat) : (s.subF f n).security = s.security := (rfl)
@[simp] theorem State.subF_jtag (f : Fld) (n : Nat) : (s.subF f n).jtag = s.jtag := (rfl)
@[simp] theorem State.subF_noVaux (f : Fld) (n : Nat) : (s.subF f n).noVaux = s.noVaux := (rfl)
@[simp] theorem State.subF_optics (f : Fld) (n : Nat) : (s.subF f n).optics = s.optics := (rfl)
@[simp] theorem State.subF_nis (f : Fld) (n : Nat) : (s.subF f n).nis = s.nis := (rfl)
@[simp] theorem State.subF_wire (f : Fld) (n : Nat) : (s.subF f n).wire = s.wire := (rfl)
@[simp] theorem State.subF_groups (f : Fld) (n : Nat) : (s.subF f n).groups = s.groups := (rfl)
@[simp] theorem State.subF_early (f : Fld) (n : Nat) : (s.subF f n).early = s.early := (rfl)
@[simp] theorem State.subF_ops (f : Fld) (n : Nat) : (s.subF f n).ops = s.ops := (rfl)
@[simp] theorem State.subF_posted (f : Fld) (n : Nat) : (s.subF f n).posted = s.posted := (rfl)
@[simp] theorem State.subF_linkTimer (f : Fld) (n : Nat) : (s.subF f n).linkTimer = s.linkTimer := (rfl)
@[simp] theorem State.subF_withheld (f : Fld) (n : Nat) : (s.subF f n).withheld = s.withheld := (rfl)
@[simp] theorem State.subF_fatal (f : Fld) (n : Nat) : (s.subF f n).fatal = s.fatal := (rfl)
@[simp] theorem State.subF_partFatal (f : Fld) (n : Nat) : (s.subF f n).partFatal = s.partFatal := (rfl)
@[simp] theorem State.subF_deadDies (f : Fld) (n : Nat) : (s.subF f n).deadDies = s.deadDies := (rfl)
@[simp] theorem State.subF_satFlags (f : Fld) (n : Nat) : (s.subF f n).satFlags = s.satFlags := (rfl)
@[simp] theorem State.subF_drawn (f : Fld) (n : Nat) : (s.subF f n).drawn = s.drawn := (rfl)
@[simp] theorem State.subF_pending (f : Fld) (n : Nat) : (s.subF f n).pending = s.pending := (rfl)
@[simp] theorem State.subF_peek (f : Fld) (n : Nat) (b1 : Nat) : (s.subF f n).peek b1 = s.peek b1 := (rfl)
@[simp] theorem State.subF_room (f : Fld) (n : Nat) (d1 : Nat) : (s.subF f n).room d1 = s.room d1 := (rfl)
@[simp] theorem State.subF_ctx (f : Fld) (n : Nat) (y1 : Nat) : (s.subF f n).ctx y1 = s.ctx y1 := (rfl)
@[simp] theorem State.subF_bar (f : Fld) (n : Nat) (j1 : Nat) : (s.subF f n).bar j1 = s.bar j1 := (rfl)
@[simp] theorem State.subF_snap (f : Fld) (n : Nat) (q1 : Nat) : (s.subF f n).snap q1 = s.snap q1 := (rfl)
@[simp] theorem State.subF_obj (f : Fld) (n : Nat) (j1 : Nat) : (s.subF f n).obj j1 = s.obj j1 := (rfl)
@[simp] theorem State.subF_tile (f : Fld) (n : Nat) (j1 : Nat) : (s.subF f n).tile j1 = s.tile j1 := (rfl)
@[simp] theorem State.subF_mig (f : Fld) (n : Nat) (j1 : Nat) : (s.subF f n).mig j1 = s.mig j1 := (rfl)
@[simp] theorem State.subF_ring (f : Fld) (n : Nat) (j1 : Nat) : (s.subF f n).ring j1 = s.ring j1 := (rfl)
@[simp] theorem State.subF_ni (f : Fld) (n : Nat) (j1 : Nat) : (s.subF f n).ni j1 = s.ni j1 := (rfl)
@[simp] theorem State.subF_linkT (f : Fld) (n : Nat) (j1 : Nat) : (s.subF f n).linkT j1 = s.linkT j1 := (rfl)

/-! ## setFs -/

@[simp] theorem State.setFs_mem (l : List (Fld × Nat)) : (s.setFs l).mem = s.mem := by
  obtain ⟨m, e⟩ := s.setFs_eq l
  rw [e]
@[simp] theorem State.setFs_cls (l : List (Fld × Nat)) : (s.setFs l).cls = s.cls := by
  obtain ⟨m, e⟩ := s.setFs_eq l
  rw [e]
@[simp] theorem State.setFs_ctxs (l : List (Fld × Nat)) : (s.setFs l).ctxs = s.ctxs := by
  obtain ⟨m, e⟩ := s.setFs_eq l
  rw [e]
@[simp] theorem State.setFs_bars (l : List (Fld × Nat)) : (s.setFs l).bars = s.bars := by
  obtain ⟨m, e⟩ := s.setFs_eq l
  rw [e]
@[simp] theorem State.setFs_snaps (l : List (Fld × Nat)) : (s.setFs l).snaps = s.snaps := by
  obtain ⟨m, e⟩ := s.setFs_eq l
  rw [e]
@[simp] theorem State.setFs_snapNums (l : List (Fld × Nat)) : (s.setFs l).snapNums = s.snapNums := by
  obtain ⟨m, e⟩ := s.setFs_eq l
  rw [e]
@[simp] theorem State.setFs_objs (l : List (Fld × Nat)) : (s.setFs l).objs = s.objs := by
  obtain ⟨m, e⟩ := s.setFs_eq l
  rw [e]
@[simp] theorem State.setFs_tiles (l : List (Fld × Nat)) : (s.setFs l).tiles = s.tiles := by
  obtain ⟨m, e⟩ := s.setFs_eq l
  rw [e]
@[simp] theorem State.setFs_retired (l : List (Fld × Nat)) : (s.setFs l).retired = s.retired := by
  obtain ⟨m, e⟩ := s.setFs_eq l
  rw [e]
@[simp] theorem State.setFs_held (l : List (Fld × Nat)) : (s.setFs l).held = s.held := by
  obtain ⟨m, e⟩ := s.setFs_eq l
  rw [e]
@[simp] theorem State.setFs_migs (l : List (Fld × Nat)) : (s.setFs l).migs = s.migs := by
  obtain ⟨m, e⟩ := s.setFs_eq l
  rw [e]
@[simp] theorem State.setFs_moves (l : List (Fld × Nat)) : (s.setFs l).moves = s.moves := by
  obtain ⟨m, e⟩ := s.setFs_eq l
  rw [e]
@[simp] theorem State.setFs_prefq (l : List (Fld × Nat)) : (s.setFs l).prefq = s.prefq := by
  obtain ⟨m, e⟩ := s.setFs_eq l
  rw [e]
@[simp] theorem State.setFs_sorters (l : List (Fld × Nat)) : (s.setFs l).sorters = s.sorters := by
  obtain ⟨m, e⟩ := s.setFs_eq l
  rw [e]
@[simp] theorem State.setFs_rampReq (l : List (Fld × Nat)) : (s.setFs l).rampReq = s.rampReq := by
  obtain ⟨m, e⟩ := s.setFs_eq l
  rw [e]
@[simp] theorem State.setFs_rampHold (l : List (Fld × Nat)) : (s.setFs l).rampHold = s.rampHold := by
  obtain ⟨m, e⟩ := s.setFs_eq l
  rw [e]
@[simp] theorem State.setFs_sliceReqs (l : List (Fld × Nat)) : (s.setFs l).sliceReqs = s.sliceReqs := by
  obtain ⟨m, e⟩ := s.setFs_eq l
  rw [e]
@[simp] theorem State.setFs_samples (l : List (Fld × Nat)) : (s.setFs l).samples = s.samples := by
  obtain ⟨m, e⟩ := s.setFs_eq l
  rw [e]
@[simp] theorem State.setFs_latches (l : List (Fld × Nat)) : (s.setFs l).latches = s.latches := by
  obtain ⟨m, e⟩ := s.setFs_eq l
  rw [e]
@[simp] theorem State.setFs_events (l : List (Fld × Nat)) : (s.setFs l).events = s.events := by
  obtain ⟨m, e⟩ := s.setFs_eq l
  rw [e]
@[simp] theorem State.setFs_replies (l : List (Fld × Nat)) : (s.setFs l).replies = s.replies := by
  obtain ⟨m, e⟩ := s.setFs_eq l
  rw [e]
@[simp] theorem State.setFs_ringTimer (l : List (Fld × Nat)) : (s.setFs l).ringTimer = s.ringTimer := by
  obtain ⟨m, e⟩ := s.setFs_eq l
  rw [e]
@[simp] theorem State.setFs_peer (l : List (Fld × Nat)) : (s.setFs l).peer = s.peer := by
  obtain ⟨m, e⟩ := s.setFs_eq l
  rw [e]
@[simp] theorem State.setFs_power (l : List (Fld × Nat)) : (s.setFs l).power = s.power := by
  obtain ⟨m, e⟩ := s.setFs_eq l
  rw [e]
@[simp] theorem State.setFs_security (l : List (Fld × Nat)) : (s.setFs l).security = s.security := by
  obtain ⟨m, e⟩ := s.setFs_eq l
  rw [e]
@[simp] theorem State.setFs_jtag (l : List (Fld × Nat)) : (s.setFs l).jtag = s.jtag := by
  obtain ⟨m, e⟩ := s.setFs_eq l
  rw [e]
@[simp] theorem State.setFs_noVaux (l : List (Fld × Nat)) : (s.setFs l).noVaux = s.noVaux := by
  obtain ⟨m, e⟩ := s.setFs_eq l
  rw [e]
@[simp] theorem State.setFs_optics (l : List (Fld × Nat)) : (s.setFs l).optics = s.optics := by
  obtain ⟨m, e⟩ := s.setFs_eq l
  rw [e]
@[simp] theorem State.setFs_nis (l : List (Fld × Nat)) : (s.setFs l).nis = s.nis := by
  obtain ⟨m, e⟩ := s.setFs_eq l
  rw [e]
@[simp] theorem State.setFs_wire (l : List (Fld × Nat)) : (s.setFs l).wire = s.wire := by
  obtain ⟨m, e⟩ := s.setFs_eq l
  rw [e]
@[simp] theorem State.setFs_groups (l : List (Fld × Nat)) : (s.setFs l).groups = s.groups := by
  obtain ⟨m, e⟩ := s.setFs_eq l
  rw [e]
@[simp] theorem State.setFs_early (l : List (Fld × Nat)) : (s.setFs l).early = s.early := by
  obtain ⟨m, e⟩ := s.setFs_eq l
  rw [e]
@[simp] theorem State.setFs_ops (l : List (Fld × Nat)) : (s.setFs l).ops = s.ops := by
  obtain ⟨m, e⟩ := s.setFs_eq l
  rw [e]
@[simp] theorem State.setFs_posted (l : List (Fld × Nat)) : (s.setFs l).posted = s.posted := by
  obtain ⟨m, e⟩ := s.setFs_eq l
  rw [e]
@[simp] theorem State.setFs_linkTimer (l : List (Fld × Nat)) : (s.setFs l).linkTimer = s.linkTimer := by
  obtain ⟨m, e⟩ := s.setFs_eq l
  rw [e]
@[simp] theorem State.setFs_withheld (l : List (Fld × Nat)) : (s.setFs l).withheld = s.withheld := by
  obtain ⟨m, e⟩ := s.setFs_eq l
  rw [e]
@[simp] theorem State.setFs_fatal (l : List (Fld × Nat)) : (s.setFs l).fatal = s.fatal := by
  obtain ⟨m, e⟩ := s.setFs_eq l
  rw [e]
@[simp] theorem State.setFs_partFatal (l : List (Fld × Nat)) : (s.setFs l).partFatal = s.partFatal := by
  obtain ⟨m, e⟩ := s.setFs_eq l
  rw [e]
@[simp] theorem State.setFs_deadDies (l : List (Fld × Nat)) : (s.setFs l).deadDies = s.deadDies := by
  obtain ⟨m, e⟩ := s.setFs_eq l
  rw [e]
@[simp] theorem State.setFs_satFlags (l : List (Fld × Nat)) : (s.setFs l).satFlags = s.satFlags := by
  obtain ⟨m, e⟩ := s.setFs_eq l
  rw [e]
@[simp] theorem State.setFs_drawn (l : List (Fld × Nat)) : (s.setFs l).drawn = s.drawn := by
  obtain ⟨m, e⟩ := s.setFs_eq l
  rw [e]
@[simp] theorem State.setFs_pending (l : List (Fld × Nat)) : (s.setFs l).pending = s.pending := by
  obtain ⟨m, e⟩ := s.setFs_eq l
  rw [e]
@[simp] theorem State.setFs_peek (l : List (Fld × Nat)) (b1 : Nat) : (s.setFs l).peek b1 = s.peek b1 := by
  obtain ⟨m, e⟩ := s.setFs_eq l
  rw [e]
  rfl
@[simp] theorem State.setFs_room (l : List (Fld × Nat)) (d1 : Nat) : (s.setFs l).room d1 = s.room d1 := by
  obtain ⟨m, e⟩ := s.setFs_eq l
  rw [e]
  rfl
@[simp] theorem State.setFs_ctx (l : List (Fld × Nat)) (y1 : Nat) : (s.setFs l).ctx y1 = s.ctx y1 := by
  obtain ⟨m, e⟩ := s.setFs_eq l
  rw [e]
  rfl
@[simp] theorem State.setFs_bar (l : List (Fld × Nat)) (j1 : Nat) : (s.setFs l).bar j1 = s.bar j1 := by
  obtain ⟨m, e⟩ := s.setFs_eq l
  rw [e]
  rfl
@[simp] theorem State.setFs_snap (l : List (Fld × Nat)) (q1 : Nat) : (s.setFs l).snap q1 = s.snap q1 := by
  obtain ⟨m, e⟩ := s.setFs_eq l
  rw [e]
  rfl
@[simp] theorem State.setFs_obj (l : List (Fld × Nat)) (j1 : Nat) : (s.setFs l).obj j1 = s.obj j1 := by
  obtain ⟨m, e⟩ := s.setFs_eq l
  rw [e]
  rfl
@[simp] theorem State.setFs_tile (l : List (Fld × Nat)) (j1 : Nat) : (s.setFs l).tile j1 = s.tile j1 := by
  obtain ⟨m, e⟩ := s.setFs_eq l
  rw [e]
  rfl
@[simp] theorem State.setFs_mig (l : List (Fld × Nat)) (j1 : Nat) : (s.setFs l).mig j1 = s.mig j1 := by
  obtain ⟨m, e⟩ := s.setFs_eq l
  rw [e]
  rfl
@[simp] theorem State.setFs_ring (l : List (Fld × Nat)) (j1 : Nat) : (s.setFs l).ring j1 = s.ring j1 := by
  obtain ⟨m, e⟩ := s.setFs_eq l
  rw [e]
  rfl
@[simp] theorem State.setFs_ni (l : List (Fld × Nat)) (j1 : Nat) : (s.setFs l).ni j1 = s.ni j1 := by
  obtain ⟨m, e⟩ := s.setFs_eq l
  rw [e]
  rfl
@[simp] theorem State.setFs_linkT (l : List (Fld × Nat)) (j1 : Nat) : (s.setFs l).linkT j1 = s.linkT j1 := by
  obtain ⟨m, e⟩ := s.setFs_eq l
  rw [e]
  rfl

/-! ## poke -/

@[simp] theorem State.poke_csr (a : Nat) (b : Byte) : (s.poke a b).csr = s.csr := (rfl)
@[simp] theorem State.poke_cls (a : Nat) (b : Byte) : (s.poke a b).cls = s.cls := (rfl)
@[simp] theorem State.poke_ctxs (a : Nat) (b : Byte) : (s.poke a b).ctxs = s.ctxs := (rfl)
@[simp] theorem State.poke_bars (a : Nat) (b : Byte) : (s.poke a b).bars = s.bars := (rfl)
@[simp] theorem State.poke_snaps (a : Nat) (b : Byte) : (s.poke a b).snaps = s.snaps := (rfl)
@[simp] theorem State.poke_snapNums (a : Nat) (b : Byte) : (s.poke a b).snapNums = s.snapNums := (rfl)
@[simp] theorem State.poke_objs (a : Nat) (b : Byte) : (s.poke a b).objs = s.objs := (rfl)
@[simp] theorem State.poke_tiles (a : Nat) (b : Byte) : (s.poke a b).tiles = s.tiles := (rfl)
@[simp] theorem State.poke_retired (a : Nat) (b : Byte) : (s.poke a b).retired = s.retired := (rfl)
@[simp] theorem State.poke_held (a : Nat) (b : Byte) : (s.poke a b).held = s.held := (rfl)
@[simp] theorem State.poke_migs (a : Nat) (b : Byte) : (s.poke a b).migs = s.migs := (rfl)
@[simp] theorem State.poke_moves (a : Nat) (b : Byte) : (s.poke a b).moves = s.moves := (rfl)
@[simp] theorem State.poke_prefq (a : Nat) (b : Byte) : (s.poke a b).prefq = s.prefq := (rfl)
@[simp] theorem State.poke_sorters (a : Nat) (b : Byte) : (s.poke a b).sorters = s.sorters := (rfl)
@[simp] theorem State.poke_rampReq (a : Nat) (b : Byte) : (s.poke a b).rampReq = s.rampReq := (rfl)
@[simp] theorem State.poke_rampHold (a : Nat) (b : Byte) : (s.poke a b).rampHold = s.rampHold := (rfl)
@[simp] theorem State.poke_sliceReqs (a : Nat) (b : Byte) : (s.poke a b).sliceReqs = s.sliceReqs := (rfl)
@[simp] theorem State.poke_samples (a : Nat) (b : Byte) : (s.poke a b).samples = s.samples := (rfl)
@[simp] theorem State.poke_latches (a : Nat) (b : Byte) : (s.poke a b).latches = s.latches := (rfl)
@[simp] theorem State.poke_events (a : Nat) (b : Byte) : (s.poke a b).events = s.events := (rfl)
@[simp] theorem State.poke_replies (a : Nat) (b : Byte) : (s.poke a b).replies = s.replies := (rfl)
@[simp] theorem State.poke_ringTimer (a : Nat) (b : Byte) : (s.poke a b).ringTimer = s.ringTimer := (rfl)
@[simp] theorem State.poke_peer (a : Nat) (b : Byte) : (s.poke a b).peer = s.peer := (rfl)
@[simp] theorem State.poke_power (a : Nat) (b : Byte) : (s.poke a b).power = s.power := (rfl)
@[simp] theorem State.poke_security (a : Nat) (b : Byte) : (s.poke a b).security = s.security := (rfl)
@[simp] theorem State.poke_jtag (a : Nat) (b : Byte) : (s.poke a b).jtag = s.jtag := (rfl)
@[simp] theorem State.poke_noVaux (a : Nat) (b : Byte) : (s.poke a b).noVaux = s.noVaux := (rfl)
@[simp] theorem State.poke_optics (a : Nat) (b : Byte) : (s.poke a b).optics = s.optics := (rfl)
@[simp] theorem State.poke_nis (a : Nat) (b : Byte) : (s.poke a b).nis = s.nis := (rfl)
@[simp] theorem State.poke_wire (a : Nat) (b : Byte) : (s.poke a b).wire = s.wire := (rfl)
@[simp] theorem State.poke_groups (a : Nat) (b : Byte) : (s.poke a b).groups = s.groups := (rfl)
@[simp] theorem State.poke_early (a : Nat) (b : Byte) : (s.poke a b).early = s.early := (rfl)
@[simp] theorem State.poke_ops (a : Nat) (b : Byte) : (s.poke a b).ops = s.ops := (rfl)
@[simp] theorem State.poke_posted (a : Nat) (b : Byte) : (s.poke a b).posted = s.posted := (rfl)
@[simp] theorem State.poke_linkTimer (a : Nat) (b : Byte) : (s.poke a b).linkTimer = s.linkTimer := (rfl)
@[simp] theorem State.poke_withheld (a : Nat) (b : Byte) : (s.poke a b).withheld = s.withheld := (rfl)
@[simp] theorem State.poke_fatal (a : Nat) (b : Byte) : (s.poke a b).fatal = s.fatal := (rfl)
@[simp] theorem State.poke_partFatal (a : Nat) (b : Byte) : (s.poke a b).partFatal = s.partFatal := (rfl)
@[simp] theorem State.poke_deadDies (a : Nat) (b : Byte) : (s.poke a b).deadDies = s.deadDies := (rfl)
@[simp] theorem State.poke_satFlags (a : Nat) (b : Byte) : (s.poke a b).satFlags = s.satFlags := (rfl)
@[simp] theorem State.poke_drawn (a : Nat) (b : Byte) : (s.poke a b).drawn = s.drawn := (rfl)
@[simp] theorem State.poke_pending (a : Nat) (b : Byte) : (s.poke a b).pending = s.pending := (rfl)
@[simp] theorem State.poke_rd (a : Nat) (b : Byte) (b1 : Nat) : (s.poke a b).rd b1 = s.rd b1 := (rfl)
@[simp] theorem State.poke_getF (a : Nat) (b : Byte) (g1 : Fld) : (s.poke a b).getF g1 = s.getF g1 := (rfl)
@[simp] theorem State.poke_flag (a : Nat) (b : Byte) (g1 : Fld) : (s.poke a b).flag g1 = s.flag g1 := (rfl)
@[simp] theorem State.poke_room (a : Nat) (b : Byte) (d1 : Nat) : (s.poke a b).room d1 = s.room d1 := (rfl)
@[simp] theorem State.poke_ctx (a : Nat) (b : Byte) (y1 : Nat) : (s.poke a b).ctx y1 = s.ctx y1 := (rfl)
@[simp] theorem State.poke_bar (a : Nat) (b : Byte) (j1 : Nat) : (s.poke a b).bar j1 = s.bar j1 := (rfl)
@[simp] theorem State.poke_snap (a : Nat) (b : Byte) (q1 : Nat) : (s.poke a b).snap q1 = s.snap q1 := (rfl)
@[simp] theorem State.poke_obj (a : Nat) (b : Byte) (j1 : Nat) : (s.poke a b).obj j1 = s.obj j1 := (rfl)
@[simp] theorem State.poke_tile (a : Nat) (b : Byte) (j1 : Nat) : (s.poke a b).tile j1 = s.tile j1 := (rfl)
@[simp] theorem State.poke_mig (a : Nat) (b : Byte) (j1 : Nat) : (s.poke a b).mig j1 = s.mig j1 := (rfl)
@[simp] theorem State.poke_ring (a : Nat) (b : Byte) (j1 : Nat) : (s.poke a b).ring j1 = s.ring j1 := (rfl)
@[simp] theorem State.poke_ni (a : Nat) (b : Byte) (j1 : Nat) : (s.poke a b).ni j1 = s.ni j1 := (rfl)
@[simp] theorem State.poke_linkT (a : Nat) (b : Byte) (j1 : Nat) : (s.poke a b).linkT j1 = s.linkT j1 := (rfl)

/-! ## pokeN -/

@[simp] theorem State.pokeN_csr (a : Nat) (bs : List Byte) : (s.pokeN a bs).csr = s.csr := by
  obtain ⟨m, e⟩ := s.pokeN_eq a bs
  rw [e]
@[simp] theorem State.pokeN_cls (a : Nat) (bs : List Byte) : (s.pokeN a bs).cls = s.cls := by
  obtain ⟨m, e⟩ := s.pokeN_eq a bs
  rw [e]
@[simp] theorem State.pokeN_ctxs (a : Nat) (bs : List Byte) : (s.pokeN a bs).ctxs = s.ctxs := by
  obtain ⟨m, e⟩ := s.pokeN_eq a bs
  rw [e]
@[simp] theorem State.pokeN_bars (a : Nat) (bs : List Byte) : (s.pokeN a bs).bars = s.bars := by
  obtain ⟨m, e⟩ := s.pokeN_eq a bs
  rw [e]
@[simp] theorem State.pokeN_snaps (a : Nat) (bs : List Byte) : (s.pokeN a bs).snaps = s.snaps := by
  obtain ⟨m, e⟩ := s.pokeN_eq a bs
  rw [e]
@[simp] theorem State.pokeN_snapNums (a : Nat) (bs : List Byte) : (s.pokeN a bs).snapNums = s.snapNums := by
  obtain ⟨m, e⟩ := s.pokeN_eq a bs
  rw [e]
@[simp] theorem State.pokeN_objs (a : Nat) (bs : List Byte) : (s.pokeN a bs).objs = s.objs := by
  obtain ⟨m, e⟩ := s.pokeN_eq a bs
  rw [e]
@[simp] theorem State.pokeN_tiles (a : Nat) (bs : List Byte) : (s.pokeN a bs).tiles = s.tiles := by
  obtain ⟨m, e⟩ := s.pokeN_eq a bs
  rw [e]
@[simp] theorem State.pokeN_retired (a : Nat) (bs : List Byte) : (s.pokeN a bs).retired = s.retired := by
  obtain ⟨m, e⟩ := s.pokeN_eq a bs
  rw [e]
@[simp] theorem State.pokeN_held (a : Nat) (bs : List Byte) : (s.pokeN a bs).held = s.held := by
  obtain ⟨m, e⟩ := s.pokeN_eq a bs
  rw [e]
@[simp] theorem State.pokeN_migs (a : Nat) (bs : List Byte) : (s.pokeN a bs).migs = s.migs := by
  obtain ⟨m, e⟩ := s.pokeN_eq a bs
  rw [e]
@[simp] theorem State.pokeN_moves (a : Nat) (bs : List Byte) : (s.pokeN a bs).moves = s.moves := by
  obtain ⟨m, e⟩ := s.pokeN_eq a bs
  rw [e]
@[simp] theorem State.pokeN_prefq (a : Nat) (bs : List Byte) : (s.pokeN a bs).prefq = s.prefq := by
  obtain ⟨m, e⟩ := s.pokeN_eq a bs
  rw [e]
@[simp] theorem State.pokeN_sorters (a : Nat) (bs : List Byte) : (s.pokeN a bs).sorters = s.sorters := by
  obtain ⟨m, e⟩ := s.pokeN_eq a bs
  rw [e]
@[simp] theorem State.pokeN_rampReq (a : Nat) (bs : List Byte) : (s.pokeN a bs).rampReq = s.rampReq := by
  obtain ⟨m, e⟩ := s.pokeN_eq a bs
  rw [e]
@[simp] theorem State.pokeN_rampHold (a : Nat) (bs : List Byte) : (s.pokeN a bs).rampHold = s.rampHold := by
  obtain ⟨m, e⟩ := s.pokeN_eq a bs
  rw [e]
@[simp] theorem State.pokeN_sliceReqs (a : Nat) (bs : List Byte) : (s.pokeN a bs).sliceReqs = s.sliceReqs := by
  obtain ⟨m, e⟩ := s.pokeN_eq a bs
  rw [e]
@[simp] theorem State.pokeN_samples (a : Nat) (bs : List Byte) : (s.pokeN a bs).samples = s.samples := by
  obtain ⟨m, e⟩ := s.pokeN_eq a bs
  rw [e]
@[simp] theorem State.pokeN_latches (a : Nat) (bs : List Byte) : (s.pokeN a bs).latches = s.latches := by
  obtain ⟨m, e⟩ := s.pokeN_eq a bs
  rw [e]
@[simp] theorem State.pokeN_events (a : Nat) (bs : List Byte) : (s.pokeN a bs).events = s.events := by
  obtain ⟨m, e⟩ := s.pokeN_eq a bs
  rw [e]
@[simp] theorem State.pokeN_replies (a : Nat) (bs : List Byte) : (s.pokeN a bs).replies = s.replies := by
  obtain ⟨m, e⟩ := s.pokeN_eq a bs
  rw [e]
@[simp] theorem State.pokeN_ringTimer (a : Nat) (bs : List Byte) : (s.pokeN a bs).ringTimer = s.ringTimer := by
  obtain ⟨m, e⟩ := s.pokeN_eq a bs
  rw [e]
@[simp] theorem State.pokeN_peer (a : Nat) (bs : List Byte) : (s.pokeN a bs).peer = s.peer := by
  obtain ⟨m, e⟩ := s.pokeN_eq a bs
  rw [e]
@[simp] theorem State.pokeN_power (a : Nat) (bs : List Byte) : (s.pokeN a bs).power = s.power := by
  obtain ⟨m, e⟩ := s.pokeN_eq a bs
  rw [e]
@[simp] theorem State.pokeN_security (a : Nat) (bs : List Byte) : (s.pokeN a bs).security = s.security := by
  obtain ⟨m, e⟩ := s.pokeN_eq a bs
  rw [e]
@[simp] theorem State.pokeN_jtag (a : Nat) (bs : List Byte) : (s.pokeN a bs).jtag = s.jtag := by
  obtain ⟨m, e⟩ := s.pokeN_eq a bs
  rw [e]
@[simp] theorem State.pokeN_noVaux (a : Nat) (bs : List Byte) : (s.pokeN a bs).noVaux = s.noVaux := by
  obtain ⟨m, e⟩ := s.pokeN_eq a bs
  rw [e]
@[simp] theorem State.pokeN_optics (a : Nat) (bs : List Byte) : (s.pokeN a bs).optics = s.optics := by
  obtain ⟨m, e⟩ := s.pokeN_eq a bs
  rw [e]
@[simp] theorem State.pokeN_nis (a : Nat) (bs : List Byte) : (s.pokeN a bs).nis = s.nis := by
  obtain ⟨m, e⟩ := s.pokeN_eq a bs
  rw [e]
@[simp] theorem State.pokeN_wire (a : Nat) (bs : List Byte) : (s.pokeN a bs).wire = s.wire := by
  obtain ⟨m, e⟩ := s.pokeN_eq a bs
  rw [e]
@[simp] theorem State.pokeN_groups (a : Nat) (bs : List Byte) : (s.pokeN a bs).groups = s.groups := by
  obtain ⟨m, e⟩ := s.pokeN_eq a bs
  rw [e]
@[simp] theorem State.pokeN_early (a : Nat) (bs : List Byte) : (s.pokeN a bs).early = s.early := by
  obtain ⟨m, e⟩ := s.pokeN_eq a bs
  rw [e]
@[simp] theorem State.pokeN_ops (a : Nat) (bs : List Byte) : (s.pokeN a bs).ops = s.ops := by
  obtain ⟨m, e⟩ := s.pokeN_eq a bs
  rw [e]
@[simp] theorem State.pokeN_posted (a : Nat) (bs : List Byte) : (s.pokeN a bs).posted = s.posted := by
  obtain ⟨m, e⟩ := s.pokeN_eq a bs
  rw [e]
@[simp] theorem State.pokeN_linkTimer (a : Nat) (bs : List Byte) : (s.pokeN a bs).linkTimer = s.linkTimer := by
  obtain ⟨m, e⟩ := s.pokeN_eq a bs
  rw [e]
@[simp] theorem State.pokeN_withheld (a : Nat) (bs : List Byte) : (s.pokeN a bs).withheld = s.withheld := by
  obtain ⟨m, e⟩ := s.pokeN_eq a bs
  rw [e]
@[simp] theorem State.pokeN_fatal (a : Nat) (bs : List Byte) : (s.pokeN a bs).fatal = s.fatal := by
  obtain ⟨m, e⟩ := s.pokeN_eq a bs
  rw [e]
@[simp] theorem State.pokeN_partFatal (a : Nat) (bs : List Byte) : (s.pokeN a bs).partFatal = s.partFatal := by
  obtain ⟨m, e⟩ := s.pokeN_eq a bs
  rw [e]
@[simp] theorem State.pokeN_deadDies (a : Nat) (bs : List Byte) : (s.pokeN a bs).deadDies = s.deadDies := by
  obtain ⟨m, e⟩ := s.pokeN_eq a bs
  rw [e]
@[simp] theorem State.pokeN_satFlags (a : Nat) (bs : List Byte) : (s.pokeN a bs).satFlags = s.satFlags := by
  obtain ⟨m, e⟩ := s.pokeN_eq a bs
  rw [e]
@[simp] theorem State.pokeN_drawn (a : Nat) (bs : List Byte) : (s.pokeN a bs).drawn = s.drawn := by
  obtain ⟨m, e⟩ := s.pokeN_eq a bs
  rw [e]
@[simp] theorem State.pokeN_pending (a : Nat) (bs : List Byte) : (s.pokeN a bs).pending = s.pending := by
  obtain ⟨m, e⟩ := s.pokeN_eq a bs
  rw [e]
@[simp] theorem State.pokeN_rd (a : Nat) (bs : List Byte) (b1 : Nat) : (s.pokeN a bs).rd b1 = s.rd b1 := by
  obtain ⟨m, e⟩ := s.pokeN_eq a bs
  rw [e]
  rfl
@[simp] theorem State.pokeN_getF (a : Nat) (bs : List Byte) (g1 : Fld) : (s.pokeN a bs).getF g1 = s.getF g1 := by
  obtain ⟨m, e⟩ := s.pokeN_eq a bs
  rw [e]
  rfl
@[simp] theorem State.pokeN_flag (a : Nat) (bs : List Byte) (g1 : Fld) : (s.pokeN a bs).flag g1 = s.flag g1 := by
  obtain ⟨m, e⟩ := s.pokeN_eq a bs
  rw [e]
  rfl
@[simp] theorem State.pokeN_room (a : Nat) (bs : List Byte) (d1 : Nat) : (s.pokeN a bs).room d1 = s.room d1 := by
  obtain ⟨m, e⟩ := s.pokeN_eq a bs
  rw [e]
  rfl
@[simp] theorem State.pokeN_ctx (a : Nat) (bs : List Byte) (y1 : Nat) : (s.pokeN a bs).ctx y1 = s.ctx y1 := by
  obtain ⟨m, e⟩ := s.pokeN_eq a bs
  rw [e]
  rfl
@[simp] theorem State.pokeN_bar (a : Nat) (bs : List Byte) (j1 : Nat) : (s.pokeN a bs).bar j1 = s.bar j1 := by
  obtain ⟨m, e⟩ := s.pokeN_eq a bs
  rw [e]
  rfl
@[simp] theorem State.pokeN_snap (a : Nat) (bs : List Byte) (q1 : Nat) : (s.pokeN a bs).snap q1 = s.snap q1 := by
  obtain ⟨m, e⟩ := s.pokeN_eq a bs
  rw [e]
  rfl
@[simp] theorem State.pokeN_obj (a : Nat) (bs : List Byte) (j1 : Nat) : (s.pokeN a bs).obj j1 = s.obj j1 := by
  obtain ⟨m, e⟩ := s.pokeN_eq a bs
  rw [e]
  rfl
@[simp] theorem State.pokeN_tile (a : Nat) (bs : List Byte) (j1 : Nat) : (s.pokeN a bs).tile j1 = s.tile j1 := by
  obtain ⟨m, e⟩ := s.pokeN_eq a bs
  rw [e]
  rfl
@[simp] theorem State.pokeN_mig (a : Nat) (bs : List Byte) (j1 : Nat) : (s.pokeN a bs).mig j1 = s.mig j1 := by
  obtain ⟨m, e⟩ := s.pokeN_eq a bs
  rw [e]
  rfl
@[simp] theorem State.pokeN_ring (a : Nat) (bs : List Byte) (j1 : Nat) : (s.pokeN a bs).ring j1 = s.ring j1 := by
  obtain ⟨m, e⟩ := s.pokeN_eq a bs
  rw [e]
  rfl
@[simp] theorem State.pokeN_ni (a : Nat) (bs : List Byte) (j1 : Nat) : (s.pokeN a bs).ni j1 = s.ni j1 := by
  obtain ⟨m, e⟩ := s.pokeN_eq a bs
  rw [e]
  rfl
@[simp] theorem State.pokeN_linkT (a : Nat) (bs : List Byte) (j1 : Nat) : (s.pokeN a bs).linkT j1 = s.linkT j1 := by
  obtain ⟨m, e⟩ := s.pokeN_eq a bs
  rw [e]
  rfl

/-! ## zeroFrame -/

@[simp] theorem State.zeroFrame_csr (a : Nat) : (s.zeroFrame a).csr = s.csr := (rfl)
@[simp] theorem State.zeroFrame_cls (a : Nat) : (s.zeroFrame a).cls = s.cls := (rfl)
@[simp] theorem State.zeroFrame_ctxs (a : Nat) : (s.zeroFrame a).ctxs = s.ctxs := (rfl)
@[simp] theorem State.zeroFrame_bars (a : Nat) : (s.zeroFrame a).bars = s.bars := (rfl)
@[simp] theorem State.zeroFrame_snaps (a : Nat) : (s.zeroFrame a).snaps = s.snaps := (rfl)
@[simp] theorem State.zeroFrame_snapNums (a : Nat) : (s.zeroFrame a).snapNums = s.snapNums := (rfl)
@[simp] theorem State.zeroFrame_objs (a : Nat) : (s.zeroFrame a).objs = s.objs := (rfl)
@[simp] theorem State.zeroFrame_tiles (a : Nat) : (s.zeroFrame a).tiles = s.tiles := (rfl)
@[simp] theorem State.zeroFrame_retired (a : Nat) : (s.zeroFrame a).retired = s.retired := (rfl)
@[simp] theorem State.zeroFrame_held (a : Nat) : (s.zeroFrame a).held = s.held := (rfl)
@[simp] theorem State.zeroFrame_migs (a : Nat) : (s.zeroFrame a).migs = s.migs := (rfl)
@[simp] theorem State.zeroFrame_moves (a : Nat) : (s.zeroFrame a).moves = s.moves := (rfl)
@[simp] theorem State.zeroFrame_prefq (a : Nat) : (s.zeroFrame a).prefq = s.prefq := (rfl)
@[simp] theorem State.zeroFrame_sorters (a : Nat) : (s.zeroFrame a).sorters = s.sorters := (rfl)
@[simp] theorem State.zeroFrame_rampReq (a : Nat) : (s.zeroFrame a).rampReq = s.rampReq := (rfl)
@[simp] theorem State.zeroFrame_rampHold (a : Nat) : (s.zeroFrame a).rampHold = s.rampHold := (rfl)
@[simp] theorem State.zeroFrame_sliceReqs (a : Nat) : (s.zeroFrame a).sliceReqs = s.sliceReqs := (rfl)
@[simp] theorem State.zeroFrame_samples (a : Nat) : (s.zeroFrame a).samples = s.samples := (rfl)
@[simp] theorem State.zeroFrame_latches (a : Nat) : (s.zeroFrame a).latches = s.latches := (rfl)
@[simp] theorem State.zeroFrame_events (a : Nat) : (s.zeroFrame a).events = s.events := (rfl)
@[simp] theorem State.zeroFrame_replies (a : Nat) : (s.zeroFrame a).replies = s.replies := (rfl)
@[simp] theorem State.zeroFrame_ringTimer (a : Nat) : (s.zeroFrame a).ringTimer = s.ringTimer := (rfl)
@[simp] theorem State.zeroFrame_peer (a : Nat) : (s.zeroFrame a).peer = s.peer := (rfl)
@[simp] theorem State.zeroFrame_power (a : Nat) : (s.zeroFrame a).power = s.power := (rfl)
@[simp] theorem State.zeroFrame_security (a : Nat) : (s.zeroFrame a).security = s.security := (rfl)
@[simp] theorem State.zeroFrame_jtag (a : Nat) : (s.zeroFrame a).jtag = s.jtag := (rfl)
@[simp] theorem State.zeroFrame_noVaux (a : Nat) : (s.zeroFrame a).noVaux = s.noVaux := (rfl)
@[simp] theorem State.zeroFrame_optics (a : Nat) : (s.zeroFrame a).optics = s.optics := (rfl)
@[simp] theorem State.zeroFrame_nis (a : Nat) : (s.zeroFrame a).nis = s.nis := (rfl)
@[simp] theorem State.zeroFrame_wire (a : Nat) : (s.zeroFrame a).wire = s.wire := (rfl)
@[simp] theorem State.zeroFrame_groups (a : Nat) : (s.zeroFrame a).groups = s.groups := (rfl)
@[simp] theorem State.zeroFrame_early (a : Nat) : (s.zeroFrame a).early = s.early := (rfl)
@[simp] theorem State.zeroFrame_ops (a : Nat) : (s.zeroFrame a).ops = s.ops := (rfl)
@[simp] theorem State.zeroFrame_posted (a : Nat) : (s.zeroFrame a).posted = s.posted := (rfl)
@[simp] theorem State.zeroFrame_linkTimer (a : Nat) : (s.zeroFrame a).linkTimer = s.linkTimer := (rfl)
@[simp] theorem State.zeroFrame_withheld (a : Nat) : (s.zeroFrame a).withheld = s.withheld := (rfl)
@[simp] theorem State.zeroFrame_fatal (a : Nat) : (s.zeroFrame a).fatal = s.fatal := (rfl)
@[simp] theorem State.zeroFrame_partFatal (a : Nat) : (s.zeroFrame a).partFatal = s.partFatal := (rfl)
@[simp] theorem State.zeroFrame_deadDies (a : Nat) : (s.zeroFrame a).deadDies = s.deadDies := (rfl)
@[simp] theorem State.zeroFrame_satFlags (a : Nat) : (s.zeroFrame a).satFlags = s.satFlags := (rfl)
@[simp] theorem State.zeroFrame_drawn (a : Nat) : (s.zeroFrame a).drawn = s.drawn := (rfl)
@[simp] theorem State.zeroFrame_pending (a : Nat) : (s.zeroFrame a).pending = s.pending := (rfl)
@[simp] theorem State.zeroFrame_rd (a : Nat) (b1 : Nat) : (s.zeroFrame a).rd b1 = s.rd b1 := (rfl)
@[simp] theorem State.zeroFrame_getF (a : Nat) (g1 : Fld) : (s.zeroFrame a).getF g1 = s.getF g1 := (rfl)
@[simp] theorem State.zeroFrame_flag (a : Nat) (g1 : Fld) : (s.zeroFrame a).flag g1 = s.flag g1 := (rfl)
@[simp] theorem State.zeroFrame_room (a : Nat) (d1 : Nat) : (s.zeroFrame a).room d1 = s.room d1 := (rfl)
@[simp] theorem State.zeroFrame_ctx (a : Nat) (y1 : Nat) : (s.zeroFrame a).ctx y1 = s.ctx y1 := (rfl)
@[simp] theorem State.zeroFrame_bar (a : Nat) (j1 : Nat) : (s.zeroFrame a).bar j1 = s.bar j1 := (rfl)
@[simp] theorem State.zeroFrame_snap (a : Nat) (q1 : Nat) : (s.zeroFrame a).snap q1 = s.snap q1 := (rfl)
@[simp] theorem State.zeroFrame_obj (a : Nat) (j1 : Nat) : (s.zeroFrame a).obj j1 = s.obj j1 := (rfl)
@[simp] theorem State.zeroFrame_tile (a : Nat) (j1 : Nat) : (s.zeroFrame a).tile j1 = s.tile j1 := (rfl)
@[simp] theorem State.zeroFrame_mig (a : Nat) (j1 : Nat) : (s.zeroFrame a).mig j1 = s.mig j1 := (rfl)
@[simp] theorem State.zeroFrame_ring (a : Nat) (j1 : Nat) : (s.zeroFrame a).ring j1 = s.ring j1 := (rfl)
@[simp] theorem State.zeroFrame_ni (a : Nat) (j1 : Nat) : (s.zeroFrame a).ni j1 = s.ni j1 := (rfl)
@[simp] theorem State.zeroFrame_linkT (a : Nat) (j1 : Nat) : (s.zeroFrame a).linkT j1 = s.linkT j1 := (rfl)

/-! ## setRoom -/

@[simp] theorem State.setRoom_csr (c : Nat) (r : Classroom) : (s.setRoom c r).csr = s.csr := (rfl)
@[simp] theorem State.setRoom_mem (c : Nat) (r : Classroom) : (s.setRoom c r).mem = s.mem := (rfl)
@[simp] theorem State.setRoom_ctxs (c : Nat) (r : Classroom) : (s.setRoom c r).ctxs = s.ctxs := (rfl)
@[simp] theorem State.setRoom_bars (c : Nat) (r : Classroom) : (s.setRoom c r).bars = s.bars := (rfl)
@[simp] theorem State.setRoom_snaps (c : Nat) (r : Classroom) : (s.setRoom c r).snaps = s.snaps := (rfl)
@[simp] theorem State.setRoom_snapNums (c : Nat) (r : Classroom) : (s.setRoom c r).snapNums = s.snapNums := (rfl)
@[simp] theorem State.setRoom_objs (c : Nat) (r : Classroom) : (s.setRoom c r).objs = s.objs := (rfl)
@[simp] theorem State.setRoom_tiles (c : Nat) (r : Classroom) : (s.setRoom c r).tiles = s.tiles := (rfl)
@[simp] theorem State.setRoom_retired (c : Nat) (r : Classroom) : (s.setRoom c r).retired = s.retired := (rfl)
@[simp] theorem State.setRoom_held (c : Nat) (r : Classroom) : (s.setRoom c r).held = s.held := (rfl)
@[simp] theorem State.setRoom_migs (c : Nat) (r : Classroom) : (s.setRoom c r).migs = s.migs := (rfl)
@[simp] theorem State.setRoom_moves (c : Nat) (r : Classroom) : (s.setRoom c r).moves = s.moves := (rfl)
@[simp] theorem State.setRoom_prefq (c : Nat) (r : Classroom) : (s.setRoom c r).prefq = s.prefq := (rfl)
@[simp] theorem State.setRoom_sorters (c : Nat) (r : Classroom) : (s.setRoom c r).sorters = s.sorters := (rfl)
@[simp] theorem State.setRoom_rampReq (c : Nat) (r : Classroom) : (s.setRoom c r).rampReq = s.rampReq := (rfl)
@[simp] theorem State.setRoom_rampHold (c : Nat) (r : Classroom) : (s.setRoom c r).rampHold = s.rampHold := (rfl)
@[simp] theorem State.setRoom_sliceReqs (c : Nat) (r : Classroom) : (s.setRoom c r).sliceReqs = s.sliceReqs := (rfl)
@[simp] theorem State.setRoom_samples (c : Nat) (r : Classroom) : (s.setRoom c r).samples = s.samples := (rfl)
@[simp] theorem State.setRoom_latches (c : Nat) (r : Classroom) : (s.setRoom c r).latches = s.latches := (rfl)
@[simp] theorem State.setRoom_events (c : Nat) (r : Classroom) : (s.setRoom c r).events = s.events := (rfl)
@[simp] theorem State.setRoom_replies (c : Nat) (r : Classroom) : (s.setRoom c r).replies = s.replies := (rfl)
@[simp] theorem State.setRoom_ringTimer (c : Nat) (r : Classroom) : (s.setRoom c r).ringTimer = s.ringTimer := (rfl)
@[simp] theorem State.setRoom_peer (c : Nat) (r : Classroom) : (s.setRoom c r).peer = s.peer := (rfl)
@[simp] theorem State.setRoom_power (c : Nat) (r : Classroom) : (s.setRoom c r).power = s.power := (rfl)
@[simp] theorem State.setRoom_security (c : Nat) (r : Classroom) : (s.setRoom c r).security = s.security := (rfl)
@[simp] theorem State.setRoom_jtag (c : Nat) (r : Classroom) : (s.setRoom c r).jtag = s.jtag := (rfl)
@[simp] theorem State.setRoom_noVaux (c : Nat) (r : Classroom) : (s.setRoom c r).noVaux = s.noVaux := (rfl)
@[simp] theorem State.setRoom_optics (c : Nat) (r : Classroom) : (s.setRoom c r).optics = s.optics := (rfl)
@[simp] theorem State.setRoom_nis (c : Nat) (r : Classroom) : (s.setRoom c r).nis = s.nis := (rfl)
@[simp] theorem State.setRoom_wire (c : Nat) (r : Classroom) : (s.setRoom c r).wire = s.wire := (rfl)
@[simp] theorem State.setRoom_groups (c : Nat) (r : Classroom) : (s.setRoom c r).groups = s.groups := (rfl)
@[simp] theorem State.setRoom_early (c : Nat) (r : Classroom) : (s.setRoom c r).early = s.early := (rfl)
@[simp] theorem State.setRoom_ops (c : Nat) (r : Classroom) : (s.setRoom c r).ops = s.ops := (rfl)
@[simp] theorem State.setRoom_posted (c : Nat) (r : Classroom) : (s.setRoom c r).posted = s.posted := (rfl)
@[simp] theorem State.setRoom_linkTimer (c : Nat) (r : Classroom) : (s.setRoom c r).linkTimer = s.linkTimer := (rfl)
@[simp] theorem State.setRoom_withheld (c : Nat) (r : Classroom) : (s.setRoom c r).withheld = s.withheld := (rfl)
@[simp] theorem State.setRoom_fatal (c : Nat) (r : Classroom) : (s.setRoom c r).fatal = s.fatal := (rfl)
@[simp] theorem State.setRoom_partFatal (c : Nat) (r : Classroom) : (s.setRoom c r).partFatal = s.partFatal := (rfl)
@[simp] theorem State.setRoom_deadDies (c : Nat) (r : Classroom) : (s.setRoom c r).deadDies = s.deadDies := (rfl)
@[simp] theorem State.setRoom_satFlags (c : Nat) (r : Classroom) : (s.setRoom c r).satFlags = s.satFlags := (rfl)
@[simp] theorem State.setRoom_drawn (c : Nat) (r : Classroom) : (s.setRoom c r).drawn = s.drawn := (rfl)
@[simp] theorem State.setRoom_pending (c : Nat) (r : Classroom) : (s.setRoom c r).pending = s.pending := (rfl)
@[simp] theorem State.setRoom_rd (c : Nat) (r : Classroom) (b1 : Nat) : (s.setRoom c r).rd b1 = s.rd b1 := (rfl)
@[simp] theorem State.setRoom_getF (c : Nat) (r : Classroom) (g1 : Fld) : (s.setRoom c r).getF g1 = s.getF g1 := (rfl)
@[simp] theorem State.setRoom_flag (c : Nat) (r : Classroom) (g1 : Fld) : (s.setRoom c r).flag g1 = s.flag g1 := (rfl)
@[simp] theorem State.setRoom_peek (c : Nat) (r : Classroom) (b1 : Nat) : (s.setRoom c r).peek b1 = s.peek b1 := (rfl)
@[simp] theorem State.setRoom_ctx (c : Nat) (r : Classroom) (y1 : Nat) : (s.setRoom c r).ctx y1 = s.ctx y1 := (rfl)
@[simp] theorem State.setRoom_bar (c : Nat) (r : Classroom) (j1 : Nat) : (s.setRoom c r).bar j1 = s.bar j1 := (rfl)
@[simp] theorem State.setRoom_snap (c : Nat) (r : Classroom) (q1 : Nat) : (s.setRoom c r).snap q1 = s.snap q1 := (rfl)
@[simp] theorem State.setRoom_obj (c : Nat) (r : Classroom) (j1 : Nat) : (s.setRoom c r).obj j1 = s.obj j1 := (rfl)
@[simp] theorem State.setRoom_tile (c : Nat) (r : Classroom) (j1 : Nat) : (s.setRoom c r).tile j1 = s.tile j1 := (rfl)
@[simp] theorem State.setRoom_mig (c : Nat) (r : Classroom) (j1 : Nat) : (s.setRoom c r).mig j1 = s.mig j1 := (rfl)
@[simp] theorem State.setRoom_ring (c : Nat) (r : Classroom) (j1 : Nat) : (s.setRoom c r).ring j1 = s.ring j1 := (rfl)
@[simp] theorem State.setRoom_ni (c : Nat) (r : Classroom) (j1 : Nat) : (s.setRoom c r).ni j1 = s.ni j1 := (rfl)
@[simp] theorem State.setRoom_linkT (c : Nat) (r : Classroom) (j1 : Nat) : (s.setRoom c r).linkT j1 = s.linkT j1 := (rfl)

/-! ## setCtx -/

@[simp] theorem State.setCtx_csr (x : Nat) (r : Ctx) : (s.setCtx x r).csr = s.csr := (rfl)
@[simp] theorem State.setCtx_mem (x : Nat) (r : Ctx) : (s.setCtx x r).mem = s.mem := (rfl)
@[simp] theorem State.setCtx_cls (x : Nat) (r : Ctx) : (s.setCtx x r).cls = s.cls := (rfl)
@[simp] theorem State.setCtx_bars (x : Nat) (r : Ctx) : (s.setCtx x r).bars = s.bars := (rfl)
@[simp] theorem State.setCtx_snaps (x : Nat) (r : Ctx) : (s.setCtx x r).snaps = s.snaps := (rfl)
@[simp] theorem State.setCtx_snapNums (x : Nat) (r : Ctx) : (s.setCtx x r).snapNums = s.snapNums := (rfl)
@[simp] theorem State.setCtx_objs (x : Nat) (r : Ctx) : (s.setCtx x r).objs = s.objs := (rfl)
@[simp] theorem State.setCtx_tiles (x : Nat) (r : Ctx) : (s.setCtx x r).tiles = s.tiles := (rfl)
@[simp] theorem State.setCtx_retired (x : Nat) (r : Ctx) : (s.setCtx x r).retired = s.retired := (rfl)
@[simp] theorem State.setCtx_held (x : Nat) (r : Ctx) : (s.setCtx x r).held = s.held := (rfl)
@[simp] theorem State.setCtx_migs (x : Nat) (r : Ctx) : (s.setCtx x r).migs = s.migs := (rfl)
@[simp] theorem State.setCtx_moves (x : Nat) (r : Ctx) : (s.setCtx x r).moves = s.moves := (rfl)
@[simp] theorem State.setCtx_prefq (x : Nat) (r : Ctx) : (s.setCtx x r).prefq = s.prefq := (rfl)
@[simp] theorem State.setCtx_sorters (x : Nat) (r : Ctx) : (s.setCtx x r).sorters = s.sorters := (rfl)
@[simp] theorem State.setCtx_rampReq (x : Nat) (r : Ctx) : (s.setCtx x r).rampReq = s.rampReq := (rfl)
@[simp] theorem State.setCtx_rampHold (x : Nat) (r : Ctx) : (s.setCtx x r).rampHold = s.rampHold := (rfl)
@[simp] theorem State.setCtx_sliceReqs (x : Nat) (r : Ctx) : (s.setCtx x r).sliceReqs = s.sliceReqs := (rfl)
@[simp] theorem State.setCtx_samples (x : Nat) (r : Ctx) : (s.setCtx x r).samples = s.samples := (rfl)
@[simp] theorem State.setCtx_latches (x : Nat) (r : Ctx) : (s.setCtx x r).latches = s.latches := (rfl)
@[simp] theorem State.setCtx_events (x : Nat) (r : Ctx) : (s.setCtx x r).events = s.events := (rfl)
@[simp] theorem State.setCtx_replies (x : Nat) (r : Ctx) : (s.setCtx x r).replies = s.replies := (rfl)
@[simp] theorem State.setCtx_ringTimer (x : Nat) (r : Ctx) : (s.setCtx x r).ringTimer = s.ringTimer := (rfl)
@[simp] theorem State.setCtx_peer (x : Nat) (r : Ctx) : (s.setCtx x r).peer = s.peer := (rfl)
@[simp] theorem State.setCtx_power (x : Nat) (r : Ctx) : (s.setCtx x r).power = s.power := (rfl)
@[simp] theorem State.setCtx_security (x : Nat) (r : Ctx) : (s.setCtx x r).security = s.security := (rfl)
@[simp] theorem State.setCtx_jtag (x : Nat) (r : Ctx) : (s.setCtx x r).jtag = s.jtag := (rfl)
@[simp] theorem State.setCtx_noVaux (x : Nat) (r : Ctx) : (s.setCtx x r).noVaux = s.noVaux := (rfl)
@[simp] theorem State.setCtx_optics (x : Nat) (r : Ctx) : (s.setCtx x r).optics = s.optics := (rfl)
@[simp] theorem State.setCtx_nis (x : Nat) (r : Ctx) : (s.setCtx x r).nis = s.nis := (rfl)
@[simp] theorem State.setCtx_wire (x : Nat) (r : Ctx) : (s.setCtx x r).wire = s.wire := (rfl)
@[simp] theorem State.setCtx_groups (x : Nat) (r : Ctx) : (s.setCtx x r).groups = s.groups := (rfl)
@[simp] theorem State.setCtx_early (x : Nat) (r : Ctx) : (s.setCtx x r).early = s.early := (rfl)
@[simp] theorem State.setCtx_ops (x : Nat) (r : Ctx) : (s.setCtx x r).ops = s.ops := (rfl)
@[simp] theorem State.setCtx_posted (x : Nat) (r : Ctx) : (s.setCtx x r).posted = s.posted := (rfl)
@[simp] theorem State.setCtx_linkTimer (x : Nat) (r : Ctx) : (s.setCtx x r).linkTimer = s.linkTimer := (rfl)
@[simp] theorem State.setCtx_withheld (x : Nat) (r : Ctx) : (s.setCtx x r).withheld = s.withheld := (rfl)
@[simp] theorem State.setCtx_fatal (x : Nat) (r : Ctx) : (s.setCtx x r).fatal = s.fatal := (rfl)
@[simp] theorem State.setCtx_partFatal (x : Nat) (r : Ctx) : (s.setCtx x r).partFatal = s.partFatal := (rfl)
@[simp] theorem State.setCtx_deadDies (x : Nat) (r : Ctx) : (s.setCtx x r).deadDies = s.deadDies := (rfl)
@[simp] theorem State.setCtx_satFlags (x : Nat) (r : Ctx) : (s.setCtx x r).satFlags = s.satFlags := (rfl)
@[simp] theorem State.setCtx_drawn (x : Nat) (r : Ctx) : (s.setCtx x r).drawn = s.drawn := (rfl)
@[simp] theorem State.setCtx_pending (x : Nat) (r : Ctx) : (s.setCtx x r).pending = s.pending := (rfl)
@[simp] theorem State.setCtx_rd (x : Nat) (r : Ctx) (b1 : Nat) : (s.setCtx x r).rd b1 = s.rd b1 := (rfl)
@[simp] theorem State.setCtx_getF (x : Nat) (r : Ctx) (g1 : Fld) : (s.setCtx x r).getF g1 = s.getF g1 := (rfl)
@[simp] theorem State.setCtx_flag (x : Nat) (r : Ctx) (g1 : Fld) : (s.setCtx x r).flag g1 = s.flag g1 := (rfl)
@[simp] theorem State.setCtx_peek (x : Nat) (r : Ctx) (b1 : Nat) : (s.setCtx x r).peek b1 = s.peek b1 := (rfl)
@[simp] theorem State.setCtx_room (x : Nat) (r : Ctx) (d1 : Nat) : (s.setCtx x r).room d1 = s.room d1 := (rfl)
@[simp] theorem State.setCtx_bar (x : Nat) (r : Ctx) (j1 : Nat) : (s.setCtx x r).bar j1 = s.bar j1 := (rfl)
@[simp] theorem State.setCtx_snap (x : Nat) (r : Ctx) (q1 : Nat) : (s.setCtx x r).snap q1 = s.snap q1 := (rfl)
@[simp] theorem State.setCtx_obj (x : Nat) (r : Ctx) (j1 : Nat) : (s.setCtx x r).obj j1 = s.obj j1 := (rfl)
@[simp] theorem State.setCtx_tile (x : Nat) (r : Ctx) (j1 : Nat) : (s.setCtx x r).tile j1 = s.tile j1 := (rfl)
@[simp] theorem State.setCtx_mig (x : Nat) (r : Ctx) (j1 : Nat) : (s.setCtx x r).mig j1 = s.mig j1 := (rfl)
@[simp] theorem State.setCtx_ring (x : Nat) (r : Ctx) (j1 : Nat) : (s.setCtx x r).ring j1 = s.ring j1 := (rfl)
@[simp] theorem State.setCtx_ni (x : Nat) (r : Ctx) (j1 : Nat) : (s.setCtx x r).ni j1 = s.ni j1 := (rfl)
@[simp] theorem State.setCtx_linkT (x : Nat) (r : Ctx) (j1 : Nat) : (s.setCtx x r).linkT j1 = s.linkT j1 := (rfl)

/-! ## setBar -/

@[simp] theorem State.setBar_csr (k : Nat) (b : Barrier) : (s.setBar k b).csr = s.csr := (rfl)
@[simp] theorem State.setBar_mem (k : Nat) (b : Barrier) : (s.setBar k b).mem = s.mem := (rfl)
@[simp] theorem State.setBar_cls (k : Nat) (b : Barrier) : (s.setBar k b).cls = s.cls := (rfl)
@[simp] theorem State.setBar_ctxs (k : Nat) (b : Barrier) : (s.setBar k b).ctxs = s.ctxs := (rfl)
@[simp] theorem State.setBar_snaps (k : Nat) (b : Barrier) : (s.setBar k b).snaps = s.snaps := (rfl)
@[simp] theorem State.setBar_snapNums (k : Nat) (b : Barrier) : (s.setBar k b).snapNums = s.snapNums := (rfl)
@[simp] theorem State.setBar_objs (k : Nat) (b : Barrier) : (s.setBar k b).objs = s.objs := (rfl)
@[simp] theorem State.setBar_tiles (k : Nat) (b : Barrier) : (s.setBar k b).tiles = s.tiles := (rfl)
@[simp] theorem State.setBar_retired (k : Nat) (b : Barrier) : (s.setBar k b).retired = s.retired := (rfl)
@[simp] theorem State.setBar_held (k : Nat) (b : Barrier) : (s.setBar k b).held = s.held := (rfl)
@[simp] theorem State.setBar_migs (k : Nat) (b : Barrier) : (s.setBar k b).migs = s.migs := (rfl)
@[simp] theorem State.setBar_moves (k : Nat) (b : Barrier) : (s.setBar k b).moves = s.moves := (rfl)
@[simp] theorem State.setBar_prefq (k : Nat) (b : Barrier) : (s.setBar k b).prefq = s.prefq := (rfl)
@[simp] theorem State.setBar_sorters (k : Nat) (b : Barrier) : (s.setBar k b).sorters = s.sorters := (rfl)
@[simp] theorem State.setBar_rampReq (k : Nat) (b : Barrier) : (s.setBar k b).rampReq = s.rampReq := (rfl)
@[simp] theorem State.setBar_rampHold (k : Nat) (b : Barrier) : (s.setBar k b).rampHold = s.rampHold := (rfl)
@[simp] theorem State.setBar_sliceReqs (k : Nat) (b : Barrier) : (s.setBar k b).sliceReqs = s.sliceReqs := (rfl)
@[simp] theorem State.setBar_samples (k : Nat) (b : Barrier) : (s.setBar k b).samples = s.samples := (rfl)
@[simp] theorem State.setBar_latches (k : Nat) (b : Barrier) : (s.setBar k b).latches = s.latches := (rfl)
@[simp] theorem State.setBar_events (k : Nat) (b : Barrier) : (s.setBar k b).events = s.events := (rfl)
@[simp] theorem State.setBar_replies (k : Nat) (b : Barrier) : (s.setBar k b).replies = s.replies := (rfl)
@[simp] theorem State.setBar_ringTimer (k : Nat) (b : Barrier) : (s.setBar k b).ringTimer = s.ringTimer := (rfl)
@[simp] theorem State.setBar_peer (k : Nat) (b : Barrier) : (s.setBar k b).peer = s.peer := (rfl)
@[simp] theorem State.setBar_power (k : Nat) (b : Barrier) : (s.setBar k b).power = s.power := (rfl)
@[simp] theorem State.setBar_security (k : Nat) (b : Barrier) : (s.setBar k b).security = s.security := (rfl)
@[simp] theorem State.setBar_jtag (k : Nat) (b : Barrier) : (s.setBar k b).jtag = s.jtag := (rfl)
@[simp] theorem State.setBar_noVaux (k : Nat) (b : Barrier) : (s.setBar k b).noVaux = s.noVaux := (rfl)
@[simp] theorem State.setBar_optics (k : Nat) (b : Barrier) : (s.setBar k b).optics = s.optics := (rfl)
@[simp] theorem State.setBar_nis (k : Nat) (b : Barrier) : (s.setBar k b).nis = s.nis := (rfl)
@[simp] theorem State.setBar_wire (k : Nat) (b : Barrier) : (s.setBar k b).wire = s.wire := (rfl)
@[simp] theorem State.setBar_groups (k : Nat) (b : Barrier) : (s.setBar k b).groups = s.groups := (rfl)
@[simp] theorem State.setBar_early (k : Nat) (b : Barrier) : (s.setBar k b).early = s.early := (rfl)
@[simp] theorem State.setBar_ops (k : Nat) (b : Barrier) : (s.setBar k b).ops = s.ops := (rfl)
@[simp] theorem State.setBar_posted (k : Nat) (b : Barrier) : (s.setBar k b).posted = s.posted := (rfl)
@[simp] theorem State.setBar_linkTimer (k : Nat) (b : Barrier) : (s.setBar k b).linkTimer = s.linkTimer := (rfl)
@[simp] theorem State.setBar_withheld (k : Nat) (b : Barrier) : (s.setBar k b).withheld = s.withheld := (rfl)
@[simp] theorem State.setBar_fatal (k : Nat) (b : Barrier) : (s.setBar k b).fatal = s.fatal := (rfl)
@[simp] theorem State.setBar_partFatal (k : Nat) (b : Barrier) : (s.setBar k b).partFatal = s.partFatal := (rfl)
@[simp] theorem State.setBar_deadDies (k : Nat) (b : Barrier) : (s.setBar k b).deadDies = s.deadDies := (rfl)
@[simp] theorem State.setBar_satFlags (k : Nat) (b : Barrier) : (s.setBar k b).satFlags = s.satFlags := (rfl)
@[simp] theorem State.setBar_drawn (k : Nat) (b : Barrier) : (s.setBar k b).drawn = s.drawn := (rfl)
@[simp] theorem State.setBar_pending (k : Nat) (b : Barrier) : (s.setBar k b).pending = s.pending := (rfl)
@[simp] theorem State.setBar_rd (k : Nat) (b : Barrier) (b1 : Nat) : (s.setBar k b).rd b1 = s.rd b1 := (rfl)
@[simp] theorem State.setBar_getF (k : Nat) (b : Barrier) (g1 : Fld) : (s.setBar k b).getF g1 = s.getF g1 := (rfl)
@[simp] theorem State.setBar_flag (k : Nat) (b : Barrier) (g1 : Fld) : (s.setBar k b).flag g1 = s.flag g1 := (rfl)
@[simp] theorem State.setBar_peek (k : Nat) (b : Barrier) (b1 : Nat) : (s.setBar k b).peek b1 = s.peek b1 := (rfl)
@[simp] theorem State.setBar_room (k : Nat) (b : Barrier) (d1 : Nat) : (s.setBar k b).room d1 = s.room d1 := (rfl)
@[simp] theorem State.setBar_ctx (k : Nat) (b : Barrier) (y1 : Nat) : (s.setBar k b).ctx y1 = s.ctx y1 := (rfl)
@[simp] theorem State.setBar_snap (k : Nat) (b : Barrier) (q1 : Nat) : (s.setBar k b).snap q1 = s.snap q1 := (rfl)
@[simp] theorem State.setBar_obj (k : Nat) (b : Barrier) (j1 : Nat) : (s.setBar k b).obj j1 = s.obj j1 := (rfl)
@[simp] theorem State.setBar_tile (k : Nat) (b : Barrier) (j1 : Nat) : (s.setBar k b).tile j1 = s.tile j1 := (rfl)
@[simp] theorem State.setBar_mig (k : Nat) (b : Barrier) (j1 : Nat) : (s.setBar k b).mig j1 = s.mig j1 := (rfl)
@[simp] theorem State.setBar_ring (k : Nat) (b : Barrier) (j1 : Nat) : (s.setBar k b).ring j1 = s.ring j1 := (rfl)
@[simp] theorem State.setBar_ni (k : Nat) (b : Barrier) (j1 : Nat) : (s.setBar k b).ni j1 = s.ni j1 := (rfl)
@[simp] theorem State.setBar_linkT (k : Nat) (b : Barrier) (j1 : Nat) : (s.setBar k b).linkT j1 = s.linkT j1 := (rfl)

/-! ## setSnap -/

@[simp] theorem State.setSnap_csr (p : Nat) (x : Snap) : (s.setSnap p x).csr = s.csr := (rfl)
@[simp] theorem State.setSnap_mem (p : Nat) (x : Snap) : (s.setSnap p x).mem = s.mem := (rfl)
@[simp] theorem State.setSnap_cls (p : Nat) (x : Snap) : (s.setSnap p x).cls = s.cls := (rfl)
@[simp] theorem State.setSnap_ctxs (p : Nat) (x : Snap) : (s.setSnap p x).ctxs = s.ctxs := (rfl)
@[simp] theorem State.setSnap_bars (p : Nat) (x : Snap) : (s.setSnap p x).bars = s.bars := (rfl)
@[simp] theorem State.setSnap_snapNums (p : Nat) (x : Snap) : (s.setSnap p x).snapNums = s.snapNums := (rfl)
@[simp] theorem State.setSnap_objs (p : Nat) (x : Snap) : (s.setSnap p x).objs = s.objs := (rfl)
@[simp] theorem State.setSnap_tiles (p : Nat) (x : Snap) : (s.setSnap p x).tiles = s.tiles := (rfl)
@[simp] theorem State.setSnap_retired (p : Nat) (x : Snap) : (s.setSnap p x).retired = s.retired := (rfl)
@[simp] theorem State.setSnap_held (p : Nat) (x : Snap) : (s.setSnap p x).held = s.held := (rfl)
@[simp] theorem State.setSnap_migs (p : Nat) (x : Snap) : (s.setSnap p x).migs = s.migs := (rfl)
@[simp] theorem State.setSnap_moves (p : Nat) (x : Snap) : (s.setSnap p x).moves = s.moves := (rfl)
@[simp] theorem State.setSnap_prefq (p : Nat) (x : Snap) : (s.setSnap p x).prefq = s.prefq := (rfl)
@[simp] theorem State.setSnap_sorters (p : Nat) (x : Snap) : (s.setSnap p x).sorters = s.sorters := (rfl)
@[simp] theorem State.setSnap_rampReq (p : Nat) (x : Snap) : (s.setSnap p x).rampReq = s.rampReq := (rfl)
@[simp] theorem State.setSnap_rampHold (p : Nat) (x : Snap) : (s.setSnap p x).rampHold = s.rampHold := (rfl)
@[simp] theorem State.setSnap_sliceReqs (p : Nat) (x : Snap) : (s.setSnap p x).sliceReqs = s.sliceReqs := (rfl)
@[simp] theorem State.setSnap_samples (p : Nat) (x : Snap) : (s.setSnap p x).samples = s.samples := (rfl)
@[simp] theorem State.setSnap_latches (p : Nat) (x : Snap) : (s.setSnap p x).latches = s.latches := (rfl)
@[simp] theorem State.setSnap_events (p : Nat) (x : Snap) : (s.setSnap p x).events = s.events := (rfl)
@[simp] theorem State.setSnap_replies (p : Nat) (x : Snap) : (s.setSnap p x).replies = s.replies := (rfl)
@[simp] theorem State.setSnap_ringTimer (p : Nat) (x : Snap) : (s.setSnap p x).ringTimer = s.ringTimer := (rfl)
@[simp] theorem State.setSnap_peer (p : Nat) (x : Snap) : (s.setSnap p x).peer = s.peer := (rfl)
@[simp] theorem State.setSnap_power (p : Nat) (x : Snap) : (s.setSnap p x).power = s.power := (rfl)
@[simp] theorem State.setSnap_security (p : Nat) (x : Snap) : (s.setSnap p x).security = s.security := (rfl)
@[simp] theorem State.setSnap_jtag (p : Nat) (x : Snap) : (s.setSnap p x).jtag = s.jtag := (rfl)
@[simp] theorem State.setSnap_noVaux (p : Nat) (x : Snap) : (s.setSnap p x).noVaux = s.noVaux := (rfl)
@[simp] theorem State.setSnap_optics (p : Nat) (x : Snap) : (s.setSnap p x).optics = s.optics := (rfl)
@[simp] theorem State.setSnap_nis (p : Nat) (x : Snap) : (s.setSnap p x).nis = s.nis := (rfl)
@[simp] theorem State.setSnap_wire (p : Nat) (x : Snap) : (s.setSnap p x).wire = s.wire := (rfl)
@[simp] theorem State.setSnap_groups (p : Nat) (x : Snap) : (s.setSnap p x).groups = s.groups := (rfl)
@[simp] theorem State.setSnap_early (p : Nat) (x : Snap) : (s.setSnap p x).early = s.early := (rfl)
@[simp] theorem State.setSnap_ops (p : Nat) (x : Snap) : (s.setSnap p x).ops = s.ops := (rfl)
@[simp] theorem State.setSnap_posted (p : Nat) (x : Snap) : (s.setSnap p x).posted = s.posted := (rfl)
@[simp] theorem State.setSnap_linkTimer (p : Nat) (x : Snap) : (s.setSnap p x).linkTimer = s.linkTimer := (rfl)
@[simp] theorem State.setSnap_withheld (p : Nat) (x : Snap) : (s.setSnap p x).withheld = s.withheld := (rfl)
@[simp] theorem State.setSnap_fatal (p : Nat) (x : Snap) : (s.setSnap p x).fatal = s.fatal := (rfl)
@[simp] theorem State.setSnap_partFatal (p : Nat) (x : Snap) : (s.setSnap p x).partFatal = s.partFatal := (rfl)
@[simp] theorem State.setSnap_deadDies (p : Nat) (x : Snap) : (s.setSnap p x).deadDies = s.deadDies := (rfl)
@[simp] theorem State.setSnap_satFlags (p : Nat) (x : Snap) : (s.setSnap p x).satFlags = s.satFlags := (rfl)
@[simp] theorem State.setSnap_drawn (p : Nat) (x : Snap) : (s.setSnap p x).drawn = s.drawn := (rfl)
@[simp] theorem State.setSnap_pending (p : Nat) (x : Snap) : (s.setSnap p x).pending = s.pending := (rfl)
@[simp] theorem State.setSnap_rd (p : Nat) (x : Snap) (b1 : Nat) : (s.setSnap p x).rd b1 = s.rd b1 := (rfl)
@[simp] theorem State.setSnap_getF (p : Nat) (x : Snap) (g1 : Fld) : (s.setSnap p x).getF g1 = s.getF g1 := (rfl)
@[simp] theorem State.setSnap_flag (p : Nat) (x : Snap) (g1 : Fld) : (s.setSnap p x).flag g1 = s.flag g1 := (rfl)
@[simp] theorem State.setSnap_peek (p : Nat) (x : Snap) (b1 : Nat) : (s.setSnap p x).peek b1 = s.peek b1 := (rfl)
@[simp] theorem State.setSnap_room (p : Nat) (x : Snap) (d1 : Nat) : (s.setSnap p x).room d1 = s.room d1 := (rfl)
@[simp] theorem State.setSnap_ctx (p : Nat) (x : Snap) (y1 : Nat) : (s.setSnap p x).ctx y1 = s.ctx y1 := (rfl)
@[simp] theorem State.setSnap_bar (p : Nat) (x : Snap) (j1 : Nat) : (s.setSnap p x).bar j1 = s.bar j1 := (rfl)
@[simp] theorem State.setSnap_obj (p : Nat) (x : Snap) (j1 : Nat) : (s.setSnap p x).obj j1 = s.obj j1 := (rfl)
@[simp] theorem State.setSnap_tile (p : Nat) (x : Snap) (j1 : Nat) : (s.setSnap p x).tile j1 = s.tile j1 := (rfl)
@[simp] theorem State.setSnap_mig (p : Nat) (x : Snap) (j1 : Nat) : (s.setSnap p x).mig j1 = s.mig j1 := (rfl)
@[simp] theorem State.setSnap_ring (p : Nat) (x : Snap) (j1 : Nat) : (s.setSnap p x).ring j1 = s.ring j1 := (rfl)
@[simp] theorem State.setSnap_ni (p : Nat) (x : Snap) (j1 : Nat) : (s.setSnap p x).ni j1 = s.ni j1 := (rfl)
@[simp] theorem State.setSnap_linkT (p : Nat) (x : Snap) (j1 : Nat) : (s.setSnap p x).linkT j1 = s.linkT j1 := (rfl)

/-! ## setObj -/

@[simp] theorem State.setObj_csr (ok : Nat) (o : Option Obj) : (s.setObj ok o).csr = s.csr := (rfl)
@[simp] theorem State.setObj_mem (ok : Nat) (o : Option Obj) : (s.setObj ok o).mem = s.mem := (rfl)
@[simp] theorem State.setObj_cls (ok : Nat) (o : Option Obj) : (s.setObj ok o).cls = s.cls := (rfl)
@[simp] theorem State.setObj_ctxs (ok : Nat) (o : Option Obj) : (s.setObj ok o).ctxs = s.ctxs := (rfl)
@[simp] theorem State.setObj_bars (ok : Nat) (o : Option Obj) : (s.setObj ok o).bars = s.bars := (rfl)
@[simp] theorem State.setObj_snaps (ok : Nat) (o : Option Obj) : (s.setObj ok o).snaps = s.snaps := (rfl)
@[simp] theorem State.setObj_snapNums (ok : Nat) (o : Option Obj) : (s.setObj ok o).snapNums = s.snapNums := (rfl)
@[simp] theorem State.setObj_tiles (ok : Nat) (o : Option Obj) : (s.setObj ok o).tiles = s.tiles := (rfl)
@[simp] theorem State.setObj_retired (ok : Nat) (o : Option Obj) : (s.setObj ok o).retired = s.retired := (rfl)
@[simp] theorem State.setObj_held (ok : Nat) (o : Option Obj) : (s.setObj ok o).held = s.held := (rfl)
@[simp] theorem State.setObj_migs (ok : Nat) (o : Option Obj) : (s.setObj ok o).migs = s.migs := (rfl)
@[simp] theorem State.setObj_moves (ok : Nat) (o : Option Obj) : (s.setObj ok o).moves = s.moves := (rfl)
@[simp] theorem State.setObj_prefq (ok : Nat) (o : Option Obj) : (s.setObj ok o).prefq = s.prefq := (rfl)
@[simp] theorem State.setObj_sorters (ok : Nat) (o : Option Obj) : (s.setObj ok o).sorters = s.sorters := (rfl)
@[simp] theorem State.setObj_rampReq (ok : Nat) (o : Option Obj) : (s.setObj ok o).rampReq = s.rampReq := (rfl)
@[simp] theorem State.setObj_rampHold (ok : Nat) (o : Option Obj) : (s.setObj ok o).rampHold = s.rampHold := (rfl)
@[simp] theorem State.setObj_sliceReqs (ok : Nat) (o : Option Obj) : (s.setObj ok o).sliceReqs = s.sliceReqs := (rfl)
@[simp] theorem State.setObj_samples (ok : Nat) (o : Option Obj) : (s.setObj ok o).samples = s.samples := (rfl)
@[simp] theorem State.setObj_latches (ok : Nat) (o : Option Obj) : (s.setObj ok o).latches = s.latches := (rfl)
@[simp] theorem State.setObj_events (ok : Nat) (o : Option Obj) : (s.setObj ok o).events = s.events := (rfl)
@[simp] theorem State.setObj_replies (ok : Nat) (o : Option Obj) : (s.setObj ok o).replies = s.replies := (rfl)
@[simp] theorem State.setObj_ringTimer (ok : Nat) (o : Option Obj) : (s.setObj ok o).ringTimer = s.ringTimer := (rfl)
@[simp] theorem State.setObj_peer (ok : Nat) (o : Option Obj) : (s.setObj ok o).peer = s.peer := (rfl)
@[simp] theorem State.setObj_power (ok : Nat) (o : Option Obj) : (s.setObj ok o).power = s.power := (rfl)
@[simp] theorem State.setObj_security (ok : Nat) (o : Option Obj) : (s.setObj ok o).security = s.security := (rfl)
@[simp] theorem State.setObj_jtag (ok : Nat) (o : Option Obj) : (s.setObj ok o).jtag = s.jtag := (rfl)
@[simp] theorem State.setObj_noVaux (ok : Nat) (o : Option Obj) : (s.setObj ok o).noVaux = s.noVaux := (rfl)
@[simp] theorem State.setObj_optics (ok : Nat) (o : Option Obj) : (s.setObj ok o).optics = s.optics := (rfl)
@[simp] theorem State.setObj_nis (ok : Nat) (o : Option Obj) : (s.setObj ok o).nis = s.nis := (rfl)
@[simp] theorem State.setObj_wire (ok : Nat) (o : Option Obj) : (s.setObj ok o).wire = s.wire := (rfl)
@[simp] theorem State.setObj_groups (ok : Nat) (o : Option Obj) : (s.setObj ok o).groups = s.groups := (rfl)
@[simp] theorem State.setObj_early (ok : Nat) (o : Option Obj) : (s.setObj ok o).early = s.early := (rfl)
@[simp] theorem State.setObj_ops (ok : Nat) (o : Option Obj) : (s.setObj ok o).ops = s.ops := (rfl)
@[simp] theorem State.setObj_posted (ok : Nat) (o : Option Obj) : (s.setObj ok o).posted = s.posted := (rfl)
@[simp] theorem State.setObj_linkTimer (ok : Nat) (o : Option Obj) : (s.setObj ok o).linkTimer = s.linkTimer := (rfl)
@[simp] theorem State.setObj_withheld (ok : Nat) (o : Option Obj) : (s.setObj ok o).withheld = s.withheld := (rfl)
@[simp] theorem State.setObj_fatal (ok : Nat) (o : Option Obj) : (s.setObj ok o).fatal = s.fatal := (rfl)
@[simp] theorem State.setObj_partFatal (ok : Nat) (o : Option Obj) : (s.setObj ok o).partFatal = s.partFatal := (rfl)
@[simp] theorem State.setObj_deadDies (ok : Nat) (o : Option Obj) : (s.setObj ok o).deadDies = s.deadDies := (rfl)
@[simp] theorem State.setObj_satFlags (ok : Nat) (o : Option Obj) : (s.setObj ok o).satFlags = s.satFlags := (rfl)
@[simp] theorem State.setObj_drawn (ok : Nat) (o : Option Obj) : (s.setObj ok o).drawn = s.drawn := (rfl)
@[simp] theorem State.setObj_pending (ok : Nat) (o : Option Obj) : (s.setObj ok o).pending = s.pending := (rfl)
@[simp] theorem State.setObj_rd (ok : Nat) (o : Option Obj) (b1 : Nat) : (s.setObj ok o).rd b1 = s.rd b1 := (rfl)
@[simp] theorem State.setObj_getF (ok : Nat) (o : Option Obj) (g1 : Fld) : (s.setObj ok o).getF g1 = s.getF g1 := (rfl)
@[simp] theorem State.setObj_flag (ok : Nat) (o : Option Obj) (g1 : Fld) : (s.setObj ok o).flag g1 = s.flag g1 := (rfl)
@[simp] theorem State.setObj_peek (ok : Nat) (o : Option Obj) (b1 : Nat) : (s.setObj ok o).peek b1 = s.peek b1 := (rfl)
@[simp] theorem State.setObj_room (ok : Nat) (o : Option Obj) (d1 : Nat) : (s.setObj ok o).room d1 = s.room d1 := (rfl)
@[simp] theorem State.setObj_ctx (ok : Nat) (o : Option Obj) (y1 : Nat) : (s.setObj ok o).ctx y1 = s.ctx y1 := (rfl)
@[simp] theorem State.setObj_bar (ok : Nat) (o : Option Obj) (j1 : Nat) : (s.setObj ok o).bar j1 = s.bar j1 := (rfl)
@[simp] theorem State.setObj_snap (ok : Nat) (o : Option Obj) (q1 : Nat) : (s.setObj ok o).snap q1 = s.snap q1 := (rfl)
@[simp] theorem State.setObj_tile (ok : Nat) (o : Option Obj) (j1 : Nat) : (s.setObj ok o).tile j1 = s.tile j1 := (rfl)
@[simp] theorem State.setObj_mig (ok : Nat) (o : Option Obj) (j1 : Nat) : (s.setObj ok o).mig j1 = s.mig j1 := (rfl)
@[simp] theorem State.setObj_ring (ok : Nat) (o : Option Obj) (j1 : Nat) : (s.setObj ok o).ring j1 = s.ring j1 := (rfl)
@[simp] theorem State.setObj_ni (ok : Nat) (o : Option Obj) (j1 : Nat) : (s.setObj ok o).ni j1 = s.ni j1 := (rfl)
@[simp] theorem State.setObj_linkT (ok : Nat) (o : Option Obj) (j1 : Nat) : (s.setObj ok o).linkT j1 = s.linkT j1 := (rfl)

/-! ## setTile -/

@[simp] theorem State.setTile_csr (tk : Nat) (e : TileEntry) : (s.setTile tk e).csr = s.csr := (rfl)
@[simp] theorem State.setTile_mem (tk : Nat) (e : TileEntry) : (s.setTile tk e).mem = s.mem := (rfl)
@[simp] theorem State.setTile_cls (tk : Nat) (e : TileEntry) : (s.setTile tk e).cls = s.cls := (rfl)
@[simp] theorem State.setTile_ctxs (tk : Nat) (e : TileEntry) : (s.setTile tk e).ctxs = s.ctxs := (rfl)
@[simp] theorem State.setTile_bars (tk : Nat) (e : TileEntry) : (s.setTile tk e).bars = s.bars := (rfl)
@[simp] theorem State.setTile_snaps (tk : Nat) (e : TileEntry) : (s.setTile tk e).snaps = s.snaps := (rfl)
@[simp] theorem State.setTile_snapNums (tk : Nat) (e : TileEntry) : (s.setTile tk e).snapNums = s.snapNums := (rfl)
@[simp] theorem State.setTile_objs (tk : Nat) (e : TileEntry) : (s.setTile tk e).objs = s.objs := (rfl)
@[simp] theorem State.setTile_retired (tk : Nat) (e : TileEntry) : (s.setTile tk e).retired = s.retired := (rfl)
@[simp] theorem State.setTile_held (tk : Nat) (e : TileEntry) : (s.setTile tk e).held = s.held := (rfl)
@[simp] theorem State.setTile_migs (tk : Nat) (e : TileEntry) : (s.setTile tk e).migs = s.migs := (rfl)
@[simp] theorem State.setTile_moves (tk : Nat) (e : TileEntry) : (s.setTile tk e).moves = s.moves := (rfl)
@[simp] theorem State.setTile_prefq (tk : Nat) (e : TileEntry) : (s.setTile tk e).prefq = s.prefq := (rfl)
@[simp] theorem State.setTile_sorters (tk : Nat) (e : TileEntry) : (s.setTile tk e).sorters = s.sorters := (rfl)
@[simp] theorem State.setTile_rampReq (tk : Nat) (e : TileEntry) : (s.setTile tk e).rampReq = s.rampReq := (rfl)
@[simp] theorem State.setTile_rampHold (tk : Nat) (e : TileEntry) : (s.setTile tk e).rampHold = s.rampHold := (rfl)
@[simp] theorem State.setTile_sliceReqs (tk : Nat) (e : TileEntry) : (s.setTile tk e).sliceReqs = s.sliceReqs := (rfl)
@[simp] theorem State.setTile_samples (tk : Nat) (e : TileEntry) : (s.setTile tk e).samples = s.samples := (rfl)
@[simp] theorem State.setTile_latches (tk : Nat) (e : TileEntry) : (s.setTile tk e).latches = s.latches := (rfl)
@[simp] theorem State.setTile_events (tk : Nat) (e : TileEntry) : (s.setTile tk e).events = s.events := (rfl)
@[simp] theorem State.setTile_replies (tk : Nat) (e : TileEntry) : (s.setTile tk e).replies = s.replies := (rfl)
@[simp] theorem State.setTile_ringTimer (tk : Nat) (e : TileEntry) : (s.setTile tk e).ringTimer = s.ringTimer := (rfl)
@[simp] theorem State.setTile_peer (tk : Nat) (e : TileEntry) : (s.setTile tk e).peer = s.peer := (rfl)
@[simp] theorem State.setTile_power (tk : Nat) (e : TileEntry) : (s.setTile tk e).power = s.power := (rfl)
@[simp] theorem State.setTile_security (tk : Nat) (e : TileEntry) : (s.setTile tk e).security = s.security := (rfl)
@[simp] theorem State.setTile_jtag (tk : Nat) (e : TileEntry) : (s.setTile tk e).jtag = s.jtag := (rfl)
@[simp] theorem State.setTile_noVaux (tk : Nat) (e : TileEntry) : (s.setTile tk e).noVaux = s.noVaux := (rfl)
@[simp] theorem State.setTile_optics (tk : Nat) (e : TileEntry) : (s.setTile tk e).optics = s.optics := (rfl)
@[simp] theorem State.setTile_nis (tk : Nat) (e : TileEntry) : (s.setTile tk e).nis = s.nis := (rfl)
@[simp] theorem State.setTile_wire (tk : Nat) (e : TileEntry) : (s.setTile tk e).wire = s.wire := (rfl)
@[simp] theorem State.setTile_groups (tk : Nat) (e : TileEntry) : (s.setTile tk e).groups = s.groups := (rfl)
@[simp] theorem State.setTile_early (tk : Nat) (e : TileEntry) : (s.setTile tk e).early = s.early := (rfl)
@[simp] theorem State.setTile_ops (tk : Nat) (e : TileEntry) : (s.setTile tk e).ops = s.ops := (rfl)
@[simp] theorem State.setTile_posted (tk : Nat) (e : TileEntry) : (s.setTile tk e).posted = s.posted := (rfl)
@[simp] theorem State.setTile_linkTimer (tk : Nat) (e : TileEntry) : (s.setTile tk e).linkTimer = s.linkTimer := (rfl)
@[simp] theorem State.setTile_withheld (tk : Nat) (e : TileEntry) : (s.setTile tk e).withheld = s.withheld := (rfl)
@[simp] theorem State.setTile_fatal (tk : Nat) (e : TileEntry) : (s.setTile tk e).fatal = s.fatal := (rfl)
@[simp] theorem State.setTile_partFatal (tk : Nat) (e : TileEntry) : (s.setTile tk e).partFatal = s.partFatal := (rfl)
@[simp] theorem State.setTile_deadDies (tk : Nat) (e : TileEntry) : (s.setTile tk e).deadDies = s.deadDies := (rfl)
@[simp] theorem State.setTile_satFlags (tk : Nat) (e : TileEntry) : (s.setTile tk e).satFlags = s.satFlags := (rfl)
@[simp] theorem State.setTile_drawn (tk : Nat) (e : TileEntry) : (s.setTile tk e).drawn = s.drawn := (rfl)
@[simp] theorem State.setTile_pending (tk : Nat) (e : TileEntry) : (s.setTile tk e).pending = s.pending := (rfl)
@[simp] theorem State.setTile_rd (tk : Nat) (e : TileEntry) (b1 : Nat) : (s.setTile tk e).rd b1 = s.rd b1 := (rfl)
@[simp] theorem State.setTile_getF (tk : Nat) (e : TileEntry) (g1 : Fld) : (s.setTile tk e).getF g1 = s.getF g1 := (rfl)
@[simp] theorem State.setTile_flag (tk : Nat) (e : TileEntry) (g1 : Fld) : (s.setTile tk e).flag g1 = s.flag g1 := (rfl)
@[simp] theorem State.setTile_peek (tk : Nat) (e : TileEntry) (b1 : Nat) : (s.setTile tk e).peek b1 = s.peek b1 := (rfl)
@[simp] theorem State.setTile_room (tk : Nat) (e : TileEntry) (d1 : Nat) : (s.setTile tk e).room d1 = s.room d1 := (rfl)
@[simp] theorem State.setTile_ctx (tk : Nat) (e : TileEntry) (y1 : Nat) : (s.setTile tk e).ctx y1 = s.ctx y1 := (rfl)
@[simp] theorem State.setTile_bar (tk : Nat) (e : TileEntry) (j1 : Nat) : (s.setTile tk e).bar j1 = s.bar j1 := (rfl)
@[simp] theorem State.setTile_snap (tk : Nat) (e : TileEntry) (q1 : Nat) : (s.setTile tk e).snap q1 = s.snap q1 := (rfl)
@[simp] theorem State.setTile_obj (tk : Nat) (e : TileEntry) (j1 : Nat) : (s.setTile tk e).obj j1 = s.obj j1 := (rfl)
@[simp] theorem State.setTile_mig (tk : Nat) (e : TileEntry) (j1 : Nat) : (s.setTile tk e).mig j1 = s.mig j1 := (rfl)
@[simp] theorem State.setTile_ring (tk : Nat) (e : TileEntry) (j1 : Nat) : (s.setTile tk e).ring j1 = s.ring j1 := (rfl)
@[simp] theorem State.setTile_ni (tk : Nat) (e : TileEntry) (j1 : Nat) : (s.setTile tk e).ni j1 = s.ni j1 := (rfl)
@[simp] theorem State.setTile_linkT (tk : Nat) (e : TileEntry) (j1 : Nat) : (s.setTile tk e).linkT j1 = s.linkT j1 := (rfl)

/-! ## setMig -/

@[simp] theorem State.setMig_csr (p : Nat) (q : MigQueue) : (s.setMig p q).csr = s.csr := (rfl)
@[simp] theorem State.setMig_mem (p : Nat) (q : MigQueue) : (s.setMig p q).mem = s.mem := (rfl)
@[simp] theorem State.setMig_cls (p : Nat) (q : MigQueue) : (s.setMig p q).cls = s.cls := (rfl)
@[simp] theorem State.setMig_ctxs (p : Nat) (q : MigQueue) : (s.setMig p q).ctxs = s.ctxs := (rfl)
@[simp] theorem State.setMig_bars (p : Nat) (q : MigQueue) : (s.setMig p q).bars = s.bars := (rfl)
@[simp] theorem State.setMig_snaps (p : Nat) (q : MigQueue) : (s.setMig p q).snaps = s.snaps := (rfl)
@[simp] theorem State.setMig_snapNums (p : Nat) (q : MigQueue) : (s.setMig p q).snapNums = s.snapNums := (rfl)
@[simp] theorem State.setMig_objs (p : Nat) (q : MigQueue) : (s.setMig p q).objs = s.objs := (rfl)
@[simp] theorem State.setMig_tiles (p : Nat) (q : MigQueue) : (s.setMig p q).tiles = s.tiles := (rfl)
@[simp] theorem State.setMig_retired (p : Nat) (q : MigQueue) : (s.setMig p q).retired = s.retired := (rfl)
@[simp] theorem State.setMig_held (p : Nat) (q : MigQueue) : (s.setMig p q).held = s.held := (rfl)
@[simp] theorem State.setMig_moves (p : Nat) (q : MigQueue) : (s.setMig p q).moves = s.moves := (rfl)
@[simp] theorem State.setMig_prefq (p : Nat) (q : MigQueue) : (s.setMig p q).prefq = s.prefq := (rfl)
@[simp] theorem State.setMig_sorters (p : Nat) (q : MigQueue) : (s.setMig p q).sorters = s.sorters := (rfl)
@[simp] theorem State.setMig_rampReq (p : Nat) (q : MigQueue) : (s.setMig p q).rampReq = s.rampReq := (rfl)
@[simp] theorem State.setMig_rampHold (p : Nat) (q : MigQueue) : (s.setMig p q).rampHold = s.rampHold := (rfl)
@[simp] theorem State.setMig_sliceReqs (p : Nat) (q : MigQueue) : (s.setMig p q).sliceReqs = s.sliceReqs := (rfl)
@[simp] theorem State.setMig_samples (p : Nat) (q : MigQueue) : (s.setMig p q).samples = s.samples := (rfl)
@[simp] theorem State.setMig_latches (p : Nat) (q : MigQueue) : (s.setMig p q).latches = s.latches := (rfl)
@[simp] theorem State.setMig_events (p : Nat) (q : MigQueue) : (s.setMig p q).events = s.events := (rfl)
@[simp] theorem State.setMig_replies (p : Nat) (q : MigQueue) : (s.setMig p q).replies = s.replies := (rfl)
@[simp] theorem State.setMig_ringTimer (p : Nat) (q : MigQueue) : (s.setMig p q).ringTimer = s.ringTimer := (rfl)
@[simp] theorem State.setMig_peer (p : Nat) (q : MigQueue) : (s.setMig p q).peer = s.peer := (rfl)
@[simp] theorem State.setMig_power (p : Nat) (q : MigQueue) : (s.setMig p q).power = s.power := (rfl)
@[simp] theorem State.setMig_security (p : Nat) (q : MigQueue) : (s.setMig p q).security = s.security := (rfl)
@[simp] theorem State.setMig_jtag (p : Nat) (q : MigQueue) : (s.setMig p q).jtag = s.jtag := (rfl)
@[simp] theorem State.setMig_noVaux (p : Nat) (q : MigQueue) : (s.setMig p q).noVaux = s.noVaux := (rfl)
@[simp] theorem State.setMig_optics (p : Nat) (q : MigQueue) : (s.setMig p q).optics = s.optics := (rfl)
@[simp] theorem State.setMig_nis (p : Nat) (q : MigQueue) : (s.setMig p q).nis = s.nis := (rfl)
@[simp] theorem State.setMig_wire (p : Nat) (q : MigQueue) : (s.setMig p q).wire = s.wire := (rfl)
@[simp] theorem State.setMig_groups (p : Nat) (q : MigQueue) : (s.setMig p q).groups = s.groups := (rfl)
@[simp] theorem State.setMig_early (p : Nat) (q : MigQueue) : (s.setMig p q).early = s.early := (rfl)
@[simp] theorem State.setMig_ops (p : Nat) (q : MigQueue) : (s.setMig p q).ops = s.ops := (rfl)
@[simp] theorem State.setMig_posted (p : Nat) (q : MigQueue) : (s.setMig p q).posted = s.posted := (rfl)
@[simp] theorem State.setMig_linkTimer (p : Nat) (q : MigQueue) : (s.setMig p q).linkTimer = s.linkTimer := (rfl)
@[simp] theorem State.setMig_withheld (p : Nat) (q : MigQueue) : (s.setMig p q).withheld = s.withheld := (rfl)
@[simp] theorem State.setMig_fatal (p : Nat) (q : MigQueue) : (s.setMig p q).fatal = s.fatal := (rfl)
@[simp] theorem State.setMig_partFatal (p : Nat) (q : MigQueue) : (s.setMig p q).partFatal = s.partFatal := (rfl)
@[simp] theorem State.setMig_deadDies (p : Nat) (q : MigQueue) : (s.setMig p q).deadDies = s.deadDies := (rfl)
@[simp] theorem State.setMig_satFlags (p : Nat) (q : MigQueue) : (s.setMig p q).satFlags = s.satFlags := (rfl)
@[simp] theorem State.setMig_drawn (p : Nat) (q : MigQueue) : (s.setMig p q).drawn = s.drawn := (rfl)
@[simp] theorem State.setMig_pending (p : Nat) (q : MigQueue) : (s.setMig p q).pending = s.pending := (rfl)
@[simp] theorem State.setMig_rd (p : Nat) (q : MigQueue) (b1 : Nat) : (s.setMig p q).rd b1 = s.rd b1 := (rfl)
@[simp] theorem State.setMig_getF (p : Nat) (q : MigQueue) (g1 : Fld) : (s.setMig p q).getF g1 = s.getF g1 := (rfl)
@[simp] theorem State.setMig_flag (p : Nat) (q : MigQueue) (g1 : Fld) : (s.setMig p q).flag g1 = s.flag g1 := (rfl)
@[simp] theorem State.setMig_peek (p : Nat) (q : MigQueue) (b1 : Nat) : (s.setMig p q).peek b1 = s.peek b1 := (rfl)
@[simp] theorem State.setMig_room (p : Nat) (q : MigQueue) (d1 : Nat) : (s.setMig p q).room d1 = s.room d1 := (rfl)
@[simp] theorem State.setMig_ctx (p : Nat) (q : MigQueue) (y1 : Nat) : (s.setMig p q).ctx y1 = s.ctx y1 := (rfl)
@[simp] theorem State.setMig_bar (p : Nat) (q : MigQueue) (j1 : Nat) : (s.setMig p q).bar j1 = s.bar j1 := (rfl)
@[simp] theorem State.setMig_snap (p : Nat) (q : MigQueue) (q1 : Nat) : (s.setMig p q).snap q1 = s.snap q1 := (rfl)
@[simp] theorem State.setMig_obj (p : Nat) (q : MigQueue) (j1 : Nat) : (s.setMig p q).obj j1 = s.obj j1 := (rfl)
@[simp] theorem State.setMig_tile (p : Nat) (q : MigQueue) (j1 : Nat) : (s.setMig p q).tile j1 = s.tile j1 := (rfl)
@[simp] theorem State.setMig_ring (p : Nat) (q : MigQueue) (j1 : Nat) : (s.setMig p q).ring j1 = s.ring j1 := (rfl)
@[simp] theorem State.setMig_ni (p : Nat) (q : MigQueue) (j1 : Nat) : (s.setMig p q).ni j1 = s.ni j1 := (rfl)
@[simp] theorem State.setMig_linkT (p : Nat) (q : MigQueue) (j1 : Nat) : (s.setMig p q).linkT j1 = s.linkT j1 := (rfl)

/-! ## setRing -/

@[simp] theorem State.setRing_csr (r : Nat) (t : RingTimer) : (s.setRing r t).csr = s.csr := (rfl)
@[simp] theorem State.setRing_mem (r : Nat) (t : RingTimer) : (s.setRing r t).mem = s.mem := (rfl)
@[simp] theorem State.setRing_cls (r : Nat) (t : RingTimer) : (s.setRing r t).cls = s.cls := (rfl)
@[simp] theorem State.setRing_ctxs (r : Nat) (t : RingTimer) : (s.setRing r t).ctxs = s.ctxs := (rfl)
@[simp] theorem State.setRing_bars (r : Nat) (t : RingTimer) : (s.setRing r t).bars = s.bars := (rfl)
@[simp] theorem State.setRing_snaps (r : Nat) (t : RingTimer) : (s.setRing r t).snaps = s.snaps := (rfl)
@[simp] theorem State.setRing_snapNums (r : Nat) (t : RingTimer) : (s.setRing r t).snapNums = s.snapNums := (rfl)
@[simp] theorem State.setRing_objs (r : Nat) (t : RingTimer) : (s.setRing r t).objs = s.objs := (rfl)
@[simp] theorem State.setRing_tiles (r : Nat) (t : RingTimer) : (s.setRing r t).tiles = s.tiles := (rfl)
@[simp] theorem State.setRing_retired (r : Nat) (t : RingTimer) : (s.setRing r t).retired = s.retired := (rfl)
@[simp] theorem State.setRing_held (r : Nat) (t : RingTimer) : (s.setRing r t).held = s.held := (rfl)
@[simp] theorem State.setRing_migs (r : Nat) (t : RingTimer) : (s.setRing r t).migs = s.migs := (rfl)
@[simp] theorem State.setRing_moves (r : Nat) (t : RingTimer) : (s.setRing r t).moves = s.moves := (rfl)
@[simp] theorem State.setRing_prefq (r : Nat) (t : RingTimer) : (s.setRing r t).prefq = s.prefq := (rfl)
@[simp] theorem State.setRing_sorters (r : Nat) (t : RingTimer) : (s.setRing r t).sorters = s.sorters := (rfl)
@[simp] theorem State.setRing_rampReq (r : Nat) (t : RingTimer) : (s.setRing r t).rampReq = s.rampReq := (rfl)
@[simp] theorem State.setRing_rampHold (r : Nat) (t : RingTimer) : (s.setRing r t).rampHold = s.rampHold := (rfl)
@[simp] theorem State.setRing_sliceReqs (r : Nat) (t : RingTimer) : (s.setRing r t).sliceReqs = s.sliceReqs := (rfl)
@[simp] theorem State.setRing_samples (r : Nat) (t : RingTimer) : (s.setRing r t).samples = s.samples := (rfl)
@[simp] theorem State.setRing_latches (r : Nat) (t : RingTimer) : (s.setRing r t).latches = s.latches := (rfl)
@[simp] theorem State.setRing_events (r : Nat) (t : RingTimer) : (s.setRing r t).events = s.events := (rfl)
@[simp] theorem State.setRing_replies (r : Nat) (t : RingTimer) : (s.setRing r t).replies = s.replies := (rfl)
@[simp] theorem State.setRing_peer (r : Nat) (t : RingTimer) : (s.setRing r t).peer = s.peer := (rfl)
@[simp] theorem State.setRing_power (r : Nat) (t : RingTimer) : (s.setRing r t).power = s.power := (rfl)
@[simp] theorem State.setRing_security (r : Nat) (t : RingTimer) : (s.setRing r t).security = s.security := (rfl)
@[simp] theorem State.setRing_jtag (r : Nat) (t : RingTimer) : (s.setRing r t).jtag = s.jtag := (rfl)
@[simp] theorem State.setRing_noVaux (r : Nat) (t : RingTimer) : (s.setRing r t).noVaux = s.noVaux := (rfl)
@[simp] theorem State.setRing_optics (r : Nat) (t : RingTimer) : (s.setRing r t).optics = s.optics := (rfl)
@[simp] theorem State.setRing_nis (r : Nat) (t : RingTimer) : (s.setRing r t).nis = s.nis := (rfl)
@[simp] theorem State.setRing_wire (r : Nat) (t : RingTimer) : (s.setRing r t).wire = s.wire := (rfl)
@[simp] theorem State.setRing_groups (r : Nat) (t : RingTimer) : (s.setRing r t).groups = s.groups := (rfl)
@[simp] theorem State.setRing_early (r : Nat) (t : RingTimer) : (s.setRing r t).early = s.early := (rfl)
@[simp] theorem State.setRing_ops (r : Nat) (t : RingTimer) : (s.setRing r t).ops = s.ops := (rfl)
@[simp] theorem State.setRing_posted (r : Nat) (t : RingTimer) : (s.setRing r t).posted = s.posted := (rfl)
@[simp] theorem State.setRing_linkTimer (r : Nat) (t : RingTimer) : (s.setRing r t).linkTimer = s.linkTimer := (rfl)
@[simp] theorem State.setRing_withheld (r : Nat) (t : RingTimer) : (s.setRing r t).withheld = s.withheld := (rfl)
@[simp] theorem State.setRing_fatal (r : Nat) (t : RingTimer) : (s.setRing r t).fatal = s.fatal := (rfl)
@[simp] theorem State.setRing_partFatal (r : Nat) (t : RingTimer) : (s.setRing r t).partFatal = s.partFatal := (rfl)
@[simp] theorem State.setRing_deadDies (r : Nat) (t : RingTimer) : (s.setRing r t).deadDies = s.deadDies := (rfl)
@[simp] theorem State.setRing_satFlags (r : Nat) (t : RingTimer) : (s.setRing r t).satFlags = s.satFlags := (rfl)
@[simp] theorem State.setRing_drawn (r : Nat) (t : RingTimer) : (s.setRing r t).drawn = s.drawn := (rfl)
@[simp] theorem State.setRing_pending (r : Nat) (t : RingTimer) : (s.setRing r t).pending = s.pending := (rfl)
@[simp] theorem State.setRing_rd (r : Nat) (t : RingTimer) (b1 : Nat) : (s.setRing r t).rd b1 = s.rd b1 := (rfl)
@[simp] theorem State.setRing_getF (r : Nat) (t : RingTimer) (g1 : Fld) : (s.setRing r t).getF g1 = s.getF g1 := (rfl)
@[simp] theorem State.setRing_flag (r : Nat) (t : RingTimer) (g1 : Fld) : (s.setRing r t).flag g1 = s.flag g1 := (rfl)
@[simp] theorem State.setRing_peek (r : Nat) (t : RingTimer) (b1 : Nat) : (s.setRing r t).peek b1 = s.peek b1 := (rfl)
@[simp] theorem State.setRing_room (r : Nat) (t : RingTimer) (d1 : Nat) : (s.setRing r t).room d1 = s.room d1 := (rfl)
@[simp] theorem State.setRing_ctx (r : Nat) (t : RingTimer) (y1 : Nat) : (s.setRing r t).ctx y1 = s.ctx y1 := (rfl)
@[simp] theorem State.setRing_bar (r : Nat) (t : RingTimer) (j1 : Nat) : (s.setRing r t).bar j1 = s.bar j1 := (rfl)
@[simp] theorem State.setRing_snap (r : Nat) (t : RingTimer) (q1 : Nat) : (s.setRing r t).snap q1 = s.snap q1 := (rfl)
@[simp] theorem State.setRing_obj (r : Nat) (t : RingTimer) (j1 : Nat) : (s.setRing r t).obj j1 = s.obj j1 := (rfl)
@[simp] theorem State.setRing_tile (r : Nat) (t : RingTimer) (j1 : Nat) : (s.setRing r t).tile j1 = s.tile j1 := (rfl)
@[simp] theorem State.setRing_mig (r : Nat) (t : RingTimer) (j1 : Nat) : (s.setRing r t).mig j1 = s.mig j1 := (rfl)
@[simp] theorem State.setRing_ni (r : Nat) (t : RingTimer) (j1 : Nat) : (s.setRing r t).ni j1 = s.ni j1 := (rfl)
@[simp] theorem State.setRing_linkT (r : Nat) (t : RingTimer) (j1 : Nat) : (s.setRing r t).linkT j1 = s.linkT j1 := (rfl)

/-! ## setNi -/

@[simp] theorem State.setNi_csr (k : Nat) (n : NiPort) : (s.setNi k n).csr = s.csr := (rfl)
@[simp] theorem State.setNi_mem (k : Nat) (n : NiPort) : (s.setNi k n).mem = s.mem := (rfl)
@[simp] theorem State.setNi_cls (k : Nat) (n : NiPort) : (s.setNi k n).cls = s.cls := (rfl)
@[simp] theorem State.setNi_ctxs (k : Nat) (n : NiPort) : (s.setNi k n).ctxs = s.ctxs := (rfl)
@[simp] theorem State.setNi_bars (k : Nat) (n : NiPort) : (s.setNi k n).bars = s.bars := (rfl)
@[simp] theorem State.setNi_snaps (k : Nat) (n : NiPort) : (s.setNi k n).snaps = s.snaps := (rfl)
@[simp] theorem State.setNi_snapNums (k : Nat) (n : NiPort) : (s.setNi k n).snapNums = s.snapNums := (rfl)
@[simp] theorem State.setNi_objs (k : Nat) (n : NiPort) : (s.setNi k n).objs = s.objs := (rfl)
@[simp] theorem State.setNi_tiles (k : Nat) (n : NiPort) : (s.setNi k n).tiles = s.tiles := (rfl)
@[simp] theorem State.setNi_retired (k : Nat) (n : NiPort) : (s.setNi k n).retired = s.retired := (rfl)
@[simp] theorem State.setNi_held (k : Nat) (n : NiPort) : (s.setNi k n).held = s.held := (rfl)
@[simp] theorem State.setNi_migs (k : Nat) (n : NiPort) : (s.setNi k n).migs = s.migs := (rfl)
@[simp] theorem State.setNi_moves (k : Nat) (n : NiPort) : (s.setNi k n).moves = s.moves := (rfl)
@[simp] theorem State.setNi_prefq (k : Nat) (n : NiPort) : (s.setNi k n).prefq = s.prefq := (rfl)
@[simp] theorem State.setNi_sorters (k : Nat) (n : NiPort) : (s.setNi k n).sorters = s.sorters := (rfl)
@[simp] theorem State.setNi_rampReq (k : Nat) (n : NiPort) : (s.setNi k n).rampReq = s.rampReq := (rfl)
@[simp] theorem State.setNi_rampHold (k : Nat) (n : NiPort) : (s.setNi k n).rampHold = s.rampHold := (rfl)
@[simp] theorem State.setNi_sliceReqs (k : Nat) (n : NiPort) : (s.setNi k n).sliceReqs = s.sliceReqs := (rfl)
@[simp] theorem State.setNi_samples (k : Nat) (n : NiPort) : (s.setNi k n).samples = s.samples := (rfl)
@[simp] theorem State.setNi_latches (k : Nat) (n : NiPort) : (s.setNi k n).latches = s.latches := (rfl)
@[simp] theorem State.setNi_events (k : Nat) (n : NiPort) : (s.setNi k n).events = s.events := (rfl)
@[simp] theorem State.setNi_replies (k : Nat) (n : NiPort) : (s.setNi k n).replies = s.replies := (rfl)
@[simp] theorem State.setNi_ringTimer (k : Nat) (n : NiPort) : (s.setNi k n).ringTimer = s.ringTimer := (rfl)
@[simp] theorem State.setNi_peer (k : Nat) (n : NiPort) : (s.setNi k n).peer = s.peer := (rfl)
@[simp] theorem State.setNi_power (k : Nat) (n : NiPort) : (s.setNi k n).power = s.power := (rfl)
@[simp] theorem State.setNi_security (k : Nat) (n : NiPort) : (s.setNi k n).security = s.security := (rfl)
@[simp] theorem State.setNi_jtag (k : Nat) (n : NiPort) : (s.setNi k n).jtag = s.jtag := (rfl)
@[simp] theorem State.setNi_noVaux (k : Nat) (n : NiPort) : (s.setNi k n).noVaux = s.noVaux := (rfl)
@[simp] theorem State.setNi_optics (k : Nat) (n : NiPort) : (s.setNi k n).optics = s.optics := (rfl)
@[simp] theorem State.setNi_wire (k : Nat) (n : NiPort) : (s.setNi k n).wire = s.wire := (rfl)
@[simp] theorem State.setNi_groups (k : Nat) (n : NiPort) : (s.setNi k n).groups = s.groups := (rfl)
@[simp] theorem State.setNi_early (k : Nat) (n : NiPort) : (s.setNi k n).early = s.early := (rfl)
@[simp] theorem State.setNi_ops (k : Nat) (n : NiPort) : (s.setNi k n).ops = s.ops := (rfl)
@[simp] theorem State.setNi_posted (k : Nat) (n : NiPort) : (s.setNi k n).posted = s.posted := (rfl)
@[simp] theorem State.setNi_linkTimer (k : Nat) (n : NiPort) : (s.setNi k n).linkTimer = s.linkTimer := (rfl)
@[simp] theorem State.setNi_withheld (k : Nat) (n : NiPort) : (s.setNi k n).withheld = s.withheld := (rfl)
@[simp] theorem State.setNi_fatal (k : Nat) (n : NiPort) : (s.setNi k n).fatal = s.fatal := (rfl)
@[simp] theorem State.setNi_partFatal (k : Nat) (n : NiPort) : (s.setNi k n).partFatal = s.partFatal := (rfl)
@[simp] theorem State.setNi_deadDies (k : Nat) (n : NiPort) : (s.setNi k n).deadDies = s.deadDies := (rfl)
@[simp] theorem State.setNi_satFlags (k : Nat) (n : NiPort) : (s.setNi k n).satFlags = s.satFlags := (rfl)
@[simp] theorem State.setNi_drawn (k : Nat) (n : NiPort) : (s.setNi k n).drawn = s.drawn := (rfl)
@[simp] theorem State.setNi_pending (k : Nat) (n : NiPort) : (s.setNi k n).pending = s.pending := (rfl)
@[simp] theorem State.setNi_rd (k : Nat) (n : NiPort) (b1 : Nat) : (s.setNi k n).rd b1 = s.rd b1 := (rfl)
@[simp] theorem State.setNi_getF (k : Nat) (n : NiPort) (g1 : Fld) : (s.setNi k n).getF g1 = s.getF g1 := (rfl)
@[simp] theorem State.setNi_flag (k : Nat) (n : NiPort) (g1 : Fld) : (s.setNi k n).flag g1 = s.flag g1 := (rfl)
@[simp] theorem State.setNi_peek (k : Nat) (n : NiPort) (b1 : Nat) : (s.setNi k n).peek b1 = s.peek b1 := (rfl)
@[simp] theorem State.setNi_room (k : Nat) (n : NiPort) (d1 : Nat) : (s.setNi k n).room d1 = s.room d1 := (rfl)
@[simp] theorem State.setNi_ctx (k : Nat) (n : NiPort) (y1 : Nat) : (s.setNi k n).ctx y1 = s.ctx y1 := (rfl)
@[simp] theorem State.setNi_bar (k : Nat) (n : NiPort) (j1 : Nat) : (s.setNi k n).bar j1 = s.bar j1 := (rfl)
@[simp] theorem State.setNi_snap (k : Nat) (n : NiPort) (q1 : Nat) : (s.setNi k n).snap q1 = s.snap q1 := (rfl)
@[simp] theorem State.setNi_obj (k : Nat) (n : NiPort) (j1 : Nat) : (s.setNi k n).obj j1 = s.obj j1 := (rfl)
@[simp] theorem State.setNi_tile (k : Nat) (n : NiPort) (j1 : Nat) : (s.setNi k n).tile j1 = s.tile j1 := (rfl)
@[simp] theorem State.setNi_mig (k : Nat) (n : NiPort) (j1 : Nat) : (s.setNi k n).mig j1 = s.mig j1 := (rfl)
@[simp] theorem State.setNi_ring (k : Nat) (n : NiPort) (j1 : Nat) : (s.setNi k n).ring j1 = s.ring j1 := (rfl)
@[simp] theorem State.setNi_linkT (k : Nat) (n : NiPort) (j1 : Nat) : (s.setNi k n).linkT j1 = s.linkT j1 := (rfl)

/-! ## setGroup -/

@[simp] theorem State.setGroup_csr (p gid : Nat) (g : Option Group) : (s.setGroup p gid g).csr = s.csr := (rfl)
@[simp] theorem State.setGroup_mem (p gid : Nat) (g : Option Group) : (s.setGroup p gid g).mem = s.mem := (rfl)
@[simp] theorem State.setGroup_cls (p gid : Nat) (g : Option Group) : (s.setGroup p gid g).cls = s.cls := (rfl)
@[simp] theorem State.setGroup_ctxs (p gid : Nat) (g : Option Group) : (s.setGroup p gid g).ctxs = s.ctxs := (rfl)
@[simp] theorem State.setGroup_bars (p gid : Nat) (g : Option Group) : (s.setGroup p gid g).bars = s.bars := (rfl)
@[simp] theorem State.setGroup_snaps (p gid : Nat) (g : Option Group) : (s.setGroup p gid g).snaps = s.snaps := (rfl)
@[simp] theorem State.setGroup_snapNums (p gid : Nat) (g : Option Group) : (s.setGroup p gid g).snapNums = s.snapNums := (rfl)
@[simp] theorem State.setGroup_objs (p gid : Nat) (g : Option Group) : (s.setGroup p gid g).objs = s.objs := (rfl)
@[simp] theorem State.setGroup_tiles (p gid : Nat) (g : Option Group) : (s.setGroup p gid g).tiles = s.tiles := (rfl)
@[simp] theorem State.setGroup_retired (p gid : Nat) (g : Option Group) : (s.setGroup p gid g).retired = s.retired := (rfl)
@[simp] theorem State.setGroup_held (p gid : Nat) (g : Option Group) : (s.setGroup p gid g).held = s.held := (rfl)
@[simp] theorem State.setGroup_migs (p gid : Nat) (g : Option Group) : (s.setGroup p gid g).migs = s.migs := (rfl)
@[simp] theorem State.setGroup_moves (p gid : Nat) (g : Option Group) : (s.setGroup p gid g).moves = s.moves := (rfl)
@[simp] theorem State.setGroup_prefq (p gid : Nat) (g : Option Group) : (s.setGroup p gid g).prefq = s.prefq := (rfl)
@[simp] theorem State.setGroup_sorters (p gid : Nat) (g : Option Group) : (s.setGroup p gid g).sorters = s.sorters := (rfl)
@[simp] theorem State.setGroup_rampReq (p gid : Nat) (g : Option Group) : (s.setGroup p gid g).rampReq = s.rampReq := (rfl)
@[simp] theorem State.setGroup_rampHold (p gid : Nat) (g : Option Group) : (s.setGroup p gid g).rampHold = s.rampHold := (rfl)
@[simp] theorem State.setGroup_sliceReqs (p gid : Nat) (g : Option Group) : (s.setGroup p gid g).sliceReqs = s.sliceReqs := (rfl)
@[simp] theorem State.setGroup_samples (p gid : Nat) (g : Option Group) : (s.setGroup p gid g).samples = s.samples := (rfl)
@[simp] theorem State.setGroup_latches (p gid : Nat) (g : Option Group) : (s.setGroup p gid g).latches = s.latches := (rfl)
@[simp] theorem State.setGroup_events (p gid : Nat) (g : Option Group) : (s.setGroup p gid g).events = s.events := (rfl)
@[simp] theorem State.setGroup_replies (p gid : Nat) (g : Option Group) : (s.setGroup p gid g).replies = s.replies := (rfl)
@[simp] theorem State.setGroup_ringTimer (p gid : Nat) (g : Option Group) : (s.setGroup p gid g).ringTimer = s.ringTimer := (rfl)
@[simp] theorem State.setGroup_peer (p gid : Nat) (g : Option Group) : (s.setGroup p gid g).peer = s.peer := (rfl)
@[simp] theorem State.setGroup_power (p gid : Nat) (g : Option Group) : (s.setGroup p gid g).power = s.power := (rfl)
@[simp] theorem State.setGroup_security (p gid : Nat) (g : Option Group) : (s.setGroup p gid g).security = s.security := (rfl)
@[simp] theorem State.setGroup_jtag (p gid : Nat) (g : Option Group) : (s.setGroup p gid g).jtag = s.jtag := (rfl)
@[simp] theorem State.setGroup_noVaux (p gid : Nat) (g : Option Group) : (s.setGroup p gid g).noVaux = s.noVaux := (rfl)
@[simp] theorem State.setGroup_optics (p gid : Nat) (g : Option Group) : (s.setGroup p gid g).optics = s.optics := (rfl)
@[simp] theorem State.setGroup_nis (p gid : Nat) (g : Option Group) : (s.setGroup p gid g).nis = s.nis := (rfl)
@[simp] theorem State.setGroup_wire (p gid : Nat) (g : Option Group) : (s.setGroup p gid g).wire = s.wire := (rfl)
@[simp] theorem State.setGroup_early (p gid : Nat) (g : Option Group) : (s.setGroup p gid g).early = s.early := (rfl)
@[simp] theorem State.setGroup_ops (p gid : Nat) (g : Option Group) : (s.setGroup p gid g).ops = s.ops := (rfl)
@[simp] theorem State.setGroup_posted (p gid : Nat) (g : Option Group) : (s.setGroup p gid g).posted = s.posted := (rfl)
@[simp] theorem State.setGroup_linkTimer (p gid : Nat) (g : Option Group) : (s.setGroup p gid g).linkTimer = s.linkTimer := (rfl)
@[simp] theorem State.setGroup_withheld (p gid : Nat) (g : Option Group) : (s.setGroup p gid g).withheld = s.withheld := (rfl)
@[simp] theorem State.setGroup_fatal (p gid : Nat) (g : Option Group) : (s.setGroup p gid g).fatal = s.fatal := (rfl)
@[simp] theorem State.setGroup_partFatal (p gid : Nat) (g : Option Group) : (s.setGroup p gid g).partFatal = s.partFatal := (rfl)
@[simp] theorem State.setGroup_deadDies (p gid : Nat) (g : Option Group) : (s.setGroup p gid g).deadDies = s.deadDies := (rfl)
@[simp] theorem State.setGroup_satFlags (p gid : Nat) (g : Option Group) : (s.setGroup p gid g).satFlags = s.satFlags := (rfl)
@[simp] theorem State.setGroup_drawn (p gid : Nat) (g : Option Group) : (s.setGroup p gid g).drawn = s.drawn := (rfl)
@[simp] theorem State.setGroup_pending (p gid : Nat) (g : Option Group) : (s.setGroup p gid g).pending = s.pending := (rfl)
@[simp] theorem State.setGroup_rd (p gid : Nat) (g : Option Group) (b1 : Nat) : (s.setGroup p gid g).rd b1 = s.rd b1 := (rfl)
@[simp] theorem State.setGroup_getF (p gid : Nat) (g : Option Group) (g1 : Fld) : (s.setGroup p gid g).getF g1 = s.getF g1 := (rfl)
@[simp] theorem State.setGroup_flag (p gid : Nat) (g : Option Group) (g1 : Fld) : (s.setGroup p gid g).flag g1 = s.flag g1 := (rfl)
@[simp] theorem State.setGroup_peek (p gid : Nat) (g : Option Group) (b1 : Nat) : (s.setGroup p gid g).peek b1 = s.peek b1 := (rfl)
@[simp] theorem State.setGroup_room (p gid : Nat) (g : Option Group) (d1 : Nat) : (s.setGroup p gid g).room d1 = s.room d1 := (rfl)
@[simp] theorem State.setGroup_ctx (p gid : Nat) (g : Option Group) (y1 : Nat) : (s.setGroup p gid g).ctx y1 = s.ctx y1 := (rfl)
@[simp] theorem State.setGroup_bar (p gid : Nat) (g : Option Group) (j1 : Nat) : (s.setGroup p gid g).bar j1 = s.bar j1 := (rfl)
@[simp] theorem State.setGroup_snap (p gid : Nat) (g : Option Group) (q1 : Nat) : (s.setGroup p gid g).snap q1 = s.snap q1 := (rfl)
@[simp] theorem State.setGroup_obj (p gid : Nat) (g : Option Group) (j1 : Nat) : (s.setGroup p gid g).obj j1 = s.obj j1 := (rfl)
@[simp] theorem State.setGroup_tile (p gid : Nat) (g : Option Group) (j1 : Nat) : (s.setGroup p gid g).tile j1 = s.tile j1 := (rfl)
@[simp] theorem State.setGroup_mig (p gid : Nat) (g : Option Group) (j1 : Nat) : (s.setGroup p gid g).mig j1 = s.mig j1 := (rfl)
@[simp] theorem State.setGroup_ring (p gid : Nat) (g : Option Group) (j1 : Nat) : (s.setGroup p gid g).ring j1 = s.ring j1 := (rfl)
@[simp] theorem State.setGroup_ni (p gid : Nat) (g : Option Group) (j1 : Nat) : (s.setGroup p gid g).ni j1 = s.ni j1 := (rfl)
@[simp] theorem State.setGroup_linkT (p gid : Nat) (g : Option Group) (j1 : Nat) : (s.setGroup p gid g).linkT j1 = s.linkT j1 := (rfl)

/-! ## setLinkT -/

@[simp] theorem State.setLinkT_csr (src : Nat) (t : RingTimer) : (s.setLinkT src t).csr = s.csr := (rfl)
@[simp] theorem State.setLinkT_mem (src : Nat) (t : RingTimer) : (s.setLinkT src t).mem = s.mem := (rfl)
@[simp] theorem State.setLinkT_cls (src : Nat) (t : RingTimer) : (s.setLinkT src t).cls = s.cls := (rfl)
@[simp] theorem State.setLinkT_ctxs (src : Nat) (t : RingTimer) : (s.setLinkT src t).ctxs = s.ctxs := (rfl)
@[simp] theorem State.setLinkT_bars (src : Nat) (t : RingTimer) : (s.setLinkT src t).bars = s.bars := (rfl)
@[simp] theorem State.setLinkT_snaps (src : Nat) (t : RingTimer) : (s.setLinkT src t).snaps = s.snaps := (rfl)
@[simp] theorem State.setLinkT_snapNums (src : Nat) (t : RingTimer) : (s.setLinkT src t).snapNums = s.snapNums := (rfl)
@[simp] theorem State.setLinkT_objs (src : Nat) (t : RingTimer) : (s.setLinkT src t).objs = s.objs := (rfl)
@[simp] theorem State.setLinkT_tiles (src : Nat) (t : RingTimer) : (s.setLinkT src t).tiles = s.tiles := (rfl)
@[simp] theorem State.setLinkT_retired (src : Nat) (t : RingTimer) : (s.setLinkT src t).retired = s.retired := (rfl)
@[simp] theorem State.setLinkT_held (src : Nat) (t : RingTimer) : (s.setLinkT src t).held = s.held := (rfl)
@[simp] theorem State.setLinkT_migs (src : Nat) (t : RingTimer) : (s.setLinkT src t).migs = s.migs := (rfl)
@[simp] theorem State.setLinkT_moves (src : Nat) (t : RingTimer) : (s.setLinkT src t).moves = s.moves := (rfl)
@[simp] theorem State.setLinkT_prefq (src : Nat) (t : RingTimer) : (s.setLinkT src t).prefq = s.prefq := (rfl)
@[simp] theorem State.setLinkT_sorters (src : Nat) (t : RingTimer) : (s.setLinkT src t).sorters = s.sorters := (rfl)
@[simp] theorem State.setLinkT_rampReq (src : Nat) (t : RingTimer) : (s.setLinkT src t).rampReq = s.rampReq := (rfl)
@[simp] theorem State.setLinkT_rampHold (src : Nat) (t : RingTimer) : (s.setLinkT src t).rampHold = s.rampHold := (rfl)
@[simp] theorem State.setLinkT_sliceReqs (src : Nat) (t : RingTimer) : (s.setLinkT src t).sliceReqs = s.sliceReqs := (rfl)
@[simp] theorem State.setLinkT_samples (src : Nat) (t : RingTimer) : (s.setLinkT src t).samples = s.samples := (rfl)
@[simp] theorem State.setLinkT_latches (src : Nat) (t : RingTimer) : (s.setLinkT src t).latches = s.latches := (rfl)
@[simp] theorem State.setLinkT_events (src : Nat) (t : RingTimer) : (s.setLinkT src t).events = s.events := (rfl)
@[simp] theorem State.setLinkT_replies (src : Nat) (t : RingTimer) : (s.setLinkT src t).replies = s.replies := (rfl)
@[simp] theorem State.setLinkT_ringTimer (src : Nat) (t : RingTimer) : (s.setLinkT src t).ringTimer = s.ringTimer := (rfl)
@[simp] theorem State.setLinkT_peer (src : Nat) (t : RingTimer) : (s.setLinkT src t).peer = s.peer := (rfl)
@[simp] theorem State.setLinkT_power (src : Nat) (t : RingTimer) : (s.setLinkT src t).power = s.power := (rfl)
@[simp] theorem State.setLinkT_security (src : Nat) (t : RingTimer) : (s.setLinkT src t).security = s.security := (rfl)
@[simp] theorem State.setLinkT_jtag (src : Nat) (t : RingTimer) : (s.setLinkT src t).jtag = s.jtag := (rfl)
@[simp] theorem State.setLinkT_noVaux (src : Nat) (t : RingTimer) : (s.setLinkT src t).noVaux = s.noVaux := (rfl)
@[simp] theorem State.setLinkT_optics (src : Nat) (t : RingTimer) : (s.setLinkT src t).optics = s.optics := (rfl)
@[simp] theorem State.setLinkT_nis (src : Nat) (t : RingTimer) : (s.setLinkT src t).nis = s.nis := (rfl)
@[simp] theorem State.setLinkT_wire (src : Nat) (t : RingTimer) : (s.setLinkT src t).wire = s.wire := (rfl)
@[simp] theorem State.setLinkT_groups (src : Nat) (t : RingTimer) : (s.setLinkT src t).groups = s.groups := (rfl)
@[simp] theorem State.setLinkT_early (src : Nat) (t : RingTimer) : (s.setLinkT src t).early = s.early := (rfl)
@[simp] theorem State.setLinkT_ops (src : Nat) (t : RingTimer) : (s.setLinkT src t).ops = s.ops := (rfl)
@[simp] theorem State.setLinkT_posted (src : Nat) (t : RingTimer) : (s.setLinkT src t).posted = s.posted := (rfl)
@[simp] theorem State.setLinkT_withheld (src : Nat) (t : RingTimer) : (s.setLinkT src t).withheld = s.withheld := (rfl)
@[simp] theorem State.setLinkT_fatal (src : Nat) (t : RingTimer) : (s.setLinkT src t).fatal = s.fatal := (rfl)
@[simp] theorem State.setLinkT_partFatal (src : Nat) (t : RingTimer) : (s.setLinkT src t).partFatal = s.partFatal := (rfl)
@[simp] theorem State.setLinkT_deadDies (src : Nat) (t : RingTimer) : (s.setLinkT src t).deadDies = s.deadDies := (rfl)
@[simp] theorem State.setLinkT_satFlags (src : Nat) (t : RingTimer) : (s.setLinkT src t).satFlags = s.satFlags := (rfl)
@[simp] theorem State.setLinkT_drawn (src : Nat) (t : RingTimer) : (s.setLinkT src t).drawn = s.drawn := (rfl)
@[simp] theorem State.setLinkT_pending (src : Nat) (t : RingTimer) : (s.setLinkT src t).pending = s.pending := (rfl)
@[simp] theorem State.setLinkT_rd (src : Nat) (t : RingTimer) (b1 : Nat) : (s.setLinkT src t).rd b1 = s.rd b1 := (rfl)
@[simp] theorem State.setLinkT_getF (src : Nat) (t : RingTimer) (g1 : Fld) : (s.setLinkT src t).getF g1 = s.getF g1 := (rfl)
@[simp] theorem State.setLinkT_flag (src : Nat) (t : RingTimer) (g1 : Fld) : (s.setLinkT src t).flag g1 = s.flag g1 := (rfl)
@[simp] theorem State.setLinkT_peek (src : Nat) (t : RingTimer) (b1 : Nat) : (s.setLinkT src t).peek b1 = s.peek b1 := (rfl)
@[simp] theorem State.setLinkT_room (src : Nat) (t : RingTimer) (d1 : Nat) : (s.setLinkT src t).room d1 = s.room d1 := (rfl)
@[simp] theorem State.setLinkT_ctx (src : Nat) (t : RingTimer) (y1 : Nat) : (s.setLinkT src t).ctx y1 = s.ctx y1 := (rfl)
@[simp] theorem State.setLinkT_bar (src : Nat) (t : RingTimer) (j1 : Nat) : (s.setLinkT src t).bar j1 = s.bar j1 := (rfl)
@[simp] theorem State.setLinkT_snap (src : Nat) (t : RingTimer) (q1 : Nat) : (s.setLinkT src t).snap q1 = s.snap q1 := (rfl)
@[simp] theorem State.setLinkT_obj (src : Nat) (t : RingTimer) (j1 : Nat) : (s.setLinkT src t).obj j1 = s.obj j1 := (rfl)
@[simp] theorem State.setLinkT_tile (src : Nat) (t : RingTimer) (j1 : Nat) : (s.setLinkT src t).tile j1 = s.tile j1 := (rfl)
@[simp] theorem State.setLinkT_mig (src : Nat) (t : RingTimer) (j1 : Nat) : (s.setLinkT src t).mig j1 = s.mig j1 := (rfl)
@[simp] theorem State.setLinkT_ring (src : Nat) (t : RingTimer) (j1 : Nat) : (s.setLinkT src t).ring j1 = s.ring j1 := (rfl)
@[simp] theorem State.setLinkT_ni (src : Nat) (t : RingTimer) (j1 : Nat) : (s.setLinkT src t).ni j1 = s.ni j1 := (rfl)

/-! ## draw -/

@[simp] theorem State.draw_csr (n : Nat) : (s.draw n).2.csr = s.csr := (rfl)
@[simp] theorem State.draw_mem (n : Nat) : (s.draw n).2.mem = s.mem := (rfl)
@[simp] theorem State.draw_cls (n : Nat) : (s.draw n).2.cls = s.cls := (rfl)
@[simp] theorem State.draw_ctxs (n : Nat) : (s.draw n).2.ctxs = s.ctxs := (rfl)
@[simp] theorem State.draw_bars (n : Nat) : (s.draw n).2.bars = s.bars := (rfl)
@[simp] theorem State.draw_snaps (n : Nat) : (s.draw n).2.snaps = s.snaps := (rfl)
@[simp] theorem State.draw_snapNums (n : Nat) : (s.draw n).2.snapNums = s.snapNums := (rfl)
@[simp] theorem State.draw_objs (n : Nat) : (s.draw n).2.objs = s.objs := (rfl)
@[simp] theorem State.draw_tiles (n : Nat) : (s.draw n).2.tiles = s.tiles := (rfl)
@[simp] theorem State.draw_retired (n : Nat) : (s.draw n).2.retired = s.retired := (rfl)
@[simp] theorem State.draw_held (n : Nat) : (s.draw n).2.held = s.held := (rfl)
@[simp] theorem State.draw_migs (n : Nat) : (s.draw n).2.migs = s.migs := (rfl)
@[simp] theorem State.draw_moves (n : Nat) : (s.draw n).2.moves = s.moves := (rfl)
@[simp] theorem State.draw_prefq (n : Nat) : (s.draw n).2.prefq = s.prefq := (rfl)
@[simp] theorem State.draw_sorters (n : Nat) : (s.draw n).2.sorters = s.sorters := (rfl)
@[simp] theorem State.draw_rampReq (n : Nat) : (s.draw n).2.rampReq = s.rampReq := (rfl)
@[simp] theorem State.draw_rampHold (n : Nat) : (s.draw n).2.rampHold = s.rampHold := (rfl)
@[simp] theorem State.draw_sliceReqs (n : Nat) : (s.draw n).2.sliceReqs = s.sliceReqs := (rfl)
@[simp] theorem State.draw_samples (n : Nat) : (s.draw n).2.samples = s.samples := (rfl)
@[simp] theorem State.draw_latches (n : Nat) : (s.draw n).2.latches = s.latches := (rfl)
@[simp] theorem State.draw_events (n : Nat) : (s.draw n).2.events = s.events := (rfl)
@[simp] theorem State.draw_replies (n : Nat) : (s.draw n).2.replies = s.replies := (rfl)
@[simp] theorem State.draw_ringTimer (n : Nat) : (s.draw n).2.ringTimer = s.ringTimer := (rfl)
@[simp] theorem State.draw_peer (n : Nat) : (s.draw n).2.peer = s.peer := (rfl)
@[simp] theorem State.draw_power (n : Nat) : (s.draw n).2.power = s.power := (rfl)
@[simp] theorem State.draw_security (n : Nat) : (s.draw n).2.security = s.security := (rfl)
@[simp] theorem State.draw_jtag (n : Nat) : (s.draw n).2.jtag = s.jtag := (rfl)
@[simp] theorem State.draw_noVaux (n : Nat) : (s.draw n).2.noVaux = s.noVaux := (rfl)
@[simp] theorem State.draw_optics (n : Nat) : (s.draw n).2.optics = s.optics := (rfl)
@[simp] theorem State.draw_nis (n : Nat) : (s.draw n).2.nis = s.nis := (rfl)
@[simp] theorem State.draw_wire (n : Nat) : (s.draw n).2.wire = s.wire := (rfl)
@[simp] theorem State.draw_groups (n : Nat) : (s.draw n).2.groups = s.groups := (rfl)
@[simp] theorem State.draw_early (n : Nat) : (s.draw n).2.early = s.early := (rfl)
@[simp] theorem State.draw_ops (n : Nat) : (s.draw n).2.ops = s.ops := (rfl)
@[simp] theorem State.draw_posted (n : Nat) : (s.draw n).2.posted = s.posted := (rfl)
@[simp] theorem State.draw_linkTimer (n : Nat) : (s.draw n).2.linkTimer = s.linkTimer := (rfl)
@[simp] theorem State.draw_withheld (n : Nat) : (s.draw n).2.withheld = s.withheld := (rfl)
@[simp] theorem State.draw_fatal (n : Nat) : (s.draw n).2.fatal = s.fatal := (rfl)
@[simp] theorem State.draw_partFatal (n : Nat) : (s.draw n).2.partFatal = s.partFatal := (rfl)
@[simp] theorem State.draw_deadDies (n : Nat) : (s.draw n).2.deadDies = s.deadDies := (rfl)
@[simp] theorem State.draw_satFlags (n : Nat) : (s.draw n).2.satFlags = s.satFlags := (rfl)
@[simp] theorem State.draw_pending (n : Nat) : (s.draw n).2.pending = s.pending := (rfl)
@[simp] theorem State.draw_rd (n : Nat) (b1 : Nat) : (s.draw n).2.rd b1 = s.rd b1 := (rfl)
@[simp] theorem State.draw_getF (n : Nat) (g1 : Fld) : (s.draw n).2.getF g1 = s.getF g1 := (rfl)
@[simp] theorem State.draw_flag (n : Nat) (g1 : Fld) : (s.draw n).2.flag g1 = s.flag g1 := (rfl)
@[simp] theorem State.draw_peek (n : Nat) (b1 : Nat) : (s.draw n).2.peek b1 = s.peek b1 := (rfl)
@[simp] theorem State.draw_room (n : Nat) (d1 : Nat) : (s.draw n).2.room d1 = s.room d1 := (rfl)
@[simp] theorem State.draw_ctx (n : Nat) (y1 : Nat) : (s.draw n).2.ctx y1 = s.ctx y1 := (rfl)
@[simp] theorem State.draw_bar (n : Nat) (j1 : Nat) : (s.draw n).2.bar j1 = s.bar j1 := (rfl)
@[simp] theorem State.draw_snap (n : Nat) (q1 : Nat) : (s.draw n).2.snap q1 = s.snap q1 := (rfl)
@[simp] theorem State.draw_obj (n : Nat) (j1 : Nat) : (s.draw n).2.obj j1 = s.obj j1 := (rfl)
@[simp] theorem State.draw_tile (n : Nat) (j1 : Nat) : (s.draw n).2.tile j1 = s.tile j1 := (rfl)
@[simp] theorem State.draw_mig (n : Nat) (j1 : Nat) : (s.draw n).2.mig j1 = s.mig j1 := (rfl)
@[simp] theorem State.draw_ring (n : Nat) (j1 : Nat) : (s.draw n).2.ring j1 = s.ring j1 := (rfl)
@[simp] theorem State.draw_ni (n : Nat) (j1 : Nat) : (s.draw n).2.ni j1 = s.ni j1 := (rfl)
@[simp] theorem State.draw_linkT (n : Nat) (j1 : Nat) : (s.draw n).2.linkT j1 = s.linkT j1 := (rfl)

/-! ## Reading what was written -/

@[simp] theorem State.peek_poke (a : Nat) (v : Byte) (b : Nat) : (s.poke a v).peek b = if b = a then v else s.peek b :=
  SMap.get_put
@[simp] theorem State.room_setRoom (c : Nat) (r : Classroom) (d : Nat) : (s.setRoom c r).room d = if d = c then r else s.room d :=
  SMap.get_put
@[simp] theorem State.ctx_setCtx (x : Nat) (r : Ctx) (y : Nat) : (s.setCtx x r).ctx y = if y = x then r else s.ctx y :=
  SMap.get_put
@[simp] theorem State.bar_setBar (k : Nat) (b : Barrier) (j : Nat) : (s.setBar k b).bar j = if j = k then b else s.bar j :=
  SMap.get_put
@[simp] theorem State.snap_setSnap (p : Nat) (x : Snap) (q : Nat) : (s.setSnap p x).snap q = if q = p then x else s.snap q :=
  SMap.get_put
@[simp] theorem State.obj_setObj (ok : Nat) (o : Option Obj) (j : Nat) : (s.setObj ok o).obj j = if j = ok then o else s.obj j :=
  SMap.get_put
@[simp] theorem State.tile_setTile (tk : Nat) (e : TileEntry) (j : Nat) : (s.setTile tk e).tile j = if j = tk then e else s.tile j :=
  SMap.get_put
@[simp] theorem State.mig_setMig (p : Nat) (q : MigQueue) (j : Nat) : (s.setMig p q).mig j = if j = p then q else s.mig j :=
  SMap.get_put
@[simp] theorem State.ring_setRing (r : Nat) (t : RingTimer) (j : Nat) : (s.setRing r t).ring j = if j = r then t else s.ring j :=
  SMap.get_put
@[simp] theorem State.ni_setNi (k : Nat) (n : NiPort) (j : Nat) : (s.setNi k n).ni j = if j = k then n else s.ni j :=
  SMap.get_put
@[simp] theorem State.linkT_setLinkT (src : Nat) (t : RingTimer) (j : Nat) : (s.setLinkT src t).linkT j = if j = src then t else s.linkT j :=
  SMap.get_put

end Sys2Proof.Machine
end

