-- ==== Sys2Proof/Laws/Issue.lean ====
section
/-! SUPPORT. What issue does to a classroom: its queues, its engines, its tokens, and nothing of any other classroom. -/

namespace Sys2Proof.Machine

variable {s t u : State} {c : Nat} {q : Queue} {e : QEntry}

@[simp] theorem Classroom.queue_setQueue {r : Classroom} {l : List QEntry} : (r.setQueue q l).queue q = l := by cases q <;> rfl
@[simp] theorem Classroom.flight_setQueue {r : Classroom} {l : List QEntry} {p : Queue} :
    (r.setQueue q l).flight p = r.flight p := by cases q <;> cases p <;> rfl
@[simp] theorem Classroom.queue_setFlight {r : Classroom} {l : List InFlight} {p : Queue} :
    (r.setFlight q l).queue p = r.queue p := by cases q <;> cases p <;> rfl
@[simp] theorem Classroom.flight_setFlight {r : Classroom} {l : List InFlight} : (r.setFlight q l).flight q = l := by
  cases q <;> rfl

/-- `t` differs from `s` neither in the queues, the engines and the COUNTs of classroom `c`, nor in another classroom, nor in
memory. -/
structure State.Beside (s t : State) (c : Nat) : Prop where
  queue : ∀ q, (t.room c).queue q = (s.room c).queue q
  flight : ∀ q, (t.room c).flight q = (s.room c).flight q
  others : ∀ d, d ≠ c → t.room d = s.room d
  mem : t.mem = s.mem
  count : ∀ k, k < 64 → t.getF (Csr.clsTok_COUNT c k) = s.getF (Csr.clsTok_COUNT c k)

theorem State.beside_self : s.Beside s c := ⟨fun _ => .refl _, fun _ => .refl _, fun _ _ => .refl _, .refl _, fun _ _ => .refl _⟩

theorem State.Beside.trans (h : s.Beside t c) (g : t.Beside u c) : s.Beside u c :=
  ⟨fun q => (g.queue q).trans (h.queue q), fun q => (g.flight q).trans (h.flight q),
    fun d hd => (g.others d hd).trans (h.others d hd), g.mem.trans h.mem, fun k hk => (g.count k hk).trans (h.count k hk)⟩

/-- A state that differs in neither registers nor classrooms nor memory. -/
theorem State.Beside.of_eq (h1 : t.csr = s.csr) (h2 : t.cls = s.cls) (h3 : t.mem = s.mem) : s.Beside t c := by
  have hr : ∀ d, t.room d = s.room d := fun d => by unfold State.room; rw [h2]
  refine ⟨fun q => by rw [hr], fun q => by rw [hr], fun d _ => hr d, h3, fun k _ => ?_⟩
  unfold State.getF State.rd
  rw [h1]

theorem State.Beside.setF {f : Fld} {v : Nat} (h : s.Beside t c) (hf : f.fits = true)
    (ha : ∀ k, k < 64 → f.apart (Csr.clsTok_COUNT c k) = true) : s.Beside (t.setF f v) c :=
  h.trans ⟨fun _ => by simp, fun _ => by simp, fun _ _ => by simp, by simp, fun k hk => State.getF_setF_apart hf (ha k hk)⟩

theorem State.Beside.addF {f : Fld} {v : Nat} (h : s.Beside t c) (hf : f.fits = true)
    (ha : ∀ k, k < 64 → f.apart (Csr.clsTok_COUNT c k) = true) : s.Beside (t.addF f v) c := h.setF hf ha

theorem State.Beside.setRoom {r : Classroom} (h : s.Beside t c) (hq : ∀ q, r.queue q = (t.room c).queue q)
    (hf : ∀ q, r.flight q = (t.room c).flight q) : s.Beside (t.setRoom c r) c :=
  h.trans ⟨fun q => by simp [hq], fun q => by simp [hf], fun d hd => by simp [hd], by simp, fun _ _ => by simp⟩

/-- Marking tiles as accessed touches neither registers nor classrooms nor memory. -/
theorem State.touch_same {p : Nat} {as : List Nat} :
    (s.touch p as).csr = s.csr ∧ (s.touch p as).cls = s.cls ∧ (s.touch p as).mem = s.mem := by
  unfold State.touch
  induction as generalizing s with
  | nil => exact ⟨Eq.refl _, Eq.refl _, Eq.refl _⟩
  | cons a r ih =>
    simp only [List.foldl_cons]
    split
    · exact ⟨ih.1.trans (by simp), ih.2.1.trans (by simp), ih.2.2.trans (by simp)⟩
    · exact ih

theorem State.touchSources_same :
    (s.touchSources c e).csr = s.csr ∧ (s.touchSources c e).cls = s.cls ∧ (s.touchSources c e).mem = s.mem := by
  have go : ∀ (t : State) (p : Nat) (o : Option RDesc),
      (match o with | some d => t.touch p d.tileAddrs | none => t).csr = t.csr ∧
      (match o with | some d => t.touch p d.tileAddrs | none => t).cls = t.cls ∧
      (match o with | some d => t.touch p d.tileAddrs | none => t).mem = t.mem := by
    intro t p o
    cases o with
    | none => exact ⟨rfl, rfl, rfl⟩
    | some d => exact State.touch_same
  unfold State.touchSources
  have a := go s (s.getF (Csr.clsStatus_PART c)) e.a
  exact ⟨(go _ _ e.b).1.trans a.1, (go _ _ e.b).2.1.trans a.2.1, (go _ _ e.b).2.2.trans a.2.2⟩

/-- `t` differs from `s`, of registers, classrooms and memory, in the sample count of classroom `c` alone. -/
structure State.Counted (s t : State) (c : Nat) : Prop where
  csr : t.csr = s.csr
  mem : t.mem = s.mem
  others : ∀ d, d ≠ c → t.room d = s.room d
  room : ∃ n, t.room c = { s.room c with sampleCount := n }

theorem State.Counted.beside (h : s.Counted t c) : s.Beside t c := by
  obtain ⟨n, hn⟩ := h.room
  refine ⟨fun q => ?_, fun q => ?_, h.others, h.mem, fun k _ => ?_⟩
  · rw [hn]
    cases q <;> rfl
  · rw [hn]
    cases q <;> rfl
  · unfold State.getF State.rd
    rw [h.csr]

/-- Sampling at issue touches the sample count alone. -/
theorem State.sampleIssue_counted : s.Counted (s.sampleIssue c q).2 c := by
  have d : s.Counted (s.draw 0).2 c := ⟨rfl, rfl, fun _ _ => rfl, (s.room c).sampleCount, rfl⟩
  unfold State.sampleIssue
  dsimp only
  split
  · unfold State.countSample
    dsimp only
    refine ⟨by simp [State.draw], by simp [State.draw], fun x hx => ?_, ?_⟩
    · rw [State.room_setRoom, if_neg hx, d.others x hx]
    · rw [State.room_setRoom, if_pos rfl]
      exact ⟨_, rfl⟩
  · exact d

/-- An issued instruction is the last in flight in its engine; no register, no queue and nothing in memory changes. -/
theorem State.launchInsn_spec {x : Result} : (s.launchInsn c q e x).csr = s.csr ∧ (s.launchInsn c q e x).mem = s.mem ∧
    (∀ d, d ≠ c → (s.launchInsn c q e x).room d = s.room d) ∧
    ∃ n f, (s.launchInsn c q e x).room c = { s.room c with sampleCount := n }.setFlight q ((s.room c).flight q ++ [f]) ∧
      f.entry = e ∧ f.writes = x.writes ∧ f.flags = x.flags ∧ f.effects = x.effects := by
  have h := State.sampleIssue_counted (s := s) (c := c) (q := q)
  obtain ⟨n, hn⟩ := h.room
  unfold State.launchInsn
  dsimp only
  refine ⟨by simp [h.csr], by simp [h.mem], fun d hd => by simp [hd, h.others d hd], n, ?_⟩
  rw [State.room_setRoom, if_pos rfl, h.beside.flight q, hn]
  exact ⟨_, rfl, rfl, rfl, rfl, rfl⟩

/-! ## Leaving the queue -/

theorem clsTok_apart {f : Fld} {k : Nat} (h : ∀ j, j < 64 → f.addr ≠ Csr.clsTok c j) (hk : k < 64) :
    f.apart (Csr.clsTok_COUNT c k) = true := Fld.apart_of_addr (h k hk)

theorem occField_fits : (occField c q).fits = true := by cases q <;> rfl

theorem occField_addr : (occField c q).addr = Csr.clsQstat c := by cases q <;> rfl

theorem occField_apart {k : Nat} : (occField c q).apart (Csr.clsTok_COUNT c k) = true := by
  apply Fld.apart_of_addr
  rw [occField_addr]
  show Csr.clsQstat c ≠ Csr.clsTok c k
  unfold Csr.clsQstat Csr.clsTok
  omega

theorem State.ready_head {op : Op} (h : s.ready c q op = some e) : (s.room c).queue q = e :: ((s.room c).queue q).tail ∧
    s.running c = true ∧ insnOp e.enc = some op ∧ s.waitHolds c e.enc = true := by
  unfold State.ready at h
  split at h
  · cases h
  · rename_i x r hq
    split at h
    · rename_i hc
      cases h
      simp only [Bool.and_eq_true, decide_eq_true_eq] at hc
      exact ⟨hq ▸ rfl, hc.1.1.1.1, hc.1.1.1.2, hc.1.1.2⟩
    · cases h

/-- The head leaves its queue: QSTAT shows it, a TAKE lowers its token, and no other field changes. -/
theorem State.popHead_spec {op : Op} (h : s.ready c q op = some e) :
    ((s.popHead c q e).room c) = (s.room c).setQueue q ((s.room c).queue q).tail ∧
    (∀ d, d ≠ c → (s.popHead c q e).room d = s.room d) ∧ (s.popHead c q e).mem = s.mem ∧
    (insnWmode e.enc = 1 → (s.popHead c q e).getF (Csr.clsTok_COUNT c (insnWtok e.enc)) + 1 =
      s.getF (Csr.clsTok_COUNT c (insnWtok e.enc))) ∧
    (∀ g : Fld, g.fits = true → (occField c q).apart g = true → (Csr.clsTok_COUNT c (insnWtok e.enc)).apart g = true →
      (s.popHead c q e).getF g = s.getF g) := by
  have hr := State.ready_head h
  have s2 : ∀ {v : Nat} (g : Fld), (occField c q).apart g = true →
      ((s.setRoom c ((s.room c).setQueue q ((s.room c).queue q).tail)).setF (occField c q) v).getF g = s.getF g :=
    fun g hg => by rw [State.getF_setF_apart occField_fits hg]; simp
  unfold State.popHead
  by_cases hm : insnWmode e.enc = 1
  · have hc : 1 ≤ s.getF (Csr.clsTok_COUNT c (insnWtok e.enc)) := by
      have := hr.2.2.2
      unfold State.waitHolds at this
      simpa [hm] using this
    have hl : s.getF (Csr.clsTok_COUNT c (insnWtok e.enc)) < 65536 := State.getF_lt
    dsimp only
    rw [if_pos hm]
    unfold State.tokenAdd
    rw [s2 _ occField_apart]
    dsimp only
    rw [if_pos (by simp only [Int.ofNat_eq_natCast]; omega)]
    have hn : (Int.ofNat (s.getF (Csr.clsTok_COUNT c (insnWtok e.enc))) + -1).toNat =
      s.getF (Csr.clsTok_COUNT c (insnWtok e.enc)) - 1 := by simp only [Int.ofNat_eq_natCast]; omega
    refine ⟨by simp, fun d hd => by simp [hd], by simp, fun _ => ?_, fun g _ h1 h2 => ?_⟩
    · rw [State.getF_setF_same (by rfl), hn, show (Csr.clsTok_COUNT c (insnWtok e.enc)).len = 16 from rfl,
        Nat.mod_eq_of_lt (by omega)]
      omega
    · rw [State.getF_setF_apart (by rfl) h2, s2 _ h1]
  · dsimp only
    rw [if_neg hm]
    exact ⟨by simp, fun d hd => by simp [hd], by simp, fun h => absurd h hm, fun g _ h1 _ => s2 g h1⟩

/-- The head leaves its queue, something that touches no queue, engine, COUNT or memory happens, and the instruction is in flight. -/
theorem State.issued_of_beside {op : Op} {x : Result} (h : s.ready c q op = some e) (hk : insnWtok e.enc < 64)
    (hb : (s.popHead c q e).Beside t c) : s.Issued (t.launchInsn c q e x) c q e x := by
  have p := State.popHead_spec h
  have l := State.launchInsn_spec (s := t) (c := c) (q := q) (e := e) (x := x)
  refine ⟨?_, ?_, fun hm => ?_, fun a => ?_, fun d hd => ?_⟩
  · obtain ⟨n, f, hf, _⟩ := l.2.2.2
    have : ({ t.room c with sampleCount := n } : Classroom).queue q = (t.room c).queue q := by cases q <;> rfl
    rw [hf, Classroom.queue_setFlight, this, hb.queue q, p.1, Classroom.queue_setQueue]
  · obtain ⟨n, f, hf, r⟩ := l.2.2.2
    refine ⟨f, ?_, r⟩
    rw [hf, Classroom.flight_setFlight, hb.flight q, p.1, Classroom.flight_setQueue]
  · rw [← p.2.2.2.1 hm, ← hb.count _ hk]
    unfold State.getF State.rd
    rw [l.1]
  · unfold State.peek
    rw [l.2.1, hb.mem, p.2.2.1]
  · rw [l.2.2.1 d hd, hb.others d hd, p.2.1 d hd]

theorem insnWtok_lt {n : Nat} : insnWtok n < 64 := Nat.mod_lt _ (by decide)

/-- Issue of a ready instruction with a result (R36, R39). -/
theorem State.issue_spec {op : Op} {run : QEntry → Except FaultInfo Result} {r : Result} (h : s.ready c q op = some e)
    (hr : run e = .ok r) : s.Issued (s.issue c q op run) c q e r ∧
    ∀ g : Fld, g.fits = true → (occField c q).apart g = true → (Csr.clsTok_COUNT c (insnWtok e.enc)).apart g = true →
      (s.issue c q op run).getF g = s.getF g := by
  have tsame := State.touchSources_same (s := s.popHead c q e) (c := c) (e := e)
  unfold State.issue
  rw [h]
  dsimp only
  rw [hr]
  dsimp only
  have hx : ∀ t : State, t.csr = (s.popHead c q e).csr → t.cls = (s.popHead c q e).cls → t.mem = (s.popHead c q e).mem →
      s.Issued (t.launchInsn c q e r) c q e r ∧ ∀ g : Fld, g.fits = true → (occField c q).apart g = true →
        (Csr.clsTok_COUNT c (insnWtok e.enc)).apart g = true → (t.launchInsn c q e r).getF g = s.getF g := by
    intro t h1 h2 h3
    refine ⟨State.issued_of_beside h insnWtok_lt (State.Beside.of_eq h1 h2 h3), fun g hg ha hb => ?_⟩
    rw [← (State.popHead_spec h).2.2.2.2 g hg ha hb]
    unfold State.getF State.rd
    rw [State.launchInsn_spec.1, h1]
  split
  · exact hx _ rfl rfl rfl
  · exact hx _ tsame.1 tsame.2.1 tsame.2.2

end Sys2Proof.Machine
end

