-- ==== Sys2Proof/Laws/Memory.lean ====
section
/-! SUPPORT. Memory: every operation that writes it keeps its canonical form, and what a byte reads as after a write. -/

namespace Sys2Proof.Machine

variable {s : State}

/-! ## The canonical form -/

theorem State.wf_poke (h : Memory.wf s.mem = true) (a : Nat) (b : Byte) : Memory.wf (s.poke a b).mem = true := SMap.wf_put h

theorem State.wf_pokeN (h : Memory.wf s.mem = true) (a : Nat) (bs : List Byte) : Memory.wf (s.pokeN a bs).mem = true := by
  induction bs generalizing s a with
  | nil => exact h
  | cons b r ih => exact ih (State.wf_poke h a b) (a + 1)

theorem State.wf_zeroFrame (h : Memory.wf s.mem = true) (a : Nat) : Memory.wf (s.zeroFrame a).mem = true := SMap.wf_filter _ h

theorem State.wf_copyFrame (h : Memory.wf s.mem = true) (src dst : Nat) : Memory.wf (s.copyFrame src dst).mem = true := by
  have go : ∀ (l : List Host.Cell) (t : State), Memory.wf t.mem = true →
      Memory.wf (l.foldl (fun t c => t.poke (dst + (c.1 - src)) c.2) t).mem = true := by
    intro l
    induction l with
    | nil => exact fun t ht => ht
    | cons c r ih => exact fun t ht => ih _ (State.wf_poke ht _ _)
  exact go _ _ (State.wf_zeroFrame h dst)

theorem State.wf_writeByte (h : Memory.wf s.mem = true) (p dva : Nat) (b : Byte) : Memory.wf (s.writeByte p dva b).mem = true := by
  unfold State.writeByte
  split
  · exact h
  · apply State.wf_poke
    unfold State.clearTag
    dsimp only
    split
    · exact h
    · exact h
  · apply State.wf_poke
    rw [State.setTile_mem]
    split
    · exact State.wf_zeroFrame h _
    · exact h

theorem State.wf_writeAll (h : Memory.wf s.mem = true) (p : Nat) (ws : List (Nat × Byte)) :
    Memory.wf (s.writeAll p ws).mem = true := by
  unfold State.writeAll
  induction ws generalizing s with
  | nil => exact h
  | cons w r ih => exact ih (State.wf_writeByte h p w.1 w.2)

theorem State.wf_reset : Memory.wf State.reset.mem = true := rfl

/-! ## Reading after a write -/

theorem State.peek_pokeN (a : Nat) (bs : List Byte) (b : Nat) :
    (s.pokeN a bs).peek b = if a ≤ b then bs.getD (b - a) (s.peek b) else s.peek b := by
  induction bs generalizing s a with
  | nil => simp [State.pokeN]
  | cons x r ih =>
    rw [State.pokeN, ih, State.peek_poke]
    rcases Nat.lt_trichotomy a b with h | h | h
    · rw [if_pos (Nat.succ_le_of_lt h), if_neg (Nat.ne_of_gt h), if_pos (Nat.le_of_lt h), show b - a = b - (a + 1) + 1 by omega, List.getD_cons_succ]
    · subst h
      rw [if_neg (by omega)]
      simp
    · rw [if_neg (by omega), if_neg (by omega), if_neg (by omega)]

theorem SMap.get_filter {V : Type} {d : Nat → V} {m : SMap V} (p : Nat → Bool) (k : Nat) :
    SMap.get d (m.filter (fun e => p e.1)) k = if p k then m.get d k else d k := by
  induction m with
  | nil => simp [SMap.get]
  | cons e r ih =>
    obtain ⟨j, v⟩ := e
    rw [List.filter_cons]
    by_cases hj : j = k
    · subst hj
      by_cases hp : p j = true
      · simp [hp, SMap.get]
      · simp only [hp, Bool.false_eq_true, if_false, ih]
    · by_cases hp : p j = true
      · simp only [hp, if_true, SMap.get, if_neg hj, ih]
      · simp only [hp, Bool.false_eq_true, if_false, ih, SMap.get, if_neg hj]

theorem State.peek_zeroFrame (a b : Nat) :
    (s.zeroFrame a).peek b = if a ≤ b ∧ b < a + 65536 then memDefault b else s.peek b := by
  unfold State.peek State.zeroFrame
  dsimp only
  rw [SMap.get_filter (fun k => !(decide (a ≤ k) && decide (k < a + 65536)))]
  by_cases h : a ≤ b ∧ b < a + 65536
  · simp [h]
  · rw [if_neg h, if_pos (by simp; omega)]

end Sys2Proof.Machine
end

