-- ==== Sys2Proof/Laws/Parts.lean ====
section
/-! SUPPORT. What replacing the optical, the power, the security and the JTAG part of a state leaves. -/

namespace Sys2Proof.Machine

variable {s : State}

@[simp] theorem State.withOptics_csr (f : Optics → Optics) : (s.withOptics f).csr = s.csr := (rfl)
@[simp] theorem State.withOptics_mem (f : Optics → Optics) : (s.withOptics f).mem = s.mem := (rfl)
@[simp] theorem State.withOptics_cls (f : Optics → Optics) : (s.withOptics f).cls = s.cls := (rfl)
@[simp] theorem State.withOptics_ctxs (f : Optics → Optics) : (s.withOptics f).ctxs = s.ctxs := (rfl)
@[simp] theorem State.withOptics_bars (f : Optics → Optics) : (s.withOptics f).bars = s.bars := (rfl)
@[simp] theorem State.withOptics_snaps (f : Optics → Optics) : (s.withOptics f).snaps = s.snaps := (rfl)
@[simp] theorem State.withOptics_snapNums (f : Optics → Optics) : (s.withOptics f).snapNums = s.snapNums := (rfl)
@[simp] theorem State.withOptics_objs (f : Optics → Optics) : (s.withOptics f).objs = s.objs := (rfl)
@[simp] theorem State.withOptics_tiles (f : Optics → Optics) : (s.withOptics f).tiles = s.tiles := (rfl)
@[simp] theorem State.withOptics_retired (f : Optics → Optics) : (s.withOptics f).retired = s.retired := (rfl)
@[simp] theorem State.withOptics_held (f : Optics → Optics) : (s.withOptics f).held = s.held := (rfl)
@[simp] theorem State.withOptics_migs (f : Optics → Optics) : (s.withOptics f).migs = s.migs := (rfl)
@[simp] theorem State.withOptics_moves (f : Optics → Optics) : (s.withOptics f).moves = s.moves := (rfl)
@[simp] theorem State.withOptics_prefq (f : Optics → Optics) : (s.withOptics f).prefq = s.prefq := (rfl)
@[simp] theorem State.withOptics_sorters (f : Optics → Optics) : (s.withOptics f).sorters = s.sorters := (rfl)
@[simp] theorem State.withOptics_rampReq (f : Optics → Optics) : (s.withOptics f).rampReq = s.rampReq := (rfl)
@[simp] theorem State.withOptics_rampHold (f : Optics → Optics) : (s.withOptics f).rampHold = s.rampHold := (rfl)
@[simp] theorem State.withOptics_sliceReqs (f : Optics → Optics) : (s.withOptics f).sliceReqs = s.sliceReqs := (rfl)
@[simp] theorem State.withOptics_samples (f : Optics → Optics) : (s.withOptics f).samples = s.samples := (rfl)
@[simp] theorem State.withOptics_latches (f : Optics → Optics) : (s.withOptics f).latches = s.latches := (rfl)
@[simp] theorem State.withOptics_events (f : Optics → Optics) : (s.withOptics f).events = s.events := (rfl)
@[simp] theorem State.withOptics_replies (f : Optics → Optics) : (s.withOptics f).replies = s.replies := (rfl)
@[simp] theorem State.withOptics_ringTimer (f : Optics → Optics) : (s.withOptics f).ringTimer = s.ringTimer := (rfl)
@[simp] theorem State.withOptics_peer (f : Optics → Optics) : (s.withOptics f).peer = s.peer := (rfl)
@[simp] theorem State.withOptics_power (f : Optics → Optics) : (s.withOptics f).power = s.power := (rfl)
@[simp] theorem State.withOptics_security (f : Optics → Optics) : (s.withOptics f).security = s.security := (rfl)
@[simp] theorem State.withOptics_jtag (f : Optics → Optics) : (s.withOptics f).jtag = s.jtag := (rfl)
@[simp] theorem State.withOptics_noVaux (f : Optics → Optics) : (s.withOptics f).noVaux = s.noVaux := (rfl)
@[simp] theorem State.withOptics_optics (f : Optics → Optics) : (s.withOptics f).optics = f s.optics := (rfl)
@[simp] theorem State.withOptics_nis (f : Optics → Optics) : (s.withOptics f).nis = s.nis := (rfl)
@[simp] theorem State.withOptics_wire (f : Optics → Optics) : (s.withOptics f).wire = s.wire := (rfl)
@[simp] theorem State.withOptics_groups (f : Optics → Optics) : (s.withOptics f).groups = s.groups := (rfl)
@[simp] theorem State.withOptics_early (f : Optics → Optics) : (s.withOptics f).early = s.early := (rfl)
@[simp] theorem State.withOptics_ops (f : Optics → Optics) : (s.withOptics f).ops = s.ops := (rfl)
@[simp] theorem State.withOptics_posted (f : Optics → Optics) : (s.withOptics f).posted = s.posted := (rfl)
@[simp] theorem State.withOptics_linkTimer (f : Optics → Optics) : (s.withOptics f).linkTimer = s.linkTimer := (rfl)
@[simp] theorem State.withOptics_withheld (f : Optics → Optics) : (s.withOptics f).withheld = s.withheld := (rfl)
@[simp] theorem State.withOptics_fatal (f : Optics → Optics) : (s.withOptics f).fatal = s.fatal := (rfl)
@[simp] theorem State.withOptics_partFatal (f : Optics → Optics) : (s.withOptics f).partFatal = s.partFatal := (rfl)
@[simp] theorem State.withOptics_deadDies (f : Optics → Optics) : (s.withOptics f).deadDies = s.deadDies := (rfl)
@[simp] theorem State.withOptics_satFlags (f : Optics → Optics) : (s.withOptics f).satFlags = s.satFlags := (rfl)
@[simp] theorem State.withOptics_drawn (f : Optics → Optics) : (s.withOptics f).drawn = s.drawn := (rfl)
@[simp] theorem State.withOptics_pending (f : Optics → Optics) : (s.withOptics f).pending = s.pending := (rfl)
@[simp] theorem State.withOptics_rd (f : Optics → Optics) (a : Nat) : (s.withOptics f).rd a = s.rd a := (rfl)
@[simp] theorem State.withOptics_getF (f : Optics → Optics) (x : Fld) : (s.withOptics f).getF x = s.getF x := (rfl)
@[simp] theorem State.withOptics_flag (f : Optics → Optics) (x : Fld) : (s.withOptics f).flag x = s.flag x := (rfl)
@[simp] theorem State.withOptics_peek (f : Optics → Optics) (a : Nat) : (s.withOptics f).peek a = s.peek a := (rfl)

@[simp] theorem State.withPower_csr (f : Power → Power) : (s.withPower f).csr = s.csr := (rfl)
@[simp] theorem State.withPower_mem (f : Power → Power) : (s.withPower f).mem = s.mem := (rfl)
@[simp] theorem State.withPower_cls (f : Power → Power) : (s.withPower f).cls = s.cls := (rfl)
@[simp] theorem State.withPower_ctxs (f : Power → Power) : (s.withPower f).ctxs = s.ctxs := (rfl)
@[simp] theorem State.withPower_bars (f : Power → Power) : (s.withPower f).bars = s.bars := (rfl)
@[simp] theorem State.withPower_snaps (f : Power → Power) : (s.withPower f).snaps = s.snaps := (rfl)
@[simp] theorem State.withPower_snapNums (f : Power → Power) : (s.withPower f).snapNums = s.snapNums := (rfl)
@[simp] theorem State.withPower_objs (f : Power → Power) : (s.withPower f).objs = s.objs := (rfl)
@[simp] theorem State.withPower_tiles (f : Power → Power) : (s.withPower f).tiles = s.tiles := (rfl)
@[simp] theorem State.withPower_retired (f : Power → Power) : (s.withPower f).retired = s.retired := (rfl)
@[simp] theorem State.withPower_held (f : Power → Power) : (s.withPower f).held = s.held := (rfl)
@[simp] theorem State.withPower_migs (f : Power → Power) : (s.withPower f).migs = s.migs := (rfl)
@[simp] theorem State.withPower_moves (f : Power → Power) : (s.withPower f).moves = s.moves := (rfl)
@[simp] theorem State.withPower_prefq (f : Power → Power) : (s.withPower f).prefq = s.prefq := (rfl)
@[simp] theorem State.withPower_sorters (f : Power → Power) : (s.withPower f).sorters = s.sorters := (rfl)
@[simp] theorem State.withPower_rampReq (f : Power → Power) : (s.withPower f).rampReq = s.rampReq := (rfl)
@[simp] theorem State.withPower_rampHold (f : Power → Power) : (s.withPower f).rampHold = s.rampHold := (rfl)
@[simp] theorem State.withPower_sliceReqs (f : Power → Power) : (s.withPower f).sliceReqs = s.sliceReqs := (rfl)
@[simp] theorem State.withPower_samples (f : Power → Power) : (s.withPower f).samples = s.samples := (rfl)
@[simp] theorem State.withPower_latches (f : Power → Power) : (s.withPower f).latches = s.latches := (rfl)
@[simp] theorem State.withPower_events (f : Power → Power) : (s.withPower f).events = s.events := (rfl)
@[simp] theorem State.withPower_replies (f : Power → Power) : (s.withPower f).replies = s.replies := (rfl)
@[simp] theorem State.withPower_ringTimer (f : Power → Power) : (s.withPower f).ringTimer = s.ringTimer := (rfl)
@[simp] theorem State.withPower_peer (f : Power → Power) : (s.withPower f).peer = s.peer := (rfl)
@[simp] theorem State.withPower_power (f : Power → Power) : (s.withPower f).power = f s.power := (rfl)
@[simp] theorem State.withPower_security (f : Power → Power) : (s.withPower f).security = s.security := (rfl)
@[simp] theorem State.withPower_jtag (f : Power → Power) : (s.withPower f).jtag = s.jtag := (rfl)
@[simp] theorem State.withPower_noVaux (f : Power → Power) : (s.withPower f).noVaux = s.noVaux := (rfl)
@[simp] theorem State.withPower_optics (f : Power → Power) : (s.withPower f).optics = s.optics := (rfl)
@[simp] theorem State.withPower_nis (f : Power → Power) : (s.withPower f).nis = s.nis := (rfl)
@[simp] theorem State.withPower_wire (f : Power → Power) : (s.withPower f).wire = s.wire := (rfl)
@[simp] theorem State.withPower_groups (f : Power → Power) : (s.withPower f).groups = s.groups := (rfl)
@[simp] theorem State.withPower_early (f : Power → Power) : (s.withPower f).early = s.early := (rfl)
@[simp] theorem State.withPower_ops (f : Power → Power) : (s.withPower f).ops = s.ops := (rfl)
@[simp] theorem State.withPower_posted (f : Power → Power) : (s.withPower f).posted = s.posted := (rfl)
@[simp] theorem State.withPower_linkTimer (f : Power → Power) : (s.withPower f).linkTimer = s.linkTimer := (rfl)
@[simp] theorem State.withPower_withheld (f : Power → Power) : (s.withPower f).withheld = s.withheld := (rfl)
@[simp] theorem State.withPower_fatal (f : Power → Power) : (s.withPower f).fatal = s.fatal := (rfl)
@[simp] theorem State.withPower_partFatal (f : Power → Power) : (s.withPower f).partFatal = s.partFatal := (rfl)
@[simp] theorem State.withPower_deadDies (f : Power → Power) : (s.withPower f).deadDies = s.deadDies := (rfl)
@[simp] theorem State.withPower_satFlags (f : Power → Power) : (s.withPower f).satFlags = s.satFlags := (rfl)
@[simp] theorem State.withPower_drawn (f : Power → Power) : (s.withPower f).drawn = s.drawn := (rfl)
@[simp] theorem State.withPower_pending (f : Power → Power) : (s.withPower f).pending = s.pending := (rfl)
@[simp] theorem State.withPower_rd (f : Power → Power) (a : Nat) : (s.withPower f).rd a = s.rd a := (rfl)
@[simp] theorem State.withPower_getF (f : Power → Power) (x : Fld) : (s.withPower f).getF x = s.getF x := (rfl)
@[simp] theorem State.withPower_flag (f : Power → Power) (x : Fld) : (s.withPower f).flag x = s.flag x := (rfl)
@[simp] theorem State.withPower_peek (f : Power → Power) (a : Nat) : (s.withPower f).peek a = s.peek a := (rfl)

@[simp] theorem State.withSec_csr (f : Security → Security) : (s.withSec f).csr = s.csr := (rfl)
@[simp] theorem State.withSec_mem (f : Security → Security) : (s.withSec f).mem = s.mem := (rfl)
@[simp] theorem State.withSec_cls (f : Security → Security) : (s.withSec f).cls = s.cls := (rfl)
@[simp] theorem State.withSec_ctxs (f : Security → Security) : (s.withSec f).ctxs = s.ctxs := (rfl)
@[simp] theorem State.withSec_bars (f : Security → Security) : (s.withSec f).bars = s.bars := (rfl)
@[simp] theorem State.withSec_snaps (f : Security → Security) : (s.withSec f).snaps = s.snaps := (rfl)
@[simp] theorem State.withSec_snapNums (f : Security → Security) : (s.withSec f).snapNums = s.snapNums := (rfl)
@[simp] theorem State.withSec_objs (f : Security → Security) : (s.withSec f).objs = s.objs := (rfl)
@[simp] theorem State.withSec_tiles (f : Security → Security) : (s.withSec f).tiles = s.tiles := (rfl)
@[simp] theorem State.withSec_retired (f : Security → Security) : (s.withSec f).retired = s.retired := (rfl)
@[simp] theorem State.withSec_held (f : Security → Security) : (s.withSec f).held = s.held := (rfl)
@[simp] theorem State.withSec_migs (f : Security → Security) : (s.withSec f).migs = s.migs := (rfl)
@[simp] theorem State.withSec_moves (f : Security → Security) : (s.withSec f).moves = s.moves := (rfl)
@[simp] theorem State.withSec_prefq (f : Security → Security) : (s.withSec f).prefq = s.prefq := (rfl)
@[simp] theorem State.withSec_sorters (f : Security → Security) : (s.withSec f).sorters = s.sorters := (rfl)
@[simp] theorem State.withSec_rampReq (f : Security → Security) : (s.withSec f).rampReq = s.rampReq := (rfl)
@[simp] theorem State.withSec_rampHold (f : Security → Security) : (s.withSec f).rampHold = s.rampHold := (rfl)
@[simp] theorem State.withSec_sliceReqs (f : Security → Security) : (s.withSec f).sliceReqs = s.sliceReqs := (rfl)
@[simp] theorem State.withSec_samples (f : Security → Security) : (s.withSec f).samples = s.samples := (rfl)
@[simp] theorem State.withSec_latches (f : Security → Security) : (s.withSec f).latches = s.latches := (rfl)
@[simp] theorem State.withSec_events (f : Security → Security) : (s.withSec f).events = s.events := (rfl)
@[simp] theorem State.withSec_replies (f : Security → Security) : (s.withSec f).replies = s.replies := (rfl)
@[simp] theorem State.withSec_ringTimer (f : Security → Security) : (s.withSec f).ringTimer = s.ringTimer := (rfl)
@[simp] theorem State.withSec_peer (f : Security → Security) : (s.withSec f).peer = s.peer := (rfl)
@[simp] theorem State.withSec_power (f : Security → Security) : (s.withSec f).power = s.power := (rfl)
@[simp] theorem State.withSec_security (f : Security → Security) : (s.withSec f).security = f s.security := (rfl)
@[simp] theorem State.withSec_jtag (f : Security → Security) : (s.withSec f).jtag = s.jtag := (rfl)
@[simp] theorem State.withSec_noVaux (f : Security → Security) : (s.withSec f).noVaux = s.noVaux := (rfl)
@[simp] theorem State.withSec_optics (f : Security → Security) : (s.withSec f).optics = s.optics := (rfl)
@[simp] theorem State.withSec_nis (f : Security → Security) : (s.withSec f).nis = s.nis := (rfl)
@[simp] theorem State.withSec_wire (f : Security → Security) : (s.withSec f).wire = s.wire := (rfl)
@[simp] theorem State.withSec_groups (f : Security → Security) : (s.withSec f).groups = s.groups := (rfl)
@[simp] theorem State.withSec_early (f : Security → Security) : (s.withSec f).early = s.early := (rfl)
@[simp] theorem State.withSec_ops (f : Security → Security) : (s.withSec f).ops = s.ops := (rfl)
@[simp] theorem State.withSec_posted (f : Security → Security) : (s.withSec f).posted = s.posted := (rfl)
@[simp] theorem State.withSec_linkTimer (f : Security → Security) : (s.withSec f).linkTimer = s.linkTimer := (rfl)
@[simp] theorem State.withSec_withheld (f : Security → Security) : (s.withSec f).withheld = s.withheld := (rfl)
@[simp] theorem State.withSec_fatal (f : Security → Security) : (s.withSec f).fatal = s.fatal := (rfl)
@[simp] theorem State.withSec_partFatal (f : Security → Security) : (s.withSec f).partFatal = s.partFatal := (rfl)
@[simp] theorem State.withSec_deadDies (f : Security → Security) : (s.withSec f).deadDies = s.deadDies := (rfl)
@[simp] theorem State.withSec_satFlags (f : Security → Security) : (s.withSec f).satFlags = s.satFlags := (rfl)
@[simp] theorem State.withSec_drawn (f : Security → Security) : (s.withSec f).drawn = s.drawn := (rfl)
@[simp] theorem State.withSec_pending (f : Security → Security) : (s.withSec f).pending = s.pending := (rfl)
@[simp] theorem State.withSec_rd (f : Security → Security) (a : Nat) : (s.withSec f).rd a = s.rd a := (rfl)
@[simp] theorem State.withSec_getF (f : Security → Security) (x : Fld) : (s.withSec f).getF x = s.getF x := (rfl)
@[simp] theorem State.withSec_flag (f : Security → Security) (x : Fld) : (s.withSec f).flag x = s.flag x := (rfl)
@[simp] theorem State.withSec_peek (f : Security → Security) (a : Nat) : (s.withSec f).peek a = s.peek a := (rfl)

@[simp] theorem State.jtagInsn_csr (i : JtagInstr) (l : Lands) (b : List Byte) : (s.jtagInsn i l b).csr = s.csr := (rfl)
@[simp] theorem State.jtagInsn_mem (i : JtagInstr) (l : Lands) (b : List Byte) : (s.jtagInsn i l b).mem = s.mem := (rfl)
@[simp] theorem State.jtagInsn_cls (i : JtagInstr) (l : Lands) (b : List Byte) : (s.jtagInsn i l b).cls = s.cls := (rfl)
@[simp] theorem State.jtagInsn_ctxs (i : JtagInstr) (l : Lands) (b : List Byte) : (s.jtagInsn i l b).ctxs = s.ctxs := (rfl)
@[simp] theorem State.jtagInsn_bars (i : JtagInstr) (l : Lands) (b : List Byte) : (s.jtagInsn i l b).bars = s.bars := (rfl)
@[simp] theorem State.jtagInsn_snaps (i : JtagInstr) (l : Lands) (b : List Byte) : (s.jtagInsn i l b).snaps = s.snaps := (rfl)
@[simp] theorem State.jtagInsn_snapNums (i : JtagInstr) (l : Lands) (b : List Byte) : (s.jtagInsn i l b).snapNums = s.snapNums := (rfl)
@[simp] theorem State.jtagInsn_objs (i : JtagInstr) (l : Lands) (b : List Byte) : (s.jtagInsn i l b).objs = s.objs := (rfl)
@[simp] theorem State.jtagInsn_tiles (i : JtagInstr) (l : Lands) (b : List Byte) : (s.jtagInsn i l b).tiles = s.tiles := (rfl)
@[simp] theorem State.jtagInsn_retired (i : JtagInstr) (l : Lands) (b : List Byte) : (s.jtagInsn i l b).retired = s.retired := (rfl)
@[simp] theorem State.jtagInsn_held (i : JtagInstr) (l : Lands) (b : List Byte) : (s.jtagInsn i l b).held = s.held := (rfl)
@[simp] theorem State.jtagInsn_migs (i : JtagInstr) (l : Lands) (b : List Byte) : (s.jtagInsn i l b).migs = s.migs := (rfl)
@[simp] theorem State.jtagInsn_moves (i : JtagInstr) (l : Lands) (b : List Byte) : (s.jtagInsn i l b).moves = s.moves := (rfl)
@[simp] theorem State.jtagInsn_prefq (i : JtagInstr) (l : Lands) (b : List Byte) : (s.jtagInsn i l b).prefq = s.prefq := (rfl)
@[simp] theorem State.jtagInsn_sorters (i : JtagInstr) (l : Lands) (b : List Byte) : (s.jtagInsn i l b).sorters = s.sorters := (rfl)
@[simp] theorem State.jtagInsn_rampReq (i : JtagInstr) (l : Lands) (b : List Byte) : (s.jtagInsn i l b).rampReq = s.rampReq := (rfl)
@[simp] theorem State.jtagInsn_rampHold (i : JtagInstr) (l : Lands) (b : List Byte) : (s.jtagInsn i l b).rampHold = s.rampHold := (rfl)
@[simp] theorem State.jtagInsn_sliceReqs (i : JtagInstr) (l : Lands) (b : List Byte) : (s.jtagInsn i l b).sliceReqs = s.sliceReqs := (rfl)
@[simp] theorem State.jtagInsn_samples (i : JtagInstr) (l : Lands) (b : List Byte) : (s.jtagInsn i l b).samples = s.samples := (rfl)
@[simp] theorem State.jtagInsn_latches (i : JtagInstr) (l : Lands) (b : List Byte) : (s.jtagInsn i l b).latches = s.latches := (rfl)
@[simp] theorem State.jtagInsn_events (i : JtagInstr) (l : Lands) (b : List Byte) : (s.jtagInsn i l b).events = s.events := (rfl)
@[simp] theorem State.jtagInsn_replies (i : JtagInstr) (l : Lands) (b : List Byte) : (s.jtagInsn i l b).replies = s.replies := (rfl)
@[simp] theorem State.jtagInsn_ringTimer (i : JtagInstr) (l : Lands) (b : List Byte) : (s.jtagInsn i l b).ringTimer = s.ringTimer := (rfl)
@[simp] theorem State.jtagInsn_peer (i : JtagInstr) (l : Lands) (b : List Byte) : (s.jtagInsn i l b).peer = s.peer := (rfl)
@[simp] theorem State.jtagInsn_power (i : JtagInstr) (l : Lands) (b : List Byte) : (s.jtagInsn i l b).power = s.power := (rfl)
@[simp] theorem State.jtagInsn_security (i : JtagInstr) (l : Lands) (b : List Byte) : (s.jtagInsn i l b).security = s.security := (rfl)
@[simp] theorem State.jtagInsn_jtag (i : JtagInstr) (l : Lands) (b : List Byte) : (s.jtagInsn i l b).jtag = { s.jtag with instr := i, lands := l, out := b } := (rfl)
@[simp] theorem State.jtagInsn_noVaux (i : JtagInstr) (l : Lands) (b : List Byte) : (s.jtagInsn i l b).noVaux = s.noVaux := (rfl)
@[simp] theorem State.jtagInsn_optics (i : JtagInstr) (l : Lands) (b : List Byte) : (s.jtagInsn i l b).optics = s.optics := (rfl)
@[simp] theorem State.jtagInsn_nis (i : JtagInstr) (l : Lands) (b : List Byte) : (s.jtagInsn i l b).nis = s.nis := (rfl)
@[simp] theorem State.jtagInsn_wire (i : JtagInstr) (l : Lands) (b : List Byte) : (s.jtagInsn i l b).wire = s.wire := (rfl)
@[simp] theorem State.jtagInsn_groups (i : JtagInstr) (l : Lands) (b : List Byte) : (s.jtagInsn i l b).groups = s.groups := (rfl)
@[simp] theorem State.jtagInsn_early (i : JtagInstr) (l : Lands) (b : List Byte) : (s.jtagInsn i l b).early = s.early := (rfl)
@[simp] theorem State.jtagInsn_ops (i : JtagInstr) (l : Lands) (b : List Byte) : (s.jtagInsn i l b).ops = s.ops := (rfl)
@[simp] theorem State.jtagInsn_posted (i : JtagInstr) (l : Lands) (b : List Byte) : (s.jtagInsn i l b).posted = s.posted := (rfl)
@[simp] theorem State.jtagInsn_linkTimer (i : JtagInstr) (l : Lands) (b : List Byte) : (s.jtagInsn i l b).linkTimer = s.linkTimer := (rfl)
@[simp] theorem State.jtagInsn_withheld (i : JtagInstr) (l : Lands) (b : List Byte) : (s.jtagInsn i l b).withheld = s.withheld := (rfl)
@[simp] theorem State.jtagInsn_fatal (i : JtagInstr) (l : Lands) (b : List Byte) : (s.jtagInsn i l b).fatal = s.fatal := (rfl)
@[simp] theorem State.jtagInsn_partFatal (i : JtagInstr) (l : Lands) (b : List Byte) : (s.jtagInsn i l b).partFatal = s.partFatal := (rfl)
@[simp] theorem State.jtagInsn_deadDies (i : JtagInstr) (l : Lands) (b : List Byte) : (s.jtagInsn i l b).deadDies = s.deadDies := (rfl)
@[simp] theorem State.jtagInsn_satFlags (i : JtagInstr) (l : Lands) (b : List Byte) : (s.jtagInsn i l b).satFlags = s.satFlags := (rfl)
@[simp] theorem State.jtagInsn_drawn (i : JtagInstr) (l : Lands) (b : List Byte) : (s.jtagInsn i l b).drawn = s.drawn := (rfl)
@[simp] theorem State.jtagInsn_pending (i : JtagInstr) (l : Lands) (b : List Byte) : (s.jtagInsn i l b).pending = s.pending := (rfl)
@[simp] theorem State.jtagInsn_rd (i : JtagInstr) (l : Lands) (b : List Byte) (a : Nat) : (s.jtagInsn i l b).rd a = s.rd a := (rfl)
@[simp] theorem State.jtagInsn_getF (i : JtagInstr) (l : Lands) (b : List Byte) (x : Fld) : (s.jtagInsn i l b).getF x = s.getF x := (rfl)
@[simp] theorem State.jtagInsn_flag (i : JtagInstr) (l : Lands) (b : List Byte) (x : Fld) : (s.jtagInsn i l b).flag x = s.flag x := (rfl)
@[simp] theorem State.jtagInsn_peek (i : JtagInstr) (l : Lands) (b : List Byte) (a : Nat) : (s.jtagInsn i l b).peek a = s.peek a := (rfl)

/-- Words put into registers change nothing else. -/
theorem State.putWords_rest {s : State} (f : Nat → Nat) (n : Nat) (bs : List Byte) :
    s.putWords f n bs = { s with csr := (s.putWords f n bs).csr } := by
  have h : ∀ (l : List Nat) (t : State), ∃ m, l.foldl (fun t i => t.wr (f i) (BitVec.ofNat 64 (fieldAt bs (8 * i) 8))) t =
      { t with csr := m } := by
    intro l
    induction l with
    | nil => exact fun t => ⟨t.csr, rfl⟩
    | cons a r ih =>
      intro t
      obtain ⟨m, e⟩ := ih (t.wr (f a) (BitVec.ofNat 64 (fieldAt bs (8 * a) 8)))
      exact ⟨m, by rw [List.foldl_cons, e]; rfl⟩
  obtain ⟨m, e⟩ := h (List.range n) s
  have : s.putWords f n bs = { s with csr := m } := e
  rw [this]

theorem State.rd_putWords_ne {s : State} {f : Nat → Nat} {n a : Nat} {bs : List Byte} (h : ∀ i, i < n → f i ≠ a) :
    (s.putWords f n bs).rd a = s.rd a := by
  unfold State.putWords
  induction n with
  | zero => rfl
  | succ k ih =>
    rw [List.range_succ, List.foldl_append, List.foldl_cons, List.foldl_nil, State.rd_wr, if_neg (fun e => h k (by omega) e.symm)]
    exact ih (fun i hi => h i (by omega))

theorem State.rd_putWords_at {s : State} {f : Nat → Nat} {n i : Nat} {bs : List Byte} (hf : ∀ i j, i < n → j < n → f i = f j → i = j)
    (h : i < n) : (s.putWords f n bs).rd (f i) = BitVec.ofNat 64 (fieldAt bs (8 * i) 8) := by
  unfold State.putWords
  induction n with
  | zero => omega
  | succ k ih =>
    rw [List.range_succ, List.foldl_append, List.foldl_cons, List.foldl_nil, State.rd_wr]
    split
    · rename_i e
      rw [hf i k h (by omega) e]
    · rename_i e
      have : i ≠ k := fun x => e (by rw [x])
      exact ih (fun a b ha hb => hf a b (by omega) (by omega)) (by omega)

end Sys2Proof.Machine
end

