-- ==== Sys2Proof/Tests/Slice0.lean ====
section
/-! SUPPORT. Tests: the refusals of well-formedness, one small step of the commands, and for each statement a state and
operands that meet its hypotheses. Expected values are worked out by hand from the rules of spec/ that the comments name. -/

namespace Sys2Proof.Tests

open Sys2Proof.Machine

set_option Elab.async false

/-! ## Helpers -/

/-- The command answers a next state with `p`. -/
def nextIs (i : Instr) (s : State) (p : State → Bool) : Bool :=
  match exec i s with
  | .next t => p t
  | _ => false

/-- The value is there and has `p`. -/
def okIs {e α : Type} (x : Except e α) (p : α → Bool) : Bool :=
  match x with
  | .ok a => p a
  | .error _ => false

/-- A booted device: port 0 is the management owner's, ports 0 and 1 are UP and serve partition 0, which has every
classroom, NI and the contexts 0 to 15. -/
def lab : State := State.reset.setFs [(Csr.sysBoot_STATE, 4), (Csr.hlStatus_STATE 0, 3), (Csr.hlStatus_STATE 1, 3),
  (Csr.sysPartCfg_EN 0, 1), (Csr.sysPartCfg_HOSTMASK 0, 3), (Csr.sysPartCls_MASK 0, 2 ^ 64 - 1), (Csr.sysPartNi_MASK 0, 2 ^ 32 - 1),
  (Csr.sysPartCtx_BASE 0, 0), (Csr.sysPartCtx_COUNT 0, 16), (Csr.clkStatus_SPLL_LOCK, 1),
  (Csr.pmuStatus_MODE, 0), (Csr.secStatus_MODE, 0)]

/-- A tensor in the OB of classroom 0 at offset `off`, rows `e1` of `e0` elements, 4,096 bytes apart. -/
def inOB (idx off fmt e0 e1 : Nat) : RDesc :=
  { idx := idx, base := obWindow + off, fmt := fmt, scale := 0, ndim := 1, layer := 0, write := true, empty := false,
    bofs := false, nopref := false, persist := false, e0 := e0, e1 := e1, e2 := 1, e3 := 1, s1 := 4096, s2 := 4096, s3 := 4096 }

/-- An instruction word: opcode, the low 40 bits, wait and signal fields 0. -/
def word (code low : Nat) : Nat := code * 2 ^ 56 + low

/-- A dispatched instruction. -/
def entry (enc : Nat) (d a b : Option RDesc) : QEntry := ⟨56, enc, d, a, b⟩

/-- Classroom 0 RUNNING for partition 0 with `e` at the head of queue `q`, and bytes in its OB. -/
def withHead (q : Queue) (e : QEntry) (ob : List (Nat × List Byte)) : State :=
  let s := lab.setF (Csr.clsStatus_STATE 0) 2
  ob.foldl (fun t x => t.pokeN (obAddr 0 x.1) x.2) (s.setRoom 0 (Classroom.idle.setQueue q [e]))

/-- FP32 1.0 and 2.0. -/
def one32 : List Byte := [0x00, 0x00, 0x80, 0x3F]
def two32 : List Byte := [0x00, 0x00, 0x00, 0x40]

/-- After the command, the last instruction of queue `q` of classroom 0 in flight is `e` and will write `bs` at offset
`off` of the OB; the queue is empty. -/
def flies (i : Instr) (q : Queue) (e : QEntry) (ob : List (Nat × List Byte)) (off : Nat) (bs : List Byte) : Bool :=
  let s := withHead q e ob
  nextIs i s (fun t => ((t.room 0).queue q).isEmpty && match ((t.room 0).flight q).getLast? with
    | some f => decide (f.entry = e) && decide (f.writes = bytesAt (obWindow + off) bs)
    | none => false)

/-! ## Issue -/

/-- VADD: 1.0 + 2.0 = 3.0 (R83). -/
theorem test_vadd : flies (.vadd 0) .v (entry (word 0x40 0) (some (inOB 0 0 0 1 1)) (some (inOB 1 64 0 1 1)) (some (inOB 2 128 0 1 1)))
    [(64, one32), (128, two32)] 0 [0x00, 0x00, 0x40, 0x40] = true := by decide +kernel

/-- VFMA: 1.0 × 2.0 + 2.0 = 4.0 (R83). -/
theorem test_vfma : flies (.vfma 0) .v (entry (word 0x41 0) (some (inOB 0 0 0 1 1)) (some (inOB 1 64 0 1 1)) (some (inOB 2 128 0 1 1)))
    [(0, two32), (64, one32), (128, two32)] 0 [0x00, 0x00, 0x80, 0x40] = true := by decide +kernel

/-- VEXP: exp(1.0 × 0) = 1.0 (R83). -/
theorem test_vexp : flies (.vexp 0) .v (entry (word 0x42 (0x3F80 * 256)) (some (inOB 0 0 0 1 1)) (some (inOB 1 64 0 1 1)) none)
    [] 0 one32 = true := by decide +kernel

/-- VRSQ: 1 / sqrt(4.0 + 0) = 0.5 (R83). -/
theorem test_vrsq : flies (.vrsq 0) .v (entry (word 0x43 0) (some (inOB 0 0 0 1 1)) (some (inOB 1 64 0 1 1)) none)
    [(64, [0x00, 0x00, 0x80, 0x40])] 0 [0x00, 0x00, 0x00, 0x3F] = true := by decide +kernel

/-- As flies, with any property of the instruction in flight. -/
def fliesWith (i : Instr) (q : Queue) (s : State) (p : InFlight → Bool) : Bool :=
  nextIs i s (fun t => ((t.room 0).queue q).isEmpty && match ((t.room 0).flight q).getLast? with
    | some f => p f
    | none => false)

/-- VAMAX EXPONENT: the example of R89: a largest value of 1,000.0, E4M3 and MARGIN 1 give SEXP 3, in slot 5. -/
theorem test_vamax : fliesWith (.vamax 0) .v
    (withHead .v (entry (word 0x44 (1221 * 256 + 1)) none (some (inOB 1 64 0 1 1)) none) [(64, [0x00, 0x00, 0x7A, 0x44])])
    (fun f => decide (f.effects = [.setSexp 5 3] ∧ f.writes = [])) = true := by decide +kernel

/-- VSMX with INIT: one score 0 and c = 1.0 give P = 1.0, m = 0, l = 1.0, alpha = exp(−∞) = 0 (R84). -/
theorem test_vsmx : fliesWith (.vsmx 0) .v
    (withHead .v (entry (word 0x45 1) (some (inOB 0 0 0 1 1)) (some (inOB 1 64 0 1 1)) (some (inOB 2 128 0 4 2))) [(132, one32)])
    (fun f => decide (f.writes = bytesAt obWindow one32 ++ bytesAt (obWindow + 128 + 4096) [0, 0, 0, 0] ++
      bytesAt (obWindow + 132 + 4096) one32 ++ bytesAt (obWindow + 136 + 4096) [0, 0, 0, 0])) = true := by decide +kernel

/-- VNORM, RMS with ε = 0: 2.0 / sqrt(4.0) × 1.0 = 1.0 (R83). -/
theorem test_vnorm : flies (.vnorm 0) .v (entry (word 0x46 1) (some (inOB 0 0 0 1 1)) (some (inOB 1 64 0 1 1)) (some (inOB 2 128 0 1 1)))
    [(64, two32), (128, one32)] 0 one32 = true := by decide +kernel

/-- VQUANT: 2.0 in E4M3 is 0x40, and the amax is 2.0 (R85). -/
theorem test_vquant : fliesWith (.vquant 0) .v
    (withHead .v (entry (word 0x47 0) (some (inOB 0 0 3 1 1)) (some (inOB 1 64 0 1 1)) (some (inOB 2 128 0 1 1))) [(64, two32)])
    (fun f => decide (f.writes = bytesAt obWindow [0x40] ++ bytesAt (obWindow + 128) two32 ∧ f.effects = [])) = true := by
  decide +kernel

/-- VCVT: FP32 1.0 is BF16 0x3F80 (R83). -/
theorem test_vcvt : flies (.vcvt 0) .v (entry (word 0x48 0) (some (inOB 0 0 1 1 1)) (some (inOB 1 64 0 1 1)) none)
    [(64, one32)] 0 [0x80, 0x3F] = true := by decide +kernel

/-- VSUMSQ: 2.0² = 4.0 is added to the row of its layer, column KIND (R86). -/
theorem test_vsumsq : fliesWith (.vsumsq 0) .v
    ((withHead .v (entry (word 0x49 1) none (some (inOB 1 64 0 1 1)) none) [(64, two32)]).setF (Csr.clsRcBase_DVA 0) (obWindow + 0x1000))
    (fun f => decide (f.effects = [.addF32 (obWindow + 0x1004) 0x40800000])) = true := by decide +kernel

/-- VRNG with DIST 1: the first word of Philox4x32-10 under key 0 and counter 0 is 0x6627E8D5, and the counter becomes 1 (R88). -/
theorem test_vrng : fliesWith (.vrng 0) .v
    (withHead .v (entry (word 0x4A 1) (some (inOB 0 0 0 1 1)) (some (inOB 1 64 0 16 1)) none) [])
    (fun f => decide (f.writes = bytesAt obWindow [0xD5, 0xE8, 0x27, 0x66] ++ bytesAt (obWindow + 72) (leBytes 16 1))) = true := by
  decide +kernel

/-- VQUIZ with k = 0 samples every tile; an exact product falls in bin 0 (R87, R159, R160). -/
theorem test_vquiz : fliesWith (.vquiz 0) .v
    ((withHead .v (entry (word 0x4B 0) (some (inOB 0 0 0 1 1)) (some (inOB 1 64 0 1 1)) (some (inOB 2 128 0 1 1)))
      [(0, two32), (64, one32), (128, two32)]).setF (Csr.clsQuizCtrl_K 0) 0)
    (fun f => decide (f.effects = [.quiz 0 0 0] ∧ f.writes = [])) = true := by decide +kernel

/-- BF16 1.0 and 2.0 side by side. -/
def oneTwo : List Byte := [0x80, 0x3F, 0x00, 0x40]

/-- TMUL: [1 2] · [1; 2] = 5.0 (R73, R76). -/
theorem test_tmul : flies (.tmul 0) .t (entry (word 0x00 0) (some (inOB 0 0 0 1 1)) (some (inOB 1 64 1 2 1)) (some (inOB 2 128 1 1 2)))
    [(64, oneTwo), (128, [0x80, 0x3F]), (128 + 4096, [0x00, 0x40])] 0 [0x00, 0x00, 0xA0, 0x40] = true := by decide +kernel

/-- TMULT: [1 2] · [1 2]ᵀ = 5.0 (R73). -/
theorem test_tmult : flies (.tmult 0) .t (entry (word 0x01 0) (some (inOB 0 0 0 1 1)) (some (inOB 1 64 1 2 1)) (some (inOB 2 128 1 2 1)))
    [(64, oneTwo), (128, oneTwo)] 0 [0x00, 0x00, 0xA0, 0x40] = true := by decide +kernel

/-- TMULTA: [1; 2]ᵀ · [1; 2] = 5.0 (R73). -/
theorem test_tmulta : flies (.tmulta 0) .t (entry (word 0x02 0) (some (inOB 0 0 0 1 1)) (some (inOB 1 64 1 1 2)) (some (inOB 2 128 1 1 2)))
    [(64, [0x80, 0x3F]), (64 + 4096, [0x00, 0x40]), (128, [0x80, 0x3F]), (128 + 4096, [0x00, 0x40])] 0 [0x00, 0x00, 0xA0, 0x40] = true := by
  decide +kernel

/-- TPAIR: (2 + 0) × (1 + 2) = 6.0 in three passes, HI in the low half (R76, R125). -/
theorem test_tpair : flies (.tpair 0) .t (entry (word 0x03 0) (some (inOB 0 0 0 1 1)) (some (inOB 1 64 6 1 1)) (some (inOB 2 128 6 1 1)))
    [(64, [0x00, 0x40, 0x00, 0x00]), (128, oneTwo)] 0 [0x00, 0x00, 0xC0, 0x40] = true := by decide +kernel

/-- TLOADW with TR = 1: the tile is in the shadow bank and the load path is busy (R77, R103). -/
theorem test_tloadw : nextIs (.tloadw 0) (withHead .t (entry (word 0x08 1) none (some (inOB 1 64 1 2 1)) none) [(64, oneTwo)])
    (fun t => decide ((t.room 0).shadow = some ⟨⟨obWindow + 64, 1, 2, 1, false, true⟩, [0x3F80, 0x4000], true⟩) &&
      t.flag (Csr.clsArrStat_LOAD_BUSY 0) && t.flag (Csr.clsArrStat_SHADOW_TR 0)) = true := by decide +kernel

/-- MLOAD and MSTORE copy the stored bytes (R90). -/
theorem test_mload : flies (.mload 0) .m (entry (word 0x80 0) (some (inOB 0 0 0 1 1)) (some (inOB 1 64 0 1 1)) none)
    [(64, two32)] 0 two32 = true := by decide +kernel
theorem test_mstore : flies (.mstore 0) .m (entry (word 0x81 0) (some (inOB 0 0 1 2 1)) (some (inOB 1 64 1 2 1)) none)
    [(64, oneTwo)] 0 oneTwo = true := by decide +kernel

/-- MCONV converts FP32 2.0 to FP16 0x4000 (R90, R132). -/
theorem test_mconv : flies (.mconv 0) .m (entry (word 0x84 0) (some (inOB 0 0 2 1 1)) (some (inOB 1 64 0 1 1)) none)
    [(64, two32)] 0 [0x00, 0x40] = true := by decide +kernel

/-- MGATHER: row 1 of the table (R91). -/
theorem test_mgather : flies (.mgather 0) .m (entry (word 0x82 0) (some (inOB 0 0 0 1 1)) (some (inOB 1 64 0 1 2)) (some (inOB 2 128 0 1 1)))
    [(64, one32), (64 + 4096, two32), (128, [1, 0, 0, 0])] 0 two32 = true := by decide +kernel

/-- MSCATTER: the row goes to row 1 of the table; with ADD it is added there (R91). -/
theorem test_mscatter : flies (.mscatter 0) .m (entry (word 0x83 0) (some (inOB 0 0 0 1 2)) (some (inOB 1 64 0 1 1)) (some (inOB 2 128 0 1 1)))
    [(64, two32), (128, [1, 0, 0, 0])] 4096 two32 = true := by decide +kernel
theorem test_mscatter_add : flies (.mscatter 0) .m
    (entry (word 0x83 1) (some (inOB 0 0 0 1 2)) (some (inOB 1 64 0 1 1)) (some (inOB 2 128 0 1 1)))
    [(64, two32), (4096, one32), (128, [1, 0, 0, 0])] 4096 [0x00, 0x00, 0x40, 0x40] = true := by decide +kernel

/-- MPREF of an OB region: it is requested and dropped, and the instruction is in flight (R92, R231). -/
theorem test_mpref : nextIs (.mpref 0) (withHead .m (entry (word 0x85 0) none (some (inOB 1 64 0 1 1)) none) [])
    (fun t => decide (t.getF (Csr.clsMprefStat_REQUESTED 0) = 1 ∧ t.getF (Csr.clsMprefDrop_DROPPED 0) = 1) &&
      decide ((t.room 0).mf.length = 1)) = true := by decide +kernel

/-- MUPD enters the Satchel's queue (R93). -/
theorem test_mupd : nextIs (.mupd 0) (withHead .m (entry (word 0x86 0) none none none) [])
    (fun t => decide ((t.room 0).sat.length = 1 ∧ (t.room 0).mq = [] ∧ t.getF (Csr.clsSatStat_Q_OCC 0) = 1)) = true := by decide +kernel

/-- A SYN word: opcode, TGT, VALUE, MOD. -/
def syn (code tgt value mod : Nat) : Nat := word code (tgt * 2 ^ 28 + value * 2 ^ 12 + mod)

/-- Classroom 0 with an S instruction at its head and token 3 at `n`. -/
def syncHead (enc n : Nat) : State := (withHead .s (entry enc none none none) []).setF (Csr.clsTok_COUNT 0 3) n

/-- SWAIT on token 3 waits below VALUE and issues at it (R94). -/
theorem test_swait : nextIs (.swait 0) (syncHead (syn 0xC0 3 2 0) 2) (fun t => decide ((t.room 0).sf.length = 1)) &&
    nextIs (.swait 0) (syncHead (syn 0xC0 3 2 0) 1) (fun t => decide ((t.room 0).sf = [])) = true := by decide +kernel

/-- SSIG: ADD to 65,535, SUB to 0, SET and SET TARGET (R94). -/
theorem test_ssig_add : nextIs (.ssig 0) (syncHead (syn 0xC1 3 5 0) 65530) (fun t => decide (t.getF (Csr.clsTok_COUNT 0 3) = 65535)) &&
    nextIs (.ssig 0) (syncHead (syn 0xC1 3 5 1) 5) (fun t => decide (t.getF (Csr.clsTok_COUNT 0 3) = 0)) = true := by decide +kernel
theorem test_ssig_set : nextIs (.ssig 0) (syncHead (syn 0xC1 3 9 2) 65530) (fun t => decide (t.getF (Csr.clsTok_COUNT 0 3) = 9)) &&
    nextIs (.ssig 0) (syncHead (syn 0xC1 3 9 3) 5) (fun t => decide (t.getF (Csr.clsTok_TARGET 0 3) = 9 ∧ t.getF (Csr.clsTok_COUNT 0 3) = 5)) =
    true := by decide +kernel

/-- An update past 65,535 or below 0 leaves COUNT and stops the lesson with TOKEN_RANGE; a second fault sets MULTI (R43, R65). -/
theorem test_token_range : nextIs (.ssig 0) (syncHead (syn 0xC1 3 6 0) 65530) (fun t => decide (t.getF (Csr.clsTok_COUNT 0 3) = 65530 ∧
      t.getF (Csr.clsFault0_CAUSE 0) = 3) && (t.room 0).stopping) &&
    nextIs (.ssig 0) (syncHead (syn 0xC1 3 6 1) 5) (fun t => decide (t.getF (Csr.clsTok_COUNT 0 3) = 5 ∧
      t.getF (Csr.clsFault0_CAUSE 0) = 3)) = true := by decide +kernel
theorem test_token_range_again : decide ((((syncHead 0 0).setF (Csr.clsFault0_CAUSE 0) 8).tokenAdd 0 3 (-1) 3 56 0).getF
    (Csr.clsFault0_MULTI 0) = 1) = true := by decide +kernel

/-- READ_INC of a move and of a product: COUNT is one higher, once (R40). -/
theorem test_read_inc : (let f : InFlight := ⟨entry (word 0x80 (3 * 2 ^ 42 + 2 * 2 ^ 40)) none none none, [], noFlags, [], false, false, (0, 0, 0, 0), false, 0, false⟩
    let s (q : Queue) := (syncHead 0 7).setRoom 0 (Classroom.idle.setFlight q [f])
    nextIs (.readInc 0 .m 0) (s .m) (fun t => decide (t.getF (Csr.clsTok_COUNT 0 3) = 8) && nextIs (.readInc 0 .m 0) t (fun u => decide (u = t))) &&
    nextIs (.readInc 0 .t 0) (s .t) (fun t => decide (t.getF (Csr.clsTok_COUNT 0 3) = 8))) = true := by decide +kernel

/-- SFENCE counts what was issued before it (R94). -/
theorem test_sfence : nextIs (.sfence 0) (syncHead (syn 0xC2 0 0 0) 0) (fun t =>
    decide ((t.room 0).sf.map (fun f => f.fence) = [(0, 0, 0, 0)])) = true := by decide +kernel

/-- SBAR: the first of two waits; alone it releases its barrier (R97). -/
theorem test_sbar : nextIs (.sbar 0) (syncHead (syn 0xC3 1 2 0) 0) (fun t => decide (t.bar 1 = ⟨2, [0]⟩) &&
      (t.room 0).sf.all (fun f => f.barWait)) &&
    nextIs (.sbar 0) (syncHead (syn 0xC3 1 1 0) 0) (fun t => decide (t.bar 1 = Barrier.empty) && (t.room 0).sf.all (fun f => !f.barWait)) =
    true := by decide +kernel

/-- STRIG carries its increment (R96). -/
theorem test_strig : nextIs (.strig 0) (syncHead (syn 0xC4 9 4 0) 0) (fun t =>
    decide ((t.room 0).sf.map (fun f => f.effects) = [[.trig 9 4]])) = true := by decide +kernel

/-- SEND ends the lesson once all else has drained (R60). -/
theorem test_send : nextIs (.send 0) (syncHead (syn 0xC6 0 0 0) 0) (fun t => decide (t.getF (Csr.clsStatus_STATE 0) = 5 ∧ (t.room 0).sq = [])) =
    true := by decide +kernel

/-! ## Front end, completion, stops, ramps, Satchels -/

/-- Classroom 0 RUNNING a lesson of four instructions at segment 0 with `w` at its first slot. -/
def fetching (w : Nat) : State :=
  (lab.setFs [(Csr.clsStatus_STATE 0, 2), (Csr.clsLesson_INSN_COUNT 0, 4), (Csr.clsPc_PC 0, 56)]).wr (Csr.clsImem 0 56) (BitVec.ofNat 64 w)

/-- A decode cycle places an SSIG at the S queue's tail, and PC moves on (R35). -/
theorem test_front_end : nextIs (.frontEndDispatch 0 .clean) (fetching (syn 0xC1 3 1 0)) (fun t =>
    decide ((t.room 0).sq = [⟨56, syn 0xC1 3 1 0, none, none, none⟩] ∧ t.getF (Csr.clsPc_PC 0) = 57)) = true := by decide +kernel

/-- A word of no opcode stops the lesson with ILLEGAL_INSN; an uncorrectable error with IMEM_UE (R32, R67). -/
theorem test_front_end_stops : nextIs (.frontEndDispatch 0 .clean) (fetching (word 0xFF 0)) (fun t =>
      decide (t.getF (Csr.clsFault0_CAUSE 0) = 1)) &&
    nextIs (.frontEndDispatch 0 .uncorrectable) (fetching 0) (fun t => decide (t.getF (Csr.clsFault0_CAUSE 0) = 9)) = true := by decide +kernel

/-- SLOOP of level 0, 5 iterations of 2 instructions (R46). -/
theorem test_sloop : nextIs (.sloop 0 .clean) (fetching (word 0xC5 (5 * 2 ^ 14 + 2))) (fun t =>
    decide ((t.room 0).loops = [(57, 2)] ∧ t.getF (Csr.clsLoop_COUNT 0 0) = 5 ∧ t.getF (Csr.clsLoop_ACTIVE 0 0) = 1 ∧
      t.getF (Csr.clsStatus_LOOP_DEPTH 0) = 1 ∧ t.getF (Csr.clsPc_PC 0) = 57)) = true := by decide +kernel

/-- The encodings of R67, one of each family: the opcode is the top byte. -/
theorem test_opcodes : insnOp 0x0200000000000000 = some .tmulta ∧ insnOp 0x4700000000000000 = some .vquant ∧
    insnOp 0x8600000000000000 = some .mupd ∧ insnOp 0xC300000000000000 = some .sbar ∧ insnOp 0x0400000000000000 = none := by decide +kernel

/-- Classroom 0 RUNNING with `f` in flight in queue `q`, token 3 at 7. -/
def flying (q : Queue) (f : InFlight) : State := (syncHead 0 7).setRoom 0 (Classroom.idle.setFlight q [f])

/-- An instruction in flight with bytes to write at the start of the OB. -/
def inAir (enc : Nat) (bs : List Byte) : InFlight :=
  ⟨entry enc none none none, bytesAt obWindow bs, noFlags, [], false, false, (0, 0, 0, 0), false, 0, false⟩

/-- INSTRUCTION_COMPLETE writes the bytes; DONE_INC raises its token, DONE_CLR clears it (R37, R40). -/
theorem test_complete : nextIs (.instructionComplete 0 .v 0) (flying .v (inAir (word 0x40 (3 * 2 ^ 42 + 2 ^ 40)) one32)) (fun t =>
      decide (t.peekN (obAddr 0 0) 4 = one32 ∧ (t.room 0).vf = [] ∧ t.getF (Csr.clsTok_COUNT 0 3) = 8)) &&
    nextIs (.instructionComplete 0 .m 0) (flying .m (inAir (word 0x80 (3 * 2 ^ 42 + 3 * 2 ^ 40)) [])) (fun t =>
      decide (t.getF (Csr.clsTok_COUNT 0 3) = 0)) = true := by decide +kernel

/-- The hypotheses of InstructionsComplete. -/
theorem test_complete_meets : (let s := flying .v (inAir (word 0x40 (3 * 2 ^ 42 + 2 ^ 40)) one32)
    (s.mayComplete 0 .v 0).isSome && okIs (s.writableAll 0 (bytesAt obWindow one32)) (fun _ => true)) = true := by decide +kernel

/-- WAIT_TIMEOUT: a head that waits for token 5 stops the lesson (R45). -/
theorem test_wait_timeout : nextIs (.waitTimeout 0 .s) ((syncHead (syn 0xC1 3 1 0 + 5 * 2 ^ 50 + 2 ^ 48) 0).setF (Csr.clsCtrl_TMO_EN 0) 1) (fun t =>
    decide (t.getF (Csr.clsFault0_CAUSE 0) = 8 ∧ t.getF (Csr.clsFault0_QUEUE 0) = 3 ∧ t.getF (Csr.clsFault2_TOKEN 0) = 5) &&
    (t.room 0).stopping) = true := by decide +kernel

/-- A stop ends: HALTED, FAULTED, and UNAVAILABLE in a house whose SRAM die has failed (R61, R63, R213). -/
theorem test_halted : nextIs (.classroomHalted 0) (lab.setF (Csr.clsStatus_STATE 0) 3) (fun t => decide (t.getF (Csr.clsStatus_STATE 0) = 4)) =
    true := by decide +kernel
theorem test_faulted : (let s := (lab.setF (Csr.clsStatus_STATE 0) 2).setRoom 0 { Classroom.idle with stopping := true }
    nextIs (.classroomFaulted 0) s (fun t => decide (t.getF (Csr.clsStatus_STATE 0) = 6 ∧ t.getF (Csr.errPartWr_WR 0) = 1)) &&
    nextIs (.classroomFaulted 0) { s with deadDies := [0] } (fun t => decide (t.getF (Csr.clsStatus_STATE 0) = 7))) = true := by decide +kernel

/-- Ramps: the request, the grant from FILL and from WAIT_SLOT, a step, and the last steps (R114 to R117). -/
theorem test_ramp_request : nextIs (.rampSlotRequest 0) (lab.setF (Csr.clsArrStat_PSTATE 0) 4) (fun t => decide (t.rampReq.map Prod.snd = [0])) = true := by
  decide +kernel
theorem test_ramp_grant : (let s (ps : Nat) : State := { lab.setF (Csr.clsArrStat_PSTATE 0) ps with rampReq := [(0, 0)], rampHold := List.replicate 15 9 }
    nextIs (.rampSlotGrant 0 0) (s 4) (fun t => decide (t.getF (Csr.clsArrStat_PSTATE 0) = 5 ∧ t.rampHold.length = 16)) &&
    nextIs (.rampSlotGrant 0 128) (s 1) (fun t => decide (t.getF (Csr.clsArrStat_PSTATE 0) = 2 ∧ t.getF (Csr.clsArrRamp_SLOT_WAIT 0) = 2))) =
    true := by decide +kernel
theorem test_ramp_step : (let s (ps d : Nat) : State := { (lab.setFs [(Csr.clsArrStat_PSTATE 0, ps), (Csr.clsArrStat_RAMP_STEP 0, d)]).setRoom 0
      { Classroom.idle with rampLeft := 16 } with rampHold := [0] }
    nextIs (.rampStep 0) (s 5 14) (fun t => decide (t.getF (Csr.clsArrStat_RAMP_STEP 0) = 15)) &&
    nextIs (.rampStep 0) (s 5 15) (fun t => decide (t.getF (Csr.clsArrStat_PSTATE 0) = 0 ∧ t.rampHold = []))) = true := by decide +kernel
theorem test_ramp_up_ends : (let s (w : Bool) : State := ((lab.setFs [(Csr.clsArrStat_PSTATE 0, 2), (Csr.clsArrStat_RAMP_STEP 0, 15)]).setRoom 0
      { Classroom.idle with rampLeft := 16, waitArrays := w })
    nextIs (.rampStep 0) (s true) (fun t => decide (t.getF (Csr.clsArrStat_PSTATE 0) = 3)) &&
    nextIs (.rampStep 0) (s false) (fun t => decide (t.getF (Csr.clsArrStat_PSTATE 0) = 4))) = true := by decide +kernel

/-- The first word of a descriptor of one FP32 element at OB offset `off`, a destination that persists (R49): its low 64
bits and the next 64. -/
def masterLow (off : Nat) : Nat := obWindow + off
def masterHigh : Nat := 2 ^ 12 + 2 ^ 13 + 2 ^ 17

/-- A MUPD of MSGD (R177, R179): the master 2.0 at offset 0, the gradient 1.0 at 64, the moment at 128 through descriptor 4,
LR 1.0, no decay and no momentum; the parameter record at 0x800, the step record at 0x1000 (step 0, clip 1.0), its fence
table at 0x2000, its report card scratch at 0x3000. -/
def satchel (stage : SatStage) : State :=
  let e := entry (word 0x86 (2 * 2 ^ 16)) (some { inOB 1 0 0 1 1 with persist := true }) (some (inOB 3 64 0 1 1)) (some (inOB 2 0x800 0 16 1))
  let s := withHead .m e [(0, two32), (64, one32), (0x802, [4]), (0x808, leBytes 6 (obWindow + 0x1000)), (0x810, one32),
    (0x100C, [2]), (0x1010, one32), (0x1050, leBytes 6 (obWindow + 0x2000)), (0x2000, [7, 0, 9, 0])]
  (((s.setF (Csr.clsRcBase_DVA 0) (obWindow + 0x3000)).setRoom 0 { Classroom.idle with sat := [{ SatEntry.fresh e with stage := stage, stepRec := obWindow + 0x1000, record := s.peekN (obAddr 0 0x800) 64 }] }).wr
    (Csr.clsDescW 0 4 0) (BitVec.ofNat 64 (masterLow 128))).wr (Csr.clsDescW 0 4 1) (BitVec.ofNat 64 masterHigh)

/-- SATCHEL_TAKE: the record is good, and the fence entry names counter 7 and target 9, not valid (R169, R178). -/
theorem test_satchel_take : nextIs (.satchelTake 0) (satchel .queued) (fun t => decide ((t.room 0).sat.map
    (fun x => (x.stage, x.fenceCtr, x.fenceTarget, x.fenceValid, x.step)) = [(.fence, 7, 9, false, 0)]) &&
    t.flag (Csr.clsSatStat_FENCE_WAIT 0)) = true := by decide +kernel

/-- FENCE_DRAIN: the update is formed: the master becomes 2.0 − 1.0 × 1.0 = 1.0 and the moment 1.0 (R179). -/
theorem test_fence_drain : nextIs (.fenceDrain 0) (satchel .fence) (fun t => match (t.room 0).sat with
    | [x] => decide (x.stage = .updating ∧ x.writes = bytesAt (obWindow + 128) one32 ++ bytesAt obWindow one32 ∧ x.updated = 1)
    | _ => false) = true := by decide +kernel

/-- FENCE_TIMEOUT: one FENCE_TIMEOUT record; the MUPD waits on (R173). -/
theorem test_fence_timeout : (let s := (satchel .fence).setF (Csr.clsSatCtrl_FT_EN 0) 1
    let r := s.room 0
    nextIs (.fenceTimeout 0) (s.setRoom 0 { r with sat := r.sat.map (fun x => { x with fenceValid := true, fenceCtr := 7, fenceTarget := 9 }) })
      (fun t => decide (t.getF (Csr.clsSatStat_FT_COUNT 0) = 1 ∧ t.getF (Csr.errPartWr_WR 0) = 1) &&
        (t.room 0).sat.all (fun x => x.reported && decide (x.stage = .fence)))) = true := by decide +kernel

/-- MUPD_COMPLETE writes the bytes and the Satchel's queue empties (R93). -/
theorem test_mupd_complete : (let s := satchel .updating
    let r := s.room 0
    nextIs (.mupdComplete 0) (s.setRoom 0 { r with sat := r.sat.map (fun x => { x with writes := bytesAt obWindow one32 }) })
      (fun t => decide (t.peekN (obAddr 0 0) 4 = one32 ∧ (t.room 0).sat = []))) = true := by decide +kernel

/-! ## Hardware contexts -/

/-- A fresh command of context 5 in context state `st`, with its bytes; no other command. -/
def ctxCmd (op st : Nat) (bytes : List Byte) : Cmd := ⟨0, op, 0, 0x77, st, bytes, true, 0, 0⟩

/-- Context 5 in state `st` with core 0 running, its ring in an object, `c` started. -/
def opened (st : Nat) (c : Cmd) (r : Ctx) : State :=
  (lab.setFs [(Csr.ctxState_STATE 5, st), (Csr.prcCoreStatus_STATE 0, 1), (Csr.ctxState_OUTSTANDING 5, 1)]).setCtx 5 { r with started := [c] }

/-- CTX_OPEN on core 0 from the port that rang (R254). -/
theorem test_ctx_open : (let s := opened 0 (ctxCmd 1 0 (List.replicate 64 0)) { Ctx.closed with rings := [(0, 1, 1)] }
    nextIs (.ctxOpen 5) s (fun t => decide (t.ctxSt 5 = 1 ∧ t.getF (Csr.ctxState_PORT 5) = 1 ∧ (t.ctx 5).started = [] ∧
      t.getF (Csr.ctxCqTail_TAIL 5) = 1))) = true := by decide +kernel

/-- CTX_BIND to classroom 0, the core kept: the lesson in classroom 1 goes, the one in 0 stays, the context is LOADED (R255). -/
theorem test_ctx_bind : (let s := (((opened 1 (ctxCmd 2 1 (List.replicate 8 0 ++ [1] ++ List.replicate 7 0 ++ [0xFE] ++ List.replicate 47 0)) Ctx.closed).setRoom 0
      { Classroom.idle with resident := [⟨5, 0, 1⟩] }).setRoom 1 { Classroom.idle with resident := [⟨5, 0, 1⟩] })
    nextIs (.ctxBind 5) s (fun t => decide (t.ctxSt 5 = 2 ∧ (t.ctx 5).bound = 1 ∧ (t.room 0).resident = [⟨5, 0, 1⟩] ∧ (t.room 1).resident = []))) =
    true := by decide +kernel

/-- CTX_CLOSE (R261). -/
theorem test_ctx_close : (let s := ((opened 2 (ctxCmd 8 2 (List.replicate 64 0)) { Ctx.closed with bound := 1 }).setRoom 0
      { Classroom.idle with resident := [⟨5, 0, 1⟩] })
    nextIs (.ctxClose 5) s (fun t => decide (t.ctxSt 5 = 0 ∧ (t.ctx 5).bound = 0 ∧ (t.room 0).resident = []))) = true := by decide +kernel

/-- Byte `i` of a lesson image of one SEND: version 1, format 1, one instruction, its CRC at 0x3C, the SEND at 448 (R28). -/
def imageByte (crc i : Nat) : Byte :=
  if i = 0 ∨ i = 2 ∨ i = 4 then 1 else if 0x3C ≤ i ∧ i < 0x40 then BitVec.ofNat 8 (crc / 256 ^ (i - 0x3C)) else if i = 455 then 0xC6 else 0

/-- One SLOW-tier object of two tiles at DVA 0x10000 of partition 0, its tiles in frames 8 and 9 of channel 0. -/
def withObject (s : State) : State :=
  let e (f : Nat) : TileEntry := { TileEntry.absent with valid := true, homeCh := 0, homeFrame := f }
  ((s.setObj (objKey 0 0) (some ⟨0x10000, 2, false, false, 0xFFFFFFFFFFFF, false⟩)).setTile (tileKey (objKey 0 0) 0) (e 8)).setTile
    (tileKey (objKey 0 0) 1) (e 9)

/-- A LESSON_LOAD of the image at DVA 0x10000 into segment 0 of classroom 0. -/
def loading (fresh : Bool) (crc : Nat) : State :=
  let b := List.replicate 8 0 ++ leBytes 8 1 ++ leBytes 8 0x10000 ++ List.replicate 40 0
  let s := withObject (opened 1 { ctxCmd 3 1 b with fresh := fresh } { Ctx.closed with bound := 1 })
  ((s.pokeN (slowAddr 0 8 0) [1, 0, 1, 0, 1]).pokeN (slowAddr 0 8 0x3C) (leBytes 4 crc)).poke (slowAddr 0 8 455) 0xC6

/-- LESSON_LOAD starts: the lesson that the image overlaps leaves the classroom (R31, R256). -/
theorem test_lesson_load : (let s := (loading true 0x41C653A1).setRoom 0 { Classroom.idle with resident := [⟨5, 0, 1⟩] }
    okIs (s.loadChecks 5 0 (ctxCmd 3 1 (List.replicate 8 0 ++ leBytes 8 1 ++ leBytes 8 0x10000 ++ List.replicate 40 0))) (fun n => decide (n = 1)) &&
    nextIs (.lessonLoad 5) s (fun t => decide ((t.room 0).resident = []))) = true := by decide +kernel

/-- LESSON_LOAD_DONE meets its rule: the command has begun, every byte of its image can be read, and the image's CRC-32C is
0x41C653A1 (R30; test_crc32c checks the function). -/
theorem test_lesson_loaded : (let s := loading false 0x41C653A1
    ((s.ctx 5).started.find? (fun c => !c.fresh && decide (c.op = 3))).isSome &&
      (List.range 456).all (fun i => okIs (s.readByte 0 (0x10000 + i)) (fun _ => true))) = true := by decide +kernel

/-- The check value of CRC-32C: that of the nine characters 1 to 9 is 0xE3069283. -/
theorem test_crc32c : crc32c [0x31, 0x32, 0x33, 0x34, 0x35, 0x36, 0x37, 0x38, 0x39] = 0xE3069283 := by decide +kernel

/-- A LAUNCH command on classroom 0. -/
def launchBytes : List Byte := List.replicate 8 0 ++ leBytes 8 1 ++ List.replicate 48 0

/-- LAUNCH: classroom 0 is STARTING for context 5, which is RUNNING (R257). -/
theorem test_launch : (let s := (opened 2 (ctxCmd 4 2 launchBytes) { Ctx.closed with bound := 1 }).setRoom 0 { Classroom.idle with resident := [⟨5, 0, 1⟩] }
    nextIs (.launch 5) s (fun t => decide (t.getF (Csr.clsStatus_STATE 0) = 1 ∧ t.getF (Csr.clsStatus_CTX 0) = 5 ∧ t.ctxSt 5 = 3 ∧
      (t.ctx 5).lastMask = 1))) = true := by decide +kernel

/-- CLASSROOM_START meets its rule: the lesson is resident, and the first byte of its table can be read (R33). -/
theorem test_classroom_start : (let s := (((withObject lab).setFs [(Csr.clsStatus_STATE 0, 1), (Csr.clsDtab_DVA 0, 0x10000)]).setRoom 0
      { Classroom.idle with resident := [⟨5, 0, 1⟩] })
    decide (s.lessonAt 0 0 = some ⟨5, 0, 1⟩ ∧ s.getF (Csr.clsStatus_STATE 0) = 1)) = true := by decide +kernel

/-- Bytes that can be read one by one can be read together. -/
theorem test_reads_together (s : State) (p : Nat) : ∀ (n dva : Nat), (∀ i, i < n → ∃ b, s.readByte p (dva + i) = .ok b) →
    ∃ bs, s.readBytes p dva n = .ok bs := by
  intro n
  induction n with
  | zero => exact fun _ _ => ⟨[], rfl⟩
  | succ k ih =>
    intro dva h
    obtain ⟨b, hb⟩ := h 0 (by omega)
    obtain ⟨bs, hbs⟩ := ih (dva + 1) (fun i hi => by have := h (i + 1) (by omega); rwa [show dva + (i + 1) = dva + 1 + i by omega] at this)
    exact ⟨b :: bs, by simp only [State.readBytes]; rw [show s.readByte p dva = .ok b from hb, hbs]; rfl⟩

/-- Context 5 in state `st` with the LAUNCH of classroom 0, which is in state `k`, and the command `op`. -/
def launched (st k op : Nat) (l : Option Launch) : State :=
  (opened st (ctxCmd op st (List.replicate 64 0)) { Ctx.closed with bound := 1, lastMask := 1, launch := l }).setFs [(Csr.clsStatus_STATE 0, k), (Csr.clsStatus_CTX 0, 5)]

/-- A LAUNCH of classroom 0 with a first fault or none. -/
def theLaunch (first : Option (Nat × Nat × Nat)) : Launch := ⟨{ ctxCmd 4 2 launchBytes with fresh := false }, 1, 0, first, false⟩

/-- LAUNCH_COMPLETE of a LAUNCH writes a completion with a status. -/
def launchEnds (l : Launch) (st : Nat) : Bool :=
  nextIs (.launchComplete 5) ((withObject (launched 3 5 4 (some l))).setF (Csr.ctxCqBase_DVA 5) 0x10000) (fun t =>
    decide ((t.ctx 5).launch = none ∧ t.peek (slowAddr 0 8 4) = BitVec.ofNat 8 st))

/-- LAUNCH_COMPLETE with DONE, with FENCE_TIMEOUT's 0x15, and with the first fault's status (R173, R257); the record is in the
completion ring, at DVA 0x10000. -/
theorem test_launch_complete : (launchEnds (theLaunch none) 0 && launchEnds { theLaunch none with fence := true } 0x15 &&
    launchEnds (theLaunch (some (0x0D, 0, 6))) 0x0D) = true := by decide +kernel

/-- HALT of a running LAUNCH halts its classrooms; with no LAUNCH it completes (R259). -/
theorem test_halt : nextIs (.halt 5) (launched 3 2 5 (some (theLaunch none))) (fun t => decide (t.getF (Csr.clsStatus_STATE 0) = 3)) &&
    nextIs (.halt 5) (launched 3 0 5 none) (fun t => decide ((t.ctx 5).started = [])) = true := by decide +kernel

/-- RESUME in HALTED, and in RUNNING after the spot quiz halted the classroom (R161, R259). -/
theorem test_resume : nextIs (.resume 5) (launched 4 4 6 (some (theLaunch none))) (fun t => decide (t.getF (Csr.clsStatus_STATE 0) = 2 ∧ t.ctxSt 5 = 3)) &&
    nextIs (.resume 5) ((launched 3 4 6 (some (theLaunch none))).setRoom 0 { Classroom.idle with quizHalt := true }) (fun t =>
      decide (t.getF (Csr.clsStatus_STATE 0) = 2)) = true := by decide +kernel

/-- DRAIN of a running, a halted, a faulted and an idle context (R260). -/
theorem test_drain : nextIs (.drain 5) ((launched 3 2 7 (some (theLaunch none))).setCtx 5 { (launched 3 2 7 (some (theLaunch none))).ctx 5 with
      started := [(theLaunch none).cmd, { ctxCmd 7 3 [] with sqIdx := 1 }] }) (fun t => decide (t.ctxSt 5 = 5)) &&
    nextIs (.drain 5) (launched 4 4 7 (some (theLaunch none))) (fun t => decide ((t.ctx 5).launch = none ∧ t.getF (Csr.clsStatus_STATE 0) = 0)) = true := by
  decide +kernel
theorem test_drain_rest : nextIs (.drain 5) (launched 6 6 7 none) (fun t => decide (t.ctxSt 5 = 1 ∧ t.getF (Csr.clsStatus_STATE 0) = 0)) &&
    nextIs (.drain 5) (launched 1 0 7 none) (fun t => decide (t.ctxSt 5 = 1 ∧ (t.ctx 5).started = [])) = true := by decide +kernel

/-- Context 5's doorbell from the management port: an entry more, and one too many for a ring of 2^4 (R247). -/
theorem test_sq_tail : (let s := (lab.setF (Csr.ctxSqBase_LOG2 5) 4)
    s.portUp 0 && decide (s.access 0 (Csr.ctxSqTail 5) = .full) && s.mayRing 0 5 &&
    nextIs (.sqTailWrite 0 5 .full 16) s (fun t => decide (t.getF (Csr.ctxSqTail_TAIL 5) = 16 ∧ (t.ctx 5).rings = [(0, 16, 0)])) &&
    nextIs (.sqTailWrite 0 5 .full 17) s (fun t => decide (t.getF (Csr.ctxSqTail_TAIL 5) = 0 ∧ t.getF (Csr.ctxSqHead_Q_ERR 5) = 1))) = true := by
  decide +kernel
theorem test_mig_tail : (let s := lab.setF (Csr.migPartQBase_LOG2 0) 4
    nextIs (.migQTailWrite 1 0 .full 16) s (fun t => decide (t.getF (Csr.migPartQTail_TAIL 0) = 16)) &&
    nextIs (.migQTailWrite 1 0 .full 17) s (fun t => decide (t.getF (Csr.migPartQHead_Q_ERR 0) = 1))) = true := by decide +kernel
theorem test_pft_tail : (let s := lab.setF (Csr.pftPartQBase_LOG2 0) 4
    nextIs (.pftQTailWrite 1 0 .full 16) s (fun t => decide (t.getF (Csr.pftPartQTail_TAIL 0) = 16)) &&
    nextIs (.pftQTailWrite 1 0 .full 17) s (fun t => decide (t.getF (Csr.pftPartQHead_Q_ERR 0) = 1))) = true := by decide +kernel

/-- A base is stored while the ring is empty, else Q_ERR is set (R215, R339). -/
theorem test_ring_base : nextIs (.ringBaseWrite 0 0 false false .full 0x20000) lab (fun t => decide (t.getF (Csr.migPartQBase_DVA 0) = 0x20000)) &&
    nextIs (.ringBaseWrite 0 0 true true .full 0x20000) (lab.setF (Csr.pftPartQTail_TAIL 0) 1) (fun t =>
      decide (t.getF (Csr.pftPartCqBase_DVA 0) = 0 ∧ t.getF (Csr.pftPartQHead_Q_ERR 0) = 1)) = true := by decide +kernel
theorem test_ring_base_rest : nextIs (.ringBaseWrite 0 0 true false .full 0x20000) lab (fun t => decide (t.getF (Csr.pftPartQBase_DVA 0) = 0x20000)) &&
    nextIs (.ringBaseWrite 0 0 false true .full 0x20000) (lab.setF (Csr.migPartQTail_TAIL 0) 1) (fun t =>
      decide (t.getF (Csr.migPartQHead_Q_ERR 0) = 1)) = true := by decide +kernel

/-- Context 5 in state `st` with one command of code `op` in its ring at DVA 0x10000. -/
def submitted (st op : Nat) : State :=
  ((withObject lab).setFs [(Csr.ctxState_STATE 5, st), (Csr.prcCoreStatus_STATE 0, 1), (Csr.ctxSqBase_DVA 5, 0x10000), (Csr.ctxSqBase_LOG2 5, 4),
    (Csr.ctxSqTail_TAIL 5, 1)]).pokeN (slowAddr 0 8 0) [BitVec.ofNat 8 op, 0, 0, 0, 0x77]

/-- COMMAND_READ: CTX_CLOSE in OPEN starts; CTX_OPEN there is refused with STATE_REFUSED; an unknown OP is BAD_DESC (R249 to R251). -/
theorem test_command_read : nextIs (.commandRead 5) (submitted 1 8) (fun t => decide ((t.ctx 5).started.length = 1 ∧ t.getF (Csr.ctxSqHead_HEAD 5) = 1 ∧
      t.getF (Csr.ctxState_OUTSTANDING 5) = 1)) &&
    nextIs (.commandRead 5) (submitted 1 1) (fun t => decide ((t.ctx 5).started = [] ∧ t.getF (Csr.ctxState_REFUSED 5) = 1)) = true := by decide +kernel
theorem test_command_bad : (let s := (submitted 1 0x7F).setF (Csr.ctxCqBase_DVA 5) 0x20000
    nextIs (.commandRead 5) s (fun t => decide ((t.ctx 5).started = [] ∧ t.getF (Csr.ctxState_REFUSED 5) = 0 ∧ t.peek (slowAddr 0 9 4) = 0x0E ∧
      t.peek (slowAddr 0 9 0) = 0x77))) = true := by decide +kernel

/-- A context is adopted while its owner port is not UP (R246). -/
theorem test_adopt : nextIs (.contextAdopt 1 5 .full (BitVec.ofNat 64 (2 ^ (Csr.ctxState_PORT 5).lo))) (lab.setF (Csr.ctxState_PORT 5) 2) (fun t =>
      decide (t.getF (Csr.ctxState_PORT 5) = 1)) &&
    nextIs (.contextAdopt 1 5 .full (BitVec.ofNat 64 (2 ^ (Csr.ctxState_PORT 5).lo))) lab (fun t => decide (t.getF (Csr.ctxState_PORT 5) = 0)) = true := by
  decide +kernel

/-- The completion timer announces with CQ_TAIL (R265). -/
theorem test_cq_event : (let s := ((lab.setFs [(Csr.ctxEvt_EN 5, 1), (Csr.ctxEvt_TIMER 5, 1), (Csr.ctxCqTail_TAIL 5, 3)]).setCtx 5
      { Ctx.closed with evtCount := 1, evtFirst := some 0x0E })
    nextIs (.cqEventTimer 5) s (fun t => decide (t.events = [⟨0, 1, 0, 5, 3, 0x0E⟩] ∧ (t.ctx 5).evtFirst = none))) = true := by decide +kernel

/-! ## Host links and host accesses -/

/-- Port 2 in state `n` of R238. -/
def zhl (n : Nat) : State := lab.setF (Csr.hlStatus_STATE 2) n

/-- The ZHL states of R238. -/
theorem test_zhl_up : nextIs (.zhlSignalDetect 2 0x0F) (zhl 1) (fun t => decide (t.hlState 2 = 2)) &&
    nextIs (.zhlTrained 2 0xFF) (zhl 2) (fun t => decide (t.hlState 2 = 3 ∧ t.getF (Csr.hlStatus_WIDTH 2) = 8)) &&
    nextIs (.zhlTrained 2 0xFF) ((zhl 2).setLinkT (zhlSource 2) ⟨true, false⟩) (fun t => decide (t.linkT (zhlSource 2) = ⟨true, true⟩ ∧ t.events = [])) &&
    nextIs (.zhlTrained 2 0xF0) ((zhl 2).setF (Csr.hlCtrl_X4_ALLOW 2) 1) (fun t => decide (t.hlState 2 = 3 ∧ t.getF (Csr.hlStatus_WIDTH 2) = 4)) = true := by
  decide +kernel
theorem test_zhl_down : nextIs (.zhlTrainingTimeout 2) (zhl 2) (fun t => decide (t.hlState 2 = 1)) &&
    nextIs (.zhlLinkLoss 2 0 5 16) (zhl 3) (fun t => decide (t.hlState 2 = 2 ∧ t.getF (Csr.hlErr_FEC_CE 2) = 5 ∧ t.getF (Csr.hlErr_DOWN_COUNT 2) = 1 ∧
      t.getF (Csr.hlErr_RETRY 2) = 16 ∧ t.getF Csr.errDevWr_WR = 1)) = true := by decide +kernel
theorem test_zhl_enable : nextIs (.zhlEnable 0 2 .full 1) (zhl 0) (fun t => decide (t.hlState 2 = 1)) &&
    nextIs (.zhlEnable 0 2 .full 1) (zhl 3) (fun t => decide (t.hlState 2 = 3)) &&
    nextIs (.zhlEnable 0 2 .full 0) (zhl 3) (fun t => decide (t.hlState 2 = 0 ∧ t.getF (Csr.hlErr_DOWN_COUNT 2) = 1)) &&
    nextIs (.zhlEnable 0 2 .full 0) (zhl 1) (fun t => decide (t.hlState 2 = 0 ∧ t.getF (Csr.hlErr_DOWN_COUNT 2) = 0)) = true := by decide +kernel

/-- LINK_EVENT_TIMER sends the withheld change of port 2, state 3, or ends the limit (R266). -/
theorem test_link_event : nextIs (.linkEventTimer 34) ((zhl 3).setLinkT 66 ⟨true, true⟩) (fun t => decide (t.events.map (fun e => (e.type, e.source, e.status)) =
      [(5, 66, 3)])) &&
    nextIs (.linkEventTimer 34) ((zhl 3).setLinkT 66 ⟨true, false⟩) (fun t => decide (t.events = [] ∧ t.linkT 66 = RingTimer.quiet)) = true := by decide +kernel

/-- MEM_WR and MEM_RD of an object's bytes at the end of a 256-byte block; the OB window is refused (R236, R237). -/
theorem test_mem_wr : nextIs (.memWr 1 0 0x100FE [0x12, 0x34]) (withObject lab) (fun t => decide (t.peekN (slowAddr 0 8 0xFE) 2 = [0x12, 0x34]) &&
    nextIs (.memRd 1 0 0x100FE 2) t (fun u => decide (u.replies = [⟨1, .ok, []⟩, ⟨1, .ok, [0x12, 0x34]⟩]))) = true := by decide +kernel
theorem test_mem_rd_refused : nextIs (.memRd 1 0 0xFFFFF8000000 1) lab (fun t => decide (t.replies.map (fun r => r.status) = [.error])) = true := by decide +kernel

/-- A transfer across a 256-byte boundary, or of nothing, is no transaction (R236). -/
theorem test_mem_size : (match exec (.memRd 1 0 0x100FF 2) (withObject lab) with
    | .fault f => decide (f = .noSuchTransaction)
    | _ => false) = true ∧ noSuchSize (.memWr 1 0 0 []) = true := by decide +kernel

/-- Where bytes lead: an OB byte, a tile's byte, a ZERO tile's, and nowhere (R192, R193, R199). -/
theorem test_places : lab.place 0 (obWindow + 5) = .ob 0 5 ∧ (withObject lab).place 0 0x1FFFF = .tile 0 0xFFFF false ∧
    (withObject lab).place 0 0x30000 = .nowhere ∧ ((withObject lab).writeByte 0 0x10001 7).peek (slowAddr 0 8 1) = 7 := by decide +kernel
theorem test_zero_tile : (let s := ((withObject lab).setTile 0 { (withObject lab).tile 0 with zero := true }).poke (slowAddr 0 8 2) 9
    okIs (s.readByte 0 0x10002) (fun b => decide (b = 0)) && decide ((s.writeByte 0 0x10001 7).peek (slowAddr 0 8 2) = 0)) = true := by decide +kernel

/-- Before READY: SYS.ID is served, SYS.PART is not; the flash registers are served in RECOVERY alone (R450). -/
theorem test_before_ready : (let s := lab.setF Csr.sysBoot_STATE 2
    (s.access 1 Csr.sysId).read && !(s.access 0 (Csr.sysPartCfg 0)).read && !(s.access 0 Csr.secFlashCmd).read && (s.access 0 (Csr.secStatus)).read &&
      !(s.access 1 (Csr.secStatus)).read && ((lab.setF Csr.sysBoot_STATE 5).access 0 Csr.secFlashCmd).write && decide (s.booted = false)) = true := by decide +kernel
theorem test_before_ready_memory : nextIs (.memRd 1 0 0x10000 1) ((withObject lab).setF Csr.sysBoot_STATE 2) (fun t =>
    decide (t.replies.map (fun r => r.status) = [.error])) = true := by decide +kernel

/-- CFG_WR of SYS.PART[0].CFG by port 1, which serves the partition but is not the management owner's, counts as denied; from a
port that is not UP it does nothing (R239, R242). -/
theorem test_cfg_denied : nextIs (.cfgWr 1 ⟨Csr.sysPartCfg 0 / 8, by decide⟩ .full 0) lab (fun t => decide (t.getF (Csr.hlAccDeny_COUNT 1) = 1 ∧
      t.getF (Csr.hlAccDeny_LAST 1) = Csr.sysPartCfg 0 ∧ t.partOn 0 = true)) &&
    nextIs (.cfgWr 3 ⟨Csr.sysPartCfg 0 / 8, by decide⟩ .full 0) lab (fun t => decide (t = lab)) = true := by decide +kernel

/-- CFG_WR and RC_READ of registers with no behaviour of their own (R8): CLS.CTRL is stored; a read of PRC.CORE[0].ECC clears it. -/
theorem test_cfg_wr : nextIs (.cfgWr 0 ⟨Csr.clsCtrl 0 / 8, by decide⟩ .full 1) lab (fun t => decide (t.rd (Csr.clsCtrl 0) = 1)) = true := by decide +kernel
theorem test_rc_read : nextIs (.rcRead 0 ⟨Csr.prcCoreEcc 0 / 8, by decide⟩ .full) (lab.setF (Csr.prcCoreEcc_UE 0) 3) (fun t =>
    decide (t.replies = [⟨0, .ok, leBytes 8 (3 * 2 ^ 32)⟩] ∧ t.getF (Csr.prcCoreEcc_UE 0) = 0)) = true := by decide +kernel

/-- The field types of R8 on one bit pattern: old 5, written 3. -/
theorem test_field_types : (let f (ty : FType) : FieldSpec := { lo := 0, len := 4, ty := ty, reset := 0, div := 0, vmin := 0, vmax := 15, zlow := 0 }
    decide ((f .rw).written 5 3 15 = 3 ∧ (f .ro).written 5 3 15 = 5 ∧ (f .rc).written 5 3 15 = 5 ∧ (f .w1c).written 5 3 15 = 4 ∧
      (f .w1s).written 5 3 15 = 7 ∧ ({ f .rw with vmax := 2 } : FieldSpec).written 5 3 15 = 5)) = true := by decide +kernel

/-! ## Partitions and performance counters -/

/-- A write of SYS.PART[1].CFG: HOSTMASK 1, EVT_PORT 0 and EN = 1 enable it; with no host it is refused (R241). -/
theorem test_part_enable : (let v (h : Nat) : Word := BitVec.ofNat 64 (h * 2 ^ (Csr.sysPartCfg_HOSTMASK 1).lo + 2 ^ (Csr.sysPartCfg_EN 1).lo)
    let s := lab.setF Csr.sysPartCap_MAX 8
    nextIs (.partitionEnable 0 1 .full (v 1)) s (fun t => t.partOn 1 && decide (t.getF (Csr.hlParts_MASK 0) = 3)) &&
    nextIs (.partitionEnable 0 1 .full (v 0)) s (fun t => !t.partOn 1 && t.flag (Csr.sysPartCfg_EN_ERR 1))) = true := by decide +kernel
theorem test_part_disable : nextIs (.partitionEnable 0 0 .full 0) lab (fun t => !t.partOn 0) &&
    nextIs (.partitionEnable 0 0 .full 0) (withObject lab) (fun t => t.partOn 0 && t.flag (Csr.sysPartCfg_EN_ERR 0)) = true := by decide +kernel

/-- MIG.PART.CFG.MODE is taken while the partition has no object (R209). -/
theorem test_mig_mode : (let v : Word := BitVec.ofNat 64 (2 ^ (Csr.migPartCfg_MODE 0).lo)
    nextIs (.migModeWrite 0 0 .full v) lab (fun t => decide (t.getF (Csr.migPartCfg_MODE 0) = 1)) &&
    nextIs (.migModeWrite 0 0 .full v) (withObject lab) (fun t => decide (t.getF (Csr.migPartCfg_MODE 0) = 0) && t.flag (Csr.migPartCfg_MODE_IGN 0))) =
    true := by decide +kernel
theorem test_ctr_write : nextIs (.triggerCounterWrite 0 9 .full 77) lab (fun t => decide (t.getF (Csr.pftCtr_VALUE 9) = 77)) = true := by decide +kernel

/-- A counter wraps at 2^48 with OVF in NORMAL mode and stops at its top in TEST (R404, R405). -/
theorem test_counter_wrap : (let s := lab.setF (ctrValue 0 0 3) (2 ^ 48 - 1)
    decide ((s.countPlain 0 0 3 2).getF (ctrValue 0 0 3) = 1 ∧ (s.countPlain 0 0 3 2).getF (ctrOvf 0 0) = 8 ∧
      ((s.setF Csr.pmuStatus_MODE 1).countPlain 0 0 3 2).getF (ctrValue 0 0 3) = 2 ^ 48 - 1 ∧ s.normalMode = true)) = true := by decide +kernel

/-- PMC_CYCLE and AGGREGATE_UPDATE count an enabled counter's event; FREEZE stops them (R402, R406, R411). -/
theorem test_pmc_cycle : (let s := (lab.setF (ctrEn 0 0 3) 1).setF (ctrEvent 0 0 3) 0x20
    nextIs (.pmcCycle 0 0 0 0 [(0x20, 0, 6)]) s (fun t => decide (t.getF (ctrValue 0 0 3) = 6)) &&
    nextIs (.pmcCycle 0 0 0 0 [(0x20, 0, 6)]) (s.setF Csr.pmuCtrl_FREEZE 1) (fun t => decide (t.getF (ctrValue 0 0 3) = 0))) = true := by decide +kernel
theorem test_aggregate : (let s := (lab.setF (ctrEn 3 0 3) 1).setF (ctrEvent 3 0 3) 0x20
    nextIs (.aggregateUpdate 0 false [(5, 0x20, 0, 4)]) s (fun t => decide (t.getF (ctrValue 3 0 3) = 4))) = true := by decide +kernel

/-- SAMPLE_WRITE puts the sample's 32 bytes into the ring (R413). -/
theorem test_sample_write : (let x : Sample := ⟨0, 3, List.replicate 32 0x5A⟩
    let s : State := { (withObject lab).setFs [(Csr.pmuPartSbufBase_DVA 0, 0x10000), (Csr.pmuPartSbufBase_LOG2 0, 4)] with samples := [x] }
    nextIs (.sampleWrite 0) s (fun t => decide (t.peek (slowAddr 0 8 31) = 0x5A ∧ t.getF (Csr.pmuPartSbufWr_INDEX 0) = 1 ∧ t.samples = []))) = true := by
  decide +kernel

/-- Counter reads and writes; a chained pair is read through its latch (R403). -/
theorem test_counter_write : nextIs (.counterWrite 0 0 0 3 .full 99) lab (fun t => decide (t.getF (ctrValue 0 0 3) = 99)) = true := by decide +kernel
theorem test_chained : (let s := (lab.setFs [(ctrValue 0 0 2, 7), (ctrValue 0 0 3, 8)]).setF (ctrChain 0 0 2) 1
    nextIs (.chainedCounterRead 0 0 0 2 .full) s (fun t => decide (t.replies = [⟨0, .ok, leBytes 8 7⟩]) &&
      nextIs (.chainedCounterRead 0 0 0 3 .full) (t.setF (ctrValue 0 0 3) 50) (fun u => decide (u.replies = [⟨0, .ok, leBytes 8 7⟩, ⟨0, .ok, leBytes 8 8⟩]))) &&
    nextIs (.chainedCounterRead 0 0 0 4 .full) s (fun t => decide (t.replies = [⟨0, .ok, leBytes 8 0⟩]))) = true := by decide +kernel

/-- PMU.CTRL: FREEZE is stored; CLR_ALL clears the counters (R406). -/
theorem test_pmu_ctrl : nextIs (.pmuFreeze 0 .full (BitVec.ofNat 64 (2 ^ Csr.pmuCtrl_FREEZE.lo))) lab (fun t => t.flag Csr.pmuCtrl_FREEZE) &&
    nextIs (.clrAll 0 .full (BitVec.ofNat 64 (2 ^ Csr.pmuCtrl_CLR_ALL.lo))) (lab.setF (ctrValue 1 2 3) 5) (fun t =>
      decide (t.getF (ctrValue 1 2 3) = 0)) = true := by decide +kernel

/-! ## Reset, boot, faults, security -/

/-- PORn and the loss of VAUX (R437, R441); WRSTn names its cause (R443). -/
theorem test_porn : nextIs .porn ((withObject lab).setF Csr.errFatal_VALID 1) (fun t => decide (t.objs = [] ∧ t.booted = false) && t.flag Csr.errFatal_VALID) &&
    nextIs .vauxLoss ((withObject lab).setF Csr.errFatal_VALID 1) (fun t => t.noVaux && !t.flag Csr.errFatal_VALID) = true := by decide +kernel
theorem test_wrstn : nextIs .wrstn (opened 2 (ctxCmd 8 2 []) Ctx.closed) (fun t => decide (t.ctxs = [] ∧ t.getF Csr.sysBoot_CAUSE = 1 ∧ t.ctxSt 5 = 0)) = true := by
  decide +kernel

/-- SYS.PRST and SYS.CRST (R444, R445). -/
theorem test_partition_reset : wroteF 1 allBits Csr.sysPrst_REQ = some (2 ^ 0) ∧ (lab.storeBut Csr.sysPrst 1 allBits [Csr.sysPrst_REQ]).partOn 0 = true := by
  decide +kernel
theorem test_context_reset : nextIs (.contextReset 0 .full (BitVec.ofNat 64 (2 ^ Csr.sysCrst_GO.lo + 5 * 2 ^ Csr.sysCrst_CTX.lo))) (opened 2 (ctxCmd 8 2 []) Ctx.closed)
    (fun t => decide (t.ctxSt 5 = 0 ∧ (t.ctx 5).started = [])) = true := by decide +kernel

/-- A boot that has reached its slots. -/
def booting : State := lab.setF Csr.sysBoot_STATE 2

/-- A blank slot A has no valid header, code 2; when B cannot be read either, code 9, the device is in RECOVERY (R449, R451). -/
theorem test_boot_attempt : nextIs (.bootSlotAttempt false) booting (fun t => decide (t.getF Csr.sysBoot_A_ERR = 2 ∧ t.security.first = some 0 ∧
      t.getF Csr.sysBoot_STATE = 2)) &&
    nextIs (.bootSlotAttempt true) { booting with security := { Security.shipped with first := some 0 } } (fun t =>
      decide (t.getF Csr.sysBoot_B_ERR = 9 ∧ t.getF Csr.sysBoot_STATE = 5)) = true := by decide +kernel
theorem test_boot_ready : nextIs (.bootReady 500 3) (lab.setF Csr.sysBoot_STATE 3) (fun t => decide (t.getF Csr.sysBoot_STATE = 4 ∧
    t.getF Csr.sysBoot_BOOT_MS = 500 ∧ t.getF (Csr.prcCoreStatus_STATE 15) = 1)) = true := by decide +kernel

/-- Fatal faults (R245, R383, R391, R491). -/
theorem test_reserved_ue : nextIs (.reservedUe 3 261120 (some 0)) lab (fun t => decide (t.partFatal = [0]) && !t.fatal) &&
    nextIs (.reservedUe 3 261120 none) lab (fun t => t.fatal) = true := by decide +kernel
theorem test_proctor : (let s := lab.setF (Csr.prcCoreStatus_STATE 4) 1
    nextIs (.proctorFailed 4) s (fun t => decide (t.getF (Csr.prcCoreStatus_STATE 4) = 2 ∧ t.getF (Csr.prcCoreEcc_UE 4) = 1)) &&
    nextIs (.proctorWatchdog 4) s (fun t => decide (t.getF (Csr.prcCoreStatus_STATE 4) = 2) && t.flag (Csr.prcCoreStatus_WDOG 4))) = true := by decide +kernel

/-- CONFIRM, RAISE accepted and refused, and the end of the blow (R379, R380). -/
theorem test_confirm : nextIs (.confirm 0 .full (BitVec.ofNat 64 (2 ^ Csr.rgsFw_CONFIRM.lo))) (lab.setF Csr.rgsFw_BOOTED 1) (fun t =>
    decide (t.getF Csr.rgsFw_ACTIVE = 1 ∧ t.security.slots.active = 1)) = true := by decide +kernel
theorem test_arb_raise : (let v : Word := BitVec.ofNat 64 (5 * 2 ^ Csr.rgsArb_RAISE.lo)
    nextIs (.arbRaise 0 .full v) (lab.setF (slotSvn 0) 5) (fun t => decide (t.getF Csr.rgsArb_RAISE = 5) && t.flag Csr.rgsArb_BUSY) &&
    nextIs (.arbRaise 0 .full v) (lab.setF (slotSvn 0) 4) (fun t => t.flag Csr.rgsArb_ARB_IGN && !t.flag Csr.rgsArb_BUSY)) = true := by decide +kernel
theorem test_arb_blow : nextIs .arbBlowDone (lab.setFs [(Csr.rgsArb_BUSY, 1), (Csr.rgsArb_RAISE, 5)]) (fun t =>
    decide (t.getF Csr.rgsArb_VALUE = 5 ∧ t.security.arb = 5) && !t.flag Csr.rgsArb_BUSY) = true := by decide +kernel

/-- FUSE_PROG of DBG_OFF by one staged bit; with VLOCK = 0 it is ignored; at its end the fuse is blown (R456, R457). -/
theorem test_fuse_prog : (let v : Word := BitVec.ofNat 64 (2 ^ Csr.secFuseProg_GO.lo + 4 * 2 ^ Csr.secFuseProg_FIELD.lo)
    let s := (lab.setF Csr.secStatus_VLOCK 1).wr (Csr.secFuseStage 0) 1
    nextIs (.fuseProg 0 .full v) s (fun t => decide (t.security.prog = some (4, 1)) && t.flag Csr.secFuseProg_GO) &&
    nextIs (.fuseProg 0 .full v) (s.setF Csr.secStatus_VLOCK 0) (fun t => decide (t.security.prog = none) && t.flag Csr.secFuseProg_PROG_IGN)) = true := by
  decide +kernel
theorem test_fuse_done : nextIs .fuseProgrammingDone { lab with security := { Security.shipped with prog := some (4, 1) } } (fun t =>
    decide (t.security.owner.dbgOff = 1 ∧ t.security.prog = none)) = true := by decide +kernel

/-- A FLASH_CMD with GO. -/
def flashCmd (op addr : Nat) : Word := BitVec.ofNat 64 (2 ^ Csr.secFlashCmd_GO.lo + op * 2 ^ Csr.secFlashCmd_OP.lo + addr * 2 ^ Csr.secFlashCmd_ADDR.lo)

/-- Flash operations start in the other slot, are ignored in the booted one, and end (R454). -/
theorem test_erase : nextIs (.erase64k 0 .full (flashCmd 1 0x1400000)) lab (fun t => decide (t.security.flash = some (1, 0x1400000))) &&
    nextIs (.erase64k 0 .full (flashCmd 1 0x400000)) lab (fun t => decide (t.security.flash = none) && t.flag Csr.secFlashCmd_FLASH_IGN) = true := by decide +kernel
theorem test_program_read : nextIs (.program4k 0 .full (flashCmd 2 0x1401000)) lab (fun t => decide (t.security.flash = some (2, 0x1401000))) &&
    nextIs (.read4k 0 .full (flashCmd 3 0x400000)) lab (fun t => decide (t.security.flash = some (3, 0x400000))) = true := by decide +kernel
theorem test_flash_erased : nextIs (.flashOperationDone false)
    { (lab.poke (flashBase + 0x1400001) 3) with security := { Security.shipped with flash := some (1, 0x1400000) } }
    (fun t => decide (t.peek (flashBase + 0x1400001) = 0xFF ∧ t.security.flash = none)) = true := by decide +kernel

/-- ATT: with a key a report starts, without one NOKEY, while one runs ATT_IGN (R462). -/
theorem test_att_go : (let v : Word := BitVec.ofNat 64 (2 ^ Csr.secAttCtrl_GO.lo)
    nextIs (.attGo 0 .full v) (lab.setF Csr.secStatus_AK_VALID 1) (fun t => t.flag Csr.secAttCtrl_GO) &&
    nextIs (.attGo 0 .full v) lab (fun t => t.flag Csr.secAttCtrl_NOKEY && !t.flag Csr.secAttCtrl_GO) &&
    nextIs (.attGo 0 .full v) (lab.setF Csr.secAttCtrl_GO 1) (fun t => t.flag Csr.secAttCtrl_ATT_IGN)) = true := by decide +kernel
/-- DBG_CHAL: 40 bytes, the last 8 the serial number; a response to no challenge changes nothing (R466). -/
theorem test_dbg_chal : nextIs .dbgChal (lab.setF Csr.sysSerial_SERIAL 0x1234) (fun t => decide (t.jtag.out.length = 40 ∧
    t.jtag.out.drop 32 = [0x34, 0x12, 0, 0, 0, 0, 0, 0])) = true := by decide +kernel
theorem test_dbg_resp : nextIs (.dbgResp (List.replicate 129 0)) lab (fun t => !t.flag Csr.secStatus_DEBUG && decide (t.security.challenge = none)) = true := by
  decide +kernel

/-- The private key of the tests is the published example's (P-256 with SHA-256): its public key, and a signature with the nonce of that
example. -/
def testKey : List Byte :=
  leBytes 32 0x60FED4BA255A9D31C961EB74C6356D68C049B8923B61FA6CE669622E60F29FB6 ++
    leBytes 32 0x7903FE1008B8BC99A41AE9E95628BC64F2F1B20C2D7E9F5177A3C294D4462299
def testSig (half : Nat) : List Byte := leBytes 32 0xEFD48B2AACB6A8FD1140DD9CD45E81D69D2C877B56AAF991C34D0EA84EAF3716 ++ leBytes 32 half
def testKeyHash : List Byte := leBytes 32 0x077DDFFC01E4DA5FD638C011F89A0E487556E89ED02C5F0EB51AEE150D383D0E

/-- The published example, and the same signature over another message (R458). -/
theorem test_ecdsa : ecdsaVerify (sha256 [0x73, 0x61, 0x6D, 0x70, 0x6C, 0x65]) testKey
    (testSig 0xF7CB1C942D657C41D436C7A1B6E29F65F3E900DBB9AFF4064DC4AB2F843ACDA8) = true := by decide +kernel
theorem test_ecdsa_refuses : ecdsaVerify (sha256 [0x73, 0x61, 0x6D, 0x70, 0x6C]) testKey
    (testSig 0xF7CB1C942D657C41D436C7A1B6E29F65F3E900DBB9AFF4064DC4AB2F843ACDA8) = false := by decide +kernel

/-- A response meets R466 when its key is the owner's and the signature of the challenge verifies. -/
theorem test_dbg_unlocks :
    ({ lab with security := { Security.shipped with challenge := some [7], live := { Security.shipped.live with okeyHash := leNat testKeyHash } } } : State).unlocks
      0 testKey (testSig 0x86177224E61D859D7F0287F41FA382539782B7B272561E930A12AA1F2390B50D) = true := by decide +kernel

/-- SHA-256 of abc (R458). -/
theorem test_sha256 : (sha256 [0x61, 0x62, 0x63]).take 4 = [0xBA, 0x78, 0x16, 0xBF] := by decide +kernel

/-- IDCODE, SAMPLE_PRELOAD and BYPASS (R464). -/
theorem test_idcode : nextIs .idcode lab (fun t => decide (t.jtag.out = [0x4B, 0x01, 0x40, 0x12])) && nextIs .bypass lab (fun t => decide (t.jtag.instr = .bypass)) =
    true := by decide +kernel
theorem test_sample : nextIs (.samplePreload [true, false] [false, true]) lab (fun t => decide (t.jtag.boundary = [false, true] ∧ t.jtag.lands = .function)) = true := by
  decide +kernel

/-- EXTEST, CLAMP and HIGHZ act on the lands only in reset (R465). -/
theorem test_extest : nextIs (.extest true [true] [false]) lab (fun t => decide (t.jtag.lands = .boundary ∧ t.jtag.boundary = [false])) &&
    nextIs (.extest false [true] [false]) lab (fun t => decide (t.jtag.lands = .function)) = true := by decide +kernel
theorem test_clamp_highz : nextIs (.clamp true) lab (fun t => decide (t.jtag.lands = .boundary)) && nextIs (.highz true) lab (fun t => decide (t.jtag.lands = .released)) &&
    nextIs (.clamp false) lab (fun t => decide (t.jtag.lands = .function)) && nextIs (.highz false) lab (fun t => decide (t.jtag.lands = .function)) = true := by
  decide +kernel

/-- 64 bytes of 0xFF, and their SHA-256. -/
def allOnes : List Byte := List.replicate 64 0xFF
def allOnesHash : List Byte :=
  [0x86, 0x67, 0xE7, 0x18, 0x29, 0x4E, 0x9E, 0x0D, 0xF1, 0xD3, 0x06, 0x00, 0xBA, 0x3E, 0xEB, 0x20, 0x1F,
    0x76, 0x4A, 0xAD, 0x2D, 0xAD, 0x72, 0x74, 0x86, 0x43, 0xE4, 0xA2, 0x85, 0xE1, 0xD1, 0xF7]
theorem test_sha256_ones : sha256 allOnes = allOnesHash := by decide +kernel

/-- A header of an image of 64 bytes, the image's digest in its place, the vendor key and its signature, no owner's. -/
def slotHead : List Byte :=
  [0x4D, 0x5A, 0x57, 0x46, 1, 0, 0, 0, 9, 0, 0, 0, 64, 0, 0, 0] ++ List.replicate 16 0 ++ allOnesHash ++ testKey ++
    testSig 0xE4B427C6CF2FEF44AA2A016636F566FCCD625BFCA90B97E9E0B18A2FE5A6ACF1 ++ List.replicate 128 0 ++ List.replicate 192 0

/-- Slot A with that header, and vendor fuses with the digest of its key. -/
def signedSlot : State :=
  { booting with security := { Security.shipped with vendor := { Security.shipped.vendor with vkeyHash := testKeyHash } } }.pokeN
    (flashBase + slotOffset 0) slotHead

theorem slotHead_length : slotHead.length = 512 := by decide +kernel
theorem signedSlot_header : signedSlot.slotHeader 0 = slotHead := by
  apply List.ext_getElem
  · rw [State.slotHeader, State.peekN, List.length_map, List.length_range]
    exact slotHead_length.symm
  · intro i h1 h2
    simp only [State.slotHeader, State.peekN, List.getElem_map, List.getElem_range, signedSlot, State.peek_pokeN]
    rw [if_pos (Nat.le_add_right _ _), Nat.add_sub_cancel_left, List.getD_eq_getElem?_getD, List.getElem?_eq_getElem h2, Option.getD_some]

theorem signedSlot_body : signedSlot.peekN (flashBase + slotOffset 0 + 512) 64 = allOnes := by
  apply List.ext_getElem
  · simp [State.peekN, allOnes]
  · intro i h1 h2
    have hl := slotHead_length
    have hi : i < 64 := by simpa [State.peekN] using h1
    simp only [State.peekN, List.getElem_map, List.getElem_range, signedSlot, State.peek_pokeN]
    rw [if_pos (by omega), show flashBase + slotOffset 0 + 512 + i - (flashBase + slotOffset 0) = 512 + i by omega,
      List.getD_eq_getElem?_getD, List.getElem?_eq_none (by omega), Option.getD_none]
    simp only [allOnes, List.getElem_replicate]
    show memDefault _ = _
    unfold memDefault
    exact if_pos (by omega)

/-- The header is valid and names the vendor key. -/
theorem test_signed_slot : headerValid slotHead = true ∧ sha256 (part slotHead 0x40 64) = testKeyHash ∧ fieldAt slotHead 0x0C 4 = 64 ∧
    part slotHead 0x20 32 = allOnesHash ∧ fieldAt slotHead 0x10 8 = 0 ∧ booting.ownerSigOk slotHead = true := by decide +kernel
theorem test_slot_signature :
    ecdsaVerify (sha256 (part slotHead 0 0x80)) (part slotHead 0x40 64) (part slotHead 0x80 64) = true := by decide +kernel

/-- The slot verifies (R459). -/
theorem test_signed_slot_verifies : signedSlot.verifySlot 0 = 0 := by
  have a := test_signed_slot
  obtain ⟨m, hm⟩ := State.pokeN_eq
    (s := { booting with security := { Security.shipped with vendor := { Security.shipped.vendor with vkeyHash := testKeyHash } } })
    (flashBase + slotOffset 0) slotHead
  have v : signedSlot.security = { Security.shipped with vendor := { Security.shipped.vendor with vkeyHash := testKeyHash } } := by
    rw [signedSlot, hm]
  unfold State.verifySlot
  rw [signedSlot_header]
  dsimp only
  rw [a.1, a.2.1, v, test_slot_signature, a.2.2.1, signedSlot_body, a.2.2.2.1, a.2.2.2.2.1, test_sha256_ones]
  simp [State.ownerSigOk, v, Security.shipped]

/-! ## Memory tiers and the Registrar -/

/-- A MIG entry of code `op` on tile `first` of object 0, as read. -/
def migEntry (op first : Nat) : MigEntry := ⟨0, op, 0x77, 0, first, 1, 0, 0x20000, 1, 1, true, [], 0, 0, 0, none⟩

/-- Partition 0 with an object, two SRAM frames' quota in slice 0, and `es` started; one entry in the ring. -/
def migState (es : List MigEntry) : State :=
  ((withObject lab).setFs [(Csr.migPartQTail_TAIL 0, 1), (Csr.migPartSlices_MASK 0, 1), (Csr.migPartQuota_LP 0, 8), (Csr.migPartQuota_SRAM 0, 8),
    (Csr.memStatus_STATE 0, 1), (Csr.memStatus_STATE 1, 1)]).setMig 0 { started := es, unannounced := none }

/-- The entry started last has ended with a status. -/
def endsWith (i : Instr) (s : State) (st : Nat) : Bool :=
  nextIs i s (fun t => decide ((t.mig 0).started.map (fun e => e.status) = [some st]))

/-- OBJ_CREATE of an object number in use is BAD_DESC; of object 1 at DVA 0x40000 every check passes (R195, R206). -/
theorem test_obj_create : endsWith (.objCreate 0) (migState [migEntry 1 0]) 0x0E &&
    decide ((migState []).createCheck 0 { migEntry 1 0 with obj := 1, dva := 0x40000 } = none) = true := by decide +kernel

/-- OBJ_DESTROY: DONE with the object gone; with a write-protected tile STATE_REFUSED (R206). -/
theorem test_obj_destroy : nextIs (.objDestroy 0) (migState [migEntry 2 0]) (fun t => decide (t.objs = [] ∧ t.tiles = [])) &&
    endsWith (.objDestroy 0) ((migState [migEntry 2 0]).setTile 1 { (migState []).tile 1 with wp := true }) 0x0C = true := by decide +kernel
theorem test_fence : endsWith (.fence 0) (migState [migEntry 9 0]) 0 = true := by decide +kernel

/-- PIN and UNPIN (R206). -/
theorem test_pin : nextIs (.pin 0) (migState [migEntry 5 1]) (fun t => (t.tile 1).pin && !(t.tile 0).pin) &&
    nextIs (.unpin 0) ((migState [migEntry 6 1]).setTile 1 { (migState []).tile 1 with pin := true }) (fun t => !(t.tile 1).pin) = true := by decide +kernel

/-- QUERY writes 16 bytes for the tile, its entry's first byte VALID among them (R197, R206). -/
theorem test_query : nextIs (.query 0) (migState [migEntry 8 0]) (fun t => decide ((t.mig 0).started.map (fun e => (e.status, e.done)) = [(some 0, 1)] ∧
    bitOf (t.peek (slowAddr 0 9 0)).toNat 0 = true)) = true := by decide +kernel

/-- A RESTORE_TILE of the poisoned tile 0 from tile 1 meets its rule (R212). -/
theorem test_restore_tile : (let e := { migEntry 7 0 with dva := 0x20000 }
    let s := (migState [e]).setTile 0 { (migState []).tile 0 with poison := true, bad := some (slowAddr 0 8 0) }
    (s.freshEntry 0 7).isSome && !s.earlierActs 0 e 0 0 1 && s.inTile 0 0x20000 && (s.tile 0).poison) = true := by decide +kernel

/-- PROMOTE and DEMOTE wait for movers; PROMOTE with no slice is BAD_DESC (R206). -/
theorem test_promote : nextIs (.promote 0) (migState [migEntry 3 1]) (fun t => decide ((t.mig 0).started.map (fun e => e.todo) = [[1]])) &&
    endsWith (.promote 0) (migState [{ migEntry 3 1 with slicemask := 0 }]) 0x0E = true := by decide +kernel
theorem test_demote : nextIs (.demote 0) (migState [migEntry 4 1]) (fun t => decide ((t.mig 0).started.map (fun e => e.todo) = [[1]])) = true := by decide +kernel

/-- TILE_MOVE_START of a demotion of a DIRTY tile moves; its end switches the entry (R207, R208). -/
theorem test_move_start : (let s := ((migState [{ migEntry 4 1 with fresh := false, todo := [1] }]).setTile 1
      { (migState []).tile 1 with sram := true, dirty := true, slice := 0, sframe := 3 })
    nextIs (.tileMoveStart 0 0 1) s (fun t => decide (t.moves.length = 1) && (t.tile 1).moving &&
      nextIs (.tileEntrySwitch 0 0) t (fun u => !(u.tile 1).sram && !(u.tile 1).moving && decide (u.moves = []))))
    = true := by decide +kernel
theorem test_switch_up : nextIs (.tileEntrySwitch 0 0) { migState [] with moves := [⟨1, none, none, true, 0, 3⟩] } (fun t =>
    (t.tile 1).sram && decide ((t.tile 1).sframe = 3)) = true := by decide +kernel

/-- AGING_TICK leaves a partition that is not in POOL mode (R209). -/
theorem test_aging : nextIs .agingTick ((migState []).setF Csr.migCtrl_AGE_TICK 1) (fun t => decide (t.tiles = (migState []).tiles)) = true := by decide +kernel

/-- A queued prefetch of a tile that is in the SRAM tier leaves its queue (R232). -/
theorem test_mpref_promotion : nextIs (.mprefPromotion 0) { (((migState []).setF (Csr.migPartQTail_TAIL 0) 0).setTile 1 { (migState []).tile 1 with sram := true }) with prefq := [⟨0, 1⟩] }
    (fun t => decide (t.prefq = [])) = true := by decide +kernel

/-- MIG_ENTRY_READ: an entry of zeros has no known OP and ends with BAD_DESC (R206). -/
theorem test_mig_read : nextIs (.migEntryRead 0) ((migState []).setF (Csr.migPartQBase_DVA 0) 0x10000) (fun t =>
    decide ((t.mig 0).started.map (fun e => e.status) = [some 0x0E])) = true := by decide +kernel

/-- MIG_COMPLETION writes its record at 16 bytes an entry; the timer announces (R205, R266). -/
theorem test_mig_complete : nextIs (.migCompletion 0) ((migState [{ migEntry 5 0 with fresh := false, status := some 0 }]).setF (Csr.migPartCqBase_DVA 0) 0x10000)
    (fun t => decide (t.peek (slowAddr 0 8 0) = 0x77 ∧ t.getF (Csr.migPartQHead_HEAD 0) = 1 ∧ (t.mig 0).unannounced = some 0)) = true := by decide +kernel
theorem test_mig_event : nextIs (.migCqEventTimer 0) ((migState []).setMig 0 ⟨[], some 0⟩) (fun t => decide (t.events.map (fun e => e.type) = [3])) = true := by
  decide +kernel

/-- An uncorrectable error poisons the tile once; a ZERO tile has no data to lose (R202, R210). -/
theorem test_poison : nextIs (.poisonTile 0 0 1) (migState []) (fun t => (t.tile 1).poison && decide (t.getF Csr.migPoison_TILES = 1) &&
      nextIs (.poisonTile 0 0 1) t (fun u => decide (u.getF Csr.migPoison_TILES = 1))) &&
    nextIs (.poisonTile 0 0 1) ((migState []).setTile 1 { (migState []).tile 1 with zero := true }) (fun t => !(t.tile 1).poison) = true := by decide +kernel

/-- The patrol scrub: a corrected error counts; an uncorrectable one in frame 9 of channel 0 poisons tile 1 (R204). -/
theorem test_scrub : (let s := (migState []).setF (Csr.memScrub_EN 0) 1
    nextIs (.scrubRead 0 5 .corrected) s (fun t => decide (t.getF (Csr.memCe_ONDIE 0) = 1)) &&
    nextIs (.scrubRead 0 9 .uncorrectable) s (fun t => (t.tile 1).poison && !(t.tile 0).poison) &&
    nextIs (.scrubRead 0 5 .uncorrectable) s (fun t => decide (t.tiles = s.tiles))) = true := by decide +kernel

/-- A failed SRAM die poisons its DIRTY tile and stops its classrooms; a failed channel its tiles (R213). -/
theorem test_die_failed : nextIs (.sramDieFailed 0) (((migState []).setTile 1 { (migState []).tile 1 with sram := true, dirty := true, slice := 3 }).setF
      (Csr.clsStatus_STATE 2) 0) (fun t => decide (t.deadDies = [0] ∧ t.getF (Csr.clsStatus_STATE 2) = 7) && (t.tile 1).poison && !(t.tile 0).poison) = true := by
  decide +kernel
theorem test_channel_failed : nextIs (.channelFailed 0) (migState []) (fun t => decide (t.getF (Csr.memStatus_STATE 0) = 2) && (t.tile 0).poison && (t.tile 1).poison) =
    true := by decide +kernel

/-- A sorter with one waiting read of line 0 of frame 1. -/
def oneRead : SortReq := ⟨.ni 0, 0, 1, 0, 0, 64, false, false, []⟩

/-- REQUEST_ADMISSION: admitted, merged, turned away where the channel is not UP (R217, R220, R222). -/
theorem test_admission : nextIs (.requestAdmission (.channel 0) (.ni 0) 0 1 0 0 64 false .clean) (migState []) (fun t => decide ((t.sorter 0).waiting = [oneRead])) &&
    nextIs (.requestAdmission (.channel 0) (.ni 1) 0 1 0 0 64 false .clean) ((migState []).setSorter 0 { Sorter.empty with waiting := [oneRead] } []) (fun t =>
      decide ((t.sorter 0).waiting = [{ oneRead with merged := [.ni 1] }])) &&
    nextIs (.requestAdmission (.channel 2) (.ni 0) 0 1 0 0 64 false .clean) ((migState []).setF (Csr.memStatus_STATE 2) 2) (fun t => decide ((t.sorter 2).waiting = [])) = true := by
  decide +kernel

/-- A parked request is admitted when its bank has room; a bank takes its request, then drains its writes (R223, R225 to R227). -/
theorem test_parked : nextIs (.parkedAdmission 0) ((migState []).setSorter 0 { Sorter.empty with parked := [oneRead] } []) (fun t =>
    decide ((t.sorter 0).parked = [] ∧ (t.sorter 0).waiting = [oneRead])) = true := by decide +kernel
theorem test_bank : nextIs (.bankCommand 0 0 .clean .clean) ((migState []).setSorter 0 { Sorter.empty with waiting := [oneRead], rows := [(0, 32)] } []) (fun t =>
      decide ((t.sorter 0).waiting = [] ∧ t.getF (Csr.memSortCnt_ROW_HITS 0) = 1)) &&
    nextIs (.bankCommand 0 0 .clean .clean) ((migState []).setSorter 0 { Sorter.empty with wbuf := [{ oneRead with write := true }] } []) (fun t =>
      decide ((t.sorter 0).wbuf = [])) = true := by decide +kernel
theorem test_drain_write : nextIs (.writeBufferDrain 0 0 .clean) ((migState []).setSorter 0 { Sorter.empty with wbuf := [{ oneRead with write := true }] } []) (fun t =>
    decide ((t.sorter 0).wbuf = [])) = true := by decide +kernel

/-- REQUEST_URGENT once; BANK_HOTSPOT of a bank at its limit of 1, recorded in both rings and then withheld (R224, R226). -/
theorem test_urgent : nextIs (.requestUrgent 0 0) ((migState []).setSorter 0 { Sorter.empty with waiting := [oneRead] } []) (fun t =>
    decide ((t.sorter 0).waiting = [{ oneRead with urgent := true }] ∧ t.getF (Csr.memSortCnt_AGED 0) = 1)) = true := by decide +kernel
theorem test_hotspot : (let s (hot : Bool) := (((migState []).setFs [(Csr.memSortCtrl_HOT_TMO 0, 1), (Csr.memSortCtrl_BANK_TAGS 0, 1)]).setSorter 0
      { Sorter.empty with waiting := [oneRead], hot := hot } [])
    nextIs (.bankHotspot 0 0 true) (s false) (fun t => decide (t.getF (Csr.memHot_RECORDS 0) = 1) && (t.sorter 0).hot) &&
    nextIs (.bankHotspot 0 0 false) (s true) (fun t => decide (t.getF (Csr.memHot_RECORDS 0) = 0))) = true := by decide +kernel

/-- Bank 0 at its limit of one read tag: a read of another block of it is parked and counted (R222, R225). -/
theorem test_admission_parked : (let s := ((migState []).setF (Csr.memSortCtrl_BANK_TAGS 0) 1).setSorter 0 { Sorter.empty with waiting := [oneRead] } []
    !s.bankRoom 0 { oneRead with block := 1 } && nextIs (.requestAdmission (.channel 0) (.ni 0) 0 1 1 0 64 false .clean) s (fun t =>
      decide ((t.sorter 0).parked.map (fun r => r.block) = [1] ∧ (t.sorter 0).waiting = [oneRead] ∧ t.getF (Csr.memHot_COUNT 0) = 1)))
    = true := by decide +kernel

/-! ## Snapshots, restoring, policies -/

/-- A snapshot list of one LOCAL shard: tile 0 of object 0, its target at tile 1, the list and its table there too; the step record at
0x10000, the data-position record at 0x10080 (R362). -/
def snapList : List Byte :=
  leBytes 2 1 ++ leBytes 2 1 ++ leBytes 4 0 ++ leBytes 8 0x10000 ++ leBytes 8 0x10080 ++ leBytes 8 0x20040 ++ List.replicate 32 0 ++
  leBytes 4 0 ++ leBytes 4 0 ++ leBytes 4 1 ++ leBytes 4 0 ++ leBytes 8 0x20000 ++ leBytes 8 0

/-- Context 5 with a started command of `op` that names DVA 0x20000, in a partition with an object. -/
def snapCmd (op : Nat) (more : List Byte) : State :=
  withObject (opened 1 (ctxCmd op 1 (List.replicate 8 0 ++ leBytes 8 0x20000 ++ more ++ List.replicate (48 - more.length) 0)) Ctx.closed)

/-- SNAP_BEGIN of a good list protects its tile; with a snapshot open it ends with NOT_PERMITTED (R363, R364). -/
theorem test_snap_begin : (let s := (snapCmd 0x18 []).pokeN (slowAddr 0 9 0) snapList
    nextIs (.snapBegin 5) s (fun t => decide (t.snapSt 0 = 1 ∧ t.getF (Csr.rgsPartProgress_TOTAL 0) = 1) && (t.tile 0).wp && !(t.tile 1).wp) &&
    nextIs (.snapBegin 5) (s.setF (Csr.rgsPartState_STATE 0) 2) (fun t => decide ((t.ctx 5).started = []) && !(t.tile 0).wp)) = true := by decide +kernel

/-- The listed tile of that shard at a stage. -/
def snapTile (st : CopyStage) : SnapTile := ⟨0, 0, 0, st, [], [], false, false, false, 0⟩

/-- That snapshot in state `n` with its tile at a stage, write-protected or not. -/
def snapping (n : Nat) (t : SnapTile) (wp : Bool) : State :=
  let s := snapCmd 0x19 (leBytes 4 4096)
  ((s.setTile 0 { s.tile 0 with wp := wp }).setF (Csr.rgsPartState_STATE 0) n).setSnap 0
    { Snap.none with ctx := 5, shards := [parseShard (snapList.drop 64)], tiles := [t], sections := [[], [], [], [], []] }

/-- With every tile protected the snapshot is OPEN as number 1 (R371); with the tile moving it is not. -/
theorem test_snap_protected : nextIs (.snapshotProtected 0) (snapping 1 (snapTile .todo) true) (fun t => decide (t.snapSt 0 = 2 ∧
      t.getF (Csr.rgsPartState_SNAP_ID 0) = 1)) &&
    nextIs (.snapshotProtected 0) (snapping 1 (snapTile .todo) false) (fun t => decide (t.snapSt 0 = 1)) = true := by decide +kernel

/-- A write that waits at the tile, and the background, take the tile (R367, R368). -/
theorem test_first_touch : nextIs (.firstTouchCopy 0) { snapping 2 (snapTile .todo) true with held := [⟨0, [(0x10004, 7)], .engine, none⟩] } (fun t =>
    decide ((t.snap 0).tiles = [{ snapTile .reading with touched := true }])) = true := by decide +kernel
theorem test_background : nextIs (.backgroundCopy 0 0) ((snapping 2 (snapTile .todo) true).setF Csr.rgsCtrl_BG_ENTRIES 8) (fun t =>
    decide ((t.snap 0).tiles = [snapTile .reading] ∧ t.getF Csr.rgsBuf_USED_W = 1)) = true := by decide +kernel

/-- A poisoned tile is counted and has a digest of 0xFF, its WP cleared (R369); one that has been read meets the copying clause. -/
theorem test_tile_copied : nextIs (.tileCopied 0 0 .clean 3) ((snapping 2 (snapTile .reading) true).setTile 0 { (snapping 2 (snapTile .reading) true).tile 0 with poison := true })
      (fun t => decide ((t.snap 0).shards.map (fun h => h.poisoned) = [1] ∧ (t.snap 0).tiles.map (fun y => y.stage) = [.drained] ∧
        t.getF (Csr.rgsPartStall_TIME 0) = 3) && !(t.tile 0).wp) &&
    decide (((snapping 2 (snapTile .reading) true).snap 0).tiles[0]? = some (snapTile .reading)) = true := by decide +kernel

/-- A ZERO tile's entry drains into a ZERO target; a target that is absent fails the snapshot; so does SNAPSHOT_TARGET_FAILURE (R370). -/
theorem test_copy_drain : (let s := snapping 2 { snapTile .held with zero := true } false
    let far := { parseShard (snapList.drop 64) with tdva := 0x70000 }
    nextIs (.copyEntryDrain 0 0) (s.setTile 1 { s.tile 1 with zero := true }) (fun t => decide ((t.snap 0).tiles.map (fun y => y.stage) = [.drained])) &&
    nextIs (.copyEntryDrain 0 0) (s.setSnap 0 { s.snap 0 with shards := [far] }) (fun t => decide (t.snapSt 0 = 5 ∧ (t.snap 0).failed = some 0)) &&
    nextIs (.snapshotTargetFailure 0 0) (snapping 2 (snapTile .sent) false) (fun t => decide (t.snapSt 0 = 5))) = true := by decide +kernel

/-- A peer's bytes are written and answered, or refused (R370). -/
theorem test_peer_copy : (let s := (withObject lab).setFs [(Csr.niRcState_STATE 3, 3), (Csr.sysNode_NODE, 0), (Csr.niPmap_JOB 3, 1)]
    nextIs (.peerCopyReceive 3 0 1 0x10008 [0x5A] true true) s (fun t => decide (t.peek (slowAddr 0 8 8) = 0x5A ∧ t.peer = [.answer 3 0x10008 true])) &&
    nextIs (.peerCopyReceive 3 0 1 0x90000 [0x5A] true true) s (fun t => decide (t.peer = [.answer 3 0x90000 false]))) = true := by decide +kernel

/-- SNAP_COMMIT seals an OPEN snapshot, with ABORT it aborts (R371, R372). -/
theorem test_commit : nextIs (.snapCommit 5) (snapping 2 (snapTile .drained) false) (fun t => decide (t.snapSt 0 = 3 ∧ (t.snap 0).area = some (0x20000, 4096))) &&
    nextIs (.snapCommit 5) ((snapping 2 (snapTile .drained) false).setCtx 5 { Ctx.closed with started := [ctxCmd 0x19 1 (List.replicate 0x14 0 ++ [1])] })
      (fun t => decide (t.snapSt 0 = 5)) = true := by decide +kernel

/-- A sealed, a verified and an aborted snapshot are gone (R371, R374, R375). -/
theorem test_sealed : (let s := (snapping 3 (snapTile .drained) false)
    nextIs (.snapshotSealed 0) (s.setSnap 0 { s.snap 0 with area := some (0x20000, 4096) }) (fun t => decide (t.snapSt 0 = 0 ∧
      t.peekN (slowAddr 0 9 0) 4 = [0x52, 0x47, 0x53, 0x4D]))) = true := by decide +kernel
theorem test_verified : nextIs (.snapshotVerify 0) (snapping 4 (snapTile .drained) false) (fun t => decide (t.snapSt 0 = 0)) = true := by decide +kernel
theorem test_aborted : (let s := snapping 5 (snapTile .todo) true
    nextIs (.snapAborted 0) (s.setSnap 0 { s.snap 0 with failed := some 0 }) (fun t => decide (t.snapSt 0 = 0) && !(t.tile 0).wp)) = true := by
  decide +kernel

/-- A manifest with no shard and no entry in any section (R374). -/
def emptyManifest : List Byte :=
  let b := leBytes 4 0x4D534752 ++ [2, 0, 0, 5] ++ List.replicate 36 0 ++ leBytes 4 128 ++ leBytes 8 0x10000 ++ leBytes 8 0x10080 ++
    (List.replicate 6 (leBytes 4 128)).flatten ++ List.replicate 40 0
  sealManifest b

/-- RESTORE: an empty manifest passes every check; of zeros it is BAD_DESC (R376). -/
theorem test_restore : (let s := ((snapCmd 0x1A []).setF Csr.rgsId_MAN_VER 2).pokeN (slowAddr 0 9 0) emptyManifest
    okIs (s.restoreCheck 5 0 0x20000 []) (fun r => decide (r.1.rcTmo = 5 ∧ r.2 = []) && !s.shardMoves 0 r.1)) &&
    nextIs (.restore 5 []) (snapCmd 0x1A []) (fun t => decide ((t.ctx 5).started = [])) = true := by decide +kernel

/-- POLICY_SET: PORT_QUARANTINE's neighbour BLOCK_SCALE_BUMP is armed; policy 8 is BAD_DESC (R396). -/
theorem test_policy : (let s (id : Nat) : State := opened 1 (ctxCmd 0x20 1 (List.replicate 8 0 ++ [BitVec.ofNat 8 id, 1, 0xFF, 0] ++ List.replicate 52 0)) Ctx.closed
    nextIs (.policySet 5) (s 4) (fun t => t.policyArmed 4 0) && nextIs (.policySet 5) (s 8) (fun t => decide ((t.ctx 5).started = [] ∧
      t.getF (Csr.errPartPolicy_ARMED 0) = (s 8).getF (Csr.errPartPolicy_ARMED 0)))) = true := by decide +kernel

/-- PORT_QUARANTINE armed, with 16 failures and with 15 (R398). -/
theorem test_quarantine : (let s (n : Nat) : State := ((lab.setFs [(Csr.niRcState_STATE 3, 3), (Csr.errPartPolicy_PQ_PARAM 0, 16), (Csr.errPartPolicy_ARMED 0, 64)]).setNi 3
      { NiPort.down with crcFails := n })
    nextIs (.portQuarantine 3) (s 16) (fun t => decide (t.rcSt 3 = 4 ∧ (t.ni 3).crcFails = 0)) &&
    nextIs (.portQuarantine 3) (s 15) (fun t => decide (t.rcSt 3 = 3 ∧ (t.ni 3).crcFails = 0))) = true := by decide +kernel
theorem test_advisory : nextIs (.advisoryEventTimer 0) (lab.setRing 0 ⟨true, true⟩) (fun t => decide (t.events.length = 1 ∧ (t.ring 0).waiting = false)) &&
    nextIs (.advisoryEventTimer 0) (lab.setRing 0 ⟨true, false⟩) (fun t => decide (t.events = [] ∧ t.ring 0 = RingTimer.quiet)) = true := by decide +kernel

/-- A CRC in pieces. -/
theorem crcStream_add (poly a b v c : Nat) : crcStream poly (a + b) v c = crcStream poly b (v / 2 ^ a) (crcStream poly a v c) := by
  induction a generalizing v c with
  | zero => simp [crcStream]
  | succ a ih =>
    rw [show a + 1 + b = (a + b) + 1 by omega, crcStream, ih, crcStream, Nat.div_div_eq_div_mul, Nat.pow_succ, Nat.mul_comm]

/-- CCRC from the CRC over four quarters of the 1,132 bits. -/
theorem ccrc_quarters (v x y z w : Nat) (h1 : crcStream 0x82F63B78 283 v 0xFFFFFFFF = x) (h2 : crcStream 0x82F63B78 283 (v / 2 ^ 283) x = y)
    (h3 : crcStream 0x82F63B78 283 (v / 2 ^ 283 / 2 ^ 283) y = z) (h4 : crcStream 0x82F63B78 283 (v / 2 ^ 283 / 2 ^ 283 / 2 ^ 283) z = w) :
    ccrc v = w ^^^ 0xFFFFFFFF := by
  rw [ccrc, show (1132 : Nat) = 283 + (283 + (283 + 283)) by rfl, crcStream_add, h1, crcStream_add, h2, crcStream_add, h3, h4]

/-- The control block of a new frame: FSEQ 5, wire version 1. -/
def goodControl : Control := ⟨0, 5, 0, none, false, [], 1, 1, 0, 0, 0⟩
theorem goodControl_1 : crcStream 0x82F63B78 283 (controlBits goodControl) 0xFFFFFFFF = 3054600081 := by decide +kernel
theorem goodControl_2 : crcStream 0x82F63B78 283 (controlBits goodControl / 2 ^ 283) 3054600081 = 739496896 := by decide +kernel
theorem goodControl_3 : crcStream 0x82F63B78 283 (controlBits goodControl / 2 ^ 283 / 2 ^ 283) 739496896 = 1097216253 := by decide +kernel
theorem goodControl_4 : crcStream 0x82F63B78 283 (controlBits goodControl / 2 ^ 283 / 2 ^ 283 / 2 ^ 283) 1097216253 = 1314701551 := by decide +kernel

/-- That frame with every flit idle, and one of zeros, whose CCRC does not agree. -/
def goodFrame : Nat := controlBits goodControl + (1314701551 ^^^ 0xFFFFFFFF) * 2 ^ 1132
theorem test_control_ok : controlOk goodFrame = true := by
  have h : goodFrame % 2 ^ 1132 = controlBits goodControl := by decide +kernel
  have h2 : goodFrame / 2 ^ 1132 % 2 ^ 32 = 1314701551 ^^^ 0xFFFFFFFF := by decide +kernel
  rw [controlOk, h, h2, ccrc_quarters _ _ _ _ _ goodControl_1 goodControl_2 goodControl_3 goodControl_4]
  rfl
theorem zeroControl_1 : crcStream 0x82F63B78 283 0 0xFFFFFFFF = 3141215648 := by decide +kernel
theorem zeroControl_2 : crcStream 0x82F63B78 283 (0 / 2 ^ 283) 3141215648 = 2364725196 := by decide +kernel
theorem zeroControl_3 : crcStream 0x82F63B78 283 (0 / 2 ^ 283 / 2 ^ 283) 2364725196 = 2203746501 := by decide +kernel
theorem zeroControl_4 : crcStream 0x82F63B78 283 (0 / 2 ^ 283 / 2 ^ 283 / 2 ^ 283) 2203746501 = 2195287545 := by decide +kernel
theorem test_control_bad : controlOk 0 = false := by
  simp only [controlOk, Nat.zero_mod, Nat.zero_div, ccrc_quarters _ _ _ _ _ zeroControl_1 zeroControl_2 zeroControl_3 zeroControl_4]
  rfl

/-- The frame's version is 1 and its flits are idle: with an admitted lane it meets the receiving clause (R297, R300). -/
theorem test_frame_good : ((readControl goodFrame).ver = 1 && (readFlits goodFrame).all (fun r => !r.valid || r.good) && decide (goodFrame < 2 ^ 35980)) = true := by
  decide +kernel

/-! ## The Prefect and the links -/

/-- A group of `n` members on axis 0, this device the first, GID 7, job 1, wire version 1, members' table at 0x10100 (R334). -/
def groupRecord (n : Nat) : List Byte :=
  leBytes 2 7 ++ leBytes 2 1 ++ leBytes 1 1 ++ leBytes 1 1 ++ leBytes 2 0 ++ leBytes 2 n ++ List.replicate 30 0 ++ leBytes 8 0x10100 ++ List.replicate 16 0

/-- Context 5 with a started command of `op` whose bytes from 8 on are `b`; an object, this device node 0. -/
def pftCmd (op : Nat) (b : List Byte) : State :=
  (withObject (opened 1 (ctxCmd op 1 (List.replicate 8 0 ++ b ++ List.replicate (56 - b.length) 0)) Ctx.closed)).setFs
    [(Csr.sysNode_NODE, 0), (Csr.sysNode_PROTO, 1)]

/-- GROUP_JOIN of a good record; of one of wire version 2, VERSION (R335). GROUP_LEAVE, and of no group BAD_DESC (R336). -/
theorem test_group_join : (let s := pftCmd 0x10 (leBytes 8 0x10000)
    nextIs (.groupJoin 5) (s.pokeN (slowAddr 0 8 0) (groupRecord 2)) (fun t => decide ((t.group 0 7).map (fun g => g.table) = some [0, 0] ∧
      t.getF (Csr.pftPartGroups_JOINED 0) = 1)) &&
    nextIs (.groupJoin 5) ((s.pokeN (slowAddr 0 8 0) (groupRecord 2)).poke (slowAddr 0 8 4) 2) (fun t => decide (t.group 0 7 = none ∧ (t.ctx 5).started = [])))
    = true := by decide +kernel
theorem test_group_leave : (let s := pftCmd 0x11 (leBytes 2 7)
    nextIs (.groupLeave 5) ((s.setGroup 0 7 (some ⟨5, groupRecord 2, [0, 1], 0⟩)).setF (Csr.pftPartGroups_JOINED 0) 1) (fun t =>
      decide (t.group 0 7 = none ∧ t.getF (Csr.pftPartGroups_JOINED 0) = 0)) &&
    nextIs (.groupLeave 5) s (fun t => decide ((t.ctx 5).started = []))) = true := by decide +kernel

/-- An operation descriptor of one FP32 element in group 7: no counters, chunks of 1,024 bytes, SRC 0x10000, DST 0x10200 (R340). -/
def opBytes (op peer : Nat) : List Byte :=
  leBytes 1 op ++ leBytes 1 0 ++ leBytes 2 7 ++ leBytes 4 0x99 ++ leBytes 2 0x8000 ++ leBytes 2 0 ++ leBytes 2 0x8000 ++ leBytes 2 0 ++
  leBytes 8 0x10000 ++ leBytes 8 0x10200 ++ leBytes 4 (if op = 6 then 2 else 1) ++ leBytes 1 0 ++ leBytes 1 0 ++ leBytes 1 10 ++ leBytes 1 0 ++ leBytes 2 peer ++
  leBytes 2 3 ++ leBytes 2 0x8000 ++ List.replicate 18 0

/-- That operation, posted. -/
def postedOp (op : Nat) (fired running : Bool) (got emitted : List (Nat × Nat × Nat)) : PftOp :=
  ⟨0, 0, opBytes op 1, 0, 0, fired, running, [], [], got, emitted, [], [], 0, false, false, false, 0, 0, false⟩

/-- Partition 0 with group 7 of two members and the operations posted. -/
def posting (l : List PftOp) : State :=
  { ((withObject lab).setFs [(Csr.sysNode_NODE, 0), (Csr.pftPartQBase_DVA 0, 0x10000), (Csr.pftPartQBase_LOG2 0, 4), (Csr.pftPartCqBase_DVA 0, 0x18000)]).setGroup 0 7
      (some ⟨5, groupRecord 2, [0, 1], 0⟩) with ops := l, posted := 1 }

/-- OPERATION_POST of a good entry and of one with OP 0 (R342). -/
theorem test_post : (let s (op : Nat) := ((posting []).pokeN (slowAddr 0 8 0) (opBytes op 1)).setF (Csr.pftPartQTail_TAIL 0) 1
    nextIs (.operationPost 0) (s 1) (fun t => decide (t.ops.map (fun o => (o.stamp, o.fired)) = [(1, true)] ∧ t.getF (Csr.pftPartQHead_HEAD 0) = 1)) &&
    nextIs (.operationPost 0) (s 0) (fun t => decide (t.ops = [] ∧ t.getF (Csr.pftPartQHead_HEAD 0) = 1))) = true := by decide +kernel

/-- OPERATION_FIRE; of a STREAM send, its next chunk (R341, R343). -/
theorem test_fire : nextIs .operationFire (posting [postedOp 1 false false [] []]) (fun t => decide (t.ops.map (fun o => o.fired) = [true])) &&
    nextIs .operationFire (posting [{ postedOp 1 true true [] [] with bytes := (opBytes 1 1).set 1 4 }]) (fun t =>
      decide (t.ops.map (fun o => o.emitted.length) = [1])) = true := by decide +kernel

/-- OPERATION_COMPLETE of a RECV whose chunk has landed writes its record (R343). -/
theorem test_op_complete : nextIs .operationComplete (posting [postedOp 2 true true [(0, 0, 0)] []]) (fun t =>
    decide (t.ops = [] ∧ t.getF (Csr.pftPartCqTail_TAIL 0) = 1 ∧ t.peek (slowAddr 0 8 0x8000) = 0x99)) = true := by decide +kernel

/-- A running operation with no early chunk of another group meets the watchdog's clause (R357). -/
theorem test_watchdog : (let s := (posting [postedOp 2 true true [] []]).setF Csr.pftCtrl_WD_TMO 1
    decide (s.posts[0]? = some (postedOp 2 true true [] []) ∧ s.otherGroup (postedOp 2 true true [] []) ⟨5, groupRecord 2, [0, 1], 0⟩ = none) &&
    s.flag Csr.pftCtrl_WD_TMO) = true := by decide +kernel

/-- Each operation starts (R341). -/
def startsRunning (i : Instr) (op : Nat) : Bool :=
  let s := posting [postedOp op true false [] []]
  decide (s.toStart op = some (postedOp op true false [] [], ⟨5, groupRecord 2, [0, 1], 0⟩)) && nextIs i s (fun t => t.ops.all (fun o => o.running))

theorem test_send_recv : (startsRunning .prefectSend 1 && startsRunning .recv 2) = true := by decide +kernel
theorem test_reduce : (startsRunning .allReduce 3 && startsRunning .reduceScatter 4) = true := by decide +kernel
theorem test_gather : (startsRunning .allGather 5 && startsRunning .allToAll 6) = true := by decide +kernel
theorem test_broadcast : (startsRunning .broadcast 7 && startsRunning .barrier 8) = true := by decide +kernel
theorem test_norm : (startsRunning .norm 9 && startsRunning .ctrAdd 10) = true := by decide +kernel

/-- A chunk of kind `kind` for slot 3 of group 7 that came to port 3 in class `cls`. -/
def inbound (cls kind : Nat) : State :=
  ((posting []).setF (Csr.niRcState_STATE 3) 3).setNi 3 { NiPort.down with
    inbox := [⟨cls, chunkBytes 1 kind 0 0 1 1 7 3 0 0 (if kind = 3 then 5 else 4) 0 (leBytes 4 9), 1, true, true, none⟩] }

/-- CHUNK_ARRIVAL: an unmatched chunk of either class waits in the early-arrival buffer (R352, R356). -/
theorem test_chunk : nextIs (.chunkArrival 3) (inbound 3 2) (fun t => decide (t.early.length = 1 ∧ (t.ni 3).inbox = [])) &&
    nextIs (.chunkArrival 3) (inbound 2 2) (fun t => decide (t.early.length = 1 ∧ (t.ni 3).inbox = [])) = true := by decide +kernel

/-- Port 3 in an NI state, its receive and transmit lanes 8 to 15 of glove 1 LOCKED on their own tone and admitted. -/
def niPort (st : Nat) (n : NiPort) : State :=
  (lab.setFs [(Csr.niStatus_STATE 3, st), (Csr.glvRxLanes_STATE 1 8, 2), (Csr.glvTxLanes_STATE 1 8, 2), (Csr.glvRxMon_TONE_OK 1 8, 1),
    (Csr.glvRxLanes_ADMIT 1 8, 1), (Csr.glvTxLanes_ADMIT 1 8, 1), (Csr.niVer_MIN 3, 1), (Csr.niVer_MAX 3, 1), (Csr.niCtrl_EN 3, 1)]).setNi 3 n

/-- EN = 1 from OFF to DOWN; RENEG from UP to NEGOTIATE (R299, R304). -/
def oneBit (f : Fld) : Word := BitVec.ofNat 64 (2 ^ f.lo)
theorem test_ni_enable : nextIs (.niEnable 0 3 .full (oneBit (Csr.niCtrl_EN 3))) (niPort 0 NiPort.down) (fun t => decide (t.niSt 3 = 1)) &&
    nextIs (.reneg 0 3 .full (oneBit (Csr.niCtrl_EN 3) ||| oneBit (Csr.niCtrl_RENEG 3))) (niPort 4 NiPort.down) (fun t => decide (t.niSt 3 = 3))
    = true := by decide +kernel

theorem test_port_align : nextIs (.portAlign 3 0) (niPort 1 NiPort.down) (fun t => decide (t.niSt 3 = 2)) = true := by decide +kernel

/-- NEGOTIATE with the epochs held before and with new ones; no common version is recorded (R304). -/
theorem test_negotiate : nextIs (.negotiate 3 1 2 9) (niPort 3 { NiPort.down with epoch := 5, held := some (5, 9), fseq := 6 }) (fun t =>
      decide (t.niSt 3 = 4 ∧ t.getF (Csr.niVer_NEG 3) = 1 ∧ (t.ni 3).fseq = 6)) &&
    nextIs (.negotiate 3 1 2 9) (niPort 3 { NiPort.down with epoch := 5, fseq := 6 }) (fun t => decide (t.niSt 3 = 4 ∧ (t.ni 3).fseq = 0 ∧ (t.ni 3).held = some (5, 9))) &&
    nextIs (.linkVersion 3 8 9) (niPort 3 NiPort.down) (fun t => (t.ni 3).versionSaid) = true := by decide +kernel

/-- A frame resent 16 times, 10 ms without an admitted lane, and a lane that has decoded 4 frames (R299, R303). -/
theorem test_retrain : nextIs (.linkRetrain 3 false) (niPort 4 { NiPort.down with retry := [⟨2, [], 16, false, []⟩] }) (fun t =>
    decide (t.niSt 3 = 2 ∧ t.getF (Csr.niRetry_RETRAIN 3) = 1)) = true := by decide +kernel
theorem test_align_timeout : nextIs (.portAlignTimeout 3) (niPort 2 NiPort.down) (fun t => decide (t.niSt 3 = 1)) = true := by decide +kernel
theorem test_readmit : nextIs (.laneReadmit 3 0) (niPort 4 { NiPort.down with runs := [(0, 4)] }) (fun t => decide (t.getF (Csr.niStatus_RX_ADMIT 3) = 1)) = true := by
  decide +kernel

/-- FRAME_SEND on an admitted lane of a port that is UP, and in ALIGN (R300, R303). -/
theorem test_frame_send : (let s := (niPort 4 { NiPort.down with farAdmit := 1 }).setF (Csr.niStatus_TX_ADMIT 3) 1
    !s.closing 3 0 && (s.pump.nextFrame 3).isSome) && nextIs (.frameSend 3 0 0) ((niPort 4 { NiPort.down with farAdmit := 1 }).setF (Csr.niStatus_TX_ADMIT 3) 1)
      (fun t => decide ((t.ni 3).fseq = 1 ∧ t.wire.length = 1)) &&
    nextIs (.frameSend 3 0 0) (niPort 2 NiPort.down) (fun t => decide ((t.ni 3).fseq = 0 ∧ t.wire.length = 1)) = true := by decide +kernel

/-- RETRY_TIMEOUT, PING, LANE_ERRORS above and at 16 (R300, R311, R312). -/
theorem test_retry : nextIs (.retryTimeout 3 2) (niPort 4 { NiPort.down with retry := [⟨2, [], 0, false, []⟩] }) (fun t =>
    decide ((t.ni 3).retry = [⟨2, [], 0, true, []⟩])) = true := by decide +kernel
theorem test_ping : nextIs (.ping 3 7) (niPort 4 NiPort.down) (fun t => decide ((t.ni 3).ping = 8)) = true := by decide +kernel
theorem test_lane_errors : nextIs (.laneErrors 3 0 17 true) (niPort 4 NiPort.down) (fun t => decide (t ≠ niPort 4 NiPort.down ∧ t.csr ≠ (niPort 4 NiPort.down).csr)) &&
    nextIs (.laneErrors 3 0 16 true) (niPort 4 NiPort.down) (fun t => decide (t.csr = (niPort 4 NiPort.down).csr)) = true := by decide +kernel

/-- A roll-call record of node 9, port 4, job 1 (R317). -/
def rcBytes : List Byte := [1, 1, 4, 0, 9, 0, 1, 0] ++ leBytes 8 0x1234 ++ List.replicate 16 0

/-- A record is heard; it is resent while the port is not ENABLED; RC_TMO ends in MISSING (R317, R318, R320). -/
theorem test_roll_call : nextIs (.rollCallRecord 3) (niPort 4 { NiPort.down with msgs := [⟨0, rcBytes, 1, true, true, none⟩] }) (fun t =>
      decide (t.getF (Csr.niFarId_NODE 3) = 9 ∧ t.getF (Csr.niFarId_VALID 3) = 1 ∧ t.getF (Csr.niRcStat_RECORDS 3) = 1 ∧ (t.ni 3).msgs = [])) &&
    nextIs (.rollCallResend 3) (niPort 4 NiPort.down) (fun t => decide ((t.ni 3).txq.length = 1 ∧ (t.ni 3).rcSeq = 1)) = true := by decide +kernel
theorem test_rc_tmo : nextIs (.rcTmoExpiry 3) ((niPort 4 NiPort.down).setFs [(Csr.sysPlanCtrl_STATE 0, 1), (Csr.niExpId_VALID 3, 1)]) (fun t =>
    decide (t.rcSt 3 = 5 ∧ t.planSt 0 = 3)) = true := by decide +kernel

/-- Words with GO and with UNLOAD; RECHECK of a quarantined port; NODE (R314, R320, R322). -/
theorem test_plan : (wrote1 (oneBit (Csr.sysPlanCtrl_GO 0)).toNat allBits (Csr.sysPlanCtrl_GO 0) &&
    !wrote1 (oneBit (Csr.sysPlanCtrl_GO 0)).toNat allBits (Csr.sysPlanCtrl_UNLOAD 0) &&
    wrote1 (oneBit (Csr.sysPlanCtrl_UNLOAD 0)).toNat allBits (Csr.sysPlanCtrl_UNLOAD 0)) = true := by decide +kernel
theorem test_recheck : nextIs (.recheck 0 3 .full (oneBit (Csr.niRcState_RECHECK 3))) ((niPort 4 NiPort.down).setFs [(Csr.sysPlanCtrl_STATE 0, 1), (Csr.niRcState_STATE 3, 4),
    (Csr.niFarId_VALID 3, 1), (Csr.niExpId_VALID 3, 1), (Csr.niFarId_JOB 3, 1), (Csr.niExpId_JOB 3, 1), (Csr.niPmap_JOB 3, 1), (Csr.niFarSerial_SERIAL 3, 5)]) (fun t => decide (t.rcSt 3 = 2))
    = true := by decide +kernel
theorem test_node : nextIs (.nodeWrite 0 .full 6) (lab.setF (Csr.niRcState_STATE 3) 3) (fun t => decide (t.getF Csr.sysNode_NODE_IGN = 1 ∧
      t.getF Csr.sysNode_NODE = lab.getF Csr.sysNode_NODE)) && nextIs (.nodeWrite 0 .full 6) lab (fun t => decide (t.getF Csr.sysNode_NODE = 6)) = true := by decide +kernel

/-- A message of class 2 to node `dest` with job `job` at port 3. -/
def message (dest job : Nat) (enabled : Bool) (out : Option Nat) : InMsg := ⟨2, List.replicate 4 0 ++ leBytes 2 dest ++ leBytes 2 job, 1, enabled, true, out⟩

/-- This device is node 6, port 3 has job 1 and a route to node 9 by port 5. -/
def routing (m : InMsg) : State :=
  (niPort 4 { NiPort.down with msgs := [m] }).setFs [(Csr.sysNode_NODE, 6), (Csr.niPmap_JOB 3, 1), (Csr.niXr_VALID 3 2, 1), (Csr.niXr_DEST 3 2, 9), (Csr.niXr_JOB 3 2, 1),
    (Csr.niXr_OUT_PORT 3 2, 5)]

/-- MESSAGE_DISPATCH: before ENABLED, to this node, with another job, to be forwarded (R321, R325, R326). -/
theorem test_dispatch : nextIs (.messageDispatch 3 2 true) (routing (message 6 1 false none)) (fun t => decide ((t.ni 3).msgs = [] ∧ t.getF (Csr.niRcStat_TAG_DROP 3) = 1)) &&
    nextIs (.messageDispatch 3 2 true) (routing (message 6 1 true none)) (fun t => decide ((t.ni 3).inbox.length = 1)) &&
    nextIs (.messageDispatch 3 2 true) (routing (message 6 2 true none)) (fun t => decide ((t.ni 3).inbox = [] ∧ t.getF (Csr.niRcStat_TAG_DROP 3) = 1)) &&
    nextIs (.messageDispatch 3 2 true) (routing (message 9 1 true none)) (fun t => decide ((t.ni 3).msgs.map (fun m => m.out) = [some 5])) = true := by decide +kernel

/-- TRANSIT_FORWARD to a port that carries data and to one that does not (R327). -/
theorem test_forward : nextIs (.transitForward 3 2 true) ((routing (message 9 1 true (some 5))).setF (Csr.niRcState_STATE 5) 3) (fun t =>
      decide ((t.ni 5).txq.length = 1 ∧ (t.ni 3).msgs = [])) &&
    nextIs (.transitForward 3 2 true) (routing (message 9 1 true (some 5))) (fun t => decide (t.getF (Csr.niRcStat_XDROP 3) = 1 ∧ (t.ni 3).msgs = [])) = true := by
  decide +kernel

/-! ## Optics, clocks, heat -/

/-- Glove 1 enabled, LOCK_TOL 50, DARK_FLOOR -2000, its transmit lane 8 in a state, admitted or not. -/
def lane (st : Nat) (adm : Bool) : State :=
  (lab.setFs [(Csr.glvCtrl_EN 1, 1), (Csr.glvCtrl_LOCK_TOL 1, 50), (Csr.glvCtrl_DARK_FLOOR 1, toSigned 16 (-2000)), (Csr.glvTxLanes_STATE 1 8, st),
    (Csr.glvTxLanes_ADMIT 1 8, adm.toNat), (Csr.elsStatus_LIGHT 0, 1), (Csr.glvStatus_STATE 1, 3)])

/-- That glove with a record of ring 8 that may be used (R280): every entry 0. -/
def ringed (st : Nat) : State := (lane st true).putRing 1 8 ([8, 1, 0, 0, 16, 0, 0, 0] ++ List.replicate 56 0)

/-- Lane 8 of glove 1 after a command. -/
def laneIs (i : Instr) (s : State) (st : Nat) : Bool := nextIs i s (fun t => decide (t.getF (Csr.glvTxLanes_STATE 1 8) = st))

/-- Light, resonance, drift, relock, unlock, darkness (R282). -/
theorem test_light : (laneIs (.laneLightDetect 1 true 8 0xFC18) (lane 0 false) 1 && laneIs (.laneLightDetect 1 true 8 0xFC18) (lane 2 false) 2) = true := by
  decide +kernel
theorem test_sweep : nextIs (.sweepDone 1 true 8 true 0x123 0) (ringed 1) (fun t => decide (t.getF (Csr.glvTxLanes_STATE 1 8) = 2)) = true := by decide +kernel
theorem test_drift : (laneIs (.laneDrift 1 true 8 (BitVec.ofInt 16 (-51)) true) (lane 2 true) 3 &&
    laneIs (.driftCleared 1 true 8 (BitVec.ofInt 16 (-50))) (lane 3 true) 2) = true := by decide +kernel
theorem test_unlock : (laneIs (.laneUnlocked 1 true 8 (BitVec.ofInt 16 (-151))) (lane 3 true) 4 && laneIs (.laneDark 1 true 8 0xF000) (lane 2 true) 0) = true := by
  decide +kernel

/-- GLV.RETIRE withdraws lane 8; a lane of LANE_RETIRE returns; a suspension ends, or not (R283, R284). -/
theorem test_retire : nextIs (.softwareRetire 0 1 .full 0x100) (lane 2 true) (fun t => !t.flag (Csr.glvTxLanes_ADMIT 1 8)) = true := by decide +kernel
theorem test_readmitted : nextIs (.laneReadmitted 1 true 8) (((lane 2 false).setF (Csr.glvRcause_TX 1 8) 1).setHeldBack 1 true 8 1) (fun t => t.flag (Csr.glvTxLanes_ADMIT 1 8) &&
    decide (t.getF (Csr.glvCnt_READMITTED 1) = 1)) = true := by decide +kernel
theorem test_suspension : nextIs (.boundSuspensionEnd 3) ((lane 2 true).setF (Csr.glvPort_SUSP_B 1) 1) (fun t => !t.flag (Csr.glvPort_SUSP_B 1)) &&
    nextIs (.boundSuspensionEnd 3) ((lane 3 true).setF (Csr.glvPort_SUSP_B 1) 1) (fun t => t.flag (Csr.glvPort_SUSP_B 1)) = true := by decide +kernel

/-- HEATER_UPDATE of a lit lane: table 0, a correction of 7; the mean of two sensors; RING_REFINE takes its record (R279, R281, R285). -/
theorem test_heater : nextIs (.heaterUpdate 1 8 7) (ringed 2) (fun t => decide (t.getF (Csr.glvTxMon_HEATER 1 8) = 7)) = true := by decide +kernel
theorem test_glove_temp : nextIs (.gloveTempSample 1 100 50) (lane 2 true) (fun t => decide (t.getF (Csr.glvStatus_TEMP 1) = 75)) = true := by decide +kernel
theorem test_refine : nextIs (.ringRefine 1 8) ((ringed 2).setF (Csr.glvTxMon_HEATER 1 8) 80) (fun t =>
    decide (fieldAt (t.ringRec 1 8) 8 2 = 10)) = true := by decide +kernel

/-- GLV.CTRL kept enabled, with CAL_REQ and without; bring-up steps and fails; the exchange with a far end (R277, R290, R291). -/
theorem test_glove_enable : nextIs (.gloveEnable 0 1 .full (oneBit (Csr.glvCtrl_EN 1))) (lane 2 true) (fun t => t.flag (Csr.glvCtrl_EN 1)) &&
    nextIs (.calReq 0 1 .full (oneBit (Csr.glvCtrl_EN 1) ||| oneBit (Csr.glvCtrl_CAL_REQ 1))) (lane 2 true) (fun t => t.flag (Csr.glvCtrl_CAL_REQ 1)) = true := by decide +kernel
theorem test_bringup : nextIs (.gloveBringup 1 true) ((lane 0 false).setFs [(Csr.glvStatus_STATE 1, 1), (Csr.elsStatus_PRESENT 0, 1), (Csr.elsStatus_READY 0, 1)]) (fun t => decide (t.getF (Csr.glvStatus_STATE 1) = 2)) &&
    nextIs (.gloveBringup 1 false) ((lane 0 false).setF (Csr.glvStatus_STATE 1) 1) (fun t => decide (t.getF (Csr.glvStatus_STATE 1) = 4)) = true := by
  decide +kernel
theorem test_exchange : nextIs (.monitorExchange 3 5 6 true) ((niPort 4 NiPort.down).setF (Csr.glvCtrl_TONE_EN 1) 0) (fun t => decide (t.optics.sent.length = 1 ∧
      (t.ni 3).txq.length = 1 ∧ t.getF (Csr.glvFibMon_POWER 1 1) = 5 ∧ t.getF (Csr.glvFibMon_POWER 1 3) = 6)) &&
    nextIs (.monitorExchange 3 5 6 true) ((niPort 1 NiPort.down).setF (Csr.glvCtrl_TONE_EN 1) 0) (fun t => decide (t.optics.sent = [])) = true := by decide +kernel

/-- Every receptacle present, LIGHT_EN and light on both modules. -/
def lit : State := lab.setFs [(Csr.elsStatus_PRES, 63), (Csr.elsCtrl_LIGHT_EN, 3), (Csr.elsStatus_LIGHT 0, 1), (Csr.elsStatus_LIGHT 1, 1), (Csr.elsStatus_PRESENT 0, 1)]

/-- Interlocks (R274, R479). -/
theorem test_interlock : decide ((lit.setF Csr.elsCtrl_LIGHT_EN 2).openCause 0 = some 2 ∧ lit.openCause 0 = none) = true := by decide +kernel
theorem test_receptacle : nextIs (.receptaclePresent 2) (lit.setF Csr.elsStatus_PRES 59) (fun t => decide (t.getF Csr.elsStatus_PRES = 63))
    = true := by decide +kernel

/-- LSFLTmn, its end, the words of ELS.CTRL (R274, R275, R281, R292). -/
theorem test_laser_fault : nextIs (.laserFault 0 0x8000) lit (fun t => t.flag (Csr.elsStatus_FAULT 0)) &&
    nextIs (.laserFaultCleared 0) (lit.setF (Csr.elsStatus_FAULT 0) 1) (fun t => !t.flag (Csr.elsStatus_FAULT 0)) = true := by decide +kernel
theorem test_light_en : decide (2 * 2 ^ Csr.elsCtrl_LIGHT_EN.lo / 2 ^ Csr.elsCtrl_COMMISSION.lo % 2 ^ Csr.elsCtrl_COMMISSION.len = 0 ∧
    wrote1 (2 * 2 ^ Csr.elsCtrl_LIGHT_EN.lo) allBits Csr.elsCtrl_SAVE_TAB = false) = true := by decide +kernel
/-- The other commands of ELS.CTRL meet their clauses by these values. -/
def elsWord (c save : Nat) : Nat := 3 * 2 ^ Csr.elsCtrl_LIGHT_EN.lo + c * 2 ^ Csr.elsCtrl_COMMISSION.lo + save * 2 ^ Csr.elsCtrl_SAVE_TAB.lo
theorem test_els_ctrl : decide (elsWord 1 0 / 2 ^ Csr.elsCtrl_COMMISSION.lo % 2 ^ Csr.elsCtrl_COMMISSION.len = 1 ∧
      elsWord 2 0 / 2 ^ Csr.elsCtrl_COMMISSION.lo % 2 ^ Csr.elsCtrl_COMMISSION.len = 2 ∧
      wrote1 (elsWord 0 1) allBits Csr.elsCtrl_SAVE_TAB = true ∧ elsWord 0 1 / 2 ^ Csr.elsCtrl_COMMISSION.lo % 2 ^ Csr.elsCtrl_COMMISSION.len = 0 ∧
      wrote1 (elsWord 2 0) allBits Csr.elsCtrl_SAVE_TAB = false) = true := by decide +kernel

/-- Polls, the third failure, fade of a dark source, SRC_CMD (R273, R286, R287). -/
theorem test_poll : nextIs (.laserPoll 0 true 1 0x77 0x190 (List.replicate 32 100)) lit (fun t => decide (t.getF (Csr.elsModId_SERIAL 0) = 0x77 ∧
      t.getF (Csr.elsModWl_POWER 0 3) = 100)) &&
    nextIs (.laserPoll 0 false 0 0 0 []) { lit with optics := { lit.optics with fails := [(0, 2)] } } (fun t => !t.flag (Csr.elsStatus_PRESENT 0)) = true := by decide +kernel
theorem test_fade : nextIs (.fadeEvaluation 0) lit (fun t => decide (t.getF (Csr.elsModWl_FADE 0 0) = 0)) = true := by decide +kernel
theorem test_src_cmd : nextIs (.srcCmd 0 0 .full (oneBit (Csr.elsModSrcCmd_GO 0) ||| oneBit (Csr.elsModSrcCmd_TO_SPARE 0))) lit (fun t =>
      decide (t.getF (Csr.elsModSw_PENDING 0) = 1)) &&
    nextIs (.srcCmd 0 0 .full (oneBit (Csr.elsModSrcCmd_GO 0))) lit (fun t => t.flag Csr.elsStatus_CMD_IGN) = true := by decide +kernel

/-- A switch of module 0 may start, and goes through its states (R288); the clauses of CROSSOVER_DONE and LASER_SPARE_DONE ask for the state
alone. -/
def swIs (i : Instr) (st st' : Nat) : Bool := nextIs i (lit.setF (Csr.elsModSw_STATE 0) st) (fun t => decide (t.swSt 0 = st'))
theorem test_switch : (let s := lit.setF (Csr.elsModSw_PENDING 0) 4
    decide (setBits (s.getF (Csr.elsModSw_PENDING 0)) 8 = [2] ∧ s.swSt 0 = 0)) = true := by decide +kernel
theorem test_switch_states : (swIs (.spareRetiringDone 0) 1 2 && swIs (.spareWarmed 0) 2 3) = true := by
  decide +kernel
theorem test_warm_timeout : nextIs (.spareWarmTimeout 0) (lit.setF (Csr.elsModSw_STATE 0) 2) (fun t => decide (t.swSt 0 = 0) && t.flag (failedFld 0 0 1)) = true := by
  decide +kernel
theorem test_relock : nextIs (.relockDone 0 false) (((waveLanes 0 0).foldl (fun t x => t.setF (laneState x.1 true x.2) 2) lit).setF (Csr.elsModSw_STATE 0) 4)
    (fun t => decide (t.swSt 0 = 5)) = true := by decide +kernel

/-- Lost clocks and rails are DEVICE_FATAL (R426). -/
theorem test_clock_lost : nextIs (.clockOrSupply 2) lab (fun t => t.fatal && t.flag Csr.clkStatus_OSC_ACTIVE) &&
    nextIs (.clockOrSupply 0x19) (lab.setF Csr.pwrRails_GOOD 0x3FF) (fun t => t.fatal && decide (t.getF Csr.pwrRails_GOOD = 0x1FF)) = true := by decide +kernel

/-- SerDes PLLs (R422). -/
theorem test_serdes : nextIs (.serdesUnlock 15) lab (fun t => decide (t.getF (Csr.glvStatus_STATE 15) = 4 ∧ t.getF Csr.clkSerdes_UNLOCKS = 1)) &&
    nextIs (.glovePllRetry 1 true) ((lane 0 false).setF Csr.clkSerdes_GLV_LOCK 1) (fun t => decide (t.getF (Csr.glvStatus_STATE 1) = 1 ∧
      t.getF Csr.clkSerdes_GLV_LOCK = 3)) = true := by decide +kernel

/-- PWR.VSET at its greatest value and above it; polls of a rail; KEEP moves (R421, R428, R429). -/
theorem test_vset : nextIs (.vsetWrite 0 .full (BitVec.ofNat 64 (730 * 2 ^ Csr.pwrVset_MV.lo))) (lab.setF Csr.pwrVset_FUSE_MV 680) (fun t => decide (t.getF Csr.pwrVset_MV = 730)) &&
    nextIs (.vsetWrite 0 .full (BitVec.ofNat 64 (731 * 2 ^ Csr.pwrVset_MV.lo))) (lab.setF Csr.pwrVset_FUSE_MV 680) (fun t => t.flag Csr.pwrVset_VSET_IGN &&
      decide (t.getF Csr.pwrVset_MV = lab.getF Csr.pwrVset_MV)) = true := by decide +kernel
theorem test_avsbus : nextIs (.avsbusPoll true true false false 700 900 0 0) lab (fun t => decide (t.getF Csr.pwrVcoreE_MV = 700)) &&
    nextIs (.avsbusPoll true false false false 0 0 0 0) (lab.withPower (fun p => { p with fails := [(1, 2)] })) (fun t => t.flag Csr.pwrAlert_AVS_FAIL) = true := by
  decide +kernel
theorem test_keep : nextIs .keepSlewStep (lab.setFs [(Csr.clkTclk_KEEP, 64), (Csr.clkTclk_TARGET, 60)]) (fun t => decide (t.getF Csr.clkTclk_KEEP = 63)) &&
    nextIs .keepSlewStep (lab.setFs [(Csr.clkTclk_KEEP, 50), (Csr.clkTclk_TARGET, 60)]) (fun t => decide (t.getF Csr.clkTclk_KEEP = 51)) = true := by decide +kernel

/-- A device whose sensor 2 reads 100 °C, THR_HIGH 95 °C, THERMAL_THROTTLE armed. -/
def heated (ts : Nat) : State := lab.setFs [(Csr.pwrSensor_TEMP 2, 1600), (Csr.pwrSensor_VALID 2, 1), (Csr.pwrThermCtrl_THR_HIGH, 1520), (Csr.pwrThermCtrl_THR_REL, 1360),
  (Csr.pwrPower_LIMIT, 1600), (Csr.clkTclk_TSTATE, ts), (Csr.clkTclk_KEEP, 40), (Csr.clkTclk_TARGET, 40), (Csr.clkTclk_STEP, 4), (Csr.clkTclk_KEEP_MIN, 16), (Csr.errPolicy_ARMED, 16)]

/-- Throttling and its end, THERMTRIP once, HOLD (R117, R436, R437). -/
theorem test_throttle : nextIs .throttleStillHot (heated 1) (fun t => decide (t.getF Csr.clkTclk_TARGET = 36)) &&
    nextIs .throttleCoolHeld ((heated 1).setF (Csr.pwrSensor_TEMP 2) 1360) (fun t => decide (t.getF Csr.clkTclk_TSTATE = 2 ∧ t.getF Csr.clkTclk_TARGET = 44)) &&
    nextIs .throttleRaise ((heated 2).setF (Csr.pwrSensor_TEMP 2) 1500) (fun t => decide (t.getF Csr.clkTclk_TARGET = 44)) = true := by decide +kernel
theorem test_thermtrip : (let s := lab.withPower (fun p => { p with crit := [(7, 3)] })
    nextIs .thermtrip s (fun t => t.flag Csr.pwrThermStat_TRIP && nextIs .thermtrip t (fun u => decide (u.csr = t.csr)))) = true := by decide +kernel
theorem test_hold : nextIs (.hold 0 5 .full (oneBit (Csr.clsArrCtrl_HOLD 5))) lab (fun t => t.flag (Csr.clsArrCtrl_HOLD 5)) &&
    nextIs (.hold 0 5 .full 0) lab (fun t => !t.flag (Csr.clsArrCtrl_HOLD 5)) = true := by decide +kernel
/-- SENSOR_SAMPLE of a sensor above THR_HIGH sets HOT (R435). -/
theorem test_sensor_sample : nextIs (.sensorSample [0x1700] false) (heated 0) (fun t => decide (t.getF (Csr.pwrSensor_TEMP 0) = 0x700)) = true := by decide +kernel

/-! ## Well-formedness and the step -/

/-- Each check refuses an ill-formed command: an odd chained counter, MEM_RD and MEM_WR of impossible sizes, tiles beyond the greatest
object, a request across two blocks or of a frame that no slice has, a short reading list, an empty or overlong peer message, an unknown source, unequal scan lengths, a short response. -/
theorem test_wf_reads : ((Instr.chainedCounterRead 0 0 0 1 .full).wf || (Instr.memRd 0 0 0 257).wf || (Instr.memWr 0 0 0 []).wf) = false := by decide +kernel
theorem test_wf_tiles : ((Instr.tileMoveStart 0 0 16777216).wf || (Instr.poisonTile 0 0 16777216).wf ||
    (Instr.requestAdmission (.channel 0) (.ni 0) 0 0 0 255 2 false .clean).wf || (Instr.requestAdmission (.slice 0) (.ni 0) 0 4096 0 0 1 false .clean).wf) = false := by decide +kernel
theorem test_wf_readings : ((Instr.laserPoll 0 true 0 0 0 []).wf || (Instr.sensorSample [] true).wf) = false := by
  decide +kernel
theorem test_wf_messages : ((Instr.peerCopyReceive 0 0 0 0 [] true true).wf || (Instr.peerCopyReceive 0 0 0 0xFFFFFFFFFFFF [1, 2] true true).wf ||
    (Instr.dbgResp [1]).wf) = false := by decide +kernel
theorem test_wf_sources : ((Instr.clockOrSupply 4).wf || (Instr.clockOrSupply 0x1A).wf || (Instr.counterWrite 0 3 63 15 .full 0).wf ||
    (Instr.aggregateUpdate 0 true [(32, 0, 0, 0)]).wf || (Instr.pmcCycle 1 63 0 0 []).wf) = false := by decide +kernel
theorem test_wf_scan : ((Instr.samplePreload [true] []).wf || (Instr.extest false [] [true]).wf) = false := by decide +kernel

/-- Well-formed commands of those kinds. -/
theorem test_wf_good : ((Instr.chainedCounterRead 0 0 0 2 .full).wf && (Instr.memRd 0 0 0 64).wf && (Instr.memWr 0 0 0 [1]).wf && (Instr.tileMoveStart 0 0 5).wf &&
    (Instr.monitorExchange 0 0 0 true).wf && (Instr.clockOrSupply 0x19).wf && (Instr.peerCopyReceive 0 0 0 0 [1] true true).wf && (Instr.samplePreload [true] [false]).wf) = true := by
  decide +kernel

/-- A step takes the front command with the queue's rest; on an empty queue CLK.TIME counts while SPLL is locked. -/
theorem test_step : (match step { lab with pending := [.retryTimeout 0 1, .ping 0 1] } with
    | .next t => decide (t.pending = [.ping 0 1])
    | _ => false) = true := by decide +kernel
theorem test_tick : (match step lab with
    | .next t => decide (t.rd Csr.clkTime = 1 ∧ t.pending = [])
    | _ => false) = true := by decide +kernel
theorem test_impossible_size : (match exec (.memRd 0 0 0 257) lab with
    | .fault _ => true
    | _ => false) = true := by decide +kernel
theorem test_reset_canonical : State.reset.canonical = true := by decide +kernel
theorem test_no_word : (State.reset.withFetchWord 8 0 = State.reset) = true := by simp [State.withFetchWord, decodeTableWord]

/-! ## Waiting, refusing, and what fails -/

/-- The object with its first tile on the move. -/
def movingObject (s : State) : State := (withObject s).setTile 0 { (withObject s).tile 0 with moving := true }

/-- An instruction whose bytes go to a moving tile waits with them, and stalls once (R208, R215). -/
theorem test_complete_stalls : (let f := { inAir (word 0x40 0) [] with writes := bytesAt 0x10000 one32 }
    let s := movingObject (flying .v f)
    (s.mayComplete 0 .v 0).isSome && nextIs (.instructionComplete 0 .v 0) s (fun t => decide ((t.room 0).vf = [f] ∧ t.mem = s.mem ∧
      t.getF Csr.migStat_WSTALL = 1))) = true := by decide +kernel

/-- A move that reads what a MUPD before it updates is in flight with its bytes still to be formed (R37). -/
theorem test_move_deferred : (let e := entry (word 0x80 0) (some (inOB 0 256 0 1 1)) (some (inOB 1 0 0 1 1)) none
    let s := (satchel .fence).setRoom 0 { (satchel .fence).room 0 with mq := [e] }
    s.satClash 0 e && nextIs (.mload 0) s (fun t => (t.room 0).mf.map (fun f => (f.deferred, f.writes)) == [(true, [])])) = true := by decide +kernel

/-- A MUPD whose master lies in a moving tile waits (R208, R367). -/
theorem test_mupd_waits : (let s := movingObject (satchel .updating)
    let r := s.room 0
    nextIs (.mupdComplete 0) (s.setRoom 0 { r with sat := r.sat.map (fun x => { x with writes := bytesAt 0x10000 one32 }) })
      (fun t => decide ((t.room 0).sat.length = 1))) = true := by decide +kernel

/-- A product that loads its tile itself abandons a TLOADW under way, which completes (R104). -/
theorem test_load_abandoned : (let e := entry (word 0x00 0) (some (inOB 0 0 0 1 1)) (some (inOB 1 64 1 2 1)) (some (inOB 2 128 1 1 2))
    let s := withHead .t e [(64, oneTwo), (128, [0x80, 0x3F]), (4224, [0x00, 0x40])]
    let l := inAir (word 0x08 0) []
    nextIs (.tmul 0) (s.setRoom 0 { s.room 0 with tf := [l] }) (fun t => (t.room 0).tf.map (fun f => f.entry) == [e])) = true := by decide +kernel

/-- A LESSON_LOAD of an image that cannot be read is refused and nothing is freed; a write barred by another context's lesson ends it
(R30, R244). -/
theorem test_lesson_refused : (let gone := { loading true 0 with objs := [] }
    nextIs (.lessonLoad 5) gone (fun t => decide ((t.ctx 5).started = [])) &&
    nextIs (.lessonLoadDone 5) (((loading false 0).setCtx 5 { (loading false 0).ctx 5 with started := (((loading false 0).ctx 5).started.map
      (fun c => { c with todo := 1, count := 1 })) }).setRoom 0 { Classroom.idle with resident := [⟨6, 0, 1⟩] }) (fun t =>
      decide ((t.ctx 5).started = [] ∧ (t.room 0).resident = [⟨6, 0, 1⟩]))) = true := by decide +kernel

/-- A start without a lesson, and with a lesson and a table that cannot be read, meet their clauses (R33). -/
theorem test_start_fails : (let s := ((lab.setFs [(Csr.clsStatus_STATE 0, 1), (Csr.clsDtab_DVA 0, 0x90000)]).wr (Csr.clsFlags 0) 5)
    nextIs (.classroomStart 0) s (fun t => decide (t.mem = s.mem)) &&
    decide (s.lessonAt 0 0 = none ∧ (s.setRoom 0 { Classroom.idle with resident := [⟨5, 0, 1⟩] }).dtabOf 0 = 0x90000)) = true := by decide +kernel
theorem test_table_unreadable : ∃ e, (lab.setRoom 0 { Classroom.idle with resident := [⟨5, 0, 1⟩] }).readObjs 0 0x90000 8192 = .error e :=
  ⟨.access 0x90000, by rw [State.readObjs, if_pos (by decide)]; rfl⟩

/-- A HALT after the core's failure has ended the LAUNCH still halts its classrooms (R258). -/
theorem test_halt_after_core : nextIs (.halt 5) (launched 6 2 5 none) (fun t => decide (t.getF (Csr.clsStatus_STATE 0) = 3 ∧ (t.ctx 5).started.length = 1)) =
    true := by decide +kernel

/-- A command that cannot be read completes with the status of the access, and SQ_HEAD moves on (R205, R248). -/
theorem test_command_unreadable : (let s := ((submitted 1 8).setFs [(Csr.ctxSqBase_DVA 5, 0x90000), (Csr.ctxCqBase_DVA 5, 0x10000)])
    nextIs (.commandRead 5) s (fun t => decide ((t.ctx 5).started = [] ∧ t.getF (Csr.ctxSqHead_HEAD 5) = 1 ∧ t.peek (slowAddr 0 8 4) = 0x0D))) =
    true := by decide +kernel

/-- CTX_CLOSE waits while a completed operation of its group has announced bytes that are not in place (R261, R343). -/
theorem test_close_waits : (let s := opened 2 (ctxCmd 8 2 (List.replicate 64 0)) { Ctx.closed with bound := 1 }
    let g := (movingObject s).setGroup 0 7 (some ⟨5, groupRecord 2, [0, 1], 0⟩)
    let w : State := { g with held := [⟨0, [(0x10000, 1)], .prefect 0 0, none⟩], ops := [postedOp 2 true true [] []], posted := 1 }
    decide (w.groupsJoined 5 = [(0, 7)]) && nextIs (.ctxClose 5) w (fun t => decide (t.ctxSt 5 = if w.groupWaits 0 7 then 2 else 0))) = true := by
  decide +kernel

/-- A group record and a posted entry that cannot be read (R335, R339). -/
theorem test_unreadable_entries : nextIs (.groupJoin 5) (pftCmd 0x10 (leBytes 8 0x90000)) (fun t => decide (t.group 0 7 = none ∧ (t.ctx 5).started = [])) &&
    nextIs (.operationPost 0) ((posting []).setFs [(Csr.pftPartQBase_DVA 0, 0x90000), (Csr.pftPartQTail_TAIL 0, 1)]) (fun t =>
      decide (t.ops = [] ∧ t.getF (Csr.pftPartQHead_HEAD 0) = 1 ∧ t.peek (slowAddr 0 8 0x8004) = 0x0D)) = true := by decide +kernel

/-- With the completion ring's tile moving, completing and refusing wait (R208, R343). -/
theorem test_completion_waits : (let s := movingObject (posting [postedOp 2 true true [(0, 0, 0)] []])
    nextIs .operationComplete { s with ops := [postedOp 2 true true [(0, 0, 0)] []] } (fun t => decide (t.ops.length = 1 ∧ t.getF (Csr.pftPartCqTail_TAIL 0) = 0))) =
    true := by decide +kernel

/-- A request of a port to a slice waits there; a prefetch without a prefetcher is nothing; a read that the write buffer holds is accepted
and waits nowhere (R217, R220, R230). -/
theorem test_slice_request : (let s := migState []
    nextIs (.requestAdmission (.slice 9) (.ni 0) 0 1 0 0 64 false .clean) s (fun t => decide (t.sliceReqs = [(9, oneRead)])) &&
    nextIs (.requestAdmission (.channel 0) (.mPrefetch 3) 0 1 0 0 64 false .clean) s (fun t => decide (t = s)) &&
    nextIs (.requestAdmission (.channel 0) (.ni 0) 0 1 0 0 64 false .clean) (s.setSorter 0 { Sorter.empty with wbuf := [{ oneRead with write := true }] } [])
      (fun t => decide ((t.sorter 0).waiting = []))) = true := by decide +kernel

/-- A transfer that the link lost 16 times poisons its tile; one mended after 3 retries counts (R203). -/
theorem test_lost_transfer : (let s (f : Nat) := (migState []).setSorter 0 { Sorter.empty with waiting := [{ oneRead with frame := f }] } []
    nextIs (.bankCommand 0 (Fin.ofNat 16 (SortReq.bank { oneRead with frame := 8 })) .clean .failed) (s 8) (fun t => (t.tile 0).poison) &&
    nextIs (.bankCommand 0 (Fin.ofNat 16 (SortReq.bank oneRead)) .corrected .clean) (s 1) (fun t => decide (t.getF (Csr.memCe_ONDIE 0) = 1))) = true := by decide +kernel

/-- A peer's copy for another node goes on by its route; another job's is dropped and counted (R325, R370). -/
theorem test_peer_copy_tags : (let s := (withObject (routing (message 6 1 true none))).setFs [(Csr.niRcState_STATE 3, 3)]
    nextIs (.peerCopyReceive 3 9 1 0x10008 [0x5A] true true) s (fun t => decide (t.peer = [.pass 5 9 1 0x10008 [0x5A]])) &&
    nextIs (.peerCopyReceive 3 6 2 0x10008 [0x5A] true true) s (fun t => decide (t.peer = [] ∧ t.getF (Csr.niRcStat_TAG_DROP 3) = 1))) = true := by decide +kernel

/-- A DMA sample without room is lost, in a bad slot an error, and at a moving tile it stays (R367, R413). -/
theorem test_sample_kept : (let x : Sample := ⟨0, 3, List.replicate 32 0x5A⟩
    let s (dva n : Nat) : State := { (movingObject lab).setFs [(Csr.pmuPartSbufBase_DVA 0, dva), (Csr.pmuPartSbufBase_LOG2 0, 5), (Csr.pmuPartSbufWr_INDEX 0, n)] with
      samples := [x] }
    nextIs (.sampleWrite 0) (s 0x20000 32) (fun t => decide (t.samples = [] ∧ t.getF (Csr.pmuPartSbufStat_LOST 0) = 1)) &&
    nextIs (.sampleWrite 0) (s 0x90000 0) (fun t => decide (t.samples = []) && t.flag (Csr.pmuPartSbufStat_ERR 0)) &&
    nextIs (.sampleWrite 0) (s 0x10000 0) (fun t => decide (t.samples = [x]))) = true := by decide +kernel

/-- A MIG completion whose record's tile moves waits (R205, R367). -/
theorem test_mig_completion_waits : nextIs (.migCompletion 0) ((movingObject (migState [{ migEntry 5 0 with fresh := false, status := some 0 }])).setF
    (Csr.migPartCqBase_DVA 0) 0x10000) (fun t => decide (t.getF (Csr.migPartQHead_HEAD 0) = 0 ∧ (t.mig 0).started.length = 1)) = true := by decide +kernel

/-- The third failed poll in a row loses the module; the third sweep without a resonance is recorded (R273, R282). -/
theorem test_third_failures : nextIs (.laserPoll 0 false 0 0 0 []) (lit.withOptics (fun o => { o with fails := setCnt o.fails 0 2 })) (fun t =>
      !t.flag (Csr.elsStatus_PRESENT 0) && decide (t.getF Csr.errDevWr_WR = 1)) &&
    nextIs (.sweepDone 1 true 8 false 0 0) ((ringed 1).withOptics (fun o => { o with sweeps := setCnt o.sweeps (laneKey 1 true 8) 2 })) (fun t =>
      decide (t.getF Csr.errDevWr_WR = 1)) = true := by decide +kernel

end Sys2Proof.Tests
end

/-! SUPPORT. The fault stop: what recording a fault writes and keeps, and the token update that ends in one (R43, R65). -/

namespace Sys2Proof.Machine

variable {s : State} {c k q pc enc : Nat} {f : FaultInfo} {g : Fld} {d : Int}

/-! ## Fields set in turn -/

/-- Setting fields in turn leaves every field apart from all of them. -/
theorem State.getF_setFs_apart {l : List (Fld × Nat)} (h : ∀ x ∈ l, x.1.fits = true ∧ x.1.apart g = true) :
    (s.setFs l).getF g = s.getF g := by
  induction l generalizing s with
  | nil => rfl
  | cons x r ih =>
    obtain ⟨hx, hr⟩ := List.forall_mem_cons.mp h
    calc ((s.setF x.1 x.2).setFs r).getF g
      _ = (s.setF x.1 x.2).getF g := ih hr
      _ = s.getF g := State.getF_setF_apart hx.1 hx.2

/-- A field that is set first, and that no later one touches, reads as it was set. -/
theorem State.getF_setFs_head {l : List (Fld × Nat)} {v : Nat} (hg : g.fits = true)
    (h : ∀ x ∈ l, x.1.fits = true ∧ x.1.apart g = true) : (s.setFs ((g, v) :: l)).getF g = v % 2 ^ g.len :=
  calc ((s.setF g v).setFs l).getF g
    _ = (s.setF g v).getF g := State.getF_setFs_apart h
    _ = v % 2 ^ g.len := State.getF_setF_same hg

/-! ## Recording a fault (R65) -/

theorem causeCode_lt (x : Cause) : causeCode x < 256 := by cases x <;> decide

/-- The registers of another address than FAULT0, FAULT1 and FAULT2 of the classroom are kept. -/
theorem State.recordStop_getF_other (h0 : g.addr ≠ Csr.clsFault0 c) (h1 : g.addr ≠ Csr.clsFault1 c)
    (h2 : g.addr ≠ Csr.clsFault2 c) : (s.recordStop c q pc enc f).getF g = s.getF g := by
  have a0 : ∀ lo len, (⟨Csr.clsFault0 c, lo, len⟩ : Fld).apart g = true := fun _ _ => Fld.apart_of_addr h0.symm
  have a1 : ∀ lo len, (⟨Csr.clsFault1 c, lo, len⟩ : Fld).apart g = true := fun _ _ => Fld.apart_of_addr h1.symm
  have a2 : ∀ lo len, (⟨Csr.clsFault2 c, lo, len⟩ : Fld).apart g = true := fun _ _ => Fld.apart_of_addr h2.symm
  unfold State.recordStop
  split
  · exact State.getF_setF_apart rfl (a0 _ _)
  · rw [State.setRoom_getF]
    apply State.getF_setFs_apart
    simp only [List.forall_mem_cons]
    exact ⟨⟨rfl, a0 _ _⟩, ⟨rfl, a0 _ _⟩, ⟨rfl, a0 _ _⟩, ⟨rfl, a0 _ _⟩, ⟨rfl, a0 _ _⟩, ⟨rfl, a1 _ _⟩, ⟨rfl, a2 _ _⟩, ⟨rfl, a2 _ _⟩, nofun⟩

/-- The first fault is named in CAUSE. -/
theorem State.recordStop_cause (h : s.getF (Csr.clsFault0_CAUSE c) = 0) :
    (s.recordStop c q pc enc f).getF (Csr.clsFault0_CAUSE c) = causeCode f.cause := by
  have above : ∀ {lo len : Nat}, 8 ≤ lo → (⟨Csr.clsFault0 c, lo, len⟩ : Fld).apart (Csr.clsFault0_CAUSE c) = true := by
    intro lo len hlo
    simp [Fld.apart, Csr.clsFault0_CAUSE, hlo]
  have n1 : Csr.clsFault1 c ≠ Csr.clsFault0 c := by unfold Csr.clsFault1 Csr.clsFault0; omega
  have n2 : Csr.clsFault2 c ≠ Csr.clsFault0 c := by unfold Csr.clsFault2 Csr.clsFault0; omega
  unfold State.recordStop
  rw [if_neg (not_not.mpr h), State.setRoom_getF, State.getF_setFs_head rfl]
  · exact Nat.mod_eq_of_lt (causeCode_lt f.cause)
  · simp only [List.forall_mem_cons]
    exact ⟨⟨rfl, above (by decide)⟩, ⟨rfl, above (by decide)⟩, ⟨rfl, above (by decide)⟩, ⟨rfl, above (by decide)⟩,
      ⟨rfl, Fld.apart_of_addr n1⟩, ⟨rfl, Fld.apart_of_addr n2⟩, ⟨rfl, Fld.apart_of_addr n2⟩, nofun⟩

/-- The first fault begins the stop. -/
theorem State.recordStop_stopping (h : s.getF (Csr.clsFault0_CAUSE c) = 0) :
    ((s.recordStop c q pc enc f).room c).stopping = true := by
  unfold State.recordStop
  rw [if_neg (not_not.mpr h), State.room_setRoom, if_pos rfl]

/-- A later fault sets MULTI. -/
theorem State.recordStop_multi (h : s.getF (Csr.clsFault0_CAUSE c) ≠ 0) :
    (s.recordStop c q pc enc f).getF (Csr.clsFault0_MULTI c) = 1 := by
  unfold State.recordStop
  rw [if_pos h, State.getF_setF_same rfl]
  rfl

/-- A fault stop changes no token. -/
theorem State.recordStop_count :
    (s.recordStop c q pc enc f).getF (Csr.clsTok_COUNT c k) = s.getF (Csr.clsTok_COUNT c k) := by
  apply State.recordStop_getF_other <;>
    (simp only [Csr.clsTok_COUNT, Csr.clsTok, Csr.clsFault0, Csr.clsFault1, Csr.clsFault2]; omega)

/-! ## The token update that is not applied (R43) -/

/-- An update that leaves 0 to 65,535 is the record of its fault and nothing else. -/
theorem State.tokenAdd_out_of_range (h : Int.ofNat (s.getF (Csr.clsTok_COUNT c k)) + d < 0 ∨
    65535 < Int.ofNat (s.getF (Csr.clsTok_COUNT c k)) + d) :
    s.tokenAdd c k d q pc enc = s.recordStop c q pc enc ⟨.tokenRange, 0, 0, k⟩ := by
  unfold State.tokenAdd
  exact if_neg (by omega)

/-- Settles O11: the update is the record of a TOKEN_RANGE fault, which keeps every token and either begins the stop or,
after an earlier fault, sets MULTI. -/
theorem tokenRangeStops : Obligations.TokenRangeStops := by
  intro s c k d q pc enc n _ hn
  rw [State.tokenAdd_out_of_range hn]
  exact ⟨State.recordStop_count, fun h => ⟨State.recordStop_cause h, State.recordStop_stopping h⟩, State.recordStop_multi⟩

end Sys2Proof.Machine

/-! SUPPORT. The scan instructions in and outside reset (R464, R465), and which host accesses are denied or refused before
READY and in RECOVERY (R242, R450). -/

namespace Sys2Proof.Machine

/-! ## Boundary scan (R464, R465) -/

section
variable {s : State} {i : JtagInstr} {l : Lands} {out : List Byte} {captured shifted : List Bool}

/-- Loading an instruction touches nothing outside the JTAG port. -/
theorem State.jtagInsn_rest : s.jtagInsn i l out = { s with jtag := (s.jtagInsn i l out).jtag } := rfl

/-- A boundary scan touches nothing outside the JTAG port. -/
theorem State.boundaryScan_rest :
    s.boundaryScan i l captured shifted = { s with jtag := (s.boundaryScan i l captured shifted).jtag } := rfl

@[simp] theorem State.boundaryScan_lands : (s.boundaryScan i l captured shifted).jtag.lands = l := (rfl)

@[simp] theorem State.boundaryScan_boundary : (s.boundaryScan i l captured shifted).jtag.boundary = shifted := (rfl)

theorem exec_bypass : exec .bypass s = .next (s.jtagInsn .bypass .function []) := rfl

theorem exec_extest_inReset :
    exec (.extest true captured shifted) s = .next (s.boundaryScan .extest .boundary captured shifted) := rfl

theorem exec_clamp_inReset : exec (.clamp true) s = .next (s.jtagInsn .clamp .boundary []) := rfl

theorem exec_highz_inReset : exec (.highz true) s = .next (s.jtagInsn .highz .released []) := rfl

theorem exec_extest_outside : exec (.extest false captured shifted) s = exec .bypass s := rfl

theorem exec_clamp_outside : exec (.clamp false) s = exec .bypass s := rfl

theorem exec_highz_outside : exec (.highz false) s = exec .bypass s := rfl

end

/-- Settles O43: in reset each instruction sets what drives the lands and keeps all but the JTAG port; outside it each is
BYPASS. -/
theorem boundaryScanOnlyInReset : Obligations.BoundaryScanOnlyInReset := by
  intro s captured shifted
  refine ⟨answers_of exec_extest_inReset ⟨State.boundaryScan_rest, State.boundaryScan_lands, State.boundaryScan_boundary⟩,
    answers_of exec_clamp_inReset ⟨State.jtagInsn_rest, ?_, ?_⟩,
    answers_of exec_highz_inReset ⟨State.jtagInsn_rest, ?_⟩,
    exec_extest_outside, exec_clamp_outside, exec_highz_outside, answers_of exec_bypass ?_⟩
  all_goals rw [State.jtagInsn_jtag]

/-! ## Accesses before READY and in RECOVERY (R450) -/

theorem inWindow_iff {a lo hi : Nat} : inWindow a lo hi = true ↔ lo ≤ a ∧ a < hi := by
  simp [inWindow]

/-- R450's list, as a port that asks finds it. -/
theorem servedEarly_iff {k a mgmt : Nat} {recovery : Bool} : servedEarly k a mgmt recovery = true ↔
    a = Csr.sysId ∨ a = Csr.sysSerial ∨ a = Csr.sysBoot ∨ a = Csr.sysPartCap ∨ (0x400000 ≤ a ∧ a < 0x500000) ∨
      (Csr.hlId k ≤ a ∧ a < Csr.hlId (k + 1)) ∨
      (k = mgmt ∧ 0x300000 ≤ a ∧ a < 0x400000 ∧
        (recovery = true ∨ ¬(a = Csr.secFlashCmd ∨ (Csr.secFlashBuf 0 ≤ a ∧ a < Csr.secFlashBuf 512)))) := by
  simp only [servedEarly, Bool.or_eq_true, Bool.and_eq_true, Bool.not_eq_true', ← Bool.not_eq_true, decide_eq_true_eq,
    inWindow_iff, or_assoc, and_assoc]

section
variable {s : State} {k a : Nat} {w : AccWidth}

/-- What R450 does not serve is denied. -/
theorem State.access_unserved (hb : s.booted = false) (hs : ¬servedEarly k a s.mgmtPort s.inRecovery = true) :
    s.access k a = .denied := by
  simp [State.access, hb, hs]

/-- What R450 serves has the rights of R242. -/
theorem State.access_served (hs : servedEarly k a s.mgmtPort s.inRecovery = true) :
    s.access k a = if !inWindows a then .full else if k = s.mgmtPort then .full else s.accessOther k a := by
  simp [State.access, hs]

/-- A write that the port may not make is counted and does nothing else (R242). -/
theorem State.hostWrite_denied {v : Word} {act : State → Nat → Nat → State} (hu : s.portUp k = true)
    (hd : (s.access k a).write = false) : s.hostWrite k a w v act = s.deny k a w := by
  simp [State.hostWrite, State.portServes, hu, hd]

/-- A read that the port may not make is counted and answered with 0 (R242). -/
theorem State.hostRead_denied {act : State → Nat → State × Word} (hu : s.portUp k = true)
    (hd : (s.access k a).read = false) : s.hostRead k a w act =
      { s.deny k a w with replies := (s.deny k a w).replies ++ [⟨k, .ok, accBytes w 0⟩] } := by
  simp [State.hostRead, State.portServes, hu, hd]

theorem exec_cfgWr {port : Fin 4} {r : Fin 33554432} {v : Word} : exec (.cfgWr port r w v) s =
    .next (s.hostWrite port (regAddr r) w v (regWrite port (regAddr r))) := rfl

theorem exec_rcRead {port : Fin 4} {r : Fin 33554432} : exec (.rcRead port r w) s =
    .next (s.hostRead port (regAddr r) w (fun t m => t.readReg (regAddr r) m)) := rfl

/-- Counting a denied access answers nothing. -/
theorem State.deny_replies : (s.deny k a w).replies = s.replies := by
  rw [State.deny, State.setF_replies, State.addF_replies]

end

section
variable {s : State} {port : Fin 4} {p : Fin 8} {dva : BitVec 48} {n : Nat} {data : List Byte}

/-- A read of fitting size by a port that is UP and has no access waiting is carried out at once. -/
theorem exec_memRd_now (hz : memSizeOk dva.toNat n = true) (hu : s.portUp port = true) (hw : s.portWaits port = false) :
    exec (.memRd port p dva n) s = .next (s.memRead port p dva.toNat n) := by
  change execMemRd port p dva n s = _
  simp [execMemRd, State.portServes, hz, hu, hw]

/-- A write of fitting size by a port that is UP and has no access waiting is carried out at once. -/
theorem exec_memWr_now (hz : memSizeOk dva.toNat data.length = true) (hu : s.portUp port = true)
    (hw : s.portWaits port = false) :
    exec (.memWr port p dva data) s = .next (s.memWrite port p dva.toNat data) := by
  change execMemWr port p dva data s = _
  simp [execMemWr, State.portServes, hz, hu, hw]

/-- Before READY a read of memory is answered with an error and counted nowhere (log entry 27). -/
theorem State.memRead_unbooted {k q d : Nat} (hb : s.booted = false) : s.memRead k q d n = s.reply k .error [] := by
  simp [State.memRead, hb]

/-- Before READY a write of memory is answered with an error and counted nowhere (log entry 27). -/
theorem State.memWrite_unbooted {k q d : Nat} (hb : s.booted = false) : s.memWrite k q d data = s.reply k .error [] := by
  simp [State.memWrite, hb]

end

/-- Settles O28: R450's list decides between the rights of R242 and a denial, and memory is refused whatever the address. -/
theorem beforeReadyFewRegistersAreServed : Obligations.BeforeReadyFewRegistersAreServed := by
  intro s port r w v a flash served hb hu
  have denied (hs : ¬served) : s.access port a = .denied := State.access_unserved hb (mt servedEarly_iff.mp hs)
  refine ⟨fun hs => State.access_served (servedEarly_iff.mpr hs), fun hs => ⟨?write, ?read⟩,
    fun p dva n data hw => ⟨fun hz => ?memRd, fun hz => ?memWr⟩⟩
  case write =>
    have hd : (s.access port a).write = false := by rw [denied hs]; rfl
    rw [exec_cfgWr, State.hostWrite_denied hu hd]
  case read =>
    have hd : (s.access port a).read = false := by rw [denied hs]; rfl
    exact answers_of exec_rcRead ((State.hostRead_denied hu hd).trans (by rw [State.deny_replies]))
  case memRd => rw [exec_memRd_now hz hu hw, State.memRead_unbooted hb]
  case memWr => rw [exec_memWr_now hz hu hw, State.memWrite_unbooted hb]

end Sys2Proof.Machine

/-! SUPPORT. Every command but a host transfer of an impossible size goes on, to a state that keeps the tables' form, the queue
and the count of drawn values: one lemma per command that branches, and the case split over the commands. -/

namespace Sys2Proof.Machine

/-- The command goes on: its outcome is a next state, and that state follows `s`. -/
def State.GoesOn (s : State) (o : Host.Outcome State Fault Refusal) : Prop := ∃ t, o = .next t ∧ s.Follows t

section
variable {s t : State}

theorem State.GoesOn.next (h : s.Follows t) : s.GoesOn (.next t) := ⟨t, rfl, h⟩

theorem State.GoesOn.stay : s.GoesOn (.next s) := .next (.refl s)

theorem State.GoesOn.ite {c : Prop} [Decidable c] {a b : Host.Outcome State Fault Refusal} (ha : s.GoesOn a) (hb : s.GoesOn b) :
    s.GoesOn (if c then a else b) := by
  split
  · exact ha
  · exact hb

theorem State.GoesOn.hostWrite {k a : Nat} {w : AccWidth} {v : Word} {act : State → Nat → Nat → State}
    (h : ∀ t x m, s.Follows t → s.Follows (act t x m)) : s.GoesOn (.next (s.hostWrite k a w v act)) :=
  .next (State.hostWrite_follows (.refl s) k a w v act h)

/-! ## One command after the other, branch by branch -/

theorem execParkedAdmission_goesOn {ch : Fin 48} : s.GoesOn (execParkedAdmission ch s) := by
  unfold execParkedAdmission
  dsimp only
  split
  · exact .stay
  · exact .ite (.next (State.setSorter_follows (.refl s) _ _ _)) .stay

theorem execRequestUrgent_goesOn {ch : Fin 48} {n : Nat} : s.GoesOn (execRequestUrgent ch n s) := by
  unfold execRequestUrgent
  dsimp only
  split
  · exact .stay
  · exact .ite .stay (.next (State.setSorter_follows (State.addF_follows (.refl s) _ _) _ _ _))

theorem execBankHotspot_goesOn {ch : Fin 48} {b : Fin 16} {due : Bool} : s.GoesOn (execBankHotspot ch b due s) :=
  .ite .stay (.ite (.next (State.withhold_follows (.refl s) _)) (.next (State.setSorter_follows (State.setF_follows
    (State.addF_follows (State.recordDP_follows (.refl s) _ _ _ _ _ _) _ _) _ _) _ _ _)))

theorem execLinkEventTimer_goesOn {port : Fin 36} : s.GoesOn (execLinkEventTimer port s) :=
  .ite (.next (State.setLinkT_follows (State.sendLink_follows (.refl s) _) _ _)) (.next (State.setLinkT_follows (.refl s) _ _))

theorem execZhlSignalDetect_goesOn {k : Fin 4} {lanes : BitVec 8} : s.GoesOn (execZhlSignalDetect k lanes s) :=
  .ite .stay (.ite (.next (State.setHl_follows (State.setF_follows (.refl s) _ _) _ _ _ _)) (.next (State.setF_follows
    (.refl s) _ _)))

theorem execZhlTrained_goesOn {k : Fin 4} {lanes : BitVec 8} : s.GoesOn (execZhlTrained k lanes s) :=
  .ite .stay (.ite (.next (State.linkChange_follows (State.setHl_follows (.refl s) _ _ _ _) _)) (.ite (.next
    (State.linkChange_follows (State.setHl_follows (.refl s) _ _ _ _) _)) (.next (State.setF_follows (.refl s) _ _))))

theorem execZhlTrainingTimeout_goesOn {k : Fin 4} : s.GoesOn (execZhlTrainingTimeout k s) :=
  .ite (.next (State.setHl_follows (.refl s) _ _ _ _)) .stay

theorem execZhlLinkLoss_goesOn {k : Fin 4} {lanes : BitVec 8} {fec retries : Nat} :
    s.GoesOn (execZhlLinkLoss k lanes fec retries s) :=
  .ite (.next (State.zhlDown_follows (State.setF_follows (State.addF_follows (State.addF_follows
    (.refl s) _ _) _ _) _ _) _ _)) .stay

theorem execMupd_goesOn {c : Fin 64} : s.GoesOn (execMupd c s) := by
  unfold execMupd
  split
  · exact .stay
  · exact .ite .stay (.next (State.setF_follows (State.setRoom_follows (State.sampleIssue_follows (State.popHead_follows
      (.refl s) _ _ _) _ _) _ _) _ _))

theorem execSwait_goesOn {c : Fin 64} : s.GoesOn (execSwait c s) := by
  unfold execSwait
  split
  · exact .stay
  · exact .ite (.next (State.launchInsn_follows (State.popHead_follows (.refl s) _ _ _) _ _ _ _)) .stay

theorem execSsig_goesOn {c : Fin 64} : s.GoesOn (execSsig c s) := by
  unfold execSsig
  split
  · exact .stay
  · exact .next (State.tokenOp_follows (State.launchInsn_follows (State.popHead_follows (.refl s) _ _ _) _ _ _ _) _ _)

theorem execSfence_goesOn {c : Fin 64} : s.GoesOn (execSfence c s) := by
  unfold execSfence
  split
  · exact .stay
  · exact .next (State.mapLastS_follows (State.launchInsn_follows (State.popHead_follows (.refl s) _ _ _) _ _ _ _) _ _)

theorem execSbar_goesOn {c : Fin 64} : s.GoesOn (execSbar c s) := by
  unfold execSbar
  split
  · exact .stay
  · exact .ite (.next (State.issueFault_follows (State.popHead_follows (.refl s) _ _ _) _ _ _ _)) (.ite (.next
      (State.setBar_follows (State.mapLastS_follows (State.launchInsn_follows (State.popHead_follows
      (.refl s) _ _ _) _ _ _ _) _ _) _ _)) (.next (.foldl (State.setBar_follows (State.mapLastS_follows
      (State.launchInsn_follows (State.popHead_follows (.refl s) _ _ _) _ _ _ _) _ _) _ _)
      (fun _ _ h => State.releaseBar_follows h _ _ _))))

theorem execStrig_goesOn {c : Fin 64} : s.GoesOn (execStrig c s) := by
  unfold execStrig
  split
  · exact .stay
  · exact .next (State.launchInsn_follows (State.popHead_follows (.refl s) _ _ _) _ _ _ _)

theorem execSend_goesOn {c : Fin 64} : s.GoesOn (execSend c s) := by
  unfold execSend
  split
  · exact .stay
  · exact .ite (.next (State.setF_follows (State.sampleEnd_follows (State.sampleIssue_follows (State.popHead_follows
      (.refl s) _ _ _) _ _) _ _ _ _ _ _) _ _)) .stay

theorem execInstructionComplete_goesOn {c : Fin 64} {q : Queue} {n : Nat} : s.GoesOn (execInstructionComplete c q n s) := by
  unfold execInstructionComplete
  split
  · exact .stay
  · refine .ite ?_ (.next (State.landOrStall_follows (.refl s) _ _ _ _))
    split
    · exact .next (State.stopDeferred_follows (.refl s) _ _ _ _)
    · exact .next (State.landOrStall_follows (State.formDeferred_follows (.refl s) _ _ _) _ _ _ _)

theorem execReadInc_goesOn {c : Fin 64} {q : Queue} {n : Nat} : s.GoesOn (execReadInc c q n s) := by
  unfold execReadInc
  dsimp only
  split
  · exact .stay
  · exact .ite (.next (.ite (State.tokenAdd_follows (State.setRoom_follows (.ite (State.endStream_follows (.refl s) _ _)
      (.refl s)) _ _) _ _ _ _ _ _) (State.setRoom_follows (.ite (State.endStream_follows (.refl s) _ _) (.refl s)) _ _))) .stay

theorem execWaitTimeout_goesOn {c : Fin 64} {q : Queue} : s.GoesOn (execWaitTimeout c q s) := by
  unfold execWaitTimeout
  refine .ite ?_ .stay
  split
  · exact .stay
  · exact .next (State.faultCls_follows (.refl s) _ _ _ _ _)

theorem execRampSlotRequest_goesOn {c : Fin 64} : s.GoesOn (execRampSlotRequest c s) :=
  .ite (.next (State.askRamp_follows (.ite (State.endStream_follows (.refl s) _ _) (.refl s)) _)) (.next (.ite
    (State.endStream_follows (.refl s) _ _) (.refl s)))

theorem execRampStep_goesOn {c : Fin 64} : s.GoesOn (execRampStep c s) := by
  unfold execRampStep
  dsimp only
  split
  · exact .ite (.next (State.setF_follows (.refl s) _ _)) (.next (State.addF_follows (State.setF_follows (State.setF_follows
      (State.freeRamp_follows (.refl s) _) _ _) _ _) _ _))
  · exact .ite (.next (State.setF_follows (.refl s) _ _)) (.next (State.setRoom_follows (State.setF_follows
      (State.setF_follows (State.freeRamp_follows (.refl s) _) _ _) _ _) _ _))
  · exact .stay

theorem execSloop_goesOn {c : Fin 64} {ecc : Ecc} : s.GoesOn (execSloop c ecc s) :=
  .ite (.next (State.frontEnd_follows (.refl s) _ _)) .stay

theorem execFenceDrain_goesOn {c : Fin 64} : s.GoesOn (execFenceDrain c s) := by
  unfold execFenceDrain
  split
  · exact .stay
  · refine .ite .stay ?_
    split
    · exact .next (State.startUpdate_follows (.refl s) _ _ _ _)
    · exact .stay

theorem execFenceTimeout_goesOn {c : Fin 64} : s.GoesOn (execFenceTimeout c s) := by
  unfold execFenceTimeout
  split
  · exact .stay
  · exact .ite .stay (.next (State.markFence_follows (State.setSatHead_follows (State.addF_follows (State.recordP_follows
      (.refl s) _ _ _ _ _ _ _ _) _ _) _ _) _))

theorem execMupdComplete_goesOn {c : Fin 64} : s.GoesOn (execMupdComplete c s) := by
  unfold execMupdComplete
  split
  · exact .stay
  · exact .ite .stay (.ite (.next (State.stall_follows (.refl s) _ _ _)) (.next (State.endMupd_follows (.refl s) _ _)))

theorem execMigEntryRead_goesOn {p : Fin 8} : s.GoesOn (execMigEntryRead p s) :=
  .ite .stay (.next (State.migRead_follows (.refl s) _))

theorem execMigCompletion_goesOn {p : Fin 8} : s.GoesOn (execMigCompletion p s) := by
  unfold execMigCompletion
  split
  · exact .stay
  · split
    · exact .stay
    · exact .ite .stay (.ite (.next (State.stall_follows (.refl s) _ _ _)) (.next (.ite (State.setMig_follows
        (State.setF_follows (State.writeRing_follows (.refl s) _ _ _) _ _) _ _) (State.sendMigCq_follows (State.setMig_follows
        (State.setF_follows (State.writeRing_follows (.refl s) _ _ _) _ _) _ _) _ _))))

theorem execMigCqEventTimer_goesOn {p : Fin 8} : s.GoesOn (execMigCqEventTimer p s) := by
  unfold execMigCqEventTimer
  split
  · exact .stay
  · exact .next (State.sendMigCq_follows (.refl s) _ _)

theorem execObjCreate_goesOn {p : Fin 8} : s.GoesOn (execObjCreate p s) := by
  unfold execObjCreate
  split
  · exact .stay
  · split
    · exact .next (State.endEntry_follows (.refl s) _ _ _)
    · exact .next (State.endEntry_follows (.ite (State.addSram_follows (State.grantSram_follows (State.setObj_follows
        (.refl s) _ _) _ _ _ _) _ _) (State.addF_follows (State.grantSlow_follows (State.setObj_follows
        (.refl s) _ _) _ _ _ _) _ _)) _ _ _)

theorem execObjDestroy_goesOn {p : Fin 8} : s.GoesOn (execObjDestroy p s) := by
  unfold execObjDestroy
  split
  · exact .stay
  · split
    · exact .next (State.endEntry_follows (.refl s) _ _ _)
    · exact .ite (.next (State.endEntry_follows (.refl s) _ _ _)) (.next (State.settleDestroys_follows (State.setEntry_follows
        (State.setObj_follows (.refl s) _ _) _ _) _))

theorem execPromote_goesOn {p : Fin 8} : s.GoesOn (execPromote p s) := by
  unfold execPromote
  split
  · exact .stay
  · exact .ite (.next (State.endEntry_follows (.refl s) _ _ _)) (.next (State.settleEntry_follows (.refl s) _ _))

theorem execDemote_goesOn {p : Fin 8} : s.GoesOn (execDemote p s) := by
  unfold execDemote
  split
  · exact .stay
  · exact .next (State.settleEntry_follows (.refl s) _ _)

theorem execTileMoveStart_goesOn {p : Fin 8} {idx t : Nat} : s.GoesOn (execTileMoveStart p idx t s) := by
  unfold execTileMoveStart
  split
  · exact .stay
  · exact .ite .stay (.next (State.settleDestroys_follows (.ite (State.startPromote_follows (.refl s) _ _ _)
      (State.startDemote_follows (.refl s) _ _ _)) _))

theorem execTileEntrySwitch_goesOn {n : Nat} {corrected : Nat} : s.GoesOn (execTileEntrySwitch n corrected s) := by
  unfold execTileEntrySwitch
  split
  · exact .stay
  · exact .ite .stay (.ite (.next (State.endMove_follows (State.toSram_follows (State.countCorrected_follows
      (.refl s) _ _) _ _ _) _ _)) (.next (State.endMove_follows (State.toSlow_follows (State.countCorrected_follows
      (.refl s) _ _) _) _ _)))

theorem execPin_goesOn {p : Fin 8} : s.GoesOn (execPin p s) := by
  unfold execPin
  split
  · exact .stay
  · exact .ite .stay (.next (State.endEntry_follows (State.mapTiles_follows (.refl s) _ _ _) _ _ _))

theorem execUnpin_goesOn {p : Fin 8} : s.GoesOn (execUnpin p s) := by
  unfold execUnpin
  split
  · exact .stay
  · exact .ite .stay (.next (State.endEntry_follows (State.mapTiles_follows (.refl s) _ _ _) _ _ _))

theorem execFence_goesOn {p : Fin 8} : s.GoesOn (execFence p s) := by
  unfold execFence
  split
  · exact .stay
  · exact .next (State.endEntry_follows (.refl s) _ _ _)

theorem execAgingTick_goesOn : s.GoesOn (execAgingTick s) :=
  .ite .stay (.next (.foldl (.refl s) (fun _ _ h => State.setTile_follows h _ _)))

theorem execPoisonTile_goesOn {p : Fin 8} {oi : Fin 1048576} {t : Nat} : s.GoesOn (execPoisonTile p oi t s) :=
  .ite .stay (.next (State.failTile_follows (.refl s) _))

theorem execScrubRead_goesOn {ch : Fin 48} {frame : Fin 262144} {ecc : Ecc} : s.GoesOn (execScrubRead ch frame ecc s) := by
  unfold execScrubRead
  refine .ite .stay ?_
  split
  · exact .stay
  · exact .next (State.addF_follows (.refl s) _ _)
  · split
    · exact .next (State.captureUe_follows (.refl s) _ _ _ _)
    · exact .next (.ite (State.captureUe_follows (.refl s) _ _ _ _) (State.poisonFrame_follows (State.captureUe_follows
        (.refl s) _ _ _ _) _ _))

theorem execSramDieFailed_goesOn {h : Fin 8} : s.GoesOn (execSramDieFailed h s) :=
  .ite .stay (.next (State.releaseHeld_follows (.foldl (.foldl (State.failRecord_follows (.foldl (.foldl
    (State.follows_deadDies (.refl s) _) (fun _ _ h => State.abandonMove_follows h _)) (fun _ _ h => State.toSlow_follows
    (State.abandonTile_follows h _) _)) _ _ _ _ _) (fun _ _ h => State.poisonNow_follows h _))
    (fun _ _ h => State.loseClassroom_follows h _))))

theorem execChannelFailed_goesOn {ch : Fin 48} : s.GoesOn (execChannelFailed ch s) :=
  .ite .stay (.next (.foldl (State.failRecord_follows (.foldl (State.setF_follows (.refl s) _ _)
    (fun _ _ h => State.setTile_follows (State.abandonTile_follows h _) _ _)) _ _ _ _ _)
    (fun _ _ h => State.poisonNow_follows h _)))

theorem execMprefPromotion_goesOn {die : Fin 2} : s.GoesOn (execMprefPromotion die s) := by
  unfold execMprefPromotion
  split
  · exact .stay
  · exact .ite .stay (.next (State.prefServe_follows (State.follows_prefq (.refl s) _) _))

theorem execRequestAdmission_goesOn {dest : Target} {who : Requester} {p : Fin 8} {frame : Fin 262144} {block : Fin 256} {first : Fin 256} {len : Nat} {write : Bool} {ecc : Ecc} :
    s.GoesOn (execRequestAdmission dest who p frame block first len write ecc s) :=
  .ite .stay (.ite (.next (State.sliceRead_follows (State.request_follows (.refl s) _ _) _ _ _)) (.next (State.request_follows
    (.refl s) _ _)))

theorem execBankCommand_goesOn {ch : Fin 48} {b : Fin 16} {ecc : Ecc} {link : LinkEcc} :
    s.GoesOn (execBankCommand ch b ecc link s) := by
  unfold execBankCommand
  split
  · exact .next (State.drainBank_follows (.refl s) _ _ _ _)
  · exact .next (State.serveRequest_follows (State.transfer_follows (.refl s) _ _ _ _) _ _ _)

theorem execCqEventTimer_goesOn {x : Fin 65536} : s.GoesOn (execCqEventTimer x s) := by
  unfold execCqEventTimer
  split
  · exact .stay
  · exact .ite (.next (State.cqEvent_follows (.refl s) _ _)) .stay

theorem execCommandRead_goesOn {x : Fin 65536} : s.GoesOn (execCommandRead x s) := by
  unfold execCommandRead
  split
  · exact .stay
  · exact .ite .stay (.next (State.readNext_follows (.refl s) _ _))

theorem execCtxOpen_goesOn {x : Fin 65536} : s.GoesOn (execCtxOpen x s) := by
  unfold execCtxOpen
  split
  · exact .stay
  · exact .next (State.complete_follows (State.addF_follows (State.setFs_follows (State.setCtx_follows
      (.refl s) _ _) _) _ _) _ _ _ _ _)

theorem execCtxBind_goesOn {x : Fin 65536} : s.GoesOn (execCtxBind x s) := by
  unfold execCtxBind
  split
  · exact .stay
  · exact .next (State.complete_follows (.ite (.ite (State.setCtx_follows (.foldl (.refl s) (fun _ _ h => .ite h
      (State.freeLessons_follows h _ _))) _ _) (State.moveCore_follows (State.setCtx_follows (.foldl (.refl s)
      (fun _ _ h => .ite h (State.freeLessons_follows h _ _))) _ _) _ _)) (State.restState_follows (.ite (State.setCtx_follows
      (.foldl (.refl s) (fun _ _ h => .ite h (State.freeLessons_follows h _ _))) _ _) (State.moveCore_follows
      (State.setCtx_follows (.foldl (.refl s) (fun _ _ h => .ite h (State.freeLessons_follows h _ _))) _ _) _ _)) _)) _ _ _ _ _)

theorem execLessonLoad_goesOn {x : Fin 65536} : s.GoesOn (execLessonLoad x s) := by
  unfold execLessonLoad
  split
  · split
    · exact .next (State.refuse_follows (.ite (State.addF_follows (.refl s) _ _) (.refl s)) _ _ _ _)
    · exact .next (State.putCmd_follows (.foldl (State.touch_follows (.refl s) _ _)
        (fun _ _ h => State.clearSegs_follows h _ _ _)) _ _)
  · exact .stay

theorem execLaunchComplete_goesOn {x : Fin 65536} : s.GoesOn (execLaunchComplete x s) := by
  unfold execLaunchComplete
  split
  · exact .stay
  · refine .ite ?_ .stay
    split
    · exact .next (State.afterLaunch_follows (.refl s) _ _ _ _ _)
    · exact .next (State.afterLaunch_follows (.refl s) _ _ _ _ _)

theorem execClassroomFaulted_goesOn {c : Fin 64} : s.GoesOn (execClassroomFaulted c s) :=
  .ite (.next (State.settleHalt_follows (State.launchFault_follows (State.setF_follows (State.clsFaultRecord_follows
    (State.setRoom_follows (.foldl (.refl s) (fun _ _ h => State.sampleEnd_follows h _ _ _ _ _ _)) _ _) _) _ _) _) _)) .stay

theorem execClassroomHalted_goesOn {c : Fin 64} : s.GoesOn (execClassroomHalted c s) :=
  .ite (.next (State.settleHalt_follows (State.setF_follows (.refl s) _ _) _)) .stay

theorem execHalt_goesOn {x : Fin 65536} : s.GoesOn (execHalt x s) := by
  unfold execHalt
  split
  · exact .stay
  · exact .next (State.settleHalt_follows (State.unfresh_follows (.foldl (.refl s)
      (fun _ _ h => State.haltCls_follows h _)) _ _) _)

theorem execResume_goesOn {x : Fin 65536} : s.GoesOn (execResume x s) := by
  unfold execResume
  split
  · exact .stay
  · exact .next (State.complete_follows (.ite (State.setCtxSt_follows (.foldl (.refl s) (fun _ _ h => .ite
      (State.resumeCls_follows h _) h)) _ _) (.foldl (.refl s) (fun _ _ h => .ite (State.resumeCls_follows h _) h))) _ _ _ _ _)

theorem execDrain_goesOn {x : Fin 65536} : s.GoesOn (execDrain x s) := by
  unfold execDrain
  split
  · exact .stay
  · split
    · exact .next (State.settleDrain_follows (State.setCtxSt_follows (State.unfresh_follows (.refl s) _ _) _ _) _)
    · exact .next (State.settleDrain_follows (State.settleHalt_follows (State.abandonLaunch_follows (State.setCtxSt_follows
        (State.unfresh_follows (.refl s) _ _) _ _) _) _) _)
    · exact .next (State.settleDrain_follows (.ite (State.idleStopped_follows (State.setCtxSt_follows (State.unfresh_follows
        (.refl s) _ _) _ _) _ _) (State.setCtxSt_follows (State.unfresh_follows (.refl s) _ _) _ _)) _)
    · exact .next (State.complete_follows (State.unfresh_follows (.refl s) _ _) _ _ _ _ _)

theorem execRollCallRecord_goesOn {k : Fin 32} : s.GoesOn (execRollCallRecord k s) := by
  unfold execRollCallRecord
  dsimp only
  split
  · exact .stay
  · exact .ite (.next (State.hearRecord_follows (State.setNi_follows (.refl s) _ _) _ _)) .stay

theorem execRollCallResend_goesOn {k : Fin 32} : s.GoesOn (execRollCallResend k s) :=
  .ite (.next (State.sendRecord_follows (.refl s) _)) .stay

theorem execRcTmoExpiry_goesOn {k : Fin 32} : s.GoesOn (execRcTmoExpiry k s) :=
  .ite (.next (State.setRc_follows (.refl s) _ _)) .stay

theorem execMessageDispatch_goesOn {k : Fin 32} {cls : Fin 4} {due : Bool} : s.GoesOn (execMessageDispatch k cls due s) := by
  unfold execMessageDispatch
  dsimp only
  split
  · exact .stay
  · refine .ite .stay ?_
    refine .ite (.next (State.hearMonitor_follows (State.setNi_follows (.refl s) _ _) _ _)) ?_
    refine .ite (.next (State.addF_follows (State.setNi_follows (.refl s) _ _) _ _)) ?_
    refine .ite (.ite (.ite (.next (State.setNi_follows (.refl s) _ _)) (.next (State.setNi_follows (.refl s) _ _))) (.next
      (State.tagDrop_follows (State.setNi_follows (.refl s) _ _) _ _ _))) ?_
    split
    · exact .next (State.setNi_follows (.refl s) _ _)
    · exact .next (State.tagDrop_follows (State.setNi_follows (.refl s) _ _) _ _ _)

theorem execTransitForward_goesOn {k : Fin 32} {cls : Fin 4} {due : Bool} : s.GoesOn (execTransitForward k cls due s) := by
  unfold execTransitForward
  dsimp only
  split
  · exact .stay
  · exact .ite (.next (State.limited_follows (State.addF_follows (State.setNi_follows (.refl s) _ _) _ _) _ _)) (.ite .stay
      (.next (State.sendMsg_follows (State.setNi_follows (.refl s) _ _) _ _ _ _ _)))

theorem execGroupJoin_goesOn {x : Fin 65536} : s.GoesOn (execGroupJoin x s) := by
  unfold execGroupJoin
  split
  · split
    · exact .next (State.complete_follows (State.countHit_follows (.refl s) _) _ _ _ _ _)
    · split
      · exact .next (State.complete_follows (.refl s) _ _ _ _ _)
      · exact .next (State.complete_follows (State.addF_follows (State.setGroup_follows (State.touch_follows
          (.refl s) _ _) _ _ _) _ _) _ _ _ _ _)
  · exact .stay

theorem execCtxClose_goesOn {x : Fin 65536} : s.GoesOn (execCtxClose x s) := by
  unfold execCtxClose
  split
  · exact .stay
  · exact .ite .stay (.next (State.setCtxSt_follows (State.setCtx_follows (State.subF_follows (State.complete_follows (.foldl
      (State.setCtx_follows (.foldl (.refl s) (fun _ _ h => State.freeLessons_follows h _ _)) _ _)
      (fun _ _ h => State.leaveGroup_follows h _ _)) _ _ _ _ _) _ _) _ _) _ _))

theorem execOperationFire_goesOn : s.GoesOn (execOperationFire s) := by
  unfold execOperationFire
  refine .ite .stay ?_
  split
  · exact .stay
  · refine .ite (.next (State.setOp_follows (.refl s) _)) ?_
    split
    · exact .stay
    · exact .next (State.pump_follows (State.setOp_follows (State.sendChunk_follows (.refl s) _ _ _) _))

theorem execReservedUe_goesOn {ch : Fin 48} {frame : Fin 262144} {part : Option (Fin 8)} :
    s.GoesOn (execReservedUe ch frame part s) := by
  unfold execReservedUe
  refine .ite .stay ?_
  split
  · exact .next (State.partitionFatal_follows (State.captureUe_follows (.refl s) _ _ _ _) _ _)
  · exact .next (State.deviceFatal_follows (State.captureUe_follows (.refl s) _ _ _ _) _)

theorem execProctorFailed_goesOn {k : Fin 16} : s.GoesOn (execProctorFailed k s) :=
  .ite (.next (State.failCore_follows (State.addF_follows (.refl s) _ _) _ _)) .stay

theorem execProctorWatchdog_goesOn {k : Fin 16} : s.GoesOn (execProctorWatchdog k s) :=
  .ite (.next (State.failCore_follows (.refl s) _ _)) .stay

theorem execArbBlowDone_goesOn : s.GoesOn (execArbBlowDone s) :=
  .ite (.next (State.setFs_follows (State.withSec_follows (.refl s) _) _)) .stay

theorem execFuseProgrammingDone_goesOn : s.GoesOn (execFuseProgrammingDone s) := by
  unfold execFuseProgrammingDone
  split
  · exact .stay
  · exact .next (State.showOwner_follows (State.setFs_follows (State.withSec_follows (.refl s) _) _))

theorem execFlashOperationDone_goesOn {fail : Bool} : s.GoesOn (execFlashOperationDone fail s) := by
  unfold execFlashOperationDone
  split
  · exact .stay
  · exact .ite (.next (State.setF_follows (.ite (State.flashToBuf_follows (State.setF_follows (State.withSec_follows
      (.refl s) _) _ _) _ _) (State.loseFlash_follows (State.setF_follows (State.withSec_follows (.refl s) _) _ _) _ _)) _ _))
      (.next (State.flashEffect_follows (State.setF_follows (State.withSec_follows (.refl s) _) _ _) _ _))

theorem execAttReportDone_goesOn : s.GoesOn (execAttReportDone s) := by
  unfold execAttReportDone
  refine .ite ?_ .stay
  split
  · exact .next (State.setF_follows (State.setF_follows (.refl s) _ _) _ _)
  · exact .next (State.putWords_follows (State.setF_follows (.refl s) _ _) _ _ _)

theorem execExtest_goesOn {inReset : Bool} {captured shifted : List Bool} : s.GoesOn (execExtest inReset captured shifted s) :=
  .ite (.next (State.boundaryScan_follows (.refl s) _ _ _ _)) (.next (State.jtagInsn_follows (.refl s) _ _ _))

theorem execClamp_goesOn {inReset : Bool} : s.GoesOn (execClamp inReset s) :=
  .ite (.next (State.jtagInsn_follows (.refl s) _ _ _)) (.next (State.jtagInsn_follows (.refl s) _ _ _))

theorem execHighz_goesOn {inReset : Bool} : s.GoesOn (execHighz inReset s) :=
  .ite (.next (State.jtagInsn_follows (.refl s) _ _ _)) (.next (State.jtagInsn_follows (.refl s) _ _ _))

theorem execDbgResp_goesOn {resp : List Byte} : s.GoesOn (execDbgResp resp s) :=
  .ite (.next (State.unlock_follows (State.jtagInsn_follows (.refl s) _ _ _))) (.next (State.withSec_follows
    (State.jtagInsn_follows (.refl s) _ _ _) _))

theorem execPortAlign_goesOn {k : Fin 32} {lane : Fin 8} : s.GoesOn (execPortAlign k lane s) :=
  .ite (.next (State.setF_follows (State.setNi_follows (State.dropRetry_follows (State.draw_follows
    (.refl s) _) _) _ _) _ _)) .stay

theorem execLinkVersion_goesOn {k : Fin 32} {farMin farMax : BitVec 8} : s.GoesOn (execLinkVersion k farMin farMax s) :=
  .ite (.next (State.recordD_follows (State.setNi_follows (State.setF_follows (.refl s) _ _) _ _) _ _ _ _ _)) .stay

theorem execLinkRetrain_goesOn {k : Fin 32} {dark : Bool} : s.GoesOn (execLinkRetrain k dark s) :=
  .ite (.next (State.portTo_follows (State.recordD_follows (State.addF_follows (State.draw_follows
    (.refl s) _) _ _) _ _ _ _ _) _ _)) .stay

theorem execPortAlignTimeout_goesOn {k : Fin 32} : s.GoesOn (execPortAlignTimeout k s) :=
  .ite (.next (State.portDown_follows (.refl s) _)) .stay

theorem execLaneReadmit_goesOn {k : Fin 32} {lane : Fin 8} : s.GoesOn (execLaneReadmit k lane s) :=
  .ite (.next (State.bound_follows (State.alignCheck_follows (State.setF_follows (.refl s) _ _) _) _)) .stay

theorem execFrameReceive_goesOn {k : Fin 32} {lane : Fin 8} {wire : BitVec 38080} {rtt : BitVec 16} :
    s.GoesOn (execFrameReceive k lane wire rtt s) :=
  .ite .stay (.ite (.next (State.trainRx_follows (State.addF_follows (State.addF_follows (.refl s) _ _) _ _) _ _ _ _)) (.ite
    (.next (State.failFrame_follows (State.addF_follows (State.addF_follows (.refl s) _ _) _ _) _ _ _)) (.next
    (State.renegCheck_follows (State.pump_follows (.ite (State.keepRx_follows (.ite (State.takeFlits_follows
    (State.applyControl_follows (State.addF_follows (State.addF_follows (.refl s) _ _) _ _) _ _ _) _ _ _ _)
    (State.addF_follows (State.applyControl_follows (State.addF_follows (State.addF_follows
    (.refl s) _ _) _ _) _ _ _) _ _)) _ _) (.ite (State.takeFlits_follows (State.applyControl_follows (State.addF_follows
    (State.addF_follows (.refl s) _ _) _ _) _ _ _) _ _ _ _) (State.addF_follows (State.applyControl_follows
    (State.addF_follows (State.addF_follows (.refl s) _ _) _ _) _ _ _) _ _)))) _))))

theorem execRetryTimeout_goesOn {k : Fin 32} {fseq : BitVec 16} : s.GoesOn (execRetryTimeout k fseq s) :=
  .ite (.next (State.setNi_follows (.refl s) _ _)) .stay

theorem execPing_goesOn {k : Fin 32} {id : Fin 255} : s.GoesOn (execPing k id s) :=
  .ite (.next (State.setNi_follows (.refl s) _ _)) .stay

theorem execLaneErrors_goesOn {k : Fin 32} {lane : Fin 8} {count : BitVec 32} {due : Bool} :
    s.GoesOn (execLaneErrors k lane count due s) :=
  .ite .stay (.ite (.next (State.record_follows (.refl s) _ _ _)) (.next (State.withhold_follows (.refl s) _)))

theorem execHeaterUpdate_goesOn {g : Fin 16} {r : Fin 32} {corr : BitVec 16} : s.GoesOn (execHeaterUpdate g r corr s) :=
  .ite (.next (State.setF_follows (.refl s) _ _)) .stay

theorem execRingRefine_goesOn {g : Fin 16} {r : Fin 32} : s.GoesOn (execRingRefine g r s) :=
  .ite (.next (State.putRing_follows (.refl s) _ _ _)) .stay

theorem execLaneLightDetect_goesOn {g : Fin 16} {tx : Bool} {l : Fin 16} {power : BitVec 16} :
    s.GoesOn (execLaneLightDetect g tx l power s) :=
  .ite (.next (State.setLane_follows (State.setF_follows (.refl s) _ _) _ _ _ _)) (.next (State.setF_follows (.refl s) _ _))

theorem execSweepDone_goesOn {g : Fin 16} {tx : Bool} {l : Fin 16} {found : Bool} {code : BitVec 16} {tone : Fin 8} :
    s.GoesOn (execSweepDone g tx l found code tone s) :=
  .ite .stay (.ite (.ite .stay (.next (.ite (State.recordD_follows (State.withOptics_follows (.refl s) _) _ _ _ _ _)
    (State.withOptics_follows (.refl s) _)))) (.ite (.next (State.setFs_follows (.refl s) _)) (.next (State.offer_follows
    (State.setLane_follows (State.noteLock_follows (State.setFs_follows (.refl s) _) _ _ _ _) _ _ _ _) _ _ _))))

theorem execLaneDrift_goesOn {g : Fin 16} {tx : Bool} {l : Fin 16} {pilot : BitVec 16} {due : Bool} :
    s.GoesOn (execLaneDrift g tx l pilot due s) :=
  .ite (.next (.ite (State.record_follows (State.setLane_follows (State.addF_follows (State.setF_follows
    (.refl s) _ _) _ _) _ _ _ _) _ _ _) (State.withhold_follows (State.setLane_follows (State.addF_follows (State.setF_follows
    (.refl s) _ _) _ _) _ _ _ _) _))) (.next (State.setF_follows (.refl s) _ _))

theorem execDriftCleared_goesOn {g : Fin 16} {tx : Bool} {l : Fin 16} {pilot : BitVec 16} :
    s.GoesOn (execDriftCleared g tx l pilot s) :=
  .ite (.next (State.setLane_follows (State.setF_follows (.refl s) _ _) _ _ _ _)) (.next (State.setF_follows (.refl s) _ _))

theorem execLaneUnlocked_goesOn {g : Fin 16} {tx : Bool} {l : Fin 16} {pilot : BitVec 16} :
    s.GoesOn (execLaneUnlocked g tx l pilot s) :=
  .ite (.next (State.retireStep_follows (State.unlockRecord_follows (State.setLane_follows (State.addF_follows
    (State.setF_follows (.refl s) _ _) _ _) _ _ _ _) _ _ _) _ _ _)) (.next (State.setF_follows (.refl s) _ _))

theorem execLaneDark_goesOn {g : Fin 16} {tx : Bool} {l : Fin 16} {power : BitVec 16} :
    s.GoesOn (execLaneDark g tx l power s) :=
  .ite (.next (State.laneDark_follows (State.setF_follows (.refl s) _ _) _ _ _ _)) (.next (State.setF_follows (.refl s) _ _))

theorem execLaneReadmitted_goesOn {g : Fin 16} {tx : Bool} {l : Fin 16} : s.GoesOn (execLaneReadmitted g tx l s) :=
  .ite (.next (State.offer_follows (State.setHeldBack_follows (.refl s) _ _ _ _) _ _ _)) .stay

theorem execBoundSuspensionEnd_goesOn {k : Fin 32} : s.GoesOn (execBoundSuspensionEnd k s) :=
  .ite .stay (.next (State.bound_follows (State.setF_follows (.refl s) _ _) _))

theorem execMonitorExchange_goesOn {k : Fin 32} {txTap rxTap : BitVec 16} {fresh : Bool} :
    s.GoesOn (execMonitorExchange k txTap rxTap fresh s) :=
  .ite (.next (State.locate_follows (State.locate_follows (.ite (State.sendMsg_follows (State.withOptics_follows
    (State.setFs_follows (.refl s) _) _) _ _ _ _ _) (State.setFs_follows (.refl s) _)) _ _ _) _ _ _)) (.next (.ite
    (State.sendMsg_follows (State.withOptics_follows (State.setFs_follows (.refl s) _) _) _ _ _ _ _) (State.setFs_follows
    (.refl s) _)))

theorem execGloveBringup_goesOn {g : Fin 16} {ok : Bool} : s.GoesOn (execGloveBringup g ok s) :=
  .ite .stay (.ite (.next (State.gloveOff_follows (.refl s) _ _)) (.ite (.next (State.setRetire_follows
    (State.withOptics_follows (State.setFs_follows (.refl s) _) _) _ _)) (.ite (.next (State.setF_follows (.refl s) _ _))
    (.ite (.next (State.checkFibre_follows (State.checkFibre_follows (State.setF_follows (.refl s) _ _) _) _)) .stay))))

theorem execPmcCycle_goesOn {b : Fin 3} {u : Fin 64} {adv empty : BitVec 4} {amounts : List (Nat × Nat × Nat)} :
    s.GoesOn (execPmcCycle b u adv empty amounts s) := by
  unfold execPmcCycle
  refine .ite .stay ?_
  split
  · exact .next (State.arrayCounters_follows (State.countAll_follows (.refl s) _ _ _) _ _)
  · exact .next (State.countAll_follows (.refl s) _ _ _)
  · exact .next (State.countAll_follows (.refl s) _ _ _)

theorem execSampleWrite_goesOn {die : Fin 2} : s.GoesOn (execSampleWrite die s) := by
  unfold execSampleWrite
  split
  · exact .stay
  · exact .ite (.next (State.dropSample_follows (State.follows_samples (.refl s) _) _)) (.ite (.next (State.setF_follows
      (State.addF_follows (State.follows_samples (.refl s) _) _ _) _ _)) (.ite .stay (.next (State.addF_follows
      (State.setF_follows (State.writeAll_follows (State.follows_samples (.refl s) _) _ _) _ _) _ _))))

theorem execInterlockOpen_goesOn {m : Fin 2} : s.GoesOn (execInterlockOpen m s) := by
  unfold execInterlockOpen
  split
  · exact .stay
  · exact .next (State.setLightEn_follows (State.openInterlock_follows (.refl s) _ _) _ _)

theorem execSpareRetiringDone_goesOn {m : Fin 2} : s.GoesOn (execSpareRetiringDone m s) :=
  .ite (.next (State.warmSpare_follows (State.swTo_follows (.refl s) _ _) _ _ _)) .stay

theorem execSpareWarmed_goesOn {m : Fin 2} : s.GoesOn (execSpareWarmed m s) :=
  .ite (.next (State.rampTo_follows (State.swTo_follows (.refl s) _ _) _ _ _)) .stay

theorem execSpareWarmTimeout_goesOn {m : Fin 2} : s.GoesOn (execSpareWarmTimeout m s) :=
  .ite (.next (State.recordD_follows (State.readmitWave_follows (State.addF_follows (State.swTo_follows (State.setF_follows
    (.refl s) _ _) _ _) _ _) _ _) _ _ _ _ _)) .stay

theorem execCrossoverDone_goesOn {m : Fin 2} : s.GoesOn (execCrossoverDone m s) :=
  .ite (.next (.foldl (.ite (State.warmSpare_follows (State.setActive_follows (State.swTo_follows (.refl s) _ _) _ _ _) _ _ _)
    (State.setActive_follows (State.swTo_follows (.refl s) _ _) _ _ _)) (fun _ _ h => .ite h
    (State.setLane_follows h _ _ _ _)))) .stay

theorem execRelockDone_goesOn {m : Fin 2} {timeout : Bool} : s.GoesOn (execRelockDone m timeout s) :=
  .ite (.next (.foldl (State.swTo_follows (.refl s) _ _) (fun _ _ h => State.recordD_follows h _ _ _ _ _))) .stay

theorem execLaserSpareDone_goesOn {m : Fin 2} : s.GoesOn (execLaserSpareDone m s) :=
  .ite (.next (State.recordD_follows (State.addF_follows (State.readmitWave_follows (State.swTo_follows
    (.refl s) _ _) _ _) _ _) _ _ _ _ _)) .stay

theorem execLaserFault_goesOn {m : Fin 2} {status : BitVec 16} : s.GoesOn (execLaserFault m status s) :=
  .ite .stay (.next (.foldl (State.abandonSwitch_follows (State.recordD_follows (State.setFs_follows
    (.refl s) _) _ _ _ _ _) _) (fun _ _ h => .ite (State.sourceFault_follows h _ _) h)))

theorem execLaserFaultCleared_goesOn {m : Fin 2} : s.GoesOn (execLaserFaultCleared m s) :=
  .next (.foldl (State.bootLight_follows (State.setF_follows (.refl s) _ _) _) (fun _ _ h => .ite
    (State.offer_follows h _ _ _) h))

theorem execLaserPoll_goesOn {m : Fin 2} {ok : Bool} {status : BitVec 16} {ident : BitVec 56} {temp : BitVec 16} {readings : List (BitVec 16)} :
    s.GoesOn (execLaserPoll m ok status ident temp readings s) :=
  .ite .stay (.ite (.next (State.bootLight_follows (State.pollReadings_follows (State.setFs_follows (State.withOptics_follows
    (.refl s) _) _) _ _) _)) (.next (.ite (State.recordD_follows (State.setF_follows (State.pushHist_follows
    (State.withOptics_follows (.refl s) _) _ _) _ _) _ _ _ _ _) (State.pushHist_follows (State.withOptics_follows
    (.refl s) _) _ _))))

theorem execFadeEvaluation_goesOn {m : Fin 2} : s.GoesOn (execFadeEvaluation m s) :=
  .ite (.next (.foldl (.refl s) (fun _ _ h => State.evalFade_follows h _ _))) .stay

theorem execSerdesUnlock_goesOn {n : Fin 20} : s.GoesOn (execSerdesUnlock n s) :=
  .ite (.next (State.gloveOff_follows (State.setF_follows (State.addF_follows (.refl s) _ _) _ _) _ _)) (.ite (.next
    (State.zhlDown_follows (State.setF_follows (State.addF_follows (.refl s) _ _) _ _) _ _)) (.next (State.setF_follows
    (State.addF_follows (.refl s) _ _) _ _)))

theorem execGlovePllRetry_goesOn {g : Fin 16} {ok : Bool} : s.GoesOn (execGlovePllRetry g ok s) :=
  .ite .stay (.ite (.next (State.setF_follows (State.setF_follows (.refl s) _ _) _ _)) (.next (State.setF_follows
    (.refl s) _ _)))

theorem execAvsbusPoll_goesOn {e ok slow warn : Bool} {mv : BitVec 10} {amps : BitVec 12} {temp status : BitVec 16} :
    s.GoesOn (execAvsbusPoll e ok slow warn mv amps temp status s) :=
  .ite (.ite (.next (State.setFs_follows (State.withPower_follows (.refl s) _) _)) (.next (State.withPower_follows
    (.refl s) _))) (.ite (.ite (.next (State.setF_follows (State.setFs_follows (State.setFs_follows (State.withPower_follows
    (.refl s) _) _) _) _ _)) (.next (State.setFs_follows (State.setFs_follows (State.withPower_follows (.refl s) _) _) _)))
    (.next (State.setFs_follows (State.withPower_follows (.refl s) _) _)))

theorem execThrottleStillHot_goesOn : s.GoesOn (execThrottleStillHot s) :=
  .ite (.next (State.setF_follows (.refl s) _ _)) .stay

theorem execThrottleCoolHeld_goesOn : s.GoesOn (execThrottleCoolHeld s) :=
  .ite (.next (State.raiseTarget_follows (State.setF_follows (.refl s) _ _))) .stay

theorem execThrottleRaise_goesOn : s.GoesOn (execThrottleRaise s) :=
  .ite (.next (State.raiseTarget_follows (.refl s))) .stay

theorem execThermtrip_goesOn : s.GoesOn (execThermtrip s) :=
  .ite (.next (State.captureFatal_follows (State.setF_follows (.refl s) _ _) _)) .stay

theorem execPortQuarantine_goesOn {k : Fin 32} : s.GoesOn (execPortQuarantine k s) := by
  unfold execPortQuarantine
  dsimp only
  split
  · exact .next (State.setNi_follows (.refl s) _ _)
  · exact .ite (.next (State.setNi_follows (.refl s) _ _)) (.next (.ite (State.quarantine_follows (State.recordP_follows
      (State.setNi_follows (.refl s) _ _) _ _ _ _ _ _ _ _) _ _) (State.recordP_follows (State.setNi_follows
      (.refl s) _ _) _ _ _ _ _ _ _ _)))

theorem execAdvisoryEventTimer_goesOn {ring : Fin 9} : s.GoesOn (execAdvisoryEventTimer ring s) :=
  .ite (.next (State.setRing_follows (State.ringEvent_follows (.refl s) _) _ _)) (.next (State.setRing_follows (.refl s) _ _))

theorem execSnapBegin_goesOn {x : Fin 65536} : s.GoesOn (execSnapBegin x s) := by
  unfold execSnapBegin
  split
  · split
    · exact .next (State.complete_follows (State.countHit_follows (.refl s) _) _ _ _ _ _)
    · refine .ite (.next (State.complete_follows (.refl s) _ _ _ _ _)) ?_
      split
      · exact .next (State.complete_follows (State.countHit_follows (.refl s) _) _ _ _ _ _)
      · split
        · exact .next (State.complete_follows (.refl s) _ _ _ _ _)
        · exact .next (State.beginSnap_follows (State.unfresh_follows (State.touch_follows (.refl s) _ _) _ _) _ _ _ _)
  · exact .stay

theorem execFirstTouchCopy_goesOn {p : Fin 8} : s.GoesOn (execFirstTouchCopy p s) := by
  unfold execFirstTouchCopy
  dsimp only
  split
  · exact .stay
  · exact .ite .stay (.next (State.takeTile_follows (.refl s) _ _ _ _))

theorem execBackgroundCopy_goesOn {p : Fin 8} {die : Fin 2} : s.GoesOn (execBackgroundCopy p die s) := by
  unfold execBackgroundCopy
  dsimp only
  split
  · exact .stay
  · exact .ite .stay (.next (State.takeTile_follows (.refl s) _ _ _ _))

theorem execTileCopied_goesOn {p : Fin 8} {n : Nat} {ecc : Ecc} {stall : Nat} : s.GoesOn (execTileCopied p n ecc stall s) := by
  unfold execTileCopied
  split
  · exact .stay
  · exact .ite .stay (.ite (.next (State.unprotect_follows (State.snapPoison_follows (State.addF_follows
      (.refl s) _ _) _ _ _) _)) (.ite (.next (State.unprotect_follows (State.setSnapTile_follows (State.addF_follows
      (.refl s) _ _) _ _ _) _)) (.ite (.next (State.unprotect_follows (State.snapPoison_follows (State.failTile_follows
      (State.addF_follows (.refl s) _ _) _) _ _ _) _)) (.next (State.unprotect_follows (State.setSnapTile_follows (.ite
      (State.countCorrected_follows (State.addF_follows (.refl s) _ _) _ _) (State.addF_follows (.refl s) _ _)) _ _ _) _)))))

theorem execPeerCopyReceive_goesOn {k : Fin 32} {dest job : BitVec 16} {dva : BitVec 48} {data : List Byte} {last due : Bool} :
    s.GoesOn (execPeerCopyReceive k dest job dva data last due s) := by
  unfold execPeerCopyReceive
  dsimp only
  split
  · exact .stay
  · refine .ite (.next (State.addF_follows (.refl s) _ _)) ?_
    refine .ite ?_ ?_
    · split
      · exact .next (State.follows_peer (.refl s) _)
      · exact .next (State.limited_follows (State.addF_follows (.refl s) _ _) _ _)
    · refine .ite (.next (State.limited_follows (State.addF_follows (.refl s) _ _) _ _)) ?_
      split
      · exact .next (State.follows_peer (State.countHit_follows (.refl s) _) _)
      · exact .ite (.next (State.stall_follows (.refl s) _ _ _)) (.ite (.next (State.follows_peer (State.demandWrite_follows
          (.refl s) _ _) _)) (.next (State.demandWrite_follows (.refl s) _ _)))

theorem execSnapshotTargetFailure_goesOn {p : Fin 8} {n : Nat} : s.GoesOn (execSnapshotTargetFailure p n s) :=
  .ite (.next (State.snapFail_follows (.refl s) _ _)) .stay

theorem execSnapCommit_goesOn {x : Fin 65536} : s.GoesOn (execSnapCommit x s) := by
  unfold execSnapCommit
  split
  · exact .ite (.ite (.next (State.complete_follows (State.setF_follows (.refl s) _ _) _ _ _ _ _)) (.next
      (State.complete_follows (.refl s) _ _ _ _ _))) (.ite (.next (State.complete_follows (.refl s) _ _ _ _ _)) (.ite (.next
      (State.setF_follows (State.unfresh_follows (.refl s) _ _) _ _)) (.ite (.next (State.unfresh_follows (.refl s) _ _))
      (.ite .stay (.ite (.next (State.complete_follows (.refl s) _ _ _ _ _)) (.ite (.next (State.complete_follows
      (.refl s) _ _ _ _ _)) (.next (State.setF_follows (State.setSnap_follows (State.unfresh_follows
      (.refl s) _ _) _ _) _ _))))))))
  · exact .stay

theorem execSnapshotVerify_goesOn {p : Fin 8} : s.GoesOn (execSnapshotVerify p s) :=
  .ite .stay (.ite (.next (State.finishSnap_follows (State.writeManifest_follows (.foldl (State.pump_follows (.foldl (.refl s)
    (fun _ _ h => State.exchangeStep_follows h _ _))) (fun _ _ h => State.exchangeEnd_follows h _ _)) _) _)) (.next
    (State.pump_follows (.foldl (.refl s) (fun _ _ h => State.exchangeStep_follows h _ _)))))

theorem execSnapAborted_goesOn {p : Fin 8} : s.GoesOn (execSnapAborted p s) :=
  .ite (.next (State.abortSnap_follows (.refl s) _)) .stay

theorem execRestore_goesOn {x : Fin 65536} {far : List (List Byte)} : s.GoesOn (execRestore x far s) := by
  unfold execRestore
  split
  · split
    · exact .next (State.complete_follows (State.countRead_follows (.refl s) _) _ _ _ _ _)
    · exact .ite .stay (.next (State.complete_follows (State.applySnap_follows (State.touch_follows
        (.refl s) _ _) _ _ _ _) _ _ _ _ _))
  · exact .stay

theorem execWrstn_goesOn : s.GoesOn (execWrstn s) :=
  .ite .stay (.next (.foldl (State.warmTiles_follows (State.setF_follows (.foldl (.foldl (.foldl (.foldl
    (State.warmBase_follows (.refl s)) (fun _ _ h => State.setF_follows h _ _)) (fun _ _ h => .ite
    (State.recordD_follows h _ _ _ _ _) h)) (fun _ _ h => State.setF_follows h _ _))
    (fun _ _ h => State.dropMove_follows h _)) _ _)) (fun _ _ h => State.showPartition_follows h _)))

theorem execBootReady_goesOn {ms : BitVec 16} {proto : BitVec 8} : s.GoesOn (execBootReady ms proto s) :=
  .ite .stay (.next (State.fallback_follows (State.bootLight_follows (State.bootLight_follows (State.readCommissioned_follows
    (State.startBuses_follows (.foldl (State.setFs_follows (State.setMode_follows (.refl s) _) _)
    (fun _ _ h => State.setF_follows h _ _)))) _) _)))

/-! ## The commands with a part that several branches share -/

theorem execTloadw_goesOn {c : Fin 64} : s.GoesOn (execTloadw c s) := by
  unfold execTloadw
  split
  · exact .stay
  · have drawn : s.Follows (if s.ownLoad c then (s.draw 0).2 else s) := .ite (State.draw_follows (.refl s) _) (.refl s)
    have popped := fun e => State.popHead_follows drawn c .t e
    dsimp only
    refine .ite (.next drawn) ?_
    cases QEntry.a _ with
    | none => exact .next drawn
    | some b =>
      dsimp only
      cases readTile _ _ b with
      | error f => exact .next (State.issueFault_follows (popped _) _ _ _ _)
      | ok data =>
        exact .next (State.launchInsn_follows (State.touchSources_follows (State.setFs_follows (State.setRoom_follows
          (popped _) _ _) _) _ _) _ _ _ _)

theorem execMpref_goesOn {c : Fin 64} : s.GoesOn (execMpref c s) := by
  unfold execMpref
  split
  · exact .stay
  · have popped := State.popHead_follows (.refl s) c .m
    refine .next (State.launchInsn_follows ?_ _ _ _ _)
    split
    · exact State.prefRegion_follows (popped _) _ _ _
    · exact popped _

theorem execRampSlotGrant_goesOn {c : Fin 64} {waited : Nat} : s.GoesOn (execRampSlotGrant c waited s) := by
  have granted : s.Follows { s with rampReq := s.rampReq.tail, rampHold := s.rampHold ++ [c.val] } :=
    State.follows_rampHold (State.follows_rampReq (.refl s) s.rampReq.tail) (s.rampHold ++ [c.val])
  have begun := fun r => State.setRoom_follows (State.setF_follows granted (Csr.clsArrStat_RAMP_STEP c) 0) c r
  exact .ite (.ite (.next (State.setF_follows (begun _) _ _)) (.ite (.next (State.setRoom_follows (State.addF_follows
    (State.addF_follows (State.setF_follows (begun _) _ _) _ _) _ _) _ _)) (.next (State.freeRamp_follows (begun _) _)))) .stay

theorem execSatchelTake_goesOn {c : Fin 64} : s.GoesOn (execSatchelTake c s) := by
  unfold execSatchelTake
  cases s.satHead c with
  | none => exact .stay
  | some x =>
    have fault := fun f => State.GoesOn.next (State.satFault_follows (.refl s) c x f)
    refine .ite .stay ?_
    cases x.entry.dst with
    | none => exact fault _
    | some m =>
      cases x.entry.a with
      | none => exact fault _
      | some g =>
        dsimp only
        cases s.readRecord c x.entry with
        | error f => exact fault _
        | ok bs =>
          dsimp only
          cases s.paramsBad c (parseParams bs) (triB x.entry.enc) m g with
          | some i => exact fault _
          | none =>
            dsimp only
            generalize (do
              let ft ← viaDesc _ (s.readBytes _ _ 6)
              let fe ← viaDesc _ (s.readBytes _ _ 8)
              pure (leNat fe)) = read
            cases read with
            | error f => exact fault _
            | ok w => exact .next (State.setSatHead_follows (State.touchRecord_follows (.refl s) _ _ _) _ _)

theorem execRestoreTile_goesOn {p : Fin 8} : s.GoesOn (execRestoreTile p s) := by
  have restored : ∀ tk o bs t, (if Obj.sramOnly o then s.restoreSram p tk bs else s.restoreSlow p tk o bs) = some t →
      s.Follows t := by
    intro tk o bs t h
    split at h
    · exact State.restoreSram_follows (.refl s) _ _ _ t h
    · exact State.restoreSlow_follows (.refl s) _ _ _ _ t h
  have ended := fun {t : State} (h : s.Follows t) e st => State.GoesOn.next (State.endEntry_follows h p e st)
  unfold execRestoreTile
  split
  · refine .ite .stay (.ite (ended (.refl s) _ _) (.ite (ended (.refl s) _ _) ?_))
    dsimp only
    split
    · exact ended (.refl s) _ _
    · exact ended (.ite (State.countHit_follows (.refl s) _) (.refl s)) _ _
    · exact ended (State.touch_follows (.getD (restored _ _ _) (.refl s)) _ _) _ _
  · exact ended (.refl s) _ _
  · exact .stay

theorem execQuery_goesOn {p : Fin 8} : s.GoesOn (execQuery p s) := by
  unfold execQuery
  split
  · exact .stay
  · have written := fun e => State.queryFrom_follows (.refl s) p e
    refine .ite .stay (.ite (.next (State.endEntry_follows (.refl s) _ _ _)) ?_)
    dsimp only
    split
    · exact .next (State.endEntry_follows (written _ _ _) _ _ _)
    · exact .next (State.setEntry_follows (written _ _ _) _ _)

theorem execLessonLoadDone_goesOn {x : Fin 65536} : s.GoesOn (execLessonLoadDone x s) := by
  have completed := fun {t : State} (h : s.Follows t) c st d i => State.GoesOn.next (State.complete_follows h x c st d i)
  unfold execLessonLoadDone
  split
  · rename_i c p _ _
    have loaded := fun k => State.loadRoom_follows (.refl s) x p c k
    split
    · exact completed (.refl s) _ _ _ _
    · rename_i k ks _
      have hk := loaded k
      revert hk
      generalize s.loadRoom x p c k = y
      intro hk
      obtain ⟨t, _ | st⟩ := y
      · exact .ite (completed (State.lessonState_follows hk _) _ _ _ _) (.next (State.putCmd_follows hk _ _))
      · exact completed (State.lessonState_follows hk _) _ _ _ _
  · exact .stay

theorem execLaunch_goesOn {x : Fin 65536} : s.GoesOn (execLaunch x s) := by
  unfold execLaunch
  split
  · have refused := fun c st d => State.GoesOn.next (State.refuse_follows (.refl s) x c st d)
    dsimp only
    split
    · exact refused _ _ _
    · split
      · exact refused _ _ _
      · exact .next (State.setCtxSt_follows (State.setCtx_follows (State.unfresh_follows (.foldl (.foldl (.refl s)
          (fun _ _ h => State.setFs_follows h _)) (fun _ _ h => State.setBar_follows h _ _)) _ _) _ _) _ _)
  · exact .stay

theorem execClassroomStart_goesOn {c : Fin 64} : s.GoesOn (execClassroomStart c s) := by
  have failed := fun f => State.GoesOn.next (State.failStart_follows (.refl s) c f)
  unfold execClassroomStart
  refine .ite .stay ?_
  dsimp only
  split
  · exact failed _
  · split
    · exact failed _
    · exact .next (State.startCls_follows (State.touch_follows (.refl s) _ _) _ _ _ _)

theorem execGroupLeave_goesOn {x : Fin 65536} : s.GoesOn (execGroupLeave x s) := by
  unfold execGroupLeave
  split
  · dsimp only
    split
    · exact .next (State.complete_follows (.refl s) _ _ _ _ _)
    · exact .next (.ite (.refl s) (State.complete_follows (State.leaveGroup_follows (.refl s) _ _) _ _ _ _ _))
  · exact .stay

theorem execOperationPost_goesOn {p : Fin 8} : s.GoesOn (execOperationPost p s) := by
  have stalled := State.pftStall_follows (.refl s) p 1
  have moved := fun {t : State} (h : s.Follows t) v => State.setF_follows h (Csr.pftPartQHead_HEAD p) v
  unfold execOperationPost
  refine .ite .stay ?_
  dsimp only
  split
  · exact .next (.ite stalled (State.pftCq_follows (moved (State.countHit_follows (.refl s) _) _) _ _ _ _ _ _ _ _))
  · split
    · exact .next (.ite stalled (State.refuseEntry_follows (moved (State.touch_follows (.refl s) _ _) _) _ _ _))
    · exact .ite .stay (.next (State.postOp_follows (moved (State.touch_follows (.refl s) _ _) _) _ _ _))

theorem execOperationComplete_goesOn : s.GoesOn (execOperationComplete s) := by
  unfold execOperationComplete
  refine .ite .stay ?_
  split
  · exact .next (State.pump_follows (.refl s))
  · refine .ite (.next (State.pftStall_follows (.refl s) _ _)) ?_
    refine .next (State.dropOp_follows (State.endOp_follows ?_ _ _ _) _)
    split
    · exact State.putDst_follows (.refl s) _ _ _
    · exact .refl s

theorem execChunkArrival_goesOn {k : Fin 32} : s.GoesOn (execChunkArrival k s) := by
  unfold execChunkArrival
  refine .ite .stay ?_
  split
  · exact .next (State.takeClass_follows (.refl s) _ _ _ ‹_›)
  · split
    · exact .next (State.takeClass_follows (.refl s) _ _ _ ‹_›)
    · exact .stay

theorem execPrefectWatchdog_goesOn {n : Nat} : s.GoesOn (execPrefectWatchdog n s) := by
  unfold execPrefectWatchdog
  split
  · exact .stay
  · split
    · exact .stay
    · refine .ite .stay (.ite (.next (State.pftStall_follows (.refl s) _ _)) ?_)
      refine .next (State.pump_follows (State.showPft_follows (State.setOp_follows (State.poisonRest_follows ?_ _ _) _) _))
      split
      · exact State.endOp_follows (State.recordP_follows (State.addF_follows (.refl s) _ _) _ _ _ _ _ _ _ _) _ _ _
      · exact State.endOp_follows (State.recordP_follows (.refl s) _ _ _ _ _ _ _ _) _ _ _

theorem execNegotiate_goesOn {k : Fin 32} {farMin farMax : BitVec 8} {farEpoch : BitVec 32} :
    s.GoesOn (execNegotiate k farMin farMax farEpoch s) := by
  have shown := State.setF_follows (.refl s) (Csr.niVer_FAR_MAX k) farMax.toNat
  have up := fun {t : State} (h : s.Follows t) n l => State.showCredits_follows (State.dealLanes_follows (State.linkChange_follows
    (State.setFs_follows (State.setNi_follows h k n) l) k) k) k
  unfold execNegotiate
  refine .ite .stay ?_
  dsimp only
  split
  · exact .next (State.sendOffer_follows shown _)
  · have kept : ∀ same : Bool, s.Follows (if same then s.setF (Csr.niVer_FAR_MAX k) farMax.toNat else
        ((s.setF (Csr.niVer_FAR_MAX k) farMax.toNat).dropRetry k).setNi k
          (((s.setF (Csr.niVer_FAR_MAX k) farMax.toNat).dropRetry k).ni k).fresh) :=
      fun _ => .ite shown (State.setNi_follows (State.dropRetry_follows shown _) _ _)
    exact .next (State.bound_follows (.ite (State.sendOwed_follows (up (kept _) _ _) _) (State.rcUp_follows (up (kept _) _ _) _)) _)

theorem execFrameSend_goesOn {k : Fin 32} {lane : Fin 8} {dly : BitVec 10} : s.GoesOn (execFrameSend k lane dly s) := by
  have pumped := State.pump_follows (.refl s)
  unfold execFrameSend
  refine .ite .stay (.ite ?_ (.ite (.next (State.trainFrame_follows (.refl s) _ _ _)) .stay))
  dsimp only
  split
  · exact .next (State.withheldFrame_follows pumped _)
  · rename_i t f hf
    have sent : ∀ a, s.Follows (t.putFrame k lane dly.toNat f.fseq f.flits a false) :=
      fun a => State.putFrame_follows (State.nextFrame_follows pumped _ _ hf) _ _ _ _ _ _ _
    exact .next (.ite (State.bound_follows (State.setF_follows (State.setNi_follows (sent _) _ _) _ _) _) (sent _))

theorem execClockOrSupply_goesOn {src : BitVec 8} : s.GoesOn (execClockOrSupply src s) := by
  have lost : ∀ {t : State} r, s.Follows t → s.Follows (if src.toNat = 1 ∨ src.toNat = 0x10 ∨ src.toNat = 0x11 then
      (t.deviceFatal r).goDark else t.deviceFatal r) :=
    fun r h => .ite (State.goDark_follows (State.deviceFatal_follows h r)) (State.deviceFatal_follows h r)
  have clock := fun l => State.setFs_follows (.refl s) l
  unfold execClockOrSupply
  dsimp only
  split
  · exact .next (lost _ (clock _))
  · exact .next (lost _ (clock _))
  · exact .ite (.next (lost _ (clock _))) .stay
  · exact .ite (.next (lost _ (State.setF_follows (.refl s) _ _))) .stay

theorem execKeepSlewStep_goesOn : s.GoesOn (execKeepSlewStep s) := by
  have normal : ∀ {u : State}, s.Follows u →
      s.Follows (if u.getF Csr.clkTclk_TSTATE = 2 ∧ u.getF Csr.clkTclk_KEEP = 64 then u.setF Csr.clkTclk_TSTATE 0 else u) :=
    fun h => .ite (State.setF_follows h _ _) h
  exact .ite (.next (normal (State.setF_follows (.refl s) _ _))) (.ite .stay (.next (normal (State.setFs_follows (.refl s) _))))

theorem execPolicySet_goesOn {x : Fin 65536} : s.GoesOn (execPolicySet x s) := by
  unfold execPolicySet
  split
  · exact .ite (.next (State.complete_follows (.refl s) _ _ _ _ _)) (.next (State.complete_follows
      (State.policyChanged_follows (State.putPolicy_follows (.refl s) _ _ _ _) _ _ _ _) _ _ _ _ _))
  · exact .stay

theorem execSpareSwitchStart_goesOn {m : Fin 2} : s.GoesOn (execSpareSwitchStart m s) := by
  have dropped := fun l => State.Follows.foldl (l := l) (.refl s) (fun _ w h => State.dropSwitch_follows h m w)
  unfold execSpareSwitchStart
  refine .ite .stay ?_
  dsimp only
  split
  · exact .next (dropped _)
  · exact .next (.foldl (State.withOptics_follows (State.setFs_follows (State.dropSwitch_follows (dropped _) _ _) _) _)
      (fun _ _ h => State.withdraw_follows h _ _ _ _))

theorem execSnapshotProtected_goesOn {p : Fin 8} : s.GoesOn (execSnapshotProtected p s) :=
  .ite (.next (.foldl (State.setFs_follows (State.follows_snapNums (.refl s) _
    (fun c => SMap.wf_put (State.canonical_snapNums c))) _) (fun _ _ h => State.complete_follows h _ _ _ _ _))) .stay

theorem execCopyEntryDrain_goesOn {p : Fin 8} {n : Nat} : s.GoesOn (execCopyEntryDrain p n s) := by
  have put := fun {t : State} (h : s.Follows t) x => State.GoesOn.next (State.setSnapTile_follows h p n x)
  have failed := fun {t : State} (h : s.Follows t) x => State.GoesOn.next (State.snapFail_follows h p x)
  unfold execCopyEntryDrain
  split
  · exact .stay
  · split
    · exact .stay
    · refine .ite (put (.refl s) _) (.ite .stay (.ite (.ite (put (State.follows_peer (.refl s) _) _) (failed (.refl s) _)) ?_))
      split
      · exact failed (State.countHit_follows (.refl s) _) _
      · exact .ite .stay (put (State.writeTarget_follows (.refl s) _ _ _) _)

theorem execSnapshotSealed_goesOn {p : Fin 8} : s.GoesOn (execSnapshotSealed p s) := by
  have hashed := fun x => State.setSnap_follows (.refl s) p x
  have back : ∀ {t : State} l c st i, s.Follows t → s.Follows ((t.setF (Csr.rgsPartState_STATE p) 2 |>.waitingCmds l c).foldl
      (fun u d => u.complete l d st 0 i) (t.setF (Csr.rgsPartState_STATE p) 2)) :=
    fun _ _ _ _ h => .foldl (State.setF_follows h _ _) (fun _ _ g => State.complete_follows g _ _ _ _ _)
  unfold execSnapshotSealed
  refine .ite .stay ?_
  dsimp only
  refine .ite (.next (back _ _ _ _ (State.setSnap_follows (hashed _) _ _))) ?_
  split
  · exact .next (back _ _ _ _ (State.setSnap_follows (hashed _) _ _))
  · have written := fun x => State.writeManifest_follows (hashed x) p
    exact .ite (.next (State.finishSnap_follows (written _) _))
      (.next (State.setF_follows (.foldl (written _) (fun _ _ h => State.beginExchange_follows h _ _)) _ _))

theorem execBootSlotAttempt_goesOn {readErr : Bool} : s.GoesOn (execBootSlotAttempt readErr s) := by
  have prepared : s.Follows (if s.getF Csr.sysBoot_STATE = 2 then s else s.bootPrep) :=
    .ite (.refl s) (State.bootPrep_follows (.refl s))
  unfold execBootSlotAttempt
  refine .ite .stay ?_
  dsimp only
  split
  · exact .next (State.trySlot_follows prepared _ _ _)
  · exact .next (State.trySlot_follows (State.chooseSlot_follows prepared) _ _ _)

theorem execRingBaseWrite_goesOn {port : Fin 4} {p : Fin 8} {pft cq : Bool} {w : AccWidth} {v : Word} :
    s.GoesOn (execRingBaseWrite port p pft cq w v s) :=
  .ite (.hostWrite fun _ _ _ h => pftBaseWrite_follows h _ _ _ _) (.hostWrite fun _ _ _ h => migBaseWrite_follows h _ _ _ _)

theorem execChainedCounterRead_goesOn {port b : Fin 4} {u : Fin 64} {k : Fin 16} {w : AccWidth} :
    s.GoesOn (execChainedCounterRead port b u k w s) :=
  .ite (.next (State.hostRead_follows (.refl s) _ _ _ _ fun _ _ h => State.readCtr_follows h _ _ _)) .stay

theorem execCounterWrite_goesOn {port b : Fin 4} {u : Fin 64} {k : Fin 16} {w : AccWidth} {v : Word} :
    s.GoesOn (execCounterWrite port b u k w v s) :=
  .ite (.hostWrite fun _ _ _ h => State.store_follows h _ _ _) .stay

/-- A read of a size that R236 has goes on. -/
theorem execMemRd_goesOn {port : Fin 4} {p : Fin 8} {dva : BitVec 48} {n : Nat} (h : memSizeOk dva.toNat n = true) :
    s.GoesOn (execMemRd port p dva n s) := by
  unfold execMemRd
  rw [if_neg (by simp [h])]
  exact .ite .stay (.ite (.next (State.queueAccess_follows (.refl s) _ _ _)) (.next (State.memRead_follows (.refl s) _ _ _ _)))

/-- A write of a size that R236 has goes on. -/
theorem execMemWr_goesOn {port : Fin 4} {p : Fin 8} {dva : BitVec 48} {data : List Byte}
    (h : memSizeOk dva.toNat data.length = true) : s.GoesOn (execMemWr port p dva data s) := by
  unfold execMemWr
  rw [if_neg (by simp [h])]
  exact .ite .stay (.ite (.next (State.queueAccess_follows (.refl s) _ _ _)) (.next (State.memWrite_follows (.refl s) _ _ _ _)))

/-! ### The operations of the Prefect: each starts with what its rule gives, which follows -/

theorem State.GoesOn.startOp {op : Nat} {f : State → PftOp → Group → State × PftOp}
    (h : ∀ t o g, s.Follows t → s.Follows (f t o g).1) : s.GoesOn (.next (s.startOp op f)) :=
  .next (State.startOp_follows (.refl s) op f h)

theorem execAllReduce_goesOn : s.GoesOn (execAllReduce s) :=
  .startOp fun t o g h => by
    split
    · exact State.startBell_follows (State.meetSrc_follows h _ _ _ _) _ _ _
    · exact State.startRing_follows h _ _

theorem execAllToAll_goesOn : s.GoesOn (execAllToAll s) :=
  .startOp fun t o g h => .foldl_fst h fun t j h => by
    have met := fun a b c d => State.meetSrc_follows h a b c d
    dsimp only
    split
    · exact State.writeChunks_follows (met _ _ _ _) _ _ _ _ _ _
    · exact State.emitAll_follows (met _ _ _ _) _ _ _ _ _ _ _ _ _

theorem execBroadcast_goesOn : s.GoesOn (execBroadcast s) :=
  .startOp fun t o g h => by
    dsimp only
    split
    · exact h
    · exact .foldl_fst h fun t x h => .foldl_fst (State.writeChunks_follows (State.meetSrc_follows h _ _ _ _) _ _ _ _ _ _)
        fun u y g => State.emit_follows g _ _ _ _ _

theorem execNorm_goesOn : s.GoesOn (execNorm s) :=
  .startOp fun _ _ _ h => State.startBell_follows (.foldl_fst h fun _ _ g => State.meetSrc_follows g _ _ _ _) _ _ _

theorem execPrefectSend_goesOn : s.GoesOn (execPrefectSend s) :=
  .startOp fun _ _ _ h => .foldl_fst h fun _ _ g => State.sendChunk_follows g _ _ _


/-! ## Every command -/

/-- Every command but a host transfer of a size that no transaction has goes on. -/
theorem exec_goesOn {c : Instr} (hc : noSuchSize c = false) : s.GoesOn (exec c s) := by
  cases c with
  | tmul _ => exact .next (State.issueProduct_follows (.refl s) _ _)
  | tmult _ => exact .next (State.issueProduct_follows (.refl s) _ _)
  | tmulta _ => exact .next (State.issueProduct_follows (.refl s) _ _)
  | tpair _ => exact .next (State.issueProduct_follows (.refl s) _ _)
  | tloadw _ => exact execTloadw_goesOn
  | vadd _ => exact .next (State.issue_follows (.refl s) _ _ _ _)
  | vfma _ => exact .next (State.issue_follows (.refl s) _ _ _ _)
  | vexp _ => exact .next (State.issue_follows (.refl s) _ _ _ _)
  | vrsq _ => exact .next (State.issue_follows (.refl s) _ _ _ _)
  | vamax _ => exact .next (State.issue_follows (.refl s) _ _ _ _)
  | vsmx _ => exact .next (State.issue_follows (.refl s) _ _ _ _)
  | vnorm _ => exact .next (State.issue_follows (.refl s) _ _ _ _)
  | vquant _ => exact .next (State.issue_follows (.refl s) _ _ _ _)
  | vcvt _ => exact .next (State.issue_follows (.refl s) _ _ _ _)
  | vsumsq _ => exact .next (State.issue_follows (.refl s) _ _ _ _)
  | vrng _ => exact .next (State.issue_follows (.refl s) _ _ _ _)
  | vquiz _ => exact .next (State.issue_follows (.refl s) _ _ _ _)
  | mload _ => exact .next (State.issueMove_follows (.refl s) _ _ _ _ _)
  | mstore _ => exact .next (State.issueMove_follows (.refl s) _ _ _ _ _)
  | mconv _ => exact .next (State.issueMove_follows (.refl s) _ _ _ _ _)
  | mgather _ => exact .next (State.issueMove_follows (.refl s) _ _ _ _ _)
  | mscatter _ => exact .next (State.issueMove_follows (.refl s) _ _ _ _ _)
  | mpref _ => exact execMpref_goesOn
  | mupd _ => exact execMupd_goesOn
  | swait _ => exact execSwait_goesOn
  | ssig _ => exact execSsig_goesOn
  | sfence _ => exact execSfence_goesOn
  | sbar _ => exact execSbar_goesOn
  | strig _ => exact execStrig_goesOn
  | sloop _ _ => exact execSloop_goesOn
  | send _ => exact execSend_goesOn
  | frontEndDispatch _ _ => exact .next (State.frontEnd_follows (.refl s) _ _)
  | instructionComplete _ _ _ => exact execInstructionComplete_goesOn
  | readInc _ _ _ => exact execReadInc_goesOn
  | waitTimeout _ _ => exact execWaitTimeout_goesOn
  | classroomFaulted _ => exact execClassroomFaulted_goesOn
  | classroomHalted _ => exact execClassroomHalted_goesOn
  | rampSlotRequest _ => exact execRampSlotRequest_goesOn
  | rampSlotGrant _ _ => exact execRampSlotGrant_goesOn
  | rampStep _ => exact execRampStep_goesOn
  | satchelTake _ => exact execSatchelTake_goesOn
  | fenceDrain _ => exact execFenceDrain_goesOn
  | fenceTimeout _ => exact execFenceTimeout_goesOn
  | mupdComplete _ => exact execMupdComplete_goesOn
  | ctxOpen _ => exact execCtxOpen_goesOn
  | ctxBind _ => exact execCtxBind_goesOn
  | lessonLoad _ => exact execLessonLoad_goesOn
  | lessonLoadDone _ => exact execLessonLoadDone_goesOn
  | launch _ => exact execLaunch_goesOn
  | classroomStart _ => exact execClassroomStart_goesOn
  | launchComplete _ => exact execLaunchComplete_goesOn
  | halt _ => exact execHalt_goesOn
  | resume _ => exact execResume_goesOn
  | drain _ => exact execDrain_goesOn
  | ctxClose _ => exact execCtxClose_goesOn
  | groupJoin _ => exact execGroupJoin_goesOn
  | groupLeave _ => exact execGroupLeave_goesOn
  | snapBegin _ => exact execSnapBegin_goesOn
  | snapCommit _ => exact execSnapCommit_goesOn
  | restore _ _ => exact execRestore_goesOn
  | policySet _ => exact execPolicySet_goesOn
  | sqTailWrite _ _ _ _ => exact .hostWrite fun _ _ _ h => sqTailWrite_follows h _ _ _ _
  | commandRead _ => exact execCommandRead_goesOn
  | cqEventTimer _ => exact execCqEventTimer_goesOn
  | contextAdopt _ _ _ _ => exact .hostWrite fun _ _ _ h => ctxStateWrite_follows h _ _ _ _
  | partitionEnable _ _ _ _ => exact .hostWrite fun _ _ _ h => partCfgWrite_follows h _ _ _
  | cfgWr _ _ _ _ => exact .hostWrite fun _ _ _ h => regWrite_follows h _ _ _ _
  | rcRead _ _ _ => exact .next (State.hostRead_follows (.refl s) _ _ _ _ fun _ _ h => State.readReg_follows h _ _)
  | chainedCounterRead _ _ _ _ _ => exact execChainedCounterRead_goesOn
  | memRd port p dva n => exact execMemRd_goesOn (by simpa [noSuchSize] using hc)
  | memWr port p dva n => exact execMemWr_goesOn (by simpa [noSuchSize] using hc)
  | zhlSignalDetect _ _ => exact execZhlSignalDetect_goesOn
  | zhlTrained _ _ => exact execZhlTrained_goesOn
  | zhlTrainingTimeout _ => exact execZhlTrainingTimeout_goesOn
  | zhlLinkLoss _ _ _ _ => exact execZhlLinkLoss_goesOn
  | zhlEnable _ _ _ _ => exact .hostWrite fun _ _ _ h => zhlCtrlWrite_follows h _ _ _
  | linkEventTimer _ => exact execLinkEventTimer_goesOn
  | objCreate _ => exact execObjCreate_goesOn
  | objDestroy _ => exact execObjDestroy_goesOn
  | promote _ => exact execPromote_goesOn
  | demote _ => exact execDemote_goesOn
  | pin _ => exact execPin_goesOn
  | unpin _ => exact execUnpin_goesOn
  | restoreTile _ => exact execRestoreTile_goesOn
  | query _ => exact execQuery_goesOn
  | fence _ => exact execFence_goesOn
  | migQTailWrite _ _ _ _ => exact .hostWrite fun _ _ _ h => migTailWrite_follows h _ _ _
  | migEntryRead _ => exact execMigEntryRead_goesOn
  | migCompletion _ => exact execMigCompletion_goesOn
  | migCqEventTimer _ => exact execMigCqEventTimer_goesOn
  | tileMoveStart _ _ _ => exact execTileMoveStart_goesOn
  | tileEntrySwitch _ _ => exact execTileEntrySwitch_goesOn
  | agingTick => exact execAgingTick_goesOn
  | poisonTile _ _ _ => exact execPoisonTile_goesOn
  | sramDieFailed _ => exact execSramDieFailed_goesOn
  | channelFailed _ => exact execChannelFailed_goesOn
  | scrubRead _ _ _ => exact execScrubRead_goesOn
  | migModeWrite _ _ _ _ => exact .hostWrite fun _ _ _ h => migCfgWrite_follows h _ _ _
  | ringBaseWrite _ _ _ _ _ _ => exact execRingBaseWrite_goesOn
  | requestAdmission _ _ _ _ _ _ _ _ _ => exact execRequestAdmission_goesOn
  | parkedAdmission _ => exact execParkedAdmission_goesOn
  | bankCommand _ _ _ _ => exact execBankCommand_goesOn
  | writeBufferDrain _ _ _ => exact .next (State.drainBank_follows (.refl s) _ _ _ _)
  | requestUrgent _ _ => exact execRequestUrgent_goesOn
  | bankHotspot _ _ _ => exact execBankHotspot_goesOn
  | mprefPromotion _ => exact execMprefPromotion_goesOn
  | operationPost _ => exact execOperationPost_goesOn
  | pftQTailWrite _ _ _ _ => exact .hostWrite fun _ _ _ h => pftTailWrite_follows h _ _ _
  | prefectSend => exact execPrefectSend_goesOn
  | recv => exact .startOp fun _ _ _ h => h
  | allReduce => exact execAllReduce_goesOn
  | reduceScatter => exact .startOp fun _ _ _ h => State.startRing_follows h _ _
  | allGather => exact .startOp fun _ _ _ h => State.startRing_follows h _ _
  | allToAll => exact execAllToAll_goesOn
  | broadcast => exact execBroadcast_goesOn
  | barrier => exact .startOp fun _ _ _ h => State.startBell_follows h _ _ _
  | norm => exact execNorm_goesOn
  | ctrAdd => exact .startOp fun _ _ _ h => State.emit_follows h _ _ _ _ _
  | operationFire => exact execOperationFire_goesOn
  | operationComplete => exact execOperationComplete_goesOn
  | chunkArrival _ => exact execChunkArrival_goesOn
  | prefectWatchdog _ => exact execPrefectWatchdog_goesOn
  | triggerCounterWrite _ _ _ _ => exact .hostWrite fun _ _ _ h => pftCtrWrite_follows h _ _ _
  | frameSend _ _ _ => exact execFrameSend_goesOn
  | frameReceive _ _ _ _ => exact execFrameReceive_goesOn
  | retryTimeout _ _ => exact execRetryTimeout_goesOn
  | portAlign _ _ => exact execPortAlign_goesOn
  | negotiate _ _ _ _ => exact execNegotiate_goesOn
  | linkVersion _ _ _ => exact execLinkVersion_goesOn
  | linkRetrain _ _ => exact execLinkRetrain_goesOn
  | portAlignTimeout _ => exact execPortAlignTimeout_goesOn
  | reneg _ _ _ _ => exact .hostWrite fun _ _ _ h => niCtrlWrite_follows h _ _ _
  | niEnable _ _ _ _ => exact .hostWrite fun _ _ _ h => niCtrlWrite_follows h _ _ _
  | ping _ _ => exact execPing_goesOn
  | laneErrors _ _ _ _ => exact execLaneErrors_goesOn
  | laneReadmit _ _ => exact execLaneReadmit_goesOn
  | rollCallRecord _ => exact execRollCallRecord_goesOn
  | rollCallResend _ => exact execRollCallResend_goesOn
  | rcTmoExpiry _ => exact execRcTmoExpiry_goesOn
  | planGo _ _ _ _ => exact .hostWrite fun _ _ _ h => planCtrlWrite_follows h _ _ _
  | planUnload _ _ _ _ => exact .hostWrite fun _ _ _ h => planCtrlWrite_follows h _ _ _
  | recheck _ _ _ _ => exact .hostWrite fun _ _ _ h => rcStateWrite_follows h _ _ _
  | nodeWrite _ _ _ => exact .hostWrite fun _ _ _ h => sysNodeWrite_follows h _ _
  | messageDispatch _ _ _ => exact execMessageDispatch_goesOn
  | transitForward _ _ _ => exact execTransitForward_goesOn
  | portQuarantine _ => exact execPortQuarantine_goesOn
  | laneLightDetect _ _ _ _ => exact execLaneLightDetect_goesOn
  | sweepDone _ _ _ _ _ _ => exact execSweepDone_goesOn
  | laneDrift _ _ _ _ _ => exact execLaneDrift_goesOn
  | driftCleared _ _ _ _ => exact execDriftCleared_goesOn
  | laneUnlocked _ _ _ _ => exact execLaneUnlocked_goesOn
  | laneDark _ _ _ _ => exact execLaneDark_goesOn
  | laneReadmitted _ _ _ => exact execLaneReadmitted_goesOn
  | boundSuspensionEnd _ => exact execBoundSuspensionEnd_goesOn
  | softwareRetire _ _ _ _ => exact .hostWrite fun _ _ _ h => glvRetireWrite_follows h _ _ _
  | heaterUpdate _ _ _ => exact execHeaterUpdate_goesOn
  | gloveTempSample _ _ _ => exact .next (State.setFs_follows (State.withOptics_follows (.refl s) _) _)
  | ringRefine _ _ => exact execRingRefine_goesOn
  | monitorExchange _ _ _ _ => exact execMonitorExchange_goesOn
  | calReq _ _ _ _ => exact .hostWrite fun _ _ _ h => glvCtrlWrite_follows h _ _ _
  | commission _ _ _ => exact .hostWrite fun _ _ _ h => elsCtrlWrite_follows h _ _
  | saveTab _ _ _ => exact .hostWrite fun _ _ _ h => elsCtrlWrite_follows h _ _
  | lightEnWrite _ _ _ => exact .hostWrite fun _ _ _ h => elsCtrlWrite_follows h _ _
  | interlockOpen _ => exact execInterlockOpen_goesOn
  | receptacleOpen _ => exact .next (State.setLightEn_follows (State.openInterlock_follows (State.setF_follows
    (.refl s) _ _) _ _) _ _)
  | laserFault _ _ => exact execLaserFault_goesOn
  | laserPoll _ _ _ _ _ _ => exact execLaserPoll_goesOn
  | fadeEvaluation _ => exact execFadeEvaluation_goesOn
  | srcCmd _ _ _ _ => exact .hostWrite fun _ _ _ h => srcCmdWrite_follows h _ _ _
  | spareSwitchStart _ => exact execSpareSwitchStart_goesOn
  | spareRetiringDone _ => exact execSpareRetiringDone_goesOn
  | spareWarmed _ => exact execSpareWarmed_goesOn
  | spareWarmTimeout _ => exact execSpareWarmTimeout_goesOn
  | crossoverDone _ => exact execCrossoverDone_goesOn
  | relockDone _ _ => exact execRelockDone_goesOn
  | laserSpareDone _ => exact execLaserSpareDone_goesOn
  | glovePllRetry _ _ => exact execGlovePllRetry_goesOn
  | serdesUnlock _ => exact execSerdesUnlock_goesOn
  | firstTouchCopy _ => exact execFirstTouchCopy_goesOn
  | backgroundCopy _ _ => exact execBackgroundCopy_goesOn
  | tileCopied _ _ _ _ => exact execTileCopied_goesOn
  | copyEntryDrain _ _ => exact execCopyEntryDrain_goesOn
  | peerCopyReceive _ _ _ _ _ _ _ => exact execPeerCopyReceive_goesOn
  | snapshotProtected _ => exact execSnapshotProtected_goesOn
  | snapshotSealed _ => exact execSnapshotSealed_goesOn
  | snapshotVerify _ => exact execSnapshotVerify_goesOn
  | snapAborted _ => exact execSnapAborted_goesOn
  | snapshotTargetFailure _ _ => exact execSnapshotTargetFailure_goesOn
  | confirm _ _ _ => exact .hostWrite fun _ _ _ h => fwWrite_follows h _ _
  | arbRaise _ _ _ => exact .hostWrite fun _ _ _ h => arbWrite_follows h _ _
  | advisoryEventTimer _ => exact execAdvisoryEventTimer_goesOn
  | proctorFailed _ => exact execProctorFailed_goesOn
  | proctorWatchdog _ => exact execProctorWatchdog_goesOn
  | sensorSample _ _ => exact .next (State.judgeThrottle_follows (State.judgeMem_follows (State.judgeHot_follows
    (State.showHottest_follows (State.setF_follows (State.withPower_follows (.foldl (.refl s)
    (fun _ _ h => State.readSensor_follows h _ _)) _) _ _)) _) _))
  | throttleStillHot => exact execThrottleStillHot_goesOn
  | throttleCoolHeld => exact execThrottleCoolHeld_goesOn
  | throttleRaise => exact execThrottleRaise_goesOn
  | keepSlewStep => exact execKeepSlewStep_goesOn
  | thermtrip => exact execThermtrip_goesOn
  | avsbusPoll _ _ _ _ _ _ _ _ => exact execAvsbusPoll_goesOn
  | vsetWrite _ _ _ => exact .hostWrite fun _ _ _ h => vsetWrite_follows h _ _
  | clockOrSupply _ => exact execClockOrSupply_goesOn
  | porn => exact .next (State.powerOn_follows (.refl s) _ _)
  | wrstn => exact execWrstn_goesOn
  | partitionReset _ _ _ => exact .hostWrite fun _ _ _ h => prstWrite_follows h _ _
  | contextReset _ _ _ => exact .hostWrite fun _ _ _ h => crstWrite_follows h _ _
  | bootSlotAttempt _ => exact execBootSlotAttempt_goesOn
  | bootReady _ _ => exact execBootReady_goesOn
  | attGo _ _ _ => exact .hostWrite fun _ _ _ h => attCtrlWrite_follows h _ _
  | fuseProg _ _ _ => exact .hostWrite fun _ _ _ h => fuseProgWrite_follows h _ _
  | erase64k _ _ _ => exact .hostWrite fun _ _ _ h => flashCmdWrite_follows h _ _
  | program4k _ _ _ => exact .hostWrite fun _ _ _ h => flashCmdWrite_follows h _ _
  | read4k _ _ _ => exact .hostWrite fun _ _ _ h => flashCmdWrite_follows h _ _
  | flashOperationDone _ => exact execFlashOperationDone_goesOn
  | bypass => exact .next (State.jtagInsn_follows (.refl s) _ _ _)
  | idcode => exact .next (State.jtagInsn_follows (.refl s) _ _ _)
  | samplePreload _ _ => exact .next (State.boundaryScan_follows (.refl s) _ _ _ _)
  | extest _ _ _ => exact execExtest_goesOn
  | clamp _ => exact execClamp_goesOn
  | highz _ => exact execHighz_goesOn
  | dbgChal => exact .next (State.jtagInsn_follows (State.withSec_follows (State.freeBytes_follows (.refl s) _) _) _ _ _)
  | dbgResp _ => exact execDbgResp_goesOn
  | pmuFreeze _ _ _ => exact .hostWrite fun _ _ _ h => pmuCtrlWrite_follows h _ _
  | clrAll _ _ _ => exact .hostWrite fun _ _ _ h => pmuCtrlWrite_follows h _ _
  | counterWrite _ _ _ _ _ _ => exact execCounterWrite_goesOn
  | sampleWrite _ => exact execSampleWrite_goesOn
  | aggregateUpdate _ _ _ => exact .next (State.countAll_follows (.refl s) _ _ _)
  | hold _ _ _ _ => exact .hostWrite fun _ _ _ h => arrCtrlWrite_follows h _ _ _
  | gloveEnable _ _ _ _ => exact .hostWrite fun _ _ _ h => glvCtrlWrite_follows h _ _ _
  | gloveBringup _ _ => exact execGloveBringup_goesOn
  | reservedUe _ _ _ => exact execReservedUe_goesOn
  | laserFaultCleared _ => exact execLaserFaultCleared_goesOn
  | receptaclePresent _ => exact .next (State.bootLight_follows (State.setF_follows (.refl s) _ _) _)
  | vauxLoss => exact .next (State.powerOn_follows (.refl s) _ _)
  | pmcCycle _ _ _ _ _ => exact execPmcCycle_goesOn
  | fuseProgrammingDone => exact execFuseProgrammingDone_goesOn
  | arbBlowDone => exact execArbBlowDone_goesOn
  | attReportDone => exact execAttReportDone_goesOn

/-! ## The two statements about every command -/

/-- A host transfer of a size that no transaction of R236 has is the one stop. -/
theorem exec_noSuchSize {c : Instr} (hc : noSuchSize c = true) : exec c s = .fault .noSuchTransaction := by
  cases c with
  | memRd port p dva n => exact if_pos hc
  | memWr port p dva data => exact if_pos hc
  | _ => cases hc

end

/-- Settles O3: every command but a MEM_RD or MEM_WR of an impossible size goes on, and those stop with the one fault. -/
theorem onlyImpossibleTransfersStop : Obligations.OnlyImpossibleTransfersStop := by
  intro c s
  refine ⟨exec_noSuchSize, fun hc => ?_⟩
  obtain ⟨t, ht, _⟩ := exec_goesOn (s := s) hc
  exact ⟨t, ht⟩

/-- The state with its first command taken off the queue has the tables of the state. -/
theorem State.step_follows {s t : State} (h : step s = .next t) : ({ s with pending := s.pending.tail } : State).Follows t := by
  unfold step at h
  split at h
  · rename_i hp
    cases h
    rw [hp]
    exact State.tick_follows ⟨id, hp, Nat.le_refl _⟩
  · rename_i c r hp
    rw [hp]
    cases hc : noSuchSize c
    · obtain ⟨u, hu, hf⟩ := exec_goesOn (s := { s with pending := r }) hc
      cases hu.symm.trans h
      exact hf
    · cases (exec_noSuchSize hc).symm.trans h

/-- Settles O4: a step is the tick of the clock or a command that goes on, and what follows a state keeps its form, its
queue and the count of its draws. -/
theorem everyStepKeepsTheForm : Obligations.EveryStepKeepsTheForm := by
  intro s t hs h
  obtain ⟨hform, hpending, hdrawn⟩ := State.step_follows h
  exact ⟨hform hs, hpending, hdrawn⟩

end Sys2Proof.Machine

/-! SUPPORT. The issue of the V engine's instructions (R83 to R89). -/

namespace Sys2Proof.Machine

/-- A command that issues on the V engine answers with what issue gives. -/
theorem answers_issue {s : State} {i : Instr} {c : Nat} {op : Op} {run : QEntry → Except FaultInfo Result} {e : QEntry} {r : Result}
    (hi : exec i s = .next (s.issue c .v op run)) (h : s.ready c .v op = some e) (hr : run e = .ok r) :
    answers i s (fun t => s.Issued t c .v e r ∧
      ∀ g : Fld, g.fits = true → (occField c .v).apart g = true → (Csr.clsTok_COUNT c (insnWtok e.enc)).apart g = true →
        t.getF g = s.getF g) :=
  answers_of hi (State.issue_spec h hr)

/-- Settles O6: each of the twelve commands is the shared issue with its own function for the result. -/
theorem vectorInstructionsIssue : Obligations.VectorInstructionsIssue := by
  intro s c e r issues
  refine ⟨?vadd, ?vfma, ?vexp, ?vrsq, ?vamax, ?vsmx, ?vnorm, ?vquant, ?vcvt, ?vsumsq, ?vrng, ?vquiz⟩
  all_goals exact fun h hr => answers_issue rfl h hr

end Sys2Proof.Machine

/-! SUPPORT. The issue of the T engine's products and of TLOADW (R73 to R81, R103, R104). -/

namespace Sys2Proof.Machine

variable {s t u : State} {c : Nat} {q : Queue} {e : QEntry} {r : Result}

/-- What touches no queue, engine, COUNT or memory leaves an issued instruction issued. -/
theorem State.Issued.beside (h : s.Issued t c q e r) (g : t.Beside u c) : s.Issued u c q e r where
  queue := (g.queue q).trans h.queue
  flight := by rw [g.flight q]; exact h.flight
  take hm := by rw [g.count _ insnWtok_lt]; exact h.take hm
  memory a := by unfold State.peek; rw [g.mem]; exact h.memory a
  others d hd := (g.others d hd).trans (h.others d hd)

/-! ## The arrays and their banks touch no queue, engine, COUNT or memory -/

theorem clsArrStat_apart_count {lo len k : Nat} (hk : k < 64) :
    (⟨Csr.clsArrStat c, lo, len⟩ : Fld).apart (Csr.clsTok_COUNT c k) = true :=
  clsTok_apart (fun j _ => by simp only [Csr.clsArrStat, Csr.clsTok]; omega) hk

theorem clsArrRamp_apart_count {lo len k : Nat} (hk : k < 64) :
    (⟨Csr.clsArrRamp c, lo, len⟩ : Fld).apart (Csr.clsTok_COUNT c k) = true :=
  clsTok_apart (fun j _ => by simp only [Csr.clsArrRamp, Csr.clsTok]; omega) hk

theorem State.Beside.setArrStat {lo len v : Nat} (h : s.Beside t c) (hf : lo + len ≤ 64 := by decide) :
    s.Beside (t.setF ⟨Csr.clsArrStat c, lo, len⟩ v) c :=
  h.setF (by simpa [Fld.fits] using hf) fun _ => clsArrStat_apart_count

theorem Classroom.queue_ramp {x : Classroom} {n : Nat} {w : Bool} :
    ({ x with rampLeft := n, waitArrays := w } : Classroom).queue q = x.queue q := by cases q <;> rfl

theorem Classroom.flight_ramp {x : Classroom} {n : Nat} {w : Bool} :
    ({ x with rampLeft := n, waitArrays := w } : Classroom).flight q = x.flight q := by cases q <;> rfl

theorem Classroom.queue_banks {x : Classroom} {k l : Option Bank} :
    ({ x with active := k, shadow := l } : Classroom).queue q = x.queue q := by cases q <;> rfl

theorem Classroom.flight_banks {x : Classroom} {k l : Option Bank} :
    ({ x with active := k, shadow := l } : Classroom).flight q = x.flight q := by cases q <;> rfl

theorem State.askRamp_beside : s.Beside (s.askRamp c) c := by
  unfold State.askRamp
  split
  · exact State.beside_self
  · exact .of_eq rfl rfl rfl

/-- The arrays wake beside the queues. -/
theorem State.wakeArrays_beside {prod : Bool} : s.Beside (s.wakeArrays c prod) c := by
  have waits : ∀ {t : State} n w, s.Beside t c → t.room c = s.room c →
      s.Beside (t.setRoom c { s.room c with rampLeft := n, waitArrays := w }) c := fun _ _ h ht =>
    h.setRoom (fun q => by rw [ht, Classroom.queue_ramp]) (fun q => by rw [ht, Classroom.flight_ramp])
  have idle : s.Beside (s.unaskRamp c) c := .of_eq (Eq.refl _) (Eq.refl _) (Eq.refl _)
  have freed : s.Beside (s.freeRamp c) c := .of_eq (Eq.refl _) (Eq.refl _) (Eq.refl _)
  unfold State.wakeArrays
  dsimp only
  split
  · split
    · exact idle.setArrStat
    · exact idle
  · split
    · exact freed.setArrStat
    · refine waits _ _ (State.beside_self.setArrStat.setArrStat.addF rfl fun _ => clsArrRamp_apart_count) ?_
      simp only [State.addF_room, State.setF_room]
  · refine waits _ _ (State.beside_self.setArrStat.trans State.askRamp_beside) ?_
    unfold State.askRamp
    split <;> rfl
  · exact State.beside_self
  · exact waits _ _ State.beside_self rfl

/-- Without a load in flight there is none to abandon. -/
theorem State.abandonLoad_none (h : (s.room c).tf.any isLoad = false) : s.abandonLoad c = s := by
  have hn : (s.room c).tf.find? isLoad = none := by simpa using h
  unfold State.abandonLoad
  dsimp only
  rw [hn]
  split
  · simp_all
  · rfl

/-- A product that uses the shadow bank, or that finds no load to abandon, sets its banks beside the queues. -/
theorem State.productBanks_beside {pre : Bool} {id : TileId} {data : List Nat}
    (h : (s.room c).tf.any isLoad = false ∨ pre = true) : s.Beside (s.productBanks c pre id data) c := by
  have busy : s.Beside (if pre then s else (s.abandonLoad c).setF (Csr.clsArrStat_LOAD_BUSY c) 1) c := by
    split
    · exact State.beside_self
    · rw [State.abandonLoad_none (by simp_all)]
      exact State.beside_self.setF rfl fun _ => clsArrStat_apart_count
  refine State.Beside.trans busy ?_
  exact ((State.beside_self.setRoom (fun _ => Classroom.queue_banks) (fun _ => Classroom.flight_banks)).setArrStat).setArrStat

/-! ## Abandoning a load keeps the queues and memory -/

/-- `t` has the queues of classroom `c` and the memory of `s`. -/
structure State.Queued (s t : State) (c : Nat) : Prop where
  queue : ∀ q, (t.room c).queue q = (s.room c).queue q
  mem : t.mem = s.mem

theorem State.queued_self : s.Queued s c := ⟨fun _ => .refl _, .refl _⟩

theorem State.Queued.trans (h : s.Queued t c) (g : t.Queued u c) : s.Queued u c :=
  ⟨fun q => (g.queue q).trans (h.queue q), g.mem.trans h.mem⟩

theorem State.Beside.queued (h : s.Beside t c) : s.Queued t c := ⟨h.queue, h.mem⟩

theorem State.queued_setF {f : Fld} {v : Nat} : s.Queued (s.setF f v) c := ⟨fun _ => by rw [State.setF_room], State.setF_mem s f v⟩

theorem State.queued_setFs {l : List (Fld × Nat)} : s.Queued (s.setFs l) c :=
  ⟨fun _ => by rw [State.setFs_room], State.setFs_mem s l⟩

theorem State.queued_setRoom {x : Classroom} (h : ∀ q, x.queue q = (s.room c).queue q) : s.Queued (s.setRoom c x) c :=
  ⟨fun q => by rw [State.room_setRoom, if_pos rfl, h q], State.setRoom_mem s c x⟩

theorem Classroom.queue_stopping {x : Classroom} {b : Bool} : ({ x with stopping := b } : Classroom).queue q = x.queue q := by
  cases q <;> rfl

theorem State.recordStop_queued {n pc enc : Nat} {f : FaultInfo} : s.Queued (s.recordStop c n pc enc f) c := by
  unfold State.recordStop
  split
  · exact State.queued_setF
  · exact State.queued_setFs.trans (State.queued_setRoom fun _ => Classroom.queue_stopping)

theorem State.tokenAdd_queued {k n pc enc : Nat} {d : Int} : s.Queued (s.tokenAdd c k d n pc enc) c := by
  unfold State.tokenAdd
  dsimp only
  split
  · exact State.queued_setF
  · exact State.recordStop_queued

theorem State.signal_queued {f : InFlight} : s.Queued (s.signal c q f) c := by
  unfold State.signal
  split
  · exact State.tokenAdd_queued
  · split
    · exact State.queued_self
    · exact State.tokenAdd_queued
  · exact State.queued_setF
  · exact State.queued_self

theorem State.ownerBy_lt {f : Nat → Fld} {i p : Nat} (h : s.ownerBy f i = some p) : p < 8 :=
  List.mem_range.mp (List.mem_of_find?_eq_some h)

theorem clsPsampStat_apart_count {lo len k : Nat} (hk : k < 64) :
    (⟨Csr.clsPsampStat c, lo, len⟩ : Fld).apart (Csr.clsTok_COUNT c k) = true :=
  clsTok_apart (fun j _ => by simp only [Csr.clsPsampStat, Csr.clsTok]; omega) hk

theorem pmuPartSbufStat_apart_count {p lo len k : Nat} (hp : p < 8) (hk : k < 64) :
    (⟨Csr.pmuPartSbufStat p, lo, len⟩ : Fld).apart (Csr.clsTok_COUNT c k) = true :=
  clsTok_apart (fun j _ => by simp only [Csr.pmuPartSbufStat, Csr.clsTok]; omega) hk

theorem State.samples_beside {l : List Sample} : t.Beside { t with samples := l } c := .of_eq rfl rfl rfl

theorem State.draw_beside {n : Nat} : t.Beside (t.draw n).2 c := .of_eq rfl rfl rfl

theorem State.formSample_beside {wait lat : Nat} {b : Bool} : s.Beside (s.formSample c q e wait lat b) c := by
  unfold State.formSample
  split
  · exact State.beside_self
  next p hp =>
    dsimp only
    split
    · exact (State.beside_self.addF rfl fun _ => pmuPartSbufStat_apart_count (State.ownerBy_lt hp)).addF rfl
        fun _ => clsPsampStat_apart_count
    · exact State.samples_beside

theorem Classroom.queue_sampleCount {x : Classroom} {n : Nat} : ({ x with sampleCount := n } : Classroom).queue q = x.queue q := by
  cases q <;> rfl

theorem Classroom.flight_sampleCount {x : Classroom} {n : Nat} :
    ({ x with sampleCount := n } : Classroom).flight q = x.flight q := by cases q <;> rfl

theorem State.countSample_beside : s.Beside (s.countSample c).2 c := by
  unfold State.countSample
  exact State.beside_self.setRoom (fun _ => Classroom.queue_sampleCount) (fun _ => Classroom.flight_sampleCount)

theorem State.sampleEnd_beside {b x : Bool} {wait : Nat} : s.Beside (s.sampleEnd c q e b wait x) c := by
  unfold State.sampleEnd
  dsimp only
  split <;> split
  · exact (State.draw_beside.trans State.countSample_beside).trans State.formSample_beside
  · exact State.draw_beside.trans State.countSample_beside
  · exact (State.draw_beside (n := 0)).trans State.formSample_beside
  · exact State.draw_beside (n := 0)

theorem Classroom.queue_abandoned {x : Classroom} {l : List InFlight} {n : Nat} :
    (({ x with tf := l } : Classroom).fenceSees .t n).queue q = x.queue q := by cases q <;> rfl

theorem State.abandonLoad_queued : s.Queued (s.abandonLoad c) c := by
  unfold State.abandonLoad
  dsimp only
  split
  · exact ((State.queued_setRoom (fun _ => Classroom.queue_abandoned)).trans State.queued_setF).trans
      (State.signal_queued.trans State.sampleEnd_beside.queued)
  · exact State.queued_self

theorem State.productBanks_queued {pre : Bool} {id : TileId} {data : List Nat} : s.Queued (s.productBanks c pre id data) c := by
  have busy : s.Queued (if pre then s else (s.abandonLoad c).setF (Csr.clsArrStat_LOAD_BUSY c) 1) c := by
    split
    · exact State.queued_self
    · exact State.abandonLoad_queued.trans State.queued_setF
  unfold State.productBanks
  exact busy.trans ((State.queued_setRoom fun _ => Classroom.queue_banks).trans State.queued_setFs)

/-! ## The instructions -/

/-- The last instruction in flight in engine `q` is `e` with the result `r`. -/
def State.InFlightLast (t : State) (c : Nat) (q : Queue) (e : QEntry) (r : Result) : Prop :=
  ∃ f, ((t.room c).flight q).getLast? = some f ∧ f.entry = e ∧ f.writes = r.writes ∧ f.flags = r.flags

theorem State.launchInsn_last : (s.launchInsn c q e r).InFlightLast c q e r := by
  obtain ⟨-, -, -, n, f, hf, h1, h2, h3, -⟩ := State.launchInsn_spec (s := s) (c := c) (q := q) (e := e) (x := r)
  exact ⟨f, by rw [hf, Classroom.flight_setFlight, List.getLast?_append]; rfl, h1, h2, h3⟩

theorem State.launchInsn_queued : s.Queued (s.launchInsn c q e r) c := by
  obtain ⟨-, hm, -, n, f, hf, -⟩ := State.launchInsn_spec (s := s) (c := c) (q := q) (e := e) (x := r)
  exact ⟨fun p => by rw [hf, Classroom.queue_setFlight, Classroom.queue_sampleCount], hm⟩

theorem State.touchSources_beside : s.Beside (s.touchSources c e) c := by
  obtain ⟨h1, h2, h3⟩ := State.touchSources_same (s := s) (c := c) (e := e)
  exact .of_eq h1 h2 h3

/-- A product that is ready, accepted and good is issued (R73 to R81): the banks change, the sources are read, the product is
in flight, and the arrays wake. -/
theorem State.issueProduct_spec {op : Op} (h : s.ready c .t op = some e) (ha : acceptsProduct (s.room c) = true)
    (hr : productResult s c op e = .ok r) : let t := s.issueProduct c op
    (t.room c).queue .t = ((s.room c).queue .t).tail ∧ (∀ a, t.peek a = s.peek a) ∧ t.InFlightLast c .t e r ∧
      ((s.room c).tf.any isLoad = false ∨ bitOf e.enc 1 = true → s.Issued t c .t e r) := by
  obtain ⟨popRoom, -, popMem, -⟩ := State.popHead_spec h
  have woken : ∀ {x : State} {b : Bool}, x.Beside (if b then x.wakeArrays c true else x) c := by
    intro x b
    split
    · exact State.wakeArrays_beside
    · exact State.beside_self
  unfold State.issueProduct
  rw [h]
  dsimp only
  rw [if_pos ha, hr]
  dsimp only
  have banks : ∀ id data, (s.popHead c .t e).Queued (if streams e then
      (s.popHead c .t e).productBanks c (bitOf e.enc 1) id data else s.popHead c .t e) c := by
    intro id data
    split
    · exact State.productBanks_queued
    · exact State.queued_self
  have queued := fun id data => ((banks id data).trans (State.touchSources_beside (e := e)).queued).trans
    (State.launchInsn_queued (e := e) (q := .t) (r := r) |>.trans (woken (b := streams e)).queued)
  refine ⟨?_, fun a => ?_, ?_, fun hload => ?_⟩
  · rw [(queued _ _).queue, popRoom, Classroom.queue_setQueue]
  · unfold State.peek
    rw [(queued _ _).mem, popMem]
  · obtain ⟨f, hf, rest⟩ := State.launchInsn_last (e := e) (q := .t) (r := r) (c := c)
    exact ⟨f, by rw [woken.flight, hf], rest⟩
  · refine (State.issued_of_beside h insnWtok_lt (State.Beside.trans ?_ State.touchSources_beside)).beside woken
    split
    · refine State.productBanks_beside (hload.imp_left fun hl => ?_)
      rw [popRoom]
      exact hl
    · exact State.beside_self

/-! ## TLOADW -/

theorem Classroom.queue_shadow {x : Classroom} {k : Option Bank} : ({ x with shadow := k } : Classroom).queue q = x.queue q := by
  cases q <;> rfl

theorem Classroom.flight_shadow {x : Classroom} {k : Option Bank} :
    ({ x with shadow := k } : Classroom).flight q = x.flight q := by cases q <;> rfl

/-- The shadow bank after a launch in engine `t` is the one before it. -/
theorem State.launchInsn_shadow {x : Result} : ((s.launchInsn c q e x).room c).shadow = (s.room c).shadow := by
  obtain ⟨-, -, -, n, f, hf, -⟩ := State.launchInsn_spec (s := s) (c := c) (q := q) (e := e) (x := x)
  rw [hf]
  cases q <;> rfl

/-- The state in which a TLOADW of the bank `k` is launched: the head popped, the shadow bank filled and shown. -/
def State.shadowFilled (s : State) (c : Nat) (e : QEntry) (k : Bank) (tr : Bool) : State :=
  ((s.popHead c .t e).setRoom c { (s.popHead c .t e).room c with shadow := some k }).setFs
    [(Csr.clsArrStat_LOAD_BUSY c, 1), (Csr.clsArrStat_SHADOW_VALID c, 1), (Csr.clsArrStat_SHADOW_TR c, tr.toNat)]

theorem State.shadowFilled_beside {k : Bank} {tr : Bool} : (s.popHead c .t e).Beside (s.shadowFilled c e k tr) c :=
  (((State.beside_self.setRoom (fun _ => Classroom.queue_shadow) (fun _ => Classroom.flight_shadow)).setArrStat).setArrStat).setArrStat

theorem State.setFs_cons {f : Fld} {v : Nat} {l : List (Fld × Nat)} : t.setFs ((f, v) :: l) = (t.setF f v).setFs l := rfl

theorem State.setFs_nil : t.setFs [] = t := rfl

/-- ARR.STAT as TLOADW sets it. -/
theorem State.loadFlags_shown {n : Nat} : let x := t.setFs [(Csr.clsArrStat_LOAD_BUSY c, 1), (Csr.clsArrStat_SHADOW_VALID c, 1),
      (Csr.clsArrStat_SHADOW_TR c, n)]
    x.getF (Csr.clsArrStat_LOAD_BUSY c) = 1 ∧ x.getF (Csr.clsArrStat_SHADOW_VALID c) = 1 ∧
      x.getF (Csr.clsArrStat_SHADOW_TR c) = n % 2 := by
  dsimp only
  rw [State.setFs_cons, State.setFs_cons, State.setFs_cons]
  refine ⟨?_, ?_, ?_⟩
  · rw [State.setFs_nil, State.getF_setF_apart rfl (by simp [Fld.apart, Csr.clsArrStat_LOAD_BUSY, Csr.clsArrStat_SHADOW_TR]),
      State.getF_setF_apart rfl (by simp [Fld.apart, Csr.clsArrStat_LOAD_BUSY, Csr.clsArrStat_SHADOW_VALID]),
      State.getF_setF_same rfl]
    rfl
  · rw [State.setFs_nil, State.getF_setF_apart rfl (by simp [Fld.apart, Csr.clsArrStat_SHADOW_VALID, Csr.clsArrStat_SHADOW_TR]),
      State.getF_setF_same rfl]
    rfl
  · exact State.getF_setF_same rfl

/-- The shadow bank of a launched TLOADW holds what it was filled with, and ARR.STAT shows it. -/
theorem State.shadowFilled_shows {k : Bank} {tr : Bool} :
    let t := ((s.shadowFilled c e k tr).touchSources c e).launchInsn c .t e Result.none
    (t.room c).shadow = some k ∧ t.getF (Csr.clsArrStat_LOAD_BUSY c) = 1 ∧ t.getF (Csr.clsArrStat_SHADOW_VALID c) = 1 ∧
      t.getF (Csr.clsArrStat_SHADOW_TR c) = tr.toNat := by
  obtain ⟨touchCsr, touchCls, -⟩ := State.touchSources_same (s := s.shadowFilled c e k tr) (c := c) (e := e)
  obtain ⟨launchCsr, -⟩ := State.launchInsn_spec (s := (s.shadowFilled c e k tr).touchSources c e) (c := c) (q := .t) (e := e)
    (x := Result.none)
  have shown : ∀ f, (((s.shadowFilled c e k tr).touchSources c e).launchInsn c .t e Result.none).getF f =
      (s.shadowFilled c e k tr).getF f := fun f => by unfold State.getF State.rd; rw [launchCsr, touchCsr]
  refine ⟨?_, ?_⟩
  · rw [State.launchInsn_shadow]
    unfold State.room
    rw [touchCls]
    change ((s.shadowFilled c e k tr).room c).shadow = _
    unfold State.shadowFilled
    rw [State.setFs_room, State.room_setRoom, if_pos rfl]
  · obtain ⟨busy, valid, turned⟩ := State.loadFlags_shown (c := c) (n := tr.toNat)
      (t := (s.popHead c .t e).setRoom c { (s.popHead c .t e).room c with shadow := some k })
    have bit : tr.toNat % 2 = tr.toNat := by cases tr <;> rfl
    exact ⟨(shown _).trans busy, (shown _).trans valid, (shown _).trans (turned.trans bit)⟩

/-- Settles O7: the four products are the shared issue of a product, and TLOADW fills the shadow bank beside the queues. -/
theorem tensorInstructionsIssue : Obligations.TensorInstructionsIssue := by
  intro s c e r issues
  refine ⟨?tmul, ?tmult, ?tmulta, ?tpair, ?tloadw⟩
  case tloadw =>
    intro b data h idle ha hd
    refine answers_of ?_ ⟨State.issued_of_beside h insnWtok_lt (State.shadowFilled_beside.trans State.touchSources_beside),
      State.shadowFilled_shows (tr := bitOf e.enc 0)⟩
    have own : s.ownLoad c = false := by simp [State.ownLoad, idle]
    have path : s.pathBusy c = false := by simp [State.pathBusy, idle]
    change execTloadw c s = _
    unfold execTloadw
    simp [h, own, path, ha, hd, State.shadowFilled]
  all_goals exact fun h ha hr => answers_of rfl (State.issueProduct_spec h ha hr)

end Sys2Proof.Machine

/-! SUPPORT. The issue of the M engine's moves, of MPREF and of MUPD (R37, R90 to R93). -/

namespace Sys2Proof.Machine

variable {s t u : State} {c : Nat} {q : Queue} {e : QEntry} {r : Result}

/-! ## What a move does before it is launched touches no queue, engine, COUNT or memory -/

theorem Classroom.queue_prefetch {x : Classroom} {p : Option Prefetch} :
    ({ x with prefetch := p } : Classroom).queue q = x.queue q := by cases q <;> rfl

theorem Classroom.flight_prefetch {x : Classroom} {p : Option Prefetch} :
    ({ x with prefetch := p } : Classroom).flight q = x.flight q := by cases q <;> rfl

theorem State.Beside.ite {p : Prop} [Decidable p] (h : s.Beside t c) (g : s.Beside u c) : s.Beside (if p then t else u) c := by
  split
  · exact h
  · exact g

theorem State.startPrefetch_beside {src : Option RDesc} : s.Beside (s.startPrefetch c src) c := by
  unfold State.startPrefetch
  split
  · exact State.beside_self
  · dsimp only
    split
    · exact State.beside_self
    · exact State.beside_self.setRoom (fun _ => Classroom.queue_prefetch) (fun _ => Classroom.flight_prefetch)

theorem State.touch_beside {p : Nat} {as : List Nat} : s.Beside (s.touch p as) c := by
  obtain ⟨h1, h2, h3⟩ := State.touch_same (s := s) (p := p) (as := as)
  exact .of_eq h1 h2 h3

theorem clsMpref_apart_count {lo len k : Nat} (hk : k < 64) :
    (⟨Csr.clsMprefStat c, lo, len⟩ : Fld).apart (Csr.clsTok_COUNT c k) = true ∧
    (⟨Csr.clsMprefDrop c, lo, len⟩ : Fld).apart (Csr.clsTok_COUNT c k) = true :=
  ⟨clsTok_apart (fun j _ => by simp only [Csr.clsMprefStat, Csr.clsTok]; omega) hk,
    clsTok_apart (fun j _ => by simp only [Csr.clsMprefDrop, Csr.clsTok]; omega) hk⟩

theorem State.prefq_beside {l : List PrefReq} : t.Beside { t with prefq := l } c := .of_eq rfl rfl rfl

theorem State.prefTile_beside {p a : Nat} {nopref : Bool} {first : Option Nat} :
    s.Beside (s.prefTile c p nopref first a) c := by
  have asked : s.Beside (s.addF (Csr.clsMprefStat_REQUESTED c) 1) c :=
    State.beside_self.addF rfl fun _ hk => (clsMpref_apart_count hk).1
  have dropped := asked.addF (f := Csr.clsMprefDrop_DROPPED c) (v := 1) rfl fun _ hk => (clsMpref_apart_count hk).2
  have resident := asked.addF (f := Csr.clsMprefDrop_RESIDENT c) (v := 1) rfl fun _ hk => (clsMpref_apart_count hk).2
  unfold State.prefTile
  dsimp only
  split
  · refine State.Beside.ite dropped (State.Beside.ite resident ?_)
    refine State.Beside.ite dropped ?_
    exact asked.trans State.prefq_beside
  · exact dropped

theorem State.foldl_prefTile_beside {l : List Nat} {p : Nat} {nopref : Bool} {first : Option Nat} :
    s.Beside (l.foldl (fun t a => t.prefTile c p nopref first a) s) c := by
  induction l generalizing s with
  | nil => exact State.beside_self
  | cons a l ih => exact State.prefTile_beside.trans ih

theorem State.prefRegion_beside {p : Nat} {d : RDesc} : s.Beside (s.prefRegion c p d) c := State.foldl_prefTile_beside

/-! ## A move whose bytes are still to be formed -/

theorem List.mapIdx_last {α : Type} {f : α → α} {l : List α} {a : α} :
    (l ++ [a]).mapIdx (fun i x => if i + 1 = (l ++ [a]).length then f x else x) = l ++ [f a] := by
  refine List.ext_getElem (by simp) fun i h1 h2 => ?_
  have hi : i < l.length + 1 := by simpa using h1
  by_cases hl : i < l.length
  · simp [hl, show ¬ i = l.length by omega]
  · simp [show i = l.length by omega]

/-- The last move in flight has its bytes still to be formed. -/
theorem State.deferLast_last {l : List InFlight} {f : InFlight} (h : (s.room c).mf = l ++ [f]) :
    ((s.deferLast c).room c).mf = l ++ [{ f with deferred := true }] := by
  unfold State.deferLast
  dsimp only
  rw [State.room_setRoom, if_pos rfl, h]
  exact List.mapIdx_last (f := fun x : InFlight => { x with deferred := true })

theorem State.deferLast_mq : ((s.deferLast c).room c).mq = (s.room c).mq := by
  unfold State.deferLast
  dsimp only
  rw [State.room_setRoom, if_pos rfl]

/-! ## The instructions -/

/-- The state in which a ready move goes on: taken from its queue, its reads ahead started. -/
theorem State.moveHead_beside {streamed : Bool} :
    (s.popHead c .m e).Beside (if streamed then (s.popHead c .m e).startPrefetch c e.a else s.popHead c .m e) c := by
  split
  · exact State.startPrefetch_beside
  · exact State.beside_self

/-- A ready move with good operands that clashes with no MUPD is issued with what `run` forms. -/
theorem State.issueMove_issued {op : Op} {streamed : Bool} {run : QEntry → Except MoveStop Result} {reads : QEntry → List Nat}
    (h : s.ready c .m op = some e) (hs : s.satClash c e = false) (hr : run e = .ok r) :
    s.Issued (s.issueMove c op streamed run reads) c .m e r := by
  unfold State.issueMove
  rw [h]
  dsimp only
  rw [hs, hr]
  exact State.issued_of_beside h insnWtok_lt (State.moveHead_beside.trans State.touch_beside)

/-- A ready move that clashes with a MUPD is in flight with its bytes still to be formed. -/
theorem State.issueMove_deferred {op : Op} {streamed : Bool} {run : QEntry → Except MoveStop Result} {reads : QEntry → List Nat}
    (h : s.ready c .m op = some e) (hs : s.satClash c e = true) :
    ((s.issueMove c op streamed run reads).room c).mq = (s.room c).mq.tail ∧
    (∀ a, (s.issueMove c op streamed run reads).peek a = s.peek a) ∧
    ∃ f, ((s.issueMove c op streamed run reads).room c).mf = (s.room c).mf ++ [f] ∧ f.entry = e ∧ f.writes = [] ∧
      f.deferred = true := by
  unfold State.issueMove
  rw [h]
  dsimp only
  rw [hs, if_pos rfl]
  have issued := State.issued_of_beside (x := Result.none) h insnWtok_lt (State.moveHead_beside (streamed := streamed))
  obtain ⟨f, hf, he, hw, -⟩ := issued.flight
  refine ⟨State.deferLast_mq.trans issued.queue, fun a => ?_, _, State.deferLast_last hf, he, hw, rfl⟩
  exact issued.memory a

/-- A ready MPREF is in flight with nothing to write. -/
theorem execMpref_issued {c : Fin 64} (h : s.ready c .m .mpref = some e) :
    answers (.mpref c) s (fun t => s.Issued t c .m e Result.none) := by
  refine answers_of (show execMpref c s = _ by unfold execMpref; rw [h]) (State.issued_of_beside h insnWtok_lt ?_)
  cases e.a with
  | none => exact State.beside_self
  | some d => exact State.prefRegion_beside

/-- A Satchel's queue with `y` at its end, and SAT.STAT showing how many it holds. -/
def State.pushSat (x : State) (c : Nat) (y : SatEntry) : State :=
  (x.setRoom c { x.room c with sat := (x.room c).sat ++ [y] }).setF (Csr.clsSatStat_Q_OCC c) ((x.room c).sat ++ [y]).length

theorem State.pushSat_spec {y : SatEntry} (h : (s.room c).sat.length < 4) :
    ((s.pushSat c y).room c).queue .m = (s.room c).queue .m ∧ ((s.pushSat c y).room c).sat = (s.room c).sat ++ [y] ∧
    (s.pushSat c y).getF (Csr.clsSatStat_Q_OCC c) = (s.room c).sat.length + 1 ∧ (s.pushSat c y).mem = s.mem := by
  have room : (s.pushSat c y).room c = { s.room c with sat := (s.room c).sat ++ [y] } := by
    unfold State.pushSat
    rw [State.setF_room, State.room_setRoom, if_pos rfl]
  refine ⟨by rw [room]; rfl, by rw [room], ?_, ?_⟩
  · unfold State.pushSat
    rw [State.getF_setF_same rfl, List.length_append]
    exact Nat.mod_eq_of_lt (show _ < 8 by simp only [List.length_singleton]; omega)
  · unfold State.pushSat
    rw [State.setF_mem, State.setRoom_mem]

/-- What the Satchel's queue holds of the MUPD `e` as it is issued. -/
def State.queuedSat (s : State) (c : Nat) (e : QEntry) : SatEntry :=
  { SatEntry.fresh e with
    sampled := ((s.popHead c .m e).sampleIssue c .m).1.1, wait := ((s.popHead c .m e).sampleIssue c .m).1.2,
    slots := s.scaleSlots c }

theorem execMupd_eq {c : Fin 64} (h : s.ready c .m .mupd = some e) (hl : (s.room c).sat.length < 4) :
    execMupd c s = .next (((s.popHead c .m e).sampleIssue c .m).2.pushSat c (s.queuedSat c e)) := by
  unfold execMupd
  rw [h]
  dsimp only
  rw [if_neg (by omega)]
  rfl

/-- A ready MUPD leaves the M queue for the Satchel's, where it is queued. -/
theorem execMupd_queued {c : Fin 64} (h : s.ready c .m .mupd = some e) (hl : (s.room c).sat.length < 4) :
    answers (.mupd c) s (fun t => (t.room c).queue .m = ((s.room c).queue .m).tail ∧
      t.getF (Csr.clsSatStat_Q_OCC c) = (s.room c).sat.length + 1 ∧
      ∃ x : SatEntry, (t.room c).sat = (s.room c).sat ++ [x] ∧ x.entry = e ∧ x.stage = .queued ∧ t.mem = s.mem) := by
  obtain ⟨popRoom, -, popMem, -⟩ := State.popHead_spec h
  obtain ⟨-, sampleMem, -, n, hn⟩ := State.sampleIssue_counted (s := s.popHead c .m e) (c := c) (q := .m)
  have sat : (((s.popHead c .m e).sampleIssue c .m).2.room c).sat = (s.room c).sat := by rw [hn, popRoom]; rfl
  obtain ⟨queue, pushed, occ, mem⟩ := State.pushSat_spec (s := ((s.popHead c .m e).sampleIssue c .m).2) (c := c)
    (y := s.queuedSat c e) (by rw [sat]; exact hl)
  refine answers_of (execMupd_eq h hl) ⟨?_, occ.trans (by rw [sat]), _, pushed.trans (by rw [sat]), rfl, rfl,
    mem.trans (sampleMem.trans popMem)⟩
  refine queue.trans ?_
  rw [hn, popRoom]
  rfl

/-- Settles O8: the five moves are the shared issue of a move; MPREF and MUPD have rules of their own. -/
theorem moveInstructionsIssue : Obligations.MoveInstructionsIssue := by
  intro s c e r issues
  refine ⟨?mload, ?mstore, ?mconv, ?mgather, ?mscatter, execMpref_issued, execMupd_queued⟩
  all_goals exact fun h => ⟨fun hs hr => answers_of rfl (State.issueMove_issued h hs hr),
    fun hs => answers_of rfl (State.issueMove_deferred h hs)⟩

end Sys2Proof.Machine

/-! SUPPORT. The completion of an issued instruction (R37, R40, R138, R208, R367). -/

namespace Sys2Proof.Machine

variable {s t u : State} {c p : Nat} {q : Queue} {f : InFlight}

/-! ## Writes depend on the tables and on memory only -/

/-- `t` has the objects, the tiles, the memory and partition `p`'s classrooms of `s`: what a write of the partition looks at. -/
structure State.SameTables (s t : State) (p : Nat) : Prop where
  objs : t.objs = s.objs
  tiles : t.tiles = s.tiles
  mem : t.mem = s.mem
  mask : t.getF (Csr.sysPartCls_MASK p) = s.getF (Csr.sysPartCls_MASK p)

theorem State.sameTables_self : s.SameTables s p := ⟨.refl _, .refl _, .refl _, .refl _⟩

theorem State.SameTables.trans (h : s.SameTables t p) (g : t.SameTables u p) : s.SameTables u p :=
  ⟨g.objs.trans h.objs, g.tiles.trans h.tiles, g.mem.trans h.mem, g.mask.trans h.mask⟩

theorem State.SameTables.symm (h : s.SameTables t p) : t.SameTables s p := ⟨h.objs.symm, h.tiles.symm, h.mem.symm, h.mask.symm⟩

theorem State.SameTables.place (h : s.SameTables t p) (a : Nat) : t.place p a = s.place p a := by
  unfold State.place
  rw [h.objs, h.mask]

theorem State.SameTables.tile (h : s.SameTables t p) (k : Nat) : t.tile k = s.tile k := by
  unfold State.tile
  rw [h.tiles]

theorem State.SameTables.writeWaits (h : s.SameTables t p) (a : Nat) : t.writeWaits p a = s.writeWaits p a := by
  unfold State.writeWaits
  rw [h.place]
  simp only [h.tile]

theorem State.SameTables.writableAll (h : s.SameTables t p) (ws : List (Nat × Byte)) : t.writableAll p ws = s.writableAll p ws := by
  induction ws with
  | nil => rfl
  | cons w r ih =>
    have one : t.writable p w.1 = s.writable p w.1 := by
      unfold State.writable
      rw [h.place]
      simp only [h.tile]
    unfold State.writableAll
    rw [ih, one]

theorem State.sameTables_setF {g : Fld} {v : Nat} (hg : g.fits = true) (ha : g.apart (Csr.sysPartCls_MASK p) = true) :
    s.SameTables (s.setF g v) p :=
  ⟨State.setF_objs s g v, State.setF_tiles s g v, State.setF_mem s g v, State.getF_setF_apart hg ha⟩

theorem State.sameTables_setRoom {x : Classroom} : s.SameTables (s.setRoom c x) p :=
  ⟨State.setRoom_objs s c x, State.setRoom_tiles s c x, State.setRoom_mem s c x, State.setRoom_getF s c x _⟩

theorem State.clearTag_sameTables {off : Nat} : s.SameTables (s.clearTag c off) p := by
  unfold State.clearTag
  dsimp only
  split
  · exact State.sameTables_setRoom
  · exact State.sameTables_self

/-- The same bytes written over the same tables leave the same tables. -/
theorem State.SameTables.writeByte (h : s.SameTables t p) (a : Nat) (b : Byte) :
    (s.writeByte p a b).SameTables (t.writeByte p a b) p := by
  have poked : ∀ {x y : State} {k : Nat}, x.SameTables y p → (x.poke k b).SameTables (y.poke k b) p := fun g =>
    ⟨g.objs, g.tiles, by unfold State.poke; rw [g.mem], g.mask⟩
  unfold State.writeByte
  rw [h.place]
  split
  · exact h
  · exact poked (State.clearTag_sameTables.symm.trans (h.trans State.clearTag_sameTables))
  · rw [h.tile]
    refine poked ?_
    have filled : ∀ {x y : State} {k : Nat} {w : TileEntry}, x.SameTables y p → (x.setTile k w).SameTables (y.setTile k w) p :=
      fun g => ⟨g.objs, by unfold State.setTile; rw [g.tiles], g.mem, g.mask⟩
    refine filled ?_
    split
    · exact ⟨h.objs, h.tiles, by unfold State.zeroFrame; rw [h.mem], h.mask⟩
    · exact h

theorem State.SameTables.writeAll (h : s.SameTables t p) (ws : List (Nat × Byte)) :
    (s.writeAll p ws).SameTables (t.writeAll p ws) p := by
  unfold State.writeAll
  induction ws generalizing s t with
  | nil => exact h
  | cons w r ih => exact ih (h.writeByte w.1 w.2)

/-! ## A write leaves the registers and the engines -/

/-- `t` has the registers and the instructions in flight of `s`. -/
structure State.SameEngines (s t : State) : Prop where
  csr : t.csr = s.csr
  flight : ∀ c q, (t.room c).flight q = (s.room c).flight q

theorem State.SameEngines.trans (h : s.SameEngines t) (g : t.SameEngines u) : s.SameEngines u :=
  ⟨g.csr.trans h.csr, fun c q => (g.flight c q).trans (h.flight c q)⟩

theorem State.SameEngines.of_eq (h : t.csr = s.csr) (g : t.cls = s.cls) : s.SameEngines t :=
  ⟨h, fun c q => by unfold State.room; rw [g]⟩

theorem State.SameEngines.getF (h : s.SameEngines t) (g : Fld) : t.getF g = s.getF g := by
  unfold State.getF State.rd
  rw [h.csr]

theorem Classroom.flight_zeroTags {x : Classroom} {l : List Nat} : ({ x with zeroTags := l } : Classroom).flight q = x.flight q := by
  cases q <;> rfl

theorem State.clearTag_sameEngines {off : Nat} : s.SameEngines (s.clearTag c off) := by
  unfold State.clearTag
  dsimp only
  split
  · refine ⟨State.setRoom_csr s c _, fun d q => ?_⟩
    rw [State.room_setRoom]
    split
    next h => rw [h, Classroom.flight_zeroTags]
    · rfl
  · exact .of_eq rfl rfl

theorem State.writeByte_sameEngines {a : Nat} {b : Byte} : s.SameEngines (s.writeByte p a b) := by
  unfold State.writeByte
  split
  · exact .of_eq rfl rfl
  · exact State.clearTag_sameEngines.trans (.of_eq (State.poke_csr _ _ _) (State.poke_cls _ _ _))
  · dsimp only
    split <;> exact .of_eq rfl rfl

theorem State.writeAll_sameEngines {ws : List (Nat × Byte)} : s.SameEngines (s.writeAll p ws) := by
  unfold State.writeAll
  induction ws generalizing s with
  | nil => exact .of_eq rfl rfl
  | cons w r ih => exact State.writeByte_sameEngines.trans ih

/-- `t` is `s` with the stalls of a write of partition `p` counted. -/
structure State.StallsCounted (s t : State) (p : Nat) : Prop where
  tables : s.SameTables t p
  low : ∀ g : Fld, g.addr < 0x8000000 → t.getF g = s.getF g
  rest : t = { s with csr := t.csr }

theorem State.StallsCounted.trans (h : s.StallsCounted t p) (g : t.StallsCounted u p) : s.StallsCounted u p where
  tables := h.tables.trans g.tables
  low x hx := (g.low x hx).trans (h.low x hx)
  rest := by rw [g.rest, h.rest]

theorem State.stallsCounted_addF {g : Fld} (hf : g.fits = true) (hg : 0x8000000 ≤ g.addr) (hp : p < 8) :
    s.StallsCounted (s.addF g 1) p where
  tables := State.sameTables_setF hf (Fld.apart_of_addr (by simp only [Csr.sysPartCls_MASK, Csr.sysPartCls]; omega))
  low x hx := State.getF_setF_apart hf (Fld.apart_of_addr (by omega))
  rest := rfl

/-- A write none of whose tiles moves or is write-protected lands at once; beside it only the counts of stalls change. -/
theorem State.writeFrom_lands {src : HoldSrc} {ws : List (Nat × Byte)} (h : ws.any (fun w => s.writeWaits p w.1) = false)
    (hp : p < 8) : ∃ t : State, s.writeFrom src p ws = t.writeAll p ws ∧ s.StallsCounted t p := by
  have free : ∀ w ∈ ws, s.writeWaits p w.1 = false := by simpa using h
  have wait : ws.filter (fun w => s.writeWaits p w.1) = [] := List.filter_eq_nil_iff.mpr fun w hw => by simp [free w hw]
  have land : ws.filter (fun w => !s.writeWaits p w.1) = ws := List.filter_eq_self.mpr fun w hw => by simp [free w hw]
  have same : s.StallsCounted s p := ⟨State.sameTables_self, fun _ _ => .refl _, .refl _⟩
  have stalled : ∀ {x : State}, x.StallsCounted (x.addF Csr.migStat_WSTALL 1) p :=
    State.stallsCounted_addF rfl (by decide) hp
  have touched : ∀ {x : State}, x.StallsCounted (x.addF (Csr.rgsPartStall_COUNT p) 1) p :=
    State.stallsCounted_addF rfl (by simp only [Csr.rgsPartStall_COUNT, Csr.rgsPartStall]; omega) hp
  unfold State.writeFrom
  dsimp only
  rw [wait, land]
  refine ⟨_, rfl, ?_⟩
  split <;> split
  · exact stalled.trans touched
  · exact touched
  · exact stalled
  · exact same

/-- A write none of whose tiles waits leaves memory as the bytes written in turn, and changes no engine and no COUNT. -/
theorem State.demandWrite_spec {ws : List (Nat × Byte)} (h : ws.any (fun w => s.writeWaits p w.1) = false) (hp : p < 8)
    (hc : c < 64) : (s.demandWrite p ws).mem = (s.writeAll p ws).mem ∧
      (∀ q, ((s.demandWrite p ws).room c).flight q = (s.room c).flight q) ∧
      ∀ k, k < 64 → (s.demandWrite p ws).getF (Csr.clsTok_COUNT c k) = s.getF (Csr.clsTok_COUNT c k) := by
  obtain ⟨t, ht, counted⟩ := State.writeFrom_lands (src := .engine) h hp
  have engines := State.writeAll_sameEngines (s := t) (p := p) (ws := ws)
  rw [State.demandWrite, ht]
  refine ⟨(counted.tables.writeAll ws).mem, fun q => (engines.flight c q).trans (by rw [counted.rest]; rfl), fun k hk => ?_⟩
  exact (engines.getF _).trans (counted.low _ (by simp only [Csr.clsTok_COUNT, Csr.clsTok]; omega))

theorem State.Beside.iteSelf {b : Prop} [Decidable b] (h : s.Beside t c) : s.Beside (if b then t else s) c :=
  h.ite State.beside_self

/-! ## What a completion does beside its write -/

theorem clsFlags_apart_count {lo len k : Nat} (hk : k < 64) :
    (⟨Csr.clsFlags c, lo, len⟩ : Fld).apart (Csr.clsTok_COUNT c k) = true :=
  clsTok_apart (fun j _ => by simp only [Csr.clsFlags, Csr.clsTok]; omega) hk

theorem clsFlagPc_apart_count {lo len k : Nat} (hk : k < 64) :
    (⟨Csr.clsFlagPc c, lo, len⟩ : Fld).apart (Csr.clsTok_COUNT c k) = true :=
  clsTok_apart (fun j _ => by simp only [Csr.clsFlagPc, Csr.clsTok]; omega) hk

theorem clsPfMiss_apart_count {lo len k : Nat} (hk : k < 64) :
    (⟨Csr.clsPfMiss c, lo, len⟩ : Fld).apart (Csr.clsTok_COUNT c k) = true :=
  clsTok_apart (fun j _ => by simp only [Csr.clsPfMiss, Csr.clsTok]; omega) hk

theorem State.raiseFlags_beside {eng pc : Nat} {x : NFlags} (h : eng < 3) : s.Beside (s.raiseFlags c eng pc x) c := by
  have raised : ∀ v, s.Beside (s.setF ⟨Csr.clsFlags c, 8 * eng, 5⟩ v) c := fun v =>
    State.beside_self.setF (by simp [Fld.fits]; omega) fun _ => clsFlags_apart_count
  have captured {x : State} {lo len v : Nat} (h : s.Beside x c) (hf : lo + len ≤ 64 := by decide) :
      s.Beside (x.setF ⟨Csr.clsFlagPc c, lo, len⟩ v) c :=
    h.setF (by simpa [Fld.fits] using hf) fun _ => clsFlagPc_apart_count
  unfold State.raiseFlags
  dsimp only
  split
  · exact raised _
  · exact captured (captured (captured (captured (raised _))))

theorem State.endLoad_beside : s.Beside (s.endLoad c) c :=
  (State.beside_self.setRoom (fun _ => Classroom.queue_banks) (fun _ => Classroom.flight_banks)).setArrStat

theorem State.endPrefetch_beside : s.Beside (s.endPrefetch c) c := by
  unfold State.endPrefetch
  split
  · exact State.beside_self
  · exact (State.beside_self.setRoom (fun _ => Classroom.queue_prefetch) (fun _ => Classroom.flight_prefetch)).addF rfl
      fun _ => clsPfMiss_apart_count

/-- The end of a stream changes ARR.STAT alone. -/
theorem State.endStream_eq {n : Nat} : ∃ t : State, (t = s ∨ t = s.setF (Csr.clsArrStat_LOAD_BUSY c) 0) ∧
    (s.endStream c n = t ∨ s.endStream c n = t.setF (Csr.clsArrStat_PSTATE c) 4) := by
  unfold State.endStream
  dsimp only
  split <;> split
  · exact ⟨_, .inr rfl, .inr rfl⟩
  · exact ⟨_, .inl rfl, .inr rfl⟩
  · exact ⟨_, .inr rfl, .inl rfl⟩
  · exact ⟨_, .inl rfl, .inl rfl⟩

theorem State.endStream_spec {n : Nat} : s.SameTables (s.endStream c n) p ∧ s.Beside (s.endStream c n) c := by
  have arr : ∀ {x : State} {lo len v : Nat}, lo + len ≤ 64 → x.SameTables (x.setF ⟨Csr.clsArrStat c, lo, len⟩ v) p := fun h =>
    State.sameTables_setF (by simpa [Fld.fits] using h)
      (Fld.apart_of_addr (by simp only [Csr.clsArrStat, Csr.sysPartCls_MASK, Csr.sysPartCls]; omega))
  obtain ⟨t, rfl | rfl, h | h⟩ := State.endStream_eq (s := s) (c := c) (n := n) <;> rw [h]
  · exact ⟨State.sameTables_self, State.beside_self⟩
  · exact ⟨arr (lo := 0) (len := 3) (by decide), State.beside_self.setArrStat (lo := 0) (len := 3)⟩
  · exact ⟨arr (lo := 16) (len := 1) (by decide), State.beside_self.setArrStat (lo := 16) (len := 1)⟩
  · exact ⟨(arr (lo := 16) (len := 1) (by decide)).trans (arr (lo := 0) (len := 3) (by decide)),
      (State.beside_self.setArrStat (lo := 16) (len := 1)).setArrStat (lo := 0) (len := 3)⟩

/-! ## The token -/

theorem insnStok_lt {n : Nat} : insnStok n < 64 := Nat.mod_lt _ (by decide)

theorem Classroom.flight_stopping {x : Classroom} {b : Bool} : ({ x with stopping := b } : Classroom).flight q = x.flight q := by
  cases q <;> rfl

theorem State.recordStop_flight {n pc enc : Nat} {x : FaultInfo} :
    ((s.recordStop c n pc enc x).room c).flight q = (s.room c).flight q := by
  unfold State.recordStop
  split
  · rw [State.setF_room]
  · dsimp only
    rw [State.room_setRoom, if_pos rfl, Classroom.flight_stopping, State.setFs_room]

theorem State.tokenAdd_flight {k n pc enc : Nat} {d : Int} :
    ((s.tokenAdd c k d n pc enc).room c).flight q = (s.room c).flight q := by
  unfold State.tokenAdd
  dsimp only
  split
  · rw [State.setF_room]
  · exact State.recordStop_flight

theorem State.signal_flight {p q : Queue} : ((s.signal c p f).room c).flight q = (s.room c).flight q := by
  unfold State.signal
  split
  · exact State.tokenAdd_flight
  · split
    · rfl
    · exact State.tokenAdd_flight
  · rw [State.setF_room]
  · rfl

/-- A token inside its range counts one more. -/
theorem State.getF_tokenAdd_one {k n pc enc : Nat} (h : s.getF (Csr.clsTok_COUNT c k) < 65535) :
    (s.tokenAdd c k 1 n pc enc).getF (Csr.clsTok_COUNT c k) = s.getF (Csr.clsTok_COUNT c k) + 1 := by
  unfold State.tokenAdd
  dsimp only
  rw [if_pos (by simp only [Int.ofNat_eq_natCast]; omega), State.getF_setF_same rfl]
  exact Nat.mod_eq_of_lt (show _ < 65536 by simp only [Int.ofNat_eq_natCast]; omega)

/-! ## The completion -/

/-- The state in which a completing instruction's bytes are written: its stream ended, it no longer in flight. -/
def State.leaving (s : State) (c : Nat) (q : Queue) (n : Nat) (f : InFlight) : State :=
  (if q = .t && streaming f then s.endStream c n else s).setRoom c
    (((s.room c).setFlight q (((s.room c).flight q).eraseIdx n)).fenceSees q n)

theorem Classroom.flight_fenceSees {x : Classroom} {n : Nat} : (x.fenceSees q n).flight q = x.flight q := by
  cases q with
  | s => exact List.map_id' x.sf
  | t => rfl
  | v => rfl
  | m => rfl

theorem State.leaving_spec {n : Nat} : s.SameTables (s.leaving c q n f) p ∧
    ((s.leaving c q n f).room c).flight q = ((s.room c).flight q).eraseIdx n ∧
    ∀ k, k < 64 → (s.leaving c q n f).getF (Csr.clsTok_COUNT c k) = s.getF (Csr.clsTok_COUNT c k) := by
  have ended : s.SameTables (if q = .t && streaming f then s.endStream c n else s) p ∧
      s.Beside (if q = .t && streaming f then s.endStream c n else s) c := by
    split
    · exact State.endStream_spec
    · exact ⟨State.sameTables_self, State.beside_self⟩
  unfold State.leaving
  refine ⟨ended.1.trans State.sameTables_setRoom, ?_, fun k hk => ?_⟩
  · rw [State.room_setRoom, if_pos rfl, Classroom.flight_fenceSees, Classroom.flight_setFlight]
  · rw [State.setRoom_getF]
    exact ended.2.count k hk

/-- What comes after the write, of an instruction whose effects are its bytes alone: beside the queues and memory, then the
signal, then the sample. -/
theorem State.finish_ok {n : Nat} {x : Unit} (he : f.effects = [])
    (hw : (s.leaving c q n f).writableAll (s.getF (Csr.clsStatus_PART c)) f.writes = .ok x) :
    ∃ u, ((s.leaving c q n f).demandWrite (s.getF (Csr.clsStatus_PART c)) f.writes).Beside u c ∧
      s.finish c q n f = (u.signal c q f).sampleEnd c q f.entry f.sampled f.wait false := by
  unfold State.finish
  unfold State.leaving at hw ⊢
  dsimp only
  rw [hw, he]
  refine ⟨_, ?_, rfl⟩
  dsimp only [State.applyEffects, State.alertsOf, List.filterMap_nil, State.quizReport]
  refine State.Beside.trans ?_ ((State.endPrefetch_beside).iteSelf)
  refine State.Beside.trans ?_ ((State.endLoad_beside).iteSelf)
  cases q with
  | s => exact State.beside_self
  | t => exact State.raiseFlags_beside (by decide)
  | v => exact State.raiseFlags_beside (by decide)
  | m => exact State.raiseFlags_beside (by decide)

/-- The COUNT of the token that an instruction signals as it completes. -/
theorem State.signal_count (hc : ∀ k, k < 64 → s.getF (Csr.clsTok_COUNT c k) = t.getF (Csr.clsTok_COUNT c k)) :
    (insnSmode f.entry.enc = 1 → t.getF (Csr.clsTok_COUNT c (insnStok f.entry.enc)) < 65535 →
      (s.signal c q f).getF (Csr.clsTok_COUNT c (insnStok f.entry.enc)) =
        t.getF (Csr.clsTok_COUNT c (insnStok f.entry.enc)) + 1) ∧
    (insnSmode f.entry.enc = 3 → (s.signal c q f).getF (Csr.clsTok_COUNT c (insnStok f.entry.enc)) = 0) := by
  refine ⟨fun hm hl => ?_, fun hm => ?_⟩
  · have one : s.signal c q f = s.tokenAdd c (insnStok f.entry.enc) 1 (queueCode q) f.entry.pc f.entry.enc := by
      simp only [State.signal, hm]
    rw [one, State.getF_tokenAdd_one (by rw [hc _ insnStok_lt]; exact hl), hc _ insnStok_lt]
  · have zero : s.signal c q f = s.setF (Csr.clsTok_COUNT c (insnStok f.entry.enc)) 0 := by
      simp only [State.signal, hm]
    rw [zero, State.getF_setF_same rfl, Nat.zero_mod]

/-- A writer that waits keeps memory and the classrooms as they are. -/
theorem State.stall_same {src : HoldSrc} {as : List Nat} : (s.stall src p as).mem = s.mem ∧ (s.stall src p as).cls = s.cls := by
  unfold State.stall
  dsimp only
  split
  · exact ⟨rfl, rfl⟩
  · constructor <;> split <;> split <;> simp only [State.addF_mem, State.addF_cls]

/-- A completion whose tiles take their bytes, and that has no effect beside them. -/
theorem State.finish_spec {c : Fin 64} {n : Nat} (he : f.effects = [])
    (hfree : f.writes.any (fun w => s.writeWaits (s.getF (Csr.clsStatus_PART c)) w.1) = false)
    (hw : s.writableAll (s.getF (Csr.clsStatus_PART c)) f.writes = .ok ()) :
    (s.finish c q n f).mem = (s.writeAll (s.getF (Csr.clsStatus_PART c)) f.writes).mem ∧
    ((s.finish c q n f).room c).flight q = ((s.room c).flight q).eraseIdx n ∧
    (insnSmode f.entry.enc = 1 → s.getF (Csr.clsTok_COUNT c (insnStok f.entry.enc)) < 65535 →
      (s.finish c q n f).getF (Csr.clsTok_COUNT c (insnStok f.entry.enc)) =
        s.getF (Csr.clsTok_COUNT c (insnStok f.entry.enc)) + 1) ∧
    (insnSmode f.entry.enc = 3 → (s.finish c q n f).getF (Csr.clsTok_COUNT c (insnStok f.entry.enc)) = 0) := by
  have hp : s.getF (Csr.clsStatus_PART c) < 8 := State.getF_lt
  obtain ⟨tables, flight, count⟩ := State.leaving_spec (s := s) (c := c) (q := q) (f := f) (n := n)
    (p := s.getF (Csr.clsStatus_PART c))
  obtain ⟨u, beside, eq⟩ := State.finish_ok he ((tables.writableAll _).trans hw)
  have free : f.writes.any (fun w => (s.leaving c q n f).writeWaits (s.getF (Csr.clsStatus_PART c)) w.1) = false := by
    simpa only [tables.writeWaits] using hfree
  obtain ⟨wroteMem, wroteFlight, wroteCount⟩ := State.demandWrite_spec free hp c.isLt
  have ended := State.sampleEnd_beside (s := u.signal c q f) (c := c) (q := q) (e := f.entry) (b := f.sampled) (x := false)
    (wait := f.wait)
  obtain ⟨one, zero⟩ := State.signal_count (q := q) (f := f) (t := s)
    (fun k hk => (beside.count k hk).trans ((wroteCount k hk).trans (count k hk)))
  have counted := ended.count _ (insnStok_lt (n := f.entry.enc))
  rw [eq]
  refine ⟨?_, ?_, fun hm hl => counted.trans (one hm hl), fun hm => counted.trans (zero hm)⟩
  · rw [ended.mem, State.signal_queued.mem, beside.mem, wroteMem]
    exact (tables.writeAll _).mem
  · rw [ended.flight, State.signal_flight, beside.flight, wroteFlight, flight]

/-- Settles O13: a completion waits with all its bytes, or its bytes land and its token counts. -/
theorem instructionsComplete : Obligations.InstructionsComplete := by
  intro s c q n f p hm hd
  have run : exec (.instructionComplete c q n) s = .next (s.landOrStall c q n f) := by
    change execInstructionComplete c q n s = _
    unfold execInstructionComplete
    rw [hm]
    dsimp only
    rw [if_neg (by simp [hd])]
  refine ⟨fun hwait => answers_of run ?_, fun hfree hw he => answers_of run ?_⟩
  · unfold State.landOrStall
    dsimp only
    rw [if_pos hwait]
    obtain ⟨mem, cls⟩ := State.stall_same (s := s) (src := .insn c (queueCode q)) (p := p) (as := f.addrs)
    exact ⟨mem, by unfold State.room; rw [cls]⟩
  · unfold State.landOrStall
    dsimp only
    rw [if_neg (by rw [hfree]; exact Bool.false_ne_true)]
    refine State.finish_spec he ?_ hw
    simpa [InFlight.addrs, he, effectAddrs, List.any_map, Function.comp_def] using hfree

end Sys2Proof.Machine

/-! SUPPORT. What the write of one byte does to memory, and what a read then answers (R193, R198, R199, R237). -/

namespace Sys2Proof.Machine

variable {s t : State} {p a : Nat} {b : Byte}

/-- A tile's entry as a write leaves it. -/
def TileEntry.written (e : TileEntry) : TileEntry := { e with zero := false, dirty := e.dirty || e.sram, accessed := true }

theorem tileAddr_written {e : TileEntry} {off : Nat} : tileAddr e.written off = tileAddr e off := rfl

theorem State.writeByte_ob {c off : Nat} (h : s.place p a = .ob c off) :
    s.writeByte p a b = (s.clearTag c off).poke (obAddr c off) b := by
  unfold State.writeByte
  rw [h]

theorem State.writeByte_nowhere (h : s.place p a = .nowhere) : s.writeByte p a b = s := by
  unfold State.writeByte
  rw [h]

theorem State.writeByte_tile {tk off : Nat} {ro : Bool} (h : s.place p a = .tile tk off ro) :
    s.writeByte p a b = ((if (s.tile tk).zero then s.zeroFrame (tileAddr (s.tile tk) 0) else s).setTile tk
      (s.tile tk).written).poke (tileAddr (s.tile tk) off) b := by
  unfold State.writeByte
  rw [h]
  rfl

theorem State.writeByte_same : (s.writeByte p a b).objs = s.objs ∧ (s.writeByte p a b).held = s.held ∧
    (s.writeByte p a b).replies = s.replies := by
  unfold State.writeByte
  split
  · exact ⟨rfl, rfl, rfl⟩
  · unfold State.clearTag
    dsimp only
    split <;> simp only [State.poke_objs, State.poke_held, State.poke_replies, State.setRoom_objs, State.setRoom_held,
      State.setRoom_replies, and_self]
  · dsimp only
    split <;> simp only [State.poke_objs, State.poke_held, State.poke_replies, State.setTile_objs, State.setTile_held,
      State.setTile_replies, State.zeroFrame_objs, State.zeroFrame_held, State.zeroFrame_replies, and_self]

theorem State.place_writeByte {q d : Nat} : (s.writeByte p a b).place q d = s.place q d := by
  unfold State.place
  rw [State.writeByte_same.1, State.writeByte_sameEngines.getF]

theorem State.tile_writeByte {tk off : Nat} {ro : Bool} (h : s.place p a = .tile tk off ro) :
    (s.writeByte p a b).tile tk = (s.tile tk).written := by
  rw [State.writeByte_tile h, State.poke_tile, State.tile_setTile, if_pos rfl]

/-- A byte of a tile whose entry is not poisoned is read as it was written. -/
theorem State.readByte_writeByte {tk off : Nat} {ro : Bool} (h : s.place p a = .tile tk off ro) (hp : (s.tile tk).poison = false) :
    (s.writeByte p a b).readByte p a = .ok b := by
  unfold State.readByte
  rw [State.place_writeByte, h]
  dsimp only
  rw [State.tile_writeByte h]
  have clean : (s.tile tk).written.poison = false := hp
  rw [clean, tileAddr_written, State.writeByte_tile h, State.peek_poke, if_pos rfl]
  rfl

/-- Settles O27, by the place of the byte and by whether its tile is ZERO. -/
theorem byteWrites : Obligations.ByteWrites := by
  refine ⟨fun s p dva b => ⟨fun c off h a ha => ?_, fun tk off ro h hz a ha => ?_, State.writeByte_nowhere⟩,
    fun s p dva b tk off ro h hz => ⟨fun hp => ?_, by rw [State.tile_writeByte h]; rfl, fun a ha hl hu hf => ?_,
      fun a ha ho => ?_⟩⟩
  · rw [State.writeByte_ob h, State.peek_poke, if_neg ha]
    unfold State.clearTag
    dsimp only
    split <;> rfl
  · rw [State.writeByte_tile h, State.peek_poke, if_neg ha, State.setTile_peek, hz]
    rfl
  · unfold State.readByte
    rw [h]
    simp [hp, hz]
  · rw [State.writeByte_tile h, State.peek_poke, if_neg ha, State.setTile_peek, hz, if_pos rfl, State.peek_zeroFrame,
      if_pos ⟨hl, hu⟩, memDefault, if_neg (by omega)]
  · rw [State.writeByte_tile h, State.peek_poke, if_neg ha, State.setTile_peek, hz, if_pos rfl, State.peek_zeroFrame,
      if_neg (by omega)]

/-! ## A host's write of one byte -/

theorem memSizeOk_one : memSizeOk a 1 = true := by
  have h : a % 256 < 256 := Nat.mod_lt _ (by decide)
  simp only [memSizeOk, Bool.and_eq_true, decide_eq_true_eq]
  omega

theorem State.writableAll_one (h : s.writable p a = .ok ()) : s.writableAll p (bytesAt a [b]) = .ok () := by
  simp only [bytesAt, State.writableAll, h]
  rfl

/-- A host's byte outside the OB window that may be written lies in a tile that is not poisoned. -/
theorem State.tile_of_writable {k : Nat} (hf : s.memForbidden k p a = false) (h : s.writable p a = .ok ()) :
    ∃ tk off, s.place p a = .tile tk off false ∧ (s.tile tk).poison = false := by
  have low : ¬ obWindow ≤ a := by
    simp only [State.memForbidden, Bool.or_eq_false_iff, decide_eq_false_iff_not] at hf
    exact hf.2
  unfold State.writable at h
  split at h
  · exact absurd h (by simp)
  next hp =>
    unfold State.place at hp
    rw [if_neg low] at hp
    split at hp
    · exact absurd hp (by simp)
    · split at hp <;> exact absurd hp (by simp)
  next tk off ro hp =>
    split at h
    · exact absurd h (by simp)
    next hro =>
      split at h
      · exact absurd h (by simp)
      next hpo => exact ⟨tk, off, by rw [hp]; simp_all, by simpa using hpo⟩

/-- What a port's access looks at beside memory: `t` has the ports, the boot state and the partitions of `s`. -/
theorem State.access_low (h : ∀ g : Fld, g.addr < 0x8000000 → t.getF g = s.getF g) (port : Fin 4) (p : Fin 8) (d : Nat) :
    t.portUp port = s.portUp port ∧ t.booted = s.booted ∧ t.memForbidden port p d = s.memForbidden port p d := by
  have up := h (Csr.hlStatus_STATE port) (by simp only [Csr.hlStatus_STATE, Csr.hlStatus]; omega)
  have boot := h Csr.sysBoot_STATE (by decide)
  have en := h (Csr.sysPartCfg_EN p) (by simp only [Csr.sysPartCfg_EN, Csr.sysPartCfg]; omega)
  have mask := h (Csr.sysPartCfg_HOSTMASK p) (by simp only [Csr.sysPartCfg_HOSTMASK, Csr.sysPartCfg]; omega)
  refine ⟨?_, ?_, ?_⟩
  · unfold State.portUp
    rw [up]
  · unfold State.booted
    rw [boot]
  · unfold State.memForbidden State.serves State.partOn State.flag
    rw [en, mask]

/-- The write of one byte by a port, to a tile that takes it at once, is answered and writes that byte. -/
theorem State.memWrite_one {port : Fin 4} {p : Fin 8} (hw : s.portWaits port = false) (hb : s.booted = true)
    (hf : s.memForbidden port p a = false) (hwr : s.writable p a = .ok ()) (hfree : s.writeWaits p a = false) :
    ∃ u : State, s.StallsCounted u p ∧ s.memWrite port p a [b] = (u.writeByte p a b).reply port .ok [] := by
  obtain ⟨u, hu, counted⟩ := State.writeFrom_lands (s := s) (p := p) (src := .port port) (ws := bytesAt a [b])
    (by simpa [bytesAt] using hfree) p.isLt
  refine ⟨u, counted, ?_⟩
  have one : u.writeAll p (bytesAt a [b]) = u.writeByte p a b := rfl
  have idle : (u.writeByte p a b).portWaits port = false := by
    unfold State.portWaits at hw ⊢
    rw [State.writeByte_same.2.1, counted.rest]
    exact hw
  unfold State.memWrite
  dsimp only
  rw [hb, hf, State.writableAll_one hwr]
  simp only [hu, one, idle, Bool.not_true, Bool.false_eq_true, if_false]

/-- Settles O26: the write lands in a tile's frame, where the read finds it. -/
theorem writtenByteReadsBack : Obligations.WrittenByteReadsBack := by
  intro s t port p dva b hup hw hb hf hwr hfree ht
  obtain ⟨u, counted, write⟩ := State.memWrite_one (b := b) hw hb hf hwr hfree
  have eq : t = (u.writeByte p dva.toNat b).reply port .ok [] := by
    rw [exec_memWr_now memSizeOk_one hup hw, write] at ht
    exact (Host.Outcome.next.inj ht).symm
  have low : ∀ g : Fld, g.addr < 0x8000000 → t.getF g = s.getF g := fun g hg => by
    rw [eq]
    exact (State.writeByte_sameEngines.getF g).trans (counted.low g hg)
  obtain ⟨up, boot, forbidden⟩ := State.access_low low port p dva.toNat
  have idle : t.portWaits port = false := by
    unfold State.portWaits at hw ⊢
    rw [eq, State.reply]
    dsimp only
    rw [State.writeByte_same.2.1, counted.rest]
    exact hw
  obtain ⟨tk, off, place, clean⟩ := State.tile_of_writable hf hwr
  have read : t.readByte p dva.toNat = .ok b := by
    rw [eq]
    exact State.readByte_writeByte ((counted.tables.place _).trans place) ((congrArg _ (counted.tables.tile tk)).trans clean)
  have bytes : t.readBytes p dva.toNat 1 = .ok [b] := by
    simp only [State.readBytes, read]
    rfl
  refine answers_of (exec_memRd_now memSizeOk_one (up.trans hup) idle) ?_
  unfold State.memRead
  rw [boot, forbidden, hb, hf, bytes]
  have replies : t.replies = s.replies ++ [⟨port, .ok, []⟩] := by
    rw [eq, State.reply]
    dsimp only
    rw [State.writeByte_same.2.2, counted.rest]
  have touched : (t.touch p [dva.toNat]).replies = t.replies := by
    unfold State.touch
    rw [List.foldl_cons, List.foldl_nil]
    split <;> rfl
  change (t.touch p [dva.toNat]).replies ++ [⟨port, .ok, [b]⟩] = _
  rw [touched, replies, List.append_assoc]
  rfl

end Sys2Proof.Machine

/-! SUPPORT. Register writes by field types (R8, R11). -/

namespace Sys2Proof.Machine

variable {mask v w : Word} {fs : List FieldSpec}

/-- Two fields of one register have no bit in common. -/
def FieldSpec.Apart (f g : FieldSpec) : Prop := f.lo + f.len ≤ g.lo ∨ g.lo + g.len ≤ f.lo

/-- The write of one field leaves a field that lies apart. -/
theorem wordGet_wordSet_apart {lo len lo' len' n : Nat} (h : lo + len ≤ 64) (ha : lo + len ≤ lo' ∨ lo' + len' ≤ lo) :
    wordGet (wordSet w lo len n) lo' len' = wordGet w lo' len' :=
  ha.elim (wordGet_wordSet_above h) (wordGet_wordSet_below h)

/-- Each of the fields, which lie apart, is written by its own type. -/
theorem wordGet_writeFields (hfit : ∀ f ∈ fs, f.lo + f.len ≤ 64) (hapart : fs.Pairwise FieldSpec.Apart) :
    ∀ f ∈ fs, wordGet (writeFields fs mask v w) f.lo f.len =
      f.written (wordGet w f.lo f.len) (wordGet v f.lo f.len) (wordGet mask f.lo f.len) % 2 ^ f.len := by
  induction fs generalizing w with
  | nil => exact fun f hf => absurd hf (by simp)
  | cons g r ih =>
    obtain ⟨hg, hr⟩ := List.forall_mem_cons.mp hfit
    obtain ⟨apart, rest⟩ := List.pairwise_cons.mp hapart
    intro f hf
    rw [writeFields]
    obtain rfl | hf := List.mem_cons.mp hf
    · rw [wordGet_writeFields_keep fun x hx => ⟨hr x hx, (apart x hx).symm.imp_right .inl⟩, wordGet_wordSet_same hg]
    · rw [ih hr rest f hf, wordGet_wordSet_apart hg (apart f hf)]

/-! ## The types of a field that is written whole -/

/-- Clearing in `o` the bits that it has in common with `n` clears the bits of `n`. -/
theorem testBit_sub_and (o n i : Nat) : (o - (o &&& n)).testBit i = (o.testBit i && !n.testBit i) := by
  induction i generalizing o n with
  | zero =>
    have le : o &&& n ≤ o := Nat.and_le_left
    have low : (o &&& n) % 2 = o % 2 &&& n % 2 := Nat.and_mod_two_pow (n := 1)
    have odd : (o - (o &&& n)) % 2 = (o % 2 + (o &&& n) % 2) % 2 := by omega
    rw [Nat.testBit_zero, Nat.testBit_zero, Nat.testBit_zero, odd, low]
    obtain ho | ho := Nat.mod_two_eq_zero_or_one o <;> obtain hn | hn := Nat.mod_two_eq_zero_or_one n <;>
      rw [ho, hn] <;> decide
  | succ i ih =>
    have le : o &&& n ≤ o := Nat.and_le_left
    have low : (o &&& n) % 2 ≤ o % 2 := by
      rw [show (o &&& n) % 2 = o % 2 &&& n % 2 from Nat.and_mod_two_pow (n := 1)]
      exact Nat.and_le_left
    have half : (o - (o &&& n)) / 2 = o / 2 - (o / 2 &&& n / 2) := by
      rw [← Nat.and_div_two]
      omega
    rw [Nat.testBit_succ, half, ih, Nat.testBit_succ, Nat.testBit_succ]

/-- A field that is written whole. -/
theorem FieldSpec.written_whole {f : FieldSpec} {o n : Nat} (ho : o < 2 ^ f.len) (hn : n < 2 ^ f.len) (hl : f.len ≠ 0) :
    f.written o n (2 ^ f.len - 1) = match f.ty with
      | .rw => if f.vmin ≤ n / 2 ^ f.zlow * 2 ^ f.zlow ∧ n / 2 ^ f.zlow * 2 ^ f.zlow ≤ f.vmax then n / 2 ^ f.zlow * 2 ^ f.zlow else o
      | .w1c => o - (o &&& n)
      | .w1s => o ||| n
      | _ => o := by
  have whole : 2 ^ f.len - 1 ≠ 0 := by
    have : 2 ^ 1 ≤ 2 ^ f.len := Nat.pow_le_pow_right (by decide) (Nat.pos_of_ne_zero hl)
    omega
  unfold FieldSpec.written
  rw [Nat.and_two_pow_sub_one_of_lt_two_pow hn, Nat.and_two_pow_sub_one_of_lt_two_pow ho, Nat.sub_self, Nat.or_zero]
  cases f.ty <;> simp only [whole, if_false]

/-- Settles O30: the fields of a register are written one by one, and a whole field by the case of its type. -/
theorem fieldTypesOnWrite : Obligations.FieldTypesOnWrite := by
  refine ⟨fun fs mask v w hfit hapart => ⟨wordGet_writeFields hfit hapart, fun lo len h => ?_⟩, fun f o n ho hn hl => ?_⟩
  · exact wordGet_writeFields_keep fun f hf => ⟨hfit f hf, (h f hf).imp_right .inl⟩
  · dsimp only
    rw [FieldSpec.written_whole ho hn hl]
    refine ⟨fun ht hz h1 h2 => ?_, fun ht hz h => ?_, fun ht => ?_, fun ht i => ?_, fun ht i => ?_⟩
    · simp [ht, hz, h1, h2]
    · simp only [ht, hz, pow_zero, Nat.div_one, Nat.mul_one]
      exact if_neg (by omega)
    · obtain ht | ht | ht := ht <;> simp only [ht]
    · simp only [ht, testBit_sub_and]
    · simp only [ht, Nat.testBit_or]

end Sys2Proof.Machine

/-! SUPPORT. The machine: its step, its clock and its reset state. -/

namespace Sys2Proof.Machine

variable {s : State}

/-- Settles O1: the step is `exec` of the front command. -/
theorem stepRunsTheFrontCommand : Obligations.StepRunsTheFrontCommand := fun _ _ _ => rfl

/-- Settles O5: every table is empty, and the empty registers are at their reset values. -/
theorem resetIsCanonical : Obligations.ResetIsCanonical := ⟨by decide +kernel, rfl, rfl, fun _ => rfl⟩

/-! ## The clock -/

/-- A step with nothing waiting is one tick. -/
theorem step_idle (h : s.pending = []) : step s = .next s.tick := by
  unfold step
  rw [h]

/-- Showing a requester's tags sets a register of its classroom alone. -/
theorem State.showTags_rest {r : Requester} {a : Nat} (ha : a < 0x4000000) :
    (s.showTags r).rd a = s.rd a ∧ (s.showTags r).mem = s.mem ∧ (s.showTags r).sliceReqs = s.sliceReqs := by
  cases r with
  | mDemand c =>
    have apart : a ≠ Csr.clsMtags c := by simp only [Csr.clsMtags]; omega
    simp only [State.showTags, State.setFs_cons, State.setFs_nil, State.setF_mem, State.setF_sliceReqs, and_self, and_true]
    rw [State.rd_setF_ne apart, State.rd_setF_ne apart]
  | mPrefetch c =>
    have apart : a ≠ Csr.clsMtags c := by simp only [Csr.clsMtags]; omega
    simp only [State.showTags, State.setF_mem, State.setF_sliceReqs, and_self, and_true]
    rw [State.rd_setF_ne apart]
  | _ => exact ⟨rfl, rfl, rfl⟩

theorem State.foldl_showTags_rest {l : List (Bool × Nat × SortReq)} {a : Nat} (ha : a < 0x4000000) :
    let t := l.foldl (fun u y => u.showTags y.2.2.who) s
    t.rd a = s.rd a ∧ t.mem = s.mem ∧ t.sliceReqs = s.sliceReqs := by
  induction l generalizing s with
  | nil => exact ⟨rfl, rfl, rfl⟩
  | cons y r ih =>
    obtain ⟨h1, h2, h3⟩ := State.showTags_rest (s := s) (r := y.2.2.who) ha
    obtain ⟨g1, g2, g3⟩ := ih (s := s.showTags y.2.2.who)
    exact ⟨g1.trans h1, g2.trans h2, g3.trans h3⟩

/-- The requests that are not answered stay in their order. -/
theorem unanswered_sublist {α : Type} (l : List α) (f : Nat → Bool) :
    (((l.mapIdx (fun i y => (f i, y))).filter (fun y => !y.1)).map (fun y => y.2)).Sublist l := by
  have whole : (l.mapIdx (fun i y => (f i, y))).map (fun y => y.2) = l := by
    refine List.ext_getElem (by simp) fun i h1 h2 => by simp
  exact (List.filter_sublist.map _).trans (by rw [whole])

/-- Answering requests to slices takes them from the list and changes neither memory nor the time. -/
theorem State.answerSlices_rest : s.answerSlices.sliceReqs.Sublist s.sliceReqs ∧ s.answerSlices.mem = s.mem ∧
    s.answerSlices.rd Csr.clkTime = s.rd Csr.clkTime := by
  unfold State.answerSlices
  split
  · exact ⟨List.Sublist.refl _, rfl, rfl⟩
  · have tagged {t : State} {l : List (Bool × Nat × SortReq)} :=
      State.foldl_showTags_rest (s := t) (l := l) (show Csr.clkTime < 0x4000000 by decide)
    dsimp only at tagged ⊢
    rw [tagged.2.2]
    exact ⟨unanswered_sublist _ _, tagged.2.1, tagged.1⟩

theorem State.answerSlices_none (h : s.sliceReqs = []) : s.answerSlices = s := by
  unfold State.answerSlices
  rw [h]
  rfl

theorem State.advanceTime_locked (h : s.flag Csr.clkStatus_SPLL_LOCK = true) :
    s.advanceTime = s.wr Csr.clkTime (s.rd Csr.clkTime + 1) := if_pos h

theorem State.advanceTime_stopped (h : s.flag Csr.clkStatus_SPLL_LOCK = false) : s.advanceTime = s := if_neg (by simp [h])

/-- Settles O2: the time advances while SPLL is locked, and requests to slices may be answered. -/
theorem emptyQueueTicksTheClock : Obligations.EmptyQueueTicksTheClock := by
  intro s hp
  have advanced : s.advanceTime.sliceReqs = s.sliceReqs ∧ s.advanceTime.mem = s.mem ∧ s.advanceTime.rd Csr.clkTime =
      if s.flag Csr.clkStatus_SPLL_LOCK then s.rd Csr.clkTime + 1 else s.rd Csr.clkTime := by
    unfold State.advanceTime
    split
    · exact ⟨State.wr_sliceReqs s _ _, State.wr_mem s _ _, by rw [State.rd_wr, if_pos rfl]⟩
    · exact ⟨rfl, rfl, rfl⟩
  obtain ⟨reqs, mem, time⟩ := advanced
  obtain ⟨sub, mem', time'⟩ := State.answerSlices_rest (s := s.advanceTime)
  refine ⟨⟨_, step_idle hp, reqs ▸ sub, mem'.trans mem, time'.trans time⟩, fun hr => ⟨fun hl => ?_, fun hl => ?_⟩⟩
  · refine ⟨_, step_idle hp, ?_⟩
    rw [State.tick, State.answerSlices_none (reqs.trans hr), State.advanceTime_locked hl]
    exact ⟨fun a ha => by rw [State.rd_wr, if_neg ha], rfl⟩
  · rw [step_idle hp, State.tick, State.advanceTime_stopped hl, State.answerSlices_none hr]

end Sys2Proof.Machine

/-! SUPPORT. The sync instructions (R94 to R98), the end of a lesson (R60) and the tokens (R40, R94). -/

namespace Sys2Proof.Machine

variable {s t : State} {c : Nat} {q : Queue} {e : QEntry} {r : Result}

/-! ## Tokens -/

/-- A token inside its range takes the update. -/
theorem State.tokenAdd_in_range {k n pc enc : Nat} {d : Int} (h0 : 0 ≤ Int.ofNat (s.getF (Csr.clsTok_COUNT c k)) + d)
    (h1 : Int.ofNat (s.getF (Csr.clsTok_COUNT c k)) + d ≤ 65535) :
    s.tokenAdd c k d n pc enc = s.setF (Csr.clsTok_COUNT c k) (Int.ofNat (s.getF (Csr.clsTok_COUNT c k)) + d).toNat := by
  unfold State.tokenAdd
  exact if_pos ⟨h0, h1⟩

theorem State.getF_setCount {k v : Nat} (h : v ≤ 65535) :
    (s.setF (Csr.clsTok_COUNT c k) v).getF (Csr.clsTok_COUNT c k) = v := by
  rw [State.getF_setF_same rfl]
  exact Nat.mod_eq_of_lt (show v < 65536 by omega)

/-- An instruction of which the last source read is not yet done, in a list that it may be done in. -/
theorem execReadInc_eq {c : Fin 64} {n : Nat} {f : InFlight} (hf : ((s.room c).flight q)[n]? = some f)
    (hq : q = .t ∧ waitsForArrays (s.room c) n = false ∨ q = .m) (hr : f.readDone = false) (hd : f.deferred = false) :
    execReadInc c q n s = .next (let s0 := if q = .t && streaming f then s.endStream c n else s
      let s1 := s0.setRoom c ((s.room c).setFlight q (((s.room c).flight q).set n { f with readDone := true }))
      if insnSmode f.entry.enc = 2 then s1.tokenAdd c (insnStok f.entry.enc) 1 (queueCode q) f.entry.pc f.entry.enc else s1) := by
  unfold execReadInc
  dsimp only
  rw [hf]
  refine if_pos ?_
  obtain ⟨rfl, hw⟩ | rfl := hq
  · simp [hr, hd, hw]
  · simp [hr, hd]

/-- Once done, the last source read is not done again. -/
theorem execReadInc_done {c : Fin 64} {n : Nat} {f : InFlight} (hf : ((s.room c).flight q)[n]? = some f) (hr : f.readDone = true) :
    execReadInc c q n s = .next s := by
  unfold execReadInc
  dsimp only
  rw [hf]
  exact if_neg (by simp [hr])

/-- Settles O10: the operations of SSIG by their code, and READ_INC by the COUNT that it finds. -/
theorem tokensCount : Obligations.TokensCount := by
  refine ⟨fun s c e => ?_, fun s c q n f hf hq hm hr hd hl => ?_⟩
  · dsimp only
    refine ⟨fun hop h => ?_, fun hop h => ?_, fun hop => ?_, fun hop => ?_⟩
    · have op : s.tokenOp c e = s.tokenAdd c (synTgt e.enc) (Int.ofNat (synValue e.enc)) 3 e.pc e.enc := by
        simp only [State.tokenOp, hop]
      rw [op, State.tokenAdd_in_range (by simp only [Int.ofNat_eq_natCast]; omega) (by simp only [Int.ofNat_eq_natCast]; omega),
        State.getF_setCount (by simp only [Int.ofNat_eq_natCast]; omega)]
      simp only [Int.ofNat_eq_natCast]
      omega
    · have op : s.tokenOp c e = s.tokenAdd c (synTgt e.enc) (-(Int.ofNat (synValue e.enc))) 3 e.pc e.enc := by
        simp only [State.tokenOp, hop]
      have small : s.getF (Csr.clsTok_COUNT c (synTgt e.enc)) < 65536 := State.getF_lt
      rw [op, State.tokenAdd_in_range (by simp only [Int.ofNat_eq_natCast]; omega) (by simp only [Int.ofNat_eq_natCast]; omega),
        State.getF_setCount (by simp only [Int.ofNat_eq_natCast]; omega)]
      simp only [Int.ofNat_eq_natCast]
      omega
    · have op : s.tokenOp c e = s.setF (Csr.clsTok_COUNT c (synTgt e.enc)) (synValue e.enc) := by simp only [State.tokenOp, hop]
      rw [op, State.getF_setF_same rfl]
      rfl
    · have op : s.tokenOp c e = s.setF (Csr.clsTok_TARGET c (synTgt e.enc)) (synValue e.enc) := by simp only [State.tokenOp, hop]
      rw [op, State.getF_setF_same rfl]
      rfl
  · have ended : s.Beside (if q = .t && streaming f then s.endStream c n else s) c := by
      split
      · exact (State.endStream_spec (p := 0)).2
      · exact State.beside_self
    have run := execReadInc_eq hf hq hr hd
    dsimp only at run
    rw [if_pos hm] at run
    generalize (if q = .t && streaming f then s.endStream c n else s) = s0 at run ended
    have count : ∀ x, (s0.setRoom c x).getF (Csr.clsTok_COUNT c (insnStok f.entry.enc)) =
        s.getF (Csr.clsTok_COUNT c (insnStok f.entry.enc)) := fun x => (State.setRoom_getF _ _ _ _).trans (ended.count _ insnStok_lt)
    rw [State.tokenAdd_in_range (by rw [count]; simp only [Int.ofNat_eq_natCast]; omega)
      (by rw [count]; simp only [Int.ofNat_eq_natCast]; omega)] at run
    have flight : ∀ v, (((s0.setRoom c ((s.room c).setFlight q (((s.room c).flight q).set n { f with readDone := true }))).setF
        (Csr.clsTok_COUNT c (insnStok f.entry.enc)) v).room c).flight q =
        ((s.room c).flight q).set n { f with readDone := true } := fun v => by
      rw [State.setF_room, State.room_setRoom, if_pos rfl, Classroom.flight_setFlight]
    have done : ∀ v, ((((s0.setRoom c ((s.room c).setFlight q (((s.room c).flight q).set n { f with readDone := true }))).setF
        (Csr.clsTok_COUNT c (insnStok f.entry.enc)) v).room c).flight q)[n]? = some { f with readDone := true } := fun v => by
      obtain ⟨hn, -⟩ := List.getElem?_eq_some_iff.mp hf
      rw [flight, List.getElem?_set_self hn]
    refine answers_of run ⟨?_, done _, ?_, execReadInc_done (done _) rfl⟩
    · rw [count, State.getF_setCount (by simp only [Int.ofNat_eq_natCast]; omega)]
      simp only [Int.ofNat_eq_natCast]
      omega
    · rw [State.setF_mem, State.setRoom_mem, ended.mem]

/-! ## The last instruction issued in the sync queue -/

theorem State.mapLastS_sf {f : InFlight → InFlight} {l : List InFlight} {x : InFlight} (h : (s.room c).sf = l ++ [x]) :
    ((s.mapLastS c f).room c).sf = l ++ [f x] := by
  unfold State.mapLastS
  dsimp only
  rw [State.room_setRoom, if_pos rfl, h]
  exact List.mapIdx_last

theorem State.mapLastS_rest {f : InFlight → InFlight} : ((s.mapLastS c f).room c).sq = (s.room c).sq ∧
    (∀ d, d ≠ c → (s.mapLastS c f).room d = s.room d) ∧ (s.mapLastS c f).csr = s.csr ∧ (s.mapLastS c f).mem = s.mem := by
  unfold State.mapLastS
  exact ⟨by rw [State.room_setRoom, if_pos rfl], fun d hd => by rw [State.room_setRoom, if_neg hd], State.setRoom_csr _ _ _,
    State.setRoom_mem _ _ _⟩

/-- A change of the last sync instruction that keeps what it is leaves it issued. -/
theorem State.Issued.mapLastS {f : InFlight → InFlight} (h : s.Issued t c .s e r)
    (hf : ∀ x, (f x).entry = x.entry ∧ (f x).writes = x.writes ∧ (f x).flags = x.flags ∧ (f x).effects = x.effects) :
    s.Issued (t.mapLastS c f) c .s e r := by
  obtain ⟨sq, others, csr, mem⟩ := State.mapLastS_rest (s := t) (c := c) (f := f)
  obtain ⟨x, hx, he, hw, hg, hh⟩ := h.flight
  obtain ⟨fe, fw, fg, fh⟩ := hf x
  exact ⟨sq.trans h.queue, ⟨f x, State.mapLastS_sf hx, fe.trans he, fw.trans hw, fg.trans hg, fh.trans hh⟩,
    fun hm => by rw [← h.take hm]; unfold State.getF State.rd; rw [csr],
    fun a => by unfold State.peek; rw [mem]; exact h.memory a, fun d hd => (others d hd).trans (h.others d hd)⟩

/-- A ready sync instruction that only leaves its queue is issued. -/
theorem State.issued_sync {op : Op} (h : s.ready c .s op = some e) : s.Issued ((s.popHead c .s e).launchInsn c .s e r) c .s e r :=
  State.issued_of_beside h insnWtok_lt State.beside_self

/-! ## Barriers -/

theorem State.releaseBar_rest {x b d : Nat} : ((s.releaseBar x b d).room c).sq = (s.room c).sq ∧
    (s.releaseBar x b d).bars = s.bars := by
  unfold State.releaseBar
  dsimp only
  split
  · refine ⟨?_, State.setRoom_bars _ _ _⟩
    rw [State.room_setRoom]
    split
    next h => rw [h]
    · rfl
  · exact ⟨rfl, rfl⟩

theorem State.foldl_releaseBar_rest {x b : Nat} {l : List Nat} : let t := l.foldl (fun t y => t.releaseBar x b y) s
    (t.room c).sq = (s.room c).sq ∧ t.bars = s.bars := by
  induction l generalizing s with
  | nil => exact ⟨rfl, rfl⟩
  | cons y l ih =>
    obtain ⟨h1, h2⟩ := State.releaseBar_rest (s := s) (c := c) (x := x) (b := b) (d := y)
    obtain ⟨g1, g2⟩ := ih (s := s.releaseBar x b y)
    exact ⟨g1.trans h1, g2.trans h2⟩

theorem State.Issued.setBar {k : Nat} {b : Barrier} (h : s.Issued t c q e r) : s.Issued (t.setBar k b) c q e r :=
  h.beside (.of_eq (State.setBar_csr _ _ _) (State.setBar_cls _ _ _) (State.setBar_mem _ _ _))

/-- An SBAR that may join its barrier waits in it, or as its last arrival releases it (R97). -/
theorem execSbar_joins {c : Fin 64} (h : s.ready c .s .sbar = some e) : let k := s.barKey c (synTgt e.enc)
    let b := s.bar k
    (b.arrived = [] ∨ b.value = synValue e.enc) →
      (b.arrived.length + 1 < synValue e.enc → answers (.sbar c) s (fun t => s.Issued t c .s e Result.none ∧
        t.bar k = ⟨synValue e.enc, b.arrived ++ [c.val]⟩)) ∧
      (synValue e.enc ≤ b.arrived.length + 1 → answers (.sbar c) s (fun t => t.bar k = Barrier.empty ∧
        (t.room c).sq = (s.room c).sq.tail)) := by
  intro k b hj
  have joins : ¬ (b.arrived ≠ [] ∧ b.value ≠ synValue e.enc) := fun hn => hj.elim hn.1 hn.2
  have waits := (State.issued_sync (r := Result.none) h).mapLastS (f := fun f => { f with barWait := true })
    fun _ => ⟨rfl, rfl, rfl, rfl⟩
  refine ⟨fun hl => answers_of (t := (((s.popHead c .s e).launchInsn c .s e Result.none).mapLastS c
      (fun f => { f with barWait := true })).setBar k ⟨synValue e.enc, b.arrived ++ [c.val]⟩) ?_ ⟨waits.setBar, ?_⟩,
    fun hl => answers_of (t := (b.arrived ++ [c.val]).foldl (fun t x => t.releaseBar (s.getF (Csr.clsStatus_CTX c)) (synTgt e.enc) x)
      ((((s.popHead c .s e).launchInsn c .s e Result.none).mapLastS c (fun f => { f with barWait := true })).setBar k Barrier.empty))
      ?_ ⟨?_, ?_⟩⟩
  · change execSbar c s = _
    unfold execSbar
    rw [h]
    dsimp only
    rw [if_neg joins, if_pos (by rw [List.length_append]; exact hl)]
  · rw [State.bar_setBar, if_pos rfl]
  · change execSbar c s = _
    unfold execSbar
    rw [h]
    dsimp only
    rw [if_neg joins, if_neg (by rw [List.length_append]; exact Nat.not_lt.mpr hl)]
  · unfold State.bar
    rw [(State.foldl_releaseBar_rest (c := c)).2]
    exact (State.bar_setBar _ _ _ _).trans (if_pos rfl)
  · rw [State.foldl_releaseBar_rest.1, State.setBar_room]
    exact waits.queue

/-! ## The instructions -/

/-- A ready SEND with nothing left to do ends the lesson (R60). -/
theorem execSend_ends {c : Fin 64} (h : s.ready c .s .send = some e) (hq : (s.room c).quiet = true) (ha : s.asking c = false) :
    answers (.send c) s (fun t => t.getF (Csr.clsStatus_STATE c) = 5 ∧ (t.room c).sq = (s.room c).sq.tail ∧ t.mem = s.mem) := by
  obtain ⟨popRoom, -, popMem, -⟩ := State.popHead_spec h
  have beside := (State.sampleIssue_counted (s := s.popHead c .s e) (c := c) (q := .s)).beside.trans
    (State.sampleEnd_beside (q := .s) (e := e) (b := ((s.popHead c .s e).sampleIssue c .s).1.1) (x := false)
      (wait := ((s.popHead c .s e).sampleIssue c .s).1.2))
  have run : exec (.send c) s = .next ((((s.popHead c .s e).sampleIssue c .s).2.sampleEnd c .s e
      ((s.popHead c .s e).sampleIssue c .s).1.1 ((s.popHead c .s e).sampleIssue c .s).1.2 false).setF (Csr.clsStatus_STATE c) 5) := by
    change execSend c s = _
    unfold execSend
    rw [h]
    dsimp only
    rw [if_pos (by simp [hq, ha])]
  refine answers_of run ⟨(State.getF_setF_same rfl).trans rfl, ?_, ?_⟩
  · rw [State.setF_room]
    refine (beside.queue .s).trans ?_
    rw [popRoom]
    rfl
  · rw [State.setF_mem, beside.mem, popMem]

/-- Settles O9: each sync instruction is issued, with what it adds of its own. -/
theorem syncInstructionsIssue : Obligations.SyncInstructionsIssue := by
  refine ⟨fun s c e => ⟨fun h hw => ?swait, fun h => ?ssig, fun h => ?sfence, fun h => ?strig, execSbar_joins⟩,
    fun s c e => execSend_ends⟩
  case swait =>
    refine answers_of ?_ (State.issued_sync h)
    change execSwait c s = _
    unfold execSwait
    rw [h]
    exact if_pos hw
  case ssig =>
    change execSsig c s = _
    unfold execSsig
    rw [h]
  case sfence =>
    obtain ⟨f, hf, -⟩ := (State.issued_sync (r := Result.none) h).flight
    have run : exec (.sfence c) s = .next (((s.popHead c .s e).launchInsn c .s e Result.none).mapLastS c (fun f => { f with
        fence := ((s.room c).tf.length, (s.room c).vf.length, (s.room c).mf.length, (s.room c).sat.length) })) := by
      change execSfence c s = _
      unfold execSfence
      rw [h]
    refine answers_of run ⟨(State.issued_sync h).mapLastS fun _ => ⟨rfl, rfl, rfl, rfl⟩, _,
      (congrArg List.getLast? (State.mapLastS_sf hf)).trans List.getLast?_concat, rfl⟩
  case strig =>
    refine answers_of ?_ (State.issued_sync h)
    change execStrig c s = _
    unfold execStrig
    rw [h]

end Sys2Proof.Machine

/-! SUPPORT. A decode cycle of the front end (R35, R46). -/

namespace Sys2Proof.Machine

variable {s : State} {c : Nat} {q : Queue} {pc w : Nat}

/-- A fetch without error at a slot of the lesson is decoded. -/
theorem State.frontEnd_clean (hr : s.running c = true) (he : (s.room c).ended = false)
    (hl : (s.getF (Csr.clsPc_PC c) + 32768 - s.firstSlot c) % 32768 < s.getF (Csr.clsLesson_INSN_COUNT c)) :
    s.frontEnd c .clean = s.decodeSlot c (s.getF (Csr.clsPc_PC c)) := by
  unfold State.frontEnd
  dsimp only
  rw [if_neg (by simp [hr, he]), if_neg (by omega)]

/-- Outside every loop the next slot follows. -/
theorem State.loopEnd_outside {n : Nat} (h : (s.room c).loops = []) : s.loopEnd c pc n = s.setF (Csr.clsPc_PC c) pc := by
  cases n with
  | zero => rfl
  | succ n =>
    unfold State.loopEnd
    dsimp only
    rw [h]
    rfl

/-- An instruction that is placed: the room of its classroom as `enqueue` leaves it. -/
def Classroom.placed (r : Classroom) (q : Queue) (x : QEntry) (tlw : Option TileId) (ended : Bool) : Classroom :=
  { (r.setQueue q (r.queue q ++ [x])) with lastTlw := tlw, ended := ended }

theorem Classroom.queue_placed {r : Classroom} {x : QEntry} {tlw : Option TileId} {b : Bool} :
    (r.placed q x tlw b).queue q = r.queue q ++ [x] := by cases q <;> rfl

theorem Classroom.loops_placed {r : Classroom} {x : QEntry} {tlw : Option TileId} {b : Bool} :
    (r.placed q x tlw b).loops = r.loops := by cases q <;> rfl

/-- An instruction whose queue has a place is put at its tail, and PC moves on. -/
theorem State.enqueue_spec {op : Op} {x : QEntry} (hq : ((s.room c).queue (insnQueue x.enc)).length < 64)
    (hl : (s.room c).loops = []) : let t := s.enqueue c pc op x
    (t.room c).queue (insnQueue x.enc) = (s.room c).queue (insnQueue x.enc) ++ [x] ∧
      t.getF (Csr.clsPc_PC c) = (pc + 1) % 32768 ∧ t.mem = s.mem ∧ ∀ d, d ≠ c → t.room d = s.room d := by
  have placed : ∃ tlw b n, s.enqueue c pc op x = ((s.setRoom c ((s.room c).placed (insnQueue x.enc) x tlw b)).setF
      (occField c (insnQueue x.enc)) n).setF (Csr.clsPc_PC c) (pc + 1) := by
    unfold State.enqueue
    dsimp only
    rw [if_neg (by omega)]
    refine ⟨_, _, _, State.loopEnd_outside ?_⟩
    rw [State.setF_room, State.room_setRoom, if_pos rfl]
    exact Classroom.loops_placed.trans hl
  obtain ⟨tlw, b, n, eq⟩ := placed
  dsimp only
  rw [eq]
  refine ⟨?_, State.getF_setF_same rfl, ?_, fun d hd => ?_⟩
  · rw [State.setF_room, State.setF_room, State.room_setRoom, if_pos rfl, Classroom.queue_placed]
  · rw [State.setF_mem, State.setF_mem, State.setRoom_mem]
  · rw [State.setF_room, State.setF_room, State.room_setRoom, if_neg hd]

/-- A SLOOP that is well nested opens its loop. -/
theorem State.openLoop_nested (h40 : insnBits w 40 16 = 0) (hb : loopBody w ≠ 0) (hlev : loopLevel w = (s.room c).loops.length)
    (hd : (s.room c).loops.length < 4)
    (hin : ∀ f l, (s.room c).loops.getLast? = some (f, l) → pc + 1 + loopBody w ≤ f + l)
    (hfin : pc + 1 + loopBody w ≤ s.firstSlot c + s.getF (Csr.clsLesson_INSN_COUNT c)) (hc : loopCount w ≠ 0) :
    s.openLoop c pc w = ((s.setRoom c { s.room c with loops := (s.room c).loops ++ [(pc + 1, loopBody w)] }).setLoop c
      (s.room c).loops.length 0 (loopCount w) true).setFs
        [(Csr.clsStatus_LOOP_DEPTH c, (s.room c).loops.length + 1), (Csr.clsPc_PC c, pc + 1)] := by
  have inner : (match (s.room c).loops.getLast? with
      | some (f, l) => decide (pc + 1 + loopBody w ≤ f + l)
      | none => true) = true := by
    split
    next f l e => exact decide_eq_true (hin f l e)
    · rfl
  unfold State.openLoop
  dsimp only
  rw [if_neg (by omega), if_neg, if_neg hc]
  rintro (e | e | e | e | e)
  · exact hb e
  · exact e hlev
  · omega
  · exact absurd (inner.symm.trans e) (by decide)
  · omega

/-- The registers of an opened loop. -/
theorem State.openedLoop_spec {t : State} {d n : Nat} (hd : d < 4) (hn : n < 2 ^ 24) :
    let u := (t.setLoop c d 0 n true).setFs [(Csr.clsStatus_LOOP_DEPTH c, d + 1), (Csr.clsPc_PC c, pc)]
    u.getF (Csr.clsLoop_INDEX c d) = 0 ∧ u.getF (Csr.clsLoop_COUNT c d) = n ∧ u.getF (Csr.clsLoop_ACTIVE c d) = 1 ∧
      u.getF (Csr.clsStatus_LOOP_DEPTH c) = d + 1 ∧ u.getF (Csr.clsPc_PC c) = pc % 32768 := by
  have kept : ∀ {x : State} (g : Fld) {m : Nat}, g.addr = Csr.clsLoop c d →
      ((x.setF (Csr.clsStatus_LOOP_DEPTH c) m).setF (Csr.clsPc_PC c) pc).getF g = x.getF g := fun g _ hg => by
    rw [State.getF_setF_apart rfl, State.getF_setF_apart rfl]
    · exact Fld.apart_of_addr (by rw [hg]; simp only [Csr.clsStatus_LOOP_DEPTH, Csr.clsStatus, Csr.clsLoop]; omega)
    · exact Fld.apart_of_addr (by rw [hg]; simp only [Csr.clsPc_PC, Csr.clsPc, Csr.clsLoop]; omega)
  have depth : (Csr.clsPc_PC c).apart (Csr.clsStatus_LOOP_DEPTH c) = true :=
    Fld.apart_of_addr (by simp only [Csr.clsPc_PC, Csr.clsPc, Csr.clsStatus_LOOP_DEPTH, Csr.clsStatus]; omega)
  have index : (Csr.clsLoop_COUNT c d).apart (Csr.clsLoop_INDEX c d) = true ∧
      (Csr.clsLoop_ACTIVE c d).apart (Csr.clsLoop_INDEX c d) = true ∧
      (Csr.clsLoop_ACTIVE c d).apart (Csr.clsLoop_COUNT c d) = true := by
    simp [Fld.apart, Csr.clsLoop_COUNT, Csr.clsLoop_INDEX, Csr.clsLoop_ACTIVE]
  dsimp only
  unfold State.setLoop
  rw [State.setFs_cons, State.setFs_cons, State.setFs_nil, State.setFs_cons, State.setFs_cons, State.setFs_cons, State.setFs_nil]
  refine ⟨?_, ?_, ?_, ?_, State.getF_setF_same rfl⟩
  · rw [kept (Csr.clsLoop_INDEX c d) rfl, State.getF_setF_apart rfl index.2.1, State.getF_setF_apart rfl index.1,
      State.getF_setF_same rfl, Nat.zero_mod]
  · rw [kept (Csr.clsLoop_COUNT c d) rfl, State.getF_setF_apart rfl index.2.2, State.getF_setF_same rfl]
    exact Nat.mod_eq_of_lt hn
  · rw [kept (Csr.clsLoop_ACTIVE c d) rfl, State.getF_setF_same rfl]
    rfl
  · rw [State.getF_setF_apart rfl depth, State.getF_setF_same rfl]
    exact Nat.mod_eq_of_lt (show d + 1 < 8 by omega)

theorem loopCount_lt : loopCount w < 2 ^ 24 := Nat.mod_lt _ (by decide)

/-- Settles O12: a decoded instruction is placed, and a nested SLOOP opens its loop. -/
theorem frontEndDecodes : Obligations.FrontEndDecodes := by
  intro s c pc w depth hr he hl
  refine ⟨fun op x hop hne hx hq hloops => ?_, fun hop h40 hb hlev hd hin hfin hc => ?_⟩
  · have run : exec (.frontEndDispatch c .clean) s = .next (s.enqueue c pc op x) := by
      change Host.Outcome.next (s.frontEnd c .clean) = _
      rw [State.frontEnd_clean hr he hl]
      change Host.Outcome.next (s.decodeSlot c pc) = _
      have decoded : s.decodeSlot c pc = s.enqueue c pc op x := by
        unfold State.decodeSlot
        dsimp only
        change (match insnOp w with | none => _ | some .sloop => _ | some op => _) = _
        rw [hop]
        cases op with
        | sloop => exact absurd rfl hne
        | _ => simp only [w, depth] at hx ⊢; rw [hx]
      rw [decoded]
    exact answers_of run (State.enqueue_spec hq hloops)
  · have run : exec (.sloop c .clean) s = .next (s.openLoop c pc w) := by
      change execSloop c .clean s = _
      unfold execSloop
      rw [if_pos hop, State.frontEnd_clean hr he hl]
      unfold State.decodeSlot
      dsimp only
      rw [hop]
    rw [State.openLoop_nested h40 hb hlev hd hin hfin hc] at run
    obtain ⟨index, count, active, level, next⟩ := State.openedLoop_spec (c := c) (pc := pc + 1)
      (t := s.setRoom c { s.room c with loops := (s.room c).loops ++ [(pc + 1, loopBody w)] }) hd (loopCount_lt (w := w))
    refine answers_of run ⟨?_, index, count, active, level, next, ?_⟩
    · rw [State.setFs_room, State.setLoop, State.setFs_room, State.room_setRoom, if_pos rfl]
    · rw [State.setFs_mem, State.setLoop, State.setFs_mem, State.setRoom_mem]

end Sys2Proof.Machine

/-! SUPPORT. Stops (R45, R61 to R65), ramps of the arrays (R114 to R117) and the Satchel (R93, R170, R173, R178). -/

namespace Sys2Proof.Machine

variable {s t : State} {c : Nat} {q : Queue}

/-! ## Several fields set at once -/

/-- A field among several that lie apart takes its value. -/
theorem State.getF_setFs_mem {l : List (Fld × Nat)} {g : Fld} {v : Nat} (hf : ∀ x ∈ l, x.1.fits = true)
    (hp : l.Pairwise (fun x y => y.1.apart x.1 = true)) (h : (g, v) ∈ l) : (s.setFs l).getF g = v % 2 ^ g.len := by
  induction l generalizing s with
  | nil => exact absurd h (by simp)
  | cons x r ih =>
    obtain ⟨hx, hr⟩ := List.forall_mem_cons.mp hf
    obtain ⟨px, pr⟩ := List.pairwise_cons.mp hp
    obtain rfl | h := List.mem_cons.mp h
    · exact State.getF_setFs_head hx fun y hy => ⟨hr y hy, px y hy⟩
    · exact ih hr pr h

/-! ## Stops -/

/-- What a stop with no fault recorded yet writes of the fault. -/
theorem State.recordStop_fields {n pc enc : Nat} {f : FaultInfo} (h : s.getF (Csr.clsFault0_CAUSE c) = 0) :
    let t := s.recordStop c n pc enc f
    t.getF (Csr.clsFault0_QUEUE c) = n % 8 ∧ t.getF (Csr.clsFault0_PC c) = pc % 32768 ∧
      t.getF (Csr.clsFault0_STATUS c) = causeStatus f.cause % 256 ∧ t.getF (Csr.clsFault1_ENCODING c) = enc % 2 ^ 64 ∧
      t.getF (Csr.clsFault2_TOKEN c) = f.token % 64 := by
  unfold State.recordStop
  dsimp only
  rw [if_neg (not_not.mpr h)]
  simp only [State.setRoom_getF]
  have field {g : Fld} {v : Nat} (hm : (g, v) ∈ _) := State.getF_setFs_mem (s := s)
    (l := [(Csr.clsFault0_CAUSE c, causeCode f.cause), (Csr.clsFault0_QUEUE c, n), (Csr.clsFault0_PC c, pc),
      (Csr.clsFault0_STATUS c, causeStatus f.cause), (Csr.clsFault0_DESC c, f.desc), (Csr.clsFault1_ENCODING c, enc),
      (Csr.clsFault2_DVA c, f.dva), (Csr.clsFault2_TOKEN c, f.token)]) (g := g) (v := v)
    (by simp [Fld.fits, Csr.clsFault0_CAUSE, Csr.clsFault0_QUEUE, Csr.clsFault0_PC, Csr.clsFault0_STATUS, Csr.clsFault0_DESC,
      Csr.clsFault1_ENCODING, Csr.clsFault2_DVA, Csr.clsFault2_TOKEN])
    (by simp [Fld.apart, Csr.clsFault0_CAUSE, Csr.clsFault0_QUEUE, Csr.clsFault0_PC, Csr.clsFault0_STATUS, Csr.clsFault0_DESC,
      Csr.clsFault1_ENCODING, Csr.clsFault2_DVA, Csr.clsFault2_TOKEN, Csr.clsFault0, Csr.clsFault1, Csr.clsFault2]) hm
  exact ⟨field (by simp), field (by simp), field (by simp), field (by simp), field (by simp)⟩

theorem queueCode_lt : queueCode q < 4 := by cases q <;> decide

/-- A stop with no instruction of the sync queue under way needs no sample. -/
theorem execClassroomFaulted_quiet {c : Fin 64} (hs : (s.room c).stopping = true) (hd : (s.room c).drained = true)
    (hf : (s.room c).sf = []) : execClassroomFaulted c s = .next
      (((((s.setRoom c { s.room c with sf := [], stopping := false, quizHalt := false }).clsFaultRecord c).setF
        (Csr.clsStatus_STATE c) (if c.val / 8 ∈ s.deadDies then 7 else 6)).launchFault c).settleHalt (s.getF (Csr.clsStatus_CTX c))) := by
  unfold execClassroomFaulted
  dsimp only
  rw [if_pos (by simp [hs, hd]), hf]
  rfl

/-- Settles O14: a timed-out wait is the record of its fault, and a drained stop ends. -/
theorem lessonsStop : Obligations.LessonsStop := by
  refine ⟨fun s c q e hr ht hw h0 => ?_, fun s c => ⟨fun h3 hs hd => ?_, execClassroomFaulted_quiet⟩⟩
  · have run : exec (.waitTimeout c q) s =
        .next (s.recordStop c (queueCode q) e.pc e.enc ⟨.waitTimeout, 0, 0, timeoutToken s c e⟩) := by
      change execWaitTimeout c q s = _
      unfold execWaitTimeout
      rw [hr, ht, hw]
      rfl
    obtain ⟨queue, pc, status, enc, token⟩ := State.recordStop_fields (n := queueCode q) (pc := e.pc) (enc := e.enc)
      (f := ⟨.waitTimeout, 0, 0, timeoutToken s c e⟩) h0
    refine answers_of run ⟨State.recordStop_stopping h0, State.recordStop_cause h0, queue.trans ?_, pc, status, enc, token,
      State.recordStop_queued.mem⟩
    exact Nat.mod_eq_of_lt (Nat.lt_of_lt_of_le queueCode_lt (by decide))
  · change execClassroomHalted c s = _
    unfold execClassroomHalted
    dsimp only
    rw [if_pos ⟨h3, by simp [hs], hd⟩]

/-! ## Ramps -/

theorem mem_placeRamp {x y : Nat × Nat} {l : List (Nat × Nat)} : y ∈ placeRamp x l ↔ y ∈ l ∨ y = x := by
  induction l with
  | nil => simp [placeRamp]
  | cons z r ih =>
    unfold placeRamp
    split
    · rw [List.mem_cons]
      exact or_comm
    · rw [List.mem_cons, List.mem_cons, ih, or_assoc]

/-- A request of the latest cycle and the highest classroom number in it comes last. -/
theorem placeRamp_last {x : Nat × Nat} {l : List (Nat × Nat)} (h : ∀ y ∈ l, y.1 ≠ x.1 ∨ y.2 < x.2) :
    placeRamp x l = l ++ [x] := by
  induction l with
  | nil => rfl
  | cons z r ih =>
    obtain ⟨hz, hr⟩ := List.forall_mem_cons.mp h
    unfold placeRamp
    rw [if_neg (by omega), ih hr]
    rfl

/-- The oldest request is given a slot, of whichever ramp the arrays wait for. -/
theorem execRampSlotGrant_begins {c : Fin 64} {waited : Nat} (hr : s.rampReq.head?.map (fun y => y.2) = some c.val)
    (hs : s.rampSlots < 16) (hp : s.getF (Csr.clsArrStat_PSTATE c) = 4 ∨ s.getF (Csr.clsArrStat_PSTATE c) = 1) :
    answers (.rampSlotGrant c waited) s (fun t => t.rampReq = s.rampReq.tail ∧ t.rampHold = s.rampHold ++ [c.val] ∧
      t.getF (Csr.clsArrStat_PSTATE c) = (if s.getF (Csr.clsArrStat_PSTATE c) = 4 then 5 else 2) ∧
      t.getF (Csr.clsArrStat_RAMP_STEP c) = 0 ∧ (t.room c).rampLeft = 16 ∧ t.mem = s.mem) := by
  have step : (Csr.clsArrStat_PSTATE c).apart (Csr.clsArrStat_RAMP_STEP c) = true := by
    simp [Fld.apart, Csr.clsArrStat_PSTATE, Csr.clsArrStat_RAMP_STEP]
  have kept : ∀ {x : State} {n : Nat} (g : Fld), g.addr = Csr.clsArrStat c →
      ((x.addF (Csr.clsArrRamp_UP_COUNT c) 1).addF (Csr.clsArrRamp_SLOT_WAIT c) n).getF g = x.getF g := fun g hg => by
    have apart : Csr.clsArrRamp c ≠ g.addr := by rw [hg]; simp only [Csr.clsArrRamp, Csr.clsArrStat]; omega
    rw [State.getF_addF_apart rfl (Fld.apart_of_addr apart), State.getF_addF_apart rfl (Fld.apart_of_addr apart)]
  obtain hp | hp := hp
  · refine answers_of (show execRampSlotGrant c waited s = _ by unfold execRampSlotGrant; rw [if_pos ⟨hr, hs⟩]; exact if_pos hp)
      ⟨?_, ?_, ?_, ?_, ?_, ?_⟩
    · simp only [State.setF_rampReq, State.setRoom_rampReq]
    · simp only [State.setF_rampHold, State.setRoom_rampHold]
    · rw [State.getF_setF_same rfl, if_pos hp]
      rfl
    · rw [State.getF_setF_apart rfl step, State.setRoom_getF, State.getF_setF_same rfl]
      rfl
    · rw [State.setF_room, State.room_setRoom, if_pos rfl]
    · simp only [State.setF_mem, State.setRoom_mem]
  · refine answers_of (show execRampSlotGrant c waited s = _ by
      unfold execRampSlotGrant
      rw [if_pos ⟨hr, hs⟩]
      exact (if_neg (by omega)).trans (if_pos hp)) ⟨?_, ?_, ?_, ?_, ?_, ?_⟩
    · simp only [State.setF_rampReq, State.addF_rampReq, State.setRoom_rampReq]
    · simp only [State.setF_rampHold, State.addF_rampHold, State.setRoom_rampHold]
    · rw [State.setRoom_getF, kept (Csr.clsArrStat_PSTATE c) rfl, State.getF_setF_same rfl,
        if_neg (show ¬ s.getF (Csr.clsArrStat_PSTATE c) = 4 by omega)]
      rfl
    · rw [State.setRoom_getF, kept (Csr.clsArrStat_RAMP_STEP c) rfl, State.getF_setF_apart rfl step, State.setRoom_getF,
        State.getF_setF_same rfl]
      rfl
    · rw [State.room_setRoom, if_pos rfl, State.room_setRoom, if_pos rfl]
    · simp only [State.setF_mem, State.addF_mem, State.setRoom_mem]

/-- The last step of a ramp frees its slot. -/
theorem execRampStep_ends {c : Fin 64} (hp : s.getF (Csr.clsArrStat_PSTATE c) = 5 ∨ s.getF (Csr.clsArrStat_PSTATE c) = 2)
    (hl : (s.room c).rampLeft ≤ s.getF (Csr.clsArrStat_RAMP_STEP c) + 1) :
    answers (.rampStep c) s (fun t => c.val ∉ t.rampHold ∧ t.getF (Csr.clsArrStat_RAMP_STEP c) = 0 ∧ t.mem = s.mem ∧
      t.getF (Csr.clsArrStat_PSTATE c) = (if s.getF (Csr.clsArrStat_PSTATE c) = 5 then 0
        else if (s.room c).waitArrays then 3 else 4)) := by
  have state : (Csr.clsArrStat_RAMP_STEP c).apart (Csr.clsArrStat_PSTATE c) = true := by
    simp [Fld.apart, Csr.clsArrStat_PSTATE, Csr.clsArrStat_RAMP_STEP]
  have ramp : ∀ g : Fld, g.addr = Csr.clsArrStat c → (Csr.clsArrRamp_DOWN_COUNT c).apart g = true :=
    fun g hg => Fld.apart_of_addr (by rw [hg]; simp only [Csr.clsArrRamp_DOWN_COUNT, Csr.clsArrRamp, Csr.clsArrStat]; omega)
  have freed : c.val ∉ (s.freeRamp c).rampHold := by simp [State.freeRamp]
  obtain hp | hp := hp
  · have run : execRampStep c s = .next ((((s.freeRamp c).setF (Csr.clsArrStat_PSTATE c) 0).setF
        (Csr.clsArrStat_RAMP_STEP c) 0).addF (Csr.clsArrRamp_DOWN_COUNT c) 1) := by
      unfold execRampStep
      dsimp only
      rw [hp]
      exact if_neg (by omega)
    refine answers_of run ⟨?_, ?_, ?_, ?_⟩
    · rw [State.addF_rampHold, State.setF_rampHold, State.setF_rampHold]
      exact freed
    · rw [State.getF_addF_apart rfl (ramp _ rfl), State.getF_setF_same rfl]
      rfl
    · rw [State.addF_mem, State.setF_mem, State.setF_mem]
      rfl
    · rw [State.getF_addF_apart rfl (ramp _ rfl), State.getF_setF_apart rfl state, State.getF_setF_same rfl, if_pos hp]
      rfl
  · have run : execRampStep c s = .next ((((s.freeRamp c).setF (Csr.clsArrStat_PSTATE c)
        (if (s.room c).waitArrays then 3 else 4)).setF (Csr.clsArrStat_RAMP_STEP c) 0).setRoom c
          { s.room c with waitArrays := false }) := by
      unfold execRampStep
      dsimp only
      rw [hp]
      exact if_neg (by omega)
    refine answers_of run ⟨?_, ?_, ?_, ?_⟩
    · rw [State.setRoom_rampHold, State.setF_rampHold, State.setF_rampHold]
      exact freed
    · rw [State.setRoom_getF, State.getF_setF_same rfl]
      rfl
    · rw [State.setRoom_mem, State.setF_mem, State.setF_mem]
      rfl
    · rw [State.setRoom_getF, State.getF_setF_apart rfl state, State.getF_setF_same rfl,
        if_neg (show ¬ s.getF (Csr.clsArrStat_PSTATE c) = 5 by omega)]
      split <;> rfl

/-- Settles O15: the request, the grant, a step and the last step. -/
theorem arraysRamp : Obligations.ArraysRamp := by
  intro s c ps d
  refine ⟨fun hp hh hn => ?_, fun waited => execRampSlotGrant_begins, fun hp hl => ?_, execRampStep_ends⟩
  · have none : s.rampReq.any (fun y => decide (y.2 = c.val)) = false := by simpa using fun x y h => hn (x, y) h
    have asked : s.askRamp c = { s with rampReq := placeRamp ((s.rd Csr.clkTime).toNat, c.val) s.rampReq } := by
      unfold State.askRamp
      rw [none]
      rfl
    have run : exec (.rampSlotRequest c) s = .next (s.askRamp c) := by
      change execRampSlotRequest c s = _
      unfold execRampSlotRequest
      dsimp only
      rw [if_neg (show ¬ s.getF (Csr.clsArrStat_PSTATE c) = 3 by omega), if_pos ⟨hp, by simp [hh]⟩]
    rw [asked] at run
    refine answers_of run ⟨rfl, fun y => mem_placeRamp, fun h => placeRamp_last fun y hy => ?_⟩
    simpa using List.all_eq_true.mp h y hy
  · change execRampStep c s = _
    unfold execRampStep
    dsimp only
    obtain hp | hp := hp <;> rw [show s.getF (Csr.clsArrStat_PSTATE c) = _ from hp] <;> exact if_pos hl

/-! ## Satchels -/

/-- Settles O16: each command by the stage of the head MUPD. -/
theorem satchelsUpdate : Obligations.SatchelsUpdate := by
  intro s c x m g bs q p rb hx hw hm hg
  refine ⟨fun ft fe hst hrec hok hft hfe => ?_, fun hst hd => ?_, fun hst hr hft hd => ?_, fun hst hu => ⟨fun hfree => ?_,
    fun hwait => ?_⟩⟩
  · change execSatchelTake c s = _
    unfold execSatchelTake
    rw [hx]
    dsimp only
    rw [if_neg (by simp [hst, hw]), hm, hg]
    dsimp only
    rw [hrec]
    dsimp only
    rw [hok]
    simp only [rb] at hft hfe ⊢
    cases hb : x.entry.b with
    | none =>
      rw [hb, Option.getD_none] at hft hfe
      simp only [Option.getD_none]
      rw [hft]
      change (match (viaDesc _ _ >>= fun fe => pure (leNat fe) : Except FaultInfo Nat) with | .error f => _ | .ok w => _) = _
      rw [hfe]
      rfl
    | some d =>
      rw [hb, Option.getD_some] at hft hfe
      simp only [Option.getD_some]
      rw [hft]
      change (match (viaDesc _ _ >>= fun fe => pure (leNat fe) : Except FaultInfo Nat) with | .error f => _ | .ok w => _) = _
      rw [hfe]
      rfl
  · change execFenceDrain c s = _
    unfold execFenceDrain
    rw [hx]
    dsimp only
    rw [if_neg (by simp [hst, hw, hd]), hm, hg]
  · change execFenceTimeout c s = _
    unfold execFenceTimeout
    rw [hx]
    dsimp only
    rw [if_neg (by simp [hst, hr, hft, hd]), hm]
  · change execMupdComplete c s = _
    unfold execMupdComplete
    rw [hx]
    dsimp only
    rw [if_neg (by simp [hst, hw, hu]), if_neg (by rw [hfree]; exact Bool.false_ne_true)]
  · obtain ⟨mem, cls⟩ := State.stall_same (s := s) (src := .insn c 5) (p := p) (as := s.mupdAddrs c p x)
    refine answers_of (t := s.stall (.insn c 5) p (s.mupdAddrs c p x)) ?_ ⟨mem, by unfold State.room; rw [cls]⟩
    change execMupdComplete c s = _
    unfold execMupdComplete
    rw [hx]
    dsimp only
    rw [if_neg (by simp [hst, hw, hu]), if_pos hwait]

end Sys2Proof.Machine

/-! SUPPORT. Hardware contexts opened, bound and closed (R254, R255, R261) and lessons loaded (R30, R31, R256). -/

namespace Sys2Proof.Machine

variable {s t : State} {x : Fin 65536} {c : Cmd}

/-! ## Lessons freed -/

theorem State.freeLessons_room {k j : Nat} {gone : Resident → Bool} : ((s.freeLessons k gone).room j).resident =
    if j = k then (s.room k).resident.filter (fun l => !gone l) else (s.room j).resident := by
  unfold State.freeLessons
  dsimp only
  rw [State.setF_room, State.room_setRoom]
  split <;> rfl

theorem State.freeLessons_rest {k : Nat} {gone : Resident → Bool} : (s.freeLessons k gone).mem = s.mem ∧
    (s.freeLessons k gone).groups = s.groups ∧ (s.freeLessons k gone).ctxs = s.ctxs := by
  unfold State.freeLessons
  dsimp only
  simp only [State.setF_mem, State.setRoom_mem, State.setF_groups, State.setRoom_groups, State.setF_ctxs, State.setRoom_ctxs,
    and_self]

theorem State.clearSegs_room {k j f n : Nat} : ((s.clearSegs k f n).room j).resident =
    if j = k then (s.room k).resident.filter (fun l => !overlap f n l.firstSeg l.segs) else (s.room j).resident := by
  unfold State.clearSegs
  dsimp only
  rw [State.setF_room, State.freeLessons_room]

theorem State.clearSegs_rest {k f n : Nat} : (s.clearSegs k f n).mem = s.mem ∧ (s.clearSegs k f n).groups = s.groups ∧
    (s.clearSegs k f n).ctxs = s.ctxs := by
  unfold State.clearSegs
  dsimp only
  simp only [State.setF_mem, State.setF_groups, State.setF_ctxs]
  exact State.freeLessons_rest

/-- Lessons leave each classroom of a list once, by the step `f`, which touches that classroom's lessons alone. -/
theorem State.foldl_resident {f : State → Nat → State} {l : List Nat} {b : Nat → Bool} {keep : Resident → Bool}
    (hf : ∀ (t : State) k j, ((f t k).room j).resident =
      if j = k ∧ b k = true then (t.room j).resident.filter keep else (t.room j).resident)
    (hr : ∀ t k, (f t k).mem = t.mem ∧ (f t k).groups = t.groups ∧ (f t k).ctxs = t.ctxs) :
    (∀ j, ((l.foldl f s).room j).resident =
      if j ∈ l ∧ b j = true then (s.room j).resident.filter keep else (s.room j).resident) ∧
    (l.foldl f s).mem = s.mem ∧ (l.foldl f s).groups = s.groups ∧ (l.foldl f s).ctxs = s.ctxs := by
  induction l generalizing s with
  | nil => exact ⟨fun j => by simp, rfl, rfl, rfl⟩
  | cons k r ih =>
    obtain ⟨room, mem, groups, ctxs⟩ := ih (s := f s k)
    obtain ⟨m, g, c⟩ := hr s k
    refine ⟨fun j => ?_, mem.trans m, groups.trans g, ctxs.trans c⟩
    rw [List.foldl_cons, room, hf]
    by_cases hj : j = k <;> by_cases hb : b j = true <;> by_cases hm : j ∈ r <;>
      simp_all [List.filter_filter, Bool.and_self]

/-! ## Contexts -/

/-- What CTX_OPEN sets of its context and of its core. -/
theorem State.openedCtx_spec {port core : Nat} {r : Ctx} : let t := ((s.setCtx x r).setFs
      [(Csr.ctxState_PORT x, port), (Csr.ctxState_PRC x, core), (Csr.ctxState_STATE x, 1)]).addF (Csr.prcCoreStatus_CTXS core) 1
    t.ctxSt x = 1 ∧ t.getF (Csr.ctxState_PORT x) = port % 2 ^ (Csr.ctxState_PORT x).len ∧
    t.getF (Csr.ctxState_PRC x) = core % 2 ^ (Csr.ctxState_PRC x).len ∧
    t.getF (Csr.prcCoreStatus_CTXS core) = min (s.getF (Csr.prcCoreStatus_CTXS core) + 1) (2 ^ (Csr.prcCoreStatus_CTXS core).len - 1) ∧
    t.ctx x = r ∧ t.mem = s.mem ∧
    (∀ g : Fld, g.fits = true → (Csr.ctxState_PORT x).apart g = true → (Csr.ctxState_PRC x).apart g = true →
      (Csr.ctxState_STATE x).apart g = true → (Csr.prcCoreStatus_CTXS core).apart g = true → t.getF g = s.getF g) := by
  have far : ∀ {lo len : Nat}, (Csr.prcCoreStatus_CTXS core).apart ⟨Csr.ctxState x, lo, len⟩ = true ∧
      (⟨Csr.ctxState x, lo, len⟩ : Fld).apart (Csr.prcCoreStatus_CTXS core) = true := by
    intro lo len
    have hx := x.isLt
    constructor <;> exact Fld.apart_of_addr (by simp only [Csr.prcCoreStatus_CTXS, Csr.prcCoreStatus, Csr.ctxState]; omega)
  have field {g : Fld} {v : Nat} (hm : (g, v) ∈ _) := State.getF_setFs_mem (s := s.setCtx x r)
    (l := [(Csr.ctxState_PORT x, port), (Csr.ctxState_PRC x, core), (Csr.ctxState_STATE x, 1)]) (g := g) (v := v)
    (by simp [Fld.fits, Csr.ctxState_PORT, Csr.ctxState_PRC, Csr.ctxState_STATE])
    (by simp [Fld.apart, Csr.ctxState_PORT, Csr.ctxState_PRC, Csr.ctxState_STATE]) hm
  have kept {g : Fld} (h1 : (Csr.ctxState_PORT x).apart g = true) (h2 : (Csr.ctxState_PRC x).apart g = true)
      (h3 : (Csr.ctxState_STATE x).apart g = true) : ((s.setCtx x r).setFs
        [(Csr.ctxState_PORT x, port), (Csr.ctxState_PRC x, core), (Csr.ctxState_STATE x, 1)]).getF g = s.getF g := by
    rw [State.getF_setFs_apart, State.setCtx_getF]
    simp only [List.forall_mem_cons]
    exact ⟨⟨rfl, h1⟩, ⟨rfl, h2⟩, ⟨rfl, h3⟩, nofun⟩
  dsimp only
  refine ⟨?_, ?_, ?_, ?_, ?_, ?_, fun g _ h1 h2 h3 h4 => ?_⟩
  · exact (State.getF_addF_apart rfl far.1).trans ((field (g := Csr.ctxState_STATE x) (v := 1) (by simp)).trans rfl)
  · exact (State.getF_addF_apart rfl far.1).trans (field (g := Csr.ctxState_PORT x) (by simp))
  · exact (State.getF_addF_apart rfl far.1).trans (field (g := Csr.ctxState_PRC x) (by simp))
  · rw [State.getF_addF_same rfl, kept far.2 far.2 far.2]
  · rw [State.addF_ctx, State.setFs_ctx, State.ctx_setCtx, if_pos rfl]
  · rw [State.addF_mem, State.setFs_mem, State.setCtx_mem]
  · rw [State.getF_addF_apart rfl h4, kept h1 h2 h3]

theorem State.moveCore_rest {i : Nat} : (s.moveCore x i).cls = s.cls ∧ (s.moveCore x i).mem = s.mem ∧
    (s.moveCore x i).groups = s.groups ∧ (s.moveCore x i).ctxs = s.ctxs := by
  unfold State.moveCore
  simp only [State.addF_cls, State.setF_cls, State.subF_cls, State.addF_mem, State.setF_mem, State.subF_mem, State.addF_groups,
    State.setF_groups, State.subF_groups, State.addF_ctxs, State.setF_ctxs, State.subF_ctxs, and_self]

/-- The lessons of a context leave every classroom that a mask does not name. -/
theorem State.unbound_rest {m : Nat} :
    let t := (List.range 64).foldl (fun t k => if bitOf m k then t else t.freeLessons k (fun l => decide (l.ctx = x.val))) s
    (∀ k, (t.room k).resident = if k < 64 ∧ bitOf m k = false then (s.room k).resident.filter (fun l => !decide (l.ctx = x.val))
      else (s.room k).resident) ∧ t.mem = s.mem ∧ t.groups = s.groups ∧ t.ctxs = s.ctxs := by
  have h := State.foldl_resident (s := s) (l := List.range 64) (b := fun k => !bitOf m k)
    (keep := fun l => !decide (l.ctx = x.val))
    (f := fun t k => if bitOf m k then t else t.freeLessons k (fun l => decide (l.ctx = x.val)))
    (fun t k j => by
      cases hb : bitOf m k
      · simp only [Bool.false_eq_true, if_false, State.freeLessons_room, Bool.not_false, and_true]
        split
        next e => rw [e]
        · rfl
      · simp only [if_true, Bool.not_true, Bool.false_eq_true, and_false, if_false])
    (fun t k => by
      split
      · exact ⟨rfl, rfl, rfl⟩
      · exact State.freeLessons_rest)
  simpa only [List.mem_range, Bool.not_eq_true'] using h

/-- The lessons of a context leave every classroom. -/
theorem State.allFreed_rest :
    let t := (List.range 64).foldl (fun t k => t.freeLessons k (fun l => decide (l.ctx = x.val))) s
    (∀ k, k < 64 → (t.room k).resident = (s.room k).resident.filter (fun l => !decide (l.ctx = x.val))) ∧
      t.mem = s.mem ∧ t.groups = s.groups := by
  obtain ⟨room, mem, groups, -⟩ := State.foldl_resident (s := s) (l := List.range 64) (b := fun _ => true)
    (keep := fun l => !decide (l.ctx = x.val)) (f := fun t k => t.freeLessons k (fun l => decide (l.ctx = x.val)))
    (fun t k j => by
      rw [State.freeLessons_room]
      by_cases e : j = k
      · simp [e]
      · simp [e])
    (fun t k => State.freeLessons_rest)
  exact ⟨fun k hk => by rw [room, if_pos ⟨List.mem_range.mpr hk, rfl⟩], mem, groups⟩

/-- Settles O17: each of the three commands is carried out as its rule writes it, and its parts are read off. -/
theorem contextsOpenBindAndClose : Obligations.ContextsOpenBindAndClose := by
  refine ⟨fun s x c h => ?_, fun s x c h => ?_, fun s x c h => ?_⟩
  · intro prc core port s1
    obtain ⟨st, po, pr, ctxs, ctx, mem, rest⟩ := State.openedCtx_spec (s := s) (x := x) (port := port) (core := core)
      (r := { s.ctx x with bound := 0, launch := none, lastMask := 0 })
    refine ⟨?_, st, po, pr, ctxs, congrArg Ctx.bound ctx, congrArg Ctx.launch ctx, mem, rest⟩
    change execCtxOpen x s = _
    unfold execCtxOpen
    rw [h]
  · intro m prc s0 s1 s2
    obtain ⟨room, mem, groups, ctxs⟩ := State.unbound_rest (s := s) (x := x) (m := m)
    have moved : s2.cls = s0.cls ∧ s2.mem = s0.mem ∧ s2.groups = s0.groups ∧ s2.ctxs = s1.ctxs := by
      simp only [s2]
      split
      · exact ⟨rfl, rfl, rfl, rfl⟩
      · exact State.moveCore_rest
    obtain ⟨hc, hm, hg, hx⟩ := moved
    refine ⟨?_, fun k => ?_, ?_, hm.trans mem, hg.trans groups⟩
    · change execCtxBind x s = _
      unfold execCtxBind
      rw [h]
      rfl
    · unfold State.room at room ⊢
      rw [hc]
      exact room k
    · have ctx : s2.ctx x = s1.ctx x := by unfold State.ctx; rw [hx]
      rw [ctx, State.ctx_setCtx, if_pos rfl]
  · intro s0 s1 s2 s3
    obtain ⟨room, mem, groups⟩ := State.allFreed_rest (s := s) (x := x)
    refine ⟨fun k hk => (congrArg Classroom.resident (State.setCtx_room s0 x _ k)).trans (room k hk),
      (State.setCtx_groups s0 x _).trans groups, (State.setCtx_mem s0 x _).trans mem,
      fun hw => answers_of (t := (s3.setCtx x { s3.ctx x with bound := 0, launch := none, lastMask := 0 }).setCtxSt x 0) ?_
        ⟨rfl, ?_, ?_, ?_⟩, fun hw => ?_⟩
    · change execCtxClose x s = _
      unfold execCtxClose
      rw [h]
      exact if_neg (by rw [hw]; exact Bool.false_ne_true)
    · exact (State.getF_setF_same rfl).trans rfl
    · rw [State.setCtxSt, State.setF_ctx, State.ctx_setCtx, if_pos rfl]
    · rw [State.setCtxSt, State.setF_ctx, State.ctx_setCtx, if_pos rfl]
    · change execCtxClose x s = _
      unfold execCtxClose
      rw [h]
      exact if_pos hw

end Sys2Proof.Machine

/-! SUPPORT. Lessons loaded (R30, R31, R256) and launched (R33, R140, R257). -/

namespace Sys2Proof.Machine

variable {s t : State} {x : Fin 65536} {c : Cmd}

/-! ## LESSON_LOAD -/

/-- Marking tiles as accessed changes the tiles alone. -/
theorem State.touch_rest {p : Nat} {as : List Nat} : s.touch p as = { s with tiles := (s.touch p as).tiles } := by
  unfold State.touch
  induction as generalizing s with
  | nil => rfl
  | cons a r ih =>
    simp only [List.foldl_cons]
    split
    · rw [ih]
      rfl
    · exact ih

theorem State.touch_room {p j : Nat} {as : List Nat} : (s.touch p as).room j = s.room j := by
  unfold State.room
  rw [State.touch_rest]

theorem State.touch_ctx {p j : Nat} {as : List Nat} : (s.touch p as).ctx j = s.ctx j := by
  unfold State.ctx
  rw [State.touch_rest]

theorem State.touch_mem {p : Nat} {as : List Nat} : (s.touch p as).mem = s.mem := State.touch_same.2.2

theorem State.touch_getF {p : Nat} {as : List Nat} {g : Fld} : (s.touch p as).getF g = s.getF g := by
  unfold State.getF State.rd
  rw [State.touch_same.1]

theorem mem_setBits_lt {v n k : Nat} (h : k ∈ setBits v n) : k < n := List.mem_range.mp (List.mem_of_mem_filter h)

/-- The lessons that an image overlaps leave every classroom of a list. -/
theorem State.foldl_clearSegs {l : List Nat} {f n : Nat} : let t := l.foldl (fun t k => t.clearSegs k f n) s
    (∀ k, (t.room k).resident = if k ∈ l then (s.room k).resident.filter (fun r => !overlap f n r.firstSeg r.segs)
      else (s.room k).resident) ∧ t.mem = s.mem ∧ t.ctxs = s.ctxs := by
  obtain ⟨room, mem, -, ctxs⟩ := State.foldl_resident (s := s) (l := l) (b := fun _ => true)
    (keep := fun r => !overlap f n r.firstSeg r.segs) (f := fun t k => t.clearSegs k f n)
    (fun t k j => by
      rw [State.clearSegs_room]
      by_cases e : j = k
      · simp [e]
      · simp [e])
    (fun t k => State.clearSegs_rest)
  simp only [and_true] at room
  exact ⟨room, mem, ctxs⟩

theorem State.writeSlots_rest {k slot fuel : Nat} {bs : List Byte} :
    (s.writeSlots k slot bs fuel).cls = s.cls ∧ (s.writeSlots k slot bs fuel).mem = s.mem := by
  induction fuel generalizing s slot bs with
  | zero => exact ⟨rfl, rfl⟩
  | succ n ih =>
    cases bs with
    | nil => exact ⟨rfl, rfl⟩
    | cons b r =>
      unfold State.writeSlots
      exact ⟨ih.1.trans (State.wr_cls _ _ _), ih.2.trans (State.wr_mem _ _ _)⟩

/-- An image that may be written and read is written, and with a good CRC is resident. -/
theorem State.loadRoom_spec {p k : Nat} {img : List Byte}
    (hb : s.writeBarred x k (fieldAt c.bytes 0x18 4) (imageSegs c.count) = none) (hi : s.readImage p c = .ok img) :
    let f := fieldAt c.bytes 0x18 4
    let n := imageSegs c.count
    let kept := (s.room k).resident.filter (fun l => !overlap f n l.firstSeg l.segs)
    (s.loadRoom x p c k).2 = (if imageCrcOk img then none else some 0x0E) ∧ (s.loadRoom x p c k).1.mem = s.mem ∧
      ((s.loadRoom x p c k).1.room k).resident = (if imageCrcOk img then kept ++ [⟨x, f, n⟩] else kept) := by
  dsimp only
  have written {u : State} {as : List Nat} {img' : List Byte} {sl fu : Nat} :
      (((u.touch p as).writeSlots k sl img' fu).room k).resident = (u.room k).resident ∧
        ((u.touch p as).writeSlots k sl img' fu).mem = u.mem := by
    obtain ⟨cls, mem⟩ := State.writeSlots_rest (s := u.touch p as) (k := k) (slot := sl) (bs := img') (fuel := fu)
    refine ⟨?_, mem.trans State.touch_mem⟩
    unfold State.room
    rw [cls, State.touch_same.2.1]
  unfold State.loadRoom
  dsimp only
  rw [hb]
  dsimp only
  rw [hi]
  dsimp only
  by_cases hc : imageCrcOk img = true
  · simp only [hc, if_true]
    refine ⟨trivial, ?_, ?_⟩
    · rw [State.addLesson, State.setF_mem, State.setRoom_mem, written.2]
      exact State.clearSegs_rest.1
    · rw [State.addLesson, State.setF_room, State.room_setRoom, if_pos rfl]
      dsimp only
      rw [written.1, State.clearSegs_room, if_pos rfl]
  · simp only [hc, Bool.false_eq_true, if_false]
    exact ⟨trivial, written.2.trans State.clearSegs_rest.1, written.1.trans (by rw [State.clearSegs_room, if_pos rfl])⟩

/-- Settles O18: the checks decide how the load begins, and each classroom's write how it goes on. -/
theorem lessonsLoad : Obligations.LessonsLoad := by
  intro s x c p hp cs f
  refine ⟨fun n h hc => ?_, fun st k h hc => ?_, fun k ks h hk => ?_⟩
  · obtain ⟨room, mem, ctxs⟩ := State.foldl_clearSegs (s := s.touch p [fieldAt c.bytes 0x10 8]) (l := cs) (f := f)
      (n := imageSegs n)
    refine answers_of (show execLessonLoad x s = _ by unfold execLessonLoad; rw [h, hp]; dsimp only; rw [hc])
      ⟨?_, fun k => ?_, ?_⟩
    · rw [State.putCmd, State.setCtx_mem]
      exact mem.trans State.touch_mem
    · rw [State.putCmd, State.setCtx_room]
      exact (room k).trans (by rw [State.touch_room])
    · have ctx : (cs.foldl (fun t k => t.clearSegs k f (imageSegs n)) (s.touch p [fieldAt c.bytes 0x10 8])).ctx x = s.ctx x := by
        unfold State.ctx
        rw [ctxs, State.touch_rest]
      rw [State.putCmd, State.ctx_setCtx, if_pos rfl]
      dsimp only
      rw [ctx]
  · change execLessonLoad x s = _
    unfold execLessonLoad
    rw [h, hp]
    dsimp only
    rw [hc]
  · intro n t
    refine ⟨fun st hst => ?_, fun hst => ?_, fun img hb hi => State.loadRoom_spec hb hi⟩
    · have pair : s.loadRoom x p c k = (t, some st) := Prod.ext rfl hst
      change execLessonLoadDone x s = _
      unfold execLessonLoadDone
      rw [h, hp]
      dsimp only
      rw [hk]
      dsimp only
      rw [pair]
    · have pair : s.loadRoom x p c k = (t, none) := Prod.ext rfl hst
      change execLessonLoadDone x s = _
      unfold execLessonLoadDone
      rw [h, hp]
      dsimp only
      rw [hk]
      dsimp only
      rw [pair]
      dsimp only
      cases ks <;> simp

end Sys2Proof.Machine

/-! SUPPORT. LAUNCH (R257) and the start of a classroom (R33, R140). -/

namespace Sys2Proof.Machine

variable {s t : State} {x : Fin 65536} {c : Cmd}

theorem State.getF_wr_ne {a : Nat} {w : Word} {g : Fld} (h : g.addr ≠ a) : (s.wr a w).getF g = s.getF g := by
  unfold State.getF
  rw [State.rd_wr, if_neg h]

theorem State.rd_setFs_ne {l : List (Fld × Nat)} {a : Nat} (h : ∀ y ∈ l, a ≠ y.1.addr) : (s.setFs l).rd a = s.rd a := by
  induction l generalizing s with
  | nil => rfl
  | cons y r ih =>
    obtain ⟨hy, hr⟩ := List.forall_mem_cons.mp h
    exact (ih hr).trans (State.rd_setF_ne hy)

/-! ## LAUNCH -/

/-- What LAUNCH sets of one classroom. -/
def launchFields (x p f dva k : Nat) : List (Fld × Nat) :=
  [(Csr.clsStatus_STATE k, 1), (Csr.clsStatus_CTX k, x), (Csr.clsStatus_PART k, p), (Csr.clsLesson_FIRST_SEG k, f),
    (Csr.clsDtab_DVA k, dva)]

/-- Classroom `k` is STARTING for context `x` and partition `p`, at segment `f`. -/
def State.IsStarting (t : State) (x p f k : Nat) : Prop :=
  t.getF (Csr.clsStatus_STATE k) = 1 ∧ t.getF (Csr.clsStatus_CTX k) = x ∧ t.getF (Csr.clsStatus_PART k) = p ∧
    t.getF (Csr.clsLesson_FIRST_SEG k) = f % 64

theorem State.IsStarting.of_rd {x p f k : Nat} (h : s.IsStarting x p f k) (hs : t.rd (Csr.clsStatus k) = s.rd (Csr.clsStatus k))
    (hl : t.rd (Csr.clsLesson k) = s.rd (Csr.clsLesson k)) : t.IsStarting x p f k := by
  obtain ⟨st, cx, pt, fs⟩ := h
  exact ⟨(congrArg (wordGet · 0 3) hs).trans st, (congrArg (wordGet · 16 16) hs).trans cx,
    (congrArg (wordGet · 32 3) hs).trans pt, (congrArg (wordGet · 0 6) hl).trans fs⟩

theorem State.launchFields_spec {p f dva k : Nat} (hp : p < 8) :
    (s.setFs (launchFields x p f dva k)).IsStarting x p f k := by
  have field {g : Fld} {v : Nat} (hm : (g, v) ∈ launchFields x p f dva k) := State.getF_setFs_mem (s := s) (g := g) (v := v)
    (by simp [launchFields, Fld.fits, Csr.clsStatus_STATE, Csr.clsStatus_CTX, Csr.clsStatus_PART, Csr.clsLesson_FIRST_SEG,
      Csr.clsDtab_DVA])
    (by simp [launchFields, Fld.apart, Csr.clsStatus_STATE, Csr.clsStatus_CTX, Csr.clsStatus_PART, Csr.clsLesson_FIRST_SEG,
      Csr.clsDtab_DVA, Csr.clsStatus, Csr.clsLesson, Csr.clsDtab]) hm
  refine ⟨(field (v := 1) (by simp [launchFields])).trans rfl, (field (v := x.val) (by simp [launchFields])).trans ?_,
    (field (v := p) (by simp [launchFields])).trans ?_, field (by simp [launchFields])⟩
  · exact Nat.mod_eq_of_lt (show x.val < 65536 from x.isLt)
  · exact Nat.mod_eq_of_lt (show p < 8 from hp)

/-- The registers of another classroom stay. -/
theorem State.launchFields_other {p f dva j k a : Nat} (hj : j ≠ k) (ha : a = Csr.clsStatus j ∨ a = Csr.clsLesson j) :
    (s.setFs (launchFields x p f dva k)).rd a = s.rd a := by
  refine State.rd_setFs_ne ?_
  simp only [launchFields, List.forall_mem_cons, Csr.clsStatus_STATE, Csr.clsStatus_CTX, Csr.clsStatus_PART,
    Csr.clsLesson_FIRST_SEG, Csr.clsDtab_DVA, Csr.clsStatus, Csr.clsLesson, Csr.clsDtab] at ha ⊢
  refine ⟨?_, ?_, ?_, ?_, ?_, nofun⟩ <;> omega

theorem State.setFs_rest {l : List (Fld × Nat)} : s.setFs l = { s with csr := (s.setFs l).csr } := by
  induction l generalizing s with
  | nil => rfl
  | cons y r ih =>
    rw [State.setFs_cons, ih]
    rfl

/-- The classrooms of a list are launched, and no other. -/
theorem State.foldl_launch {p f : Nat} (hp : p < 8) {d : Nat → Nat} {l : List (Nat × Nat)} :
    let t := l.foldl (fun t y => t.setFs (launchFields x p f (d y.1) y.2)) s
    (∀ k ∈ l.map Prod.snd, t.IsStarting x p f k) ∧
    (∀ k, k ∉ l.map Prod.snd → t.rd (Csr.clsStatus k) = s.rd (Csr.clsStatus k) ∧ t.rd (Csr.clsLesson k) = s.rd (Csr.clsLesson k)) ∧
    t = { s with csr := t.csr } := by
  induction l generalizing s with
  | nil => exact ⟨nofun, fun k _ => ⟨rfl, rfl⟩, rfl⟩
  | cons y r ih =>
    have one := State.launchFields_spec (s := s) (x := x) (f := f) (dva := d y.1) (k := y.2) hp
    have other {k a : Nat} := State.launchFields_other (s := s) (x := x) (p := p) (f := f) (dva := d y.1) (k := y.2) (j := k) (a := a)
    have same := State.setFs_rest (s := s) (l := launchFields x p f (d y.1) y.2)
    rw [List.foldl_cons]
    generalize s.setFs (launchFields x p f (d y.1) y.2) = u at one other same ⊢
    obtain ⟨named, others, rest⟩ := ih (s := u)
    refine ⟨fun k hk => ?_, fun k hk => ?_, ?_⟩
    · by_cases hr : k ∈ r.map Prod.snd
      · exact named k hr
      · obtain rfl : k = y.2 := by simpa [hr] using hk
        exact one.of_rd (others _ hr).1 (others _ hr).2
    · obtain ⟨hne, hr⟩ : k ≠ y.2 ∧ k ∉ r.map Prod.snd := by simpa using hk
      exact ⟨(others k hr).1.trans (other hne (.inl rfl)), (others k hr).2.trans (other hne (.inr rfl))⟩
    · rw [rest, same]

theorem State.foldl_setBar {l : List Nat} {n : Nat} : let t := l.foldl (fun t b => t.setBar (n + b) Barrier.empty) s
    (∀ b, t.bar (n + b) = if b ∈ l then Barrier.empty else s.bar (n + b)) ∧ t.csr = s.csr ∧ t.mem = s.mem := by
  induction l generalizing s with
  | nil => exact ⟨fun b => by simp, rfl, rfl⟩
  | cons k r ih =>
    obtain ⟨bar, csr, mem⟩ := ih (s := s.setBar (n + k) Barrier.empty)
    refine ⟨fun b => ?_, csr.trans (State.setBar_csr _ _ _), mem.trans (State.setBar_mem _ _ _)⟩
    rw [List.foldl_cons, bar, State.bar_setBar]
    by_cases h : b = k
    · simp [h]
    · simp [h]

/-- The state of a LAUNCH's start before the context's own. -/
def State.launched (s : State) (x p : Nat) (c : Cmd) (cs : List Nat) (f : Nat) : State :=
  (List.range 16).foldl (fun t b => t.setBar (x * 16 + b) Barrier.empty)
    ((cs.mapIdx (fun i k => (i, k))).foldl (fun t y => t.setFs
      (launchFields x p f (fieldAt c.bytes 0x10 8 + y.1 * fieldAt c.bytes 0x18 4 * 8192) y.2)) s)

theorem execLaunch_eq {p : Nat} (h : s.freshCmd x 4 = some c) (hp : s.ctxPart x = some p)
    (hk : ∀ k ∈ setBits (clsMask c.bytes) 64, s.clsBusy k = false ∧ ((s.lessonAt k (fieldAt c.bytes 0x1C 4)).isSome = true →
      s.mbDecl k (fieldAt c.bytes 0x1C 4) ≤ 256)) :
    let u := (s.launched x p c (setBits (clsMask c.bytes) 64) (fieldAt c.bytes 0x1C 4)).unfresh x c
    execLaunch x s = .next ((u.setCtx x { u.ctx x with
      launch := some ⟨{ c with fresh := false }, clsMask c.bytes, 0, none, false⟩, lastMask := clsMask c.bytes }).setCtxSt x 3) := by
  have busy : (setBits (clsMask c.bytes) 64).find? (fun k => s.clsBusy k) = none :=
    List.find?_eq_none.mpr fun k hk' => by simp [(hk k hk').1]
  have large : (setBits (clsMask c.bytes) 64).find? (fun k => (s.lessonAt k (fieldAt c.bytes 0x1C 4)).isSome &&
      decide (256 < s.mbDecl k (fieldAt c.bytes 0x1C 4))) = none :=
    List.find?_eq_none.mpr fun k hk' => by simpa using (hk k hk').2
  unfold execLaunch
  rw [h, hp]
  dsimp only
  rw [busy]
  dsimp only
  rw [large]
  rfl

/-- What the classrooms show once LAUNCH has started them. -/
theorem State.launched_spec {p : Nat} (hp : p < 8) {cs : List Nat} {f : Nat} : let t := s.launched x p c cs f
    (∀ k ∈ cs, t.IsStarting x p f k) ∧ (∀ k, k ∉ cs → t.rd (Csr.clsStatus k) = s.rd (Csr.clsStatus k)) ∧
      (∀ b, b < 16 → t.bar (x.val * 16 + b) = Barrier.empty) ∧ t.mem = s.mem := by
  have started := State.foldl_launch (s := s) (x := x) (f := f) (l := cs.mapIdx (fun i k => (i, k)))
    (d := fun i => fieldAt c.bytes 0x10 8 + i * fieldAt c.bytes 0x18 4 * 8192) hp
  have snd : (cs.mapIdx (fun i k => (i, k))).map Prod.snd = cs := List.ext_getElem (by simp) fun i h1 h2 => by simp
  unfold State.launched
  dsimp only at started ⊢
  rw [snd] at started
  generalize (cs.mapIdx (fun i k => (i, k))).foldl _ s = u at started ⊢
  obtain ⟨named, others, rest⟩ := started
  obtain ⟨bar, csr, mem⟩ := State.foldl_setBar (s := u) (l := List.range 16) (n := x.val * 16)
  generalize (List.range 16).foldl (fun t b => t.setBar (x.val * 16 + b) Barrier.empty) u = v at bar csr mem ⊢
  have rd : ∀ a, v.rd a = u.rd a := fun a => by unfold State.rd; rw [csr]
  refine ⟨fun k hk => (named k hk).of_rd (rd _) (rd _), fun k hk => (rd _).trans (others k hk).1,
    fun b hb => (bar b).trans (if_pos (List.mem_range.mpr hb)), mem.trans ?_⟩
  rw [rest]

/-- A LAUNCH with nothing in its way starts its classrooms (R257). -/
theorem execLaunch_starts {p : Fin 8} (h : s.freshCmd x 4 = some c) (hp : s.ctxPart x = some p.val) :
    let cs := setBits (clsMask c.bytes) 64
    let f := fieldAt c.bytes 0x1C 4
    (∀ k ∈ cs, s.clsBusy k = false ∧ ((s.lessonAt k f).isSome = true → s.mbDecl k f ≤ 256)) →
    answers (.launch x) s (fun t => (∀ k ∈ cs, t.getF (Csr.clsStatus_STATE k) = 1 ∧ t.getF (Csr.clsStatus_CTX k) = x.val ∧
        t.getF (Csr.clsStatus_PART k) = p.val ∧ t.getF (Csr.clsLesson_FIRST_SEG k) = f % 64) ∧
      (∀ k, k < 64 → k ∉ cs → t.rd (Csr.clsStatus k) = s.rd (Csr.clsStatus k)) ∧ t.getF (Csr.ctxState_STATE x) = 3 ∧
      (t.ctx x).lastMask = clsMask c.bytes ∧ (∃ l, (t.ctx x).launch = some l ∧ l.mask = clsMask c.bytes ∧ l.faulted = 0) ∧
      (∀ b, b < 16 → t.bar (x.val * 16 + b) = Barrier.empty) ∧ t.mem = s.mem) := by
  intro cs f hk
  have run := execLaunch_eq h hp hk
  obtain ⟨named, others, bar, mem⟩ := State.launched_spec (s := s) (x := x) (c := c) (cs := cs) (f := f) p.isLt
  simp only [State.unfresh] at run
  generalize s.launched x p c cs f = u at run named others bar mem
  have rd : ∀ k, k < 64 → ∀ a, a = Csr.clsStatus k ∨ a = Csr.clsLesson k → ∀ r r' : Ctx,
      (((u.setCtx x r).setCtx x r').setCtxSt x 3).rd a = u.rd a := fun k hk a ha r r' => by
    have ne : a ≠ (Csr.ctxState_STATE x).addr := by
      have := x.isLt
      simp only [Csr.clsStatus, Csr.clsLesson] at ha
      simp only [Csr.ctxState_STATE, Csr.ctxState]
      omega
    rw [State.setCtxSt, State.rd_setF_ne ne, State.setCtx_rd, State.setCtx_rd]
  refine answers_of run ⟨fun k hk' => ?_, fun k hk' hn => ?_, State.getF_setF_same rfl, ?_, ?_, fun b hb => ?_, ?_⟩
  · have lt := mem_setBits_lt hk'
    exact (named k hk').of_rd (rd k lt _ (.inl rfl) _ _) (rd k lt _ (.inr rfl) _ _)
  · exact (rd k hk' _ (.inl rfl) _ _).trans (others k hn)
  · rw [State.setCtxSt, State.setF_ctx, State.ctx_setCtx, if_pos rfl]
  · rw [State.setCtxSt, State.setF_ctx, State.ctx_setCtx, if_pos rfl]
    exact ⟨_, rfl, rfl, rfl⟩
  · rw [State.setCtxSt, State.setF_bar, State.setCtx_bar, State.setCtx_bar]
    exact bar b hb
  · rw [State.setCtxSt, State.setF_mem, State.setCtx_mem, State.setCtx_mem, mem]

/-! ## CLASSROOM_START -/

theorem State.launchFlags_status {k : Nat} : (s.launchFlags k).getF (Csr.clsStatus_STATE k) = s.getF (Csr.clsStatus_STATE k) := by
  have ne {a : Nat} (h : Csr.clsStatus k ≠ a) (u : State) (w : Word) :
      (u.wr a w).getF (Csr.clsStatus_STATE k) = u.getF (Csr.clsStatus_STATE k) := State.getF_wr_ne h
  unfold State.launchFlags
  rw [ne (by simp only [Csr.clsStatus, Csr.clsFault2]; omega), ne (by simp only [Csr.clsStatus, Csr.clsFault1]; omega),
    ne (by simp only [Csr.clsStatus, Csr.clsFault0]; omega), ne (by simp only [Csr.clsStatus, Csr.clsFlagPc]; omega),
    ne (by simp only [Csr.clsStatus, Csr.clsFlags]; omega), ne (by simp only [Csr.clsStatus, Csr.clsFlagsPrev]; omega)]

/-- The registers of a classroom that has started. -/
theorem State.startCls_spec {k f segs : Nat} {bs : List Byte} :
    (s.startCls k f segs bs).getF (Csr.clsStatus_STATE k) =
      (if (s.ctx (s.getF (Csr.clsStatus_CTX k))).started.any (fun d => decide (d.op = 5) && !d.fresh) then 3 else 2) ∧
    (s.startCls k f segs bs).getF (Csr.clsPc_PC k) = (f * 512 + 56) % 32768 ∧
    (s.startCls k f segs bs).getF (Csr.clsLesson_SEG_COUNT k) = segs % 2 ^ (Csr.clsLesson_SEG_COUNT k).len := by
  unfold State.startCls
  dsimp only
  generalize (s.ctx (s.getF (Csr.clsStatus_CTX k))).started.any (fun d => decide (d.op = 5) && !d.fresh) = halted
  have field {u : State} {n m v : Nat} {g : Fld} (hm : (g, v) ∈ _) := State.getF_setFs_mem (s := u)
    (l := [(Csr.clsLesson_SEG_COUNT k, segs), (Csr.clsLesson_INSN_COUNT k, n), (Csr.clsLesson_MB_DECL k, m),
      (Csr.clsPc_PC k, f * 512 + 56)]) (g := g) (v := v)
    (by simp [Fld.fits, Csr.clsLesson_SEG_COUNT, Csr.clsLesson_INSN_COUNT, Csr.clsLesson_MB_DECL, Csr.clsPc_PC])
    (by simp [Fld.apart, Csr.clsLesson_SEG_COUNT, Csr.clsLesson_INSN_COUNT, Csr.clsLesson_MB_DECL, Csr.clsPc_PC, Csr.clsLesson,
      Csr.clsPc]) hm
  refine ⟨?_, field (by simp), field (by simp)⟩
  rw [State.getF_setFs_apart, State.launchFlags_status, State.clearCls, State.getF_setF_same rfl]
  · cases halted <;> rfl
  · simp [Fld.fits, Fld.apart, Csr.clsLesson_SEG_COUNT, Csr.clsLesson_INSN_COUNT, Csr.clsLesson_MB_DECL, Csr.clsPc_PC,
      Csr.clsLesson, Csr.clsPc, Csr.clsStatus_STATE, Csr.clsStatus]

/-- Settles O19: LAUNCH, then the start of a classroom by what it finds. -/
theorem launchesStart : Obligations.LaunchesStart := by
  refine ⟨fun s x c p => execLaunch_starts, fun s c => ?_⟩
  intro f p halted hst hstop
  have go : ¬ (s.getF (Csr.clsStatus_STATE c) ≠ 1 ∨ (s.room c).stopping = true) := by simp [hst, hstop]
  refine ⟨fun l bs hl hmb hbs => ?_, fun hl => ?_, fun l e hl hmb he => ?_⟩
  · obtain ⟨state, pc, segs⟩ := State.startCls_spec (s := s.touch p [s.dtabOf c, s.dtabOf c + 8191]) (k := c) (f := f)
      (segs := l.segs) (bs := bs)
    rw [State.touch_getF, State.touch_ctx] at state
    refine answers_of (show execClassroomStart c s = _ by
      unfold execClassroomStart
      rw [if_neg go]
      dsimp only
      rw [hl, Option.filter_some, if_pos (decide_eq_true hmb)]
      dsimp only
      rw [hbs]) ⟨rfl, state, pc, segs⟩
  · change execClassroomStart c s = _
    unfold execClassroomStart
    rw [if_neg go]
    dsimp only
    rw [hl]
    rfl
  · change execClassroomStart c s = _
    unfold execClassroomStart
    rw [if_neg go]
    dsimp only
    rw [hl, Option.filter_some, if_pos (decide_eq_true hmb)]
    dsimp only
    rw [he]

end Sys2Proof.Machine

/-! SUPPORT. The end of a LAUNCH, HALT, RESUME and DRAIN (R173, R257, R259, R260). -/

namespace Sys2Proof.Machine

variable {s : State} {x : Fin 65536} {c : Cmd} {l : Launch}

theorem execLaunchComplete_eq (h : (s.ctx x).launch = some l) (ha : allOf l.mask (s.stoppedFor x) = true) :
    execLaunchComplete x s = match l.first with
      | some (st, k, cause) => .next (s.afterLaunch x l st (k + 256 * cause) l.faulted)
      | none => .next (s.afterLaunch x l (if l.fence then 0x15 else 0) 0 0) := by
  unfold execLaunchComplete
  rw [h]
  exact if_pos ha

/-- The context of a command that is no longer fresh, in another state. -/
theorem State.unfresh_ctx {st : Nat} : ∃ r, ((s.unfresh x c).setCtxSt x st).ctx x = r ∧ r.launch = (s.ctx x).launch ∧
    r.lastMask = (s.ctx x).lastMask := by
  refine ⟨((s.unfresh x c).setCtxSt x st).ctx x, rfl, ?_⟩
  rw [State.setCtxSt, State.setF_ctx, State.unfresh, State.ctx_setCtx, if_pos rfl]
  exact ⟨rfl, rfl⟩

/-- A DRAIN is carried out by the state of its context (R260). -/
theorem execDrain_eq (h : s.freshCmd x 7 = some c) : execDrain x s = match s.ctxSt x with
    | 3 => .next (((s.unfresh x c).setCtxSt x 5).settleDrain x)
    | 4 => .next (((((s.unfresh x c).setCtxSt x 5).abandonLaunch x).settleHalt x).settleDrain x)
    | 6 => .next ((if (s.ctx x).launch.isNone then ((s.unfresh x c).setCtxSt x 5).idleStopped x (s.ctx x).lastMask
        else (s.unfresh x c).setCtxSt x 5).settleDrain x)
    | _ => .next ((s.unfresh x c).complete x c 0 0 0) := by
  unfold execDrain
  rw [h] <;> rfl

theorem execResume_eq (h : s.freshCmd x 6 = some c) (hl : (s.ctx x).launch = some l) : execResume x s =
    .next ((if decide (s.ctxSt x = 4) then ((s.heldBy x l.mask).foldl
        (fun t k => if decide (s.ctxSt x = 4) || (t.room k).quizHalt then t.resumeCls k else t) s).setCtxSt x 3
      else (s.heldBy x l.mask).foldl (fun t k => if decide (s.ctxSt x = 4) || (t.room k).quizHalt then t.resumeCls k else t) s).complete
        x c 0 0 0) := by
  unfold execResume
  rw [h, hl]

/-- Settles O20: the end of a LAUNCH by its first fault, and the three commands by the state of their context. -/
theorem launchesEnd : Obligations.LaunchesEnd := by
  refine ⟨fun s x l h ha => ⟨fun hf => ?_, fun st k cause hf => ?_⟩, fun s x c => ⟨fun h => ?halt, fun l h => ?_, fun h => ?_,
    fun l h hl h4 => ?all, fun l h hl h4 => ?some, fun h h3 => ?drain3, fun l h h4 hl => ?drain4, fun h h6 => ?drain6,
    fun h h12 => ?drain⟩⟩
  · exact (execLaunchComplete_eq h ha).trans (by rw [hf])
  · exact (execLaunchComplete_eq h ha).trans (by rw [hf])
  case halt =>
    change execHalt x s = _
    unfold execHalt
    rw [h]
  · unfold State.haltMask
    rw [h]
  · unfold State.haltMask
    rw [h]
  case all =>
    refine (execResume_eq h hl).trans ?_
    simp only [h4, decide_true, Bool.true_or, if_true]
  case some =>
    refine (execResume_eq h hl).trans ?_
    simp only [h4, decide_false, Bool.false_or, Bool.false_eq_true, if_false]
  case drain3 => exact (execDrain_eq h).trans (by simp only [h3])
  case drain4 =>
    refine (execDrain_eq h).trans ?_
    obtain ⟨r, hr, launch, mask⟩ := State.unfresh_ctx (s := s) (x := x) (c := c) (st := 5)
    simp only [h4, State.abandonLaunch, hr, launch, mask, hl]
  case drain6 =>
    refine (execDrain_eq h).trans ?_
    simp only [h6]
    cases hl : (s.ctx x).launch <;> rfl
  case drain =>
    refine (execDrain_eq h).trans ?_
    obtain h1 | h2 := h12
    · simp only [h1]
    · simp only [h2]

end Sys2Proof.Machine

/-! SUPPORT. The doorbells of the contexts, the MIG and the Prefect, and the bases of their rings (R205, R215, R244, R247, R339). -/

namespace Sys2Proof.Machine

variable {s : State}

/-- The low 16 bits of a full write are what a TAIL takes of it. -/
theorem State.merged_tail {a v : Nat} : s.merged v allBits ⟨a, 0, 16⟩ = v % 65536 := by
  rw [State.merged_full rfl, Nat.pow_zero, Nat.div_one, show (2 : Nat) ^ 16 = 65536 from rfl]

theorem migTailWrite_full {p v : Nat} : migTailWrite p s v allBits =
    if tailOk (2 ^ s.getF (Csr.migPartQBase_LOG2 p)) (s.getF (Csr.migPartQHead_HEAD p)) (s.getF (Csr.migPartQTail_TAIL p)) (v % 65536)
    then s.setF (Csr.migPartQTail_TAIL p) (v % 65536) else s.setF (Csr.migPartQHead_Q_ERR p) 1 := by
  unfold migTailWrite
  dsimp only
  rw [wroteF_full rfl (show (16 : Nat) ≠ 0 by decide), if_neg (Option.some_ne_none _), Csr.migPartQTail_TAIL, State.merged_tail]

theorem pftTailWrite_full {p v : Nat} : pftTailWrite p s v allBits =
    if tailOk (2 ^ s.getF (Csr.pftPartQBase_LOG2 p)) (s.getF (Csr.pftPartQHead_HEAD p)) (s.getF (Csr.pftPartQTail_TAIL p)) (v % 65536)
    then s.setF (Csr.pftPartQTail_TAIL p) (v % 65536) else s.setF (Csr.pftPartQHead_Q_ERR p) 1 := by
  unfold pftTailWrite
  dsimp only
  rw [wroteF_full rfl (show (16 : Nat) ≠ 0 by decide), if_neg (Option.some_ne_none _), Csr.pftPartQTail_TAIL, State.merged_tail]

/-- A field set to a value that it can hold reads it, and no other field changes. -/
theorem answers_setF {i : Instr} {f : Fld} {n : Nat} (h : exec i s = .next (s.setF f n)) (hf : f.fits = true)
    (hn : n < 2 ^ f.len) : answers i s (fun t => t.getF f = n ∧ s.OnlyFields t [f]) :=
  answers_of h ⟨(State.getF_setF_same hf).trans (Nat.mod_eq_of_lt hn), State.onlyFields_setF hf⟩

/-- The doorbell of a context, rung in full by a port that may ring it. -/
theorem sqTailWrite_full {k x v : Nat} (h : s.mayRing k x = true) : sqTailWrite k x s v allBits =
    if !tailOk (2 ^ s.getF (Csr.ctxSqBase_LOG2 x)) (s.getF (Csr.ctxSqHead_HEAD x)) (s.getF (Csr.ctxSqTail_TAIL x)) (v % 65536)
    then s.setF (Csr.ctxSqHead_Q_ERR x) 1
    else if v % 65536 = s.getF (Csr.ctxSqTail_TAIL x) then s
    else (s.setCtx x { s.ctx x with rings := (s.ctx x).rings.filter (fun y =>
        decide ((y.2.1 + 65536 - s.getF (Csr.ctxSqHead_HEAD x)) % 65536 ≠ 0)
          && decide ((y.2.1 + 65536 - s.getF (Csr.ctxSqHead_HEAD x)) % 65536 ≤ 2 ^ s.getF (Csr.ctxSqBase_LOG2 x)))
        ++ [(s.getF (Csr.ctxSqTail_TAIL x), v % 65536, k)] }).setF (Csr.ctxSqTail_TAIL x) (v % 65536) := by
  unfold sqTailWrite
  dsimp only
  rw [h, if_neg (show ¬ (!true) = true by decide), wroteF_full rfl (show (16 : Nat) ≠ 0 by decide),
    if_neg (Option.some_ne_none _), show s.merged v allBits (Csr.ctxSqTail_TAIL x) = v % 65536 from State.merged_tail]

/-- Settles O21: a doorbell is its ring's check and then one field, TAIL or Q_ERR; a base is stored while HEAD is TAIL. -/
theorem doorbellsAndBases : Obligations.DoorbellsAndBases := by
  refine ⟨fun s port x v => ?ctx, fun s port p v => ?tails, fun s port p cq v => ⟨?mig, ?pft⟩⟩
  case ctx =>
    intro f old new fits full ring
    have run : exec (.sqTailWrite port x .full v) s = .next (sqTailWrite port x s v.toNat allBits) :=
      congrArg _ (State.hostWrite_full full)
    refine ⟨fun hfit hne => answers_of (run.trans (congrArg _ (sqTailWrite_full ring))) ?_, fun hfit =>
      answers_setF (run.trans (congrArg _ ((sqTailWrite_full ring).trans (if_pos (congrArg not hfit))))) rfl (show 1 < 2 ^ 1 by decide)⟩
    rw [if_neg (by rw [Bool.not_eq_true]; exact congrArg not hfit), if_neg hne]
    refine ⟨(State.getF_setF_same rfl).trans (Nat.mod_eq_of_lt (Nat.mod_lt _ (by decide))), ?_, fun g hg ha => ?_, ?_⟩
    · rw [State.setF_ctx, State.ctx_setCtx, if_pos rfl]
      exact List.getLast?_concat
    · rw [State.getF_setF_apart rfl ha, State.setCtx_getF]
    · rw [State.setF_mem, State.setCtx_mem]
  case tails =>
    have value {a : Nat} : v.toNat % 65536 < 2 ^ (⟨a, 0, 16⟩ : Fld).len := Nat.mod_lt _ (by decide)
    have mig (full : s.FullPort port (Csr.migPartQTail p)) :
        exec (.migQTailWrite port p .full v) s = .next (migTailWrite p s v.toNat allBits) :=
      congrArg _ (State.hostWrite_full full)
    have pft (full : s.FullPort port (Csr.pftPartQTail p)) :
        exec (.pftQTailWrite port p .full v) s = .next (pftTailWrite p s v.toNat allBits) :=
      congrArg _ (State.hostWrite_full full)
    dsimp only
    rw [show 2 ^ (Csr.migPartQTail_TAIL p).len = 65536 from rfl, show 2 ^ (Csr.pftPartQTail_TAIL p).len = 65536 from rfl]
    refine ⟨fun full => ⟨fun ok => ?_, fun bad => ?_⟩, fun full => ⟨fun ok => ?_, fun bad => ?_⟩⟩
    · exact answers_setF ((mig full).trans (by rw [migTailWrite_full, if_pos ok])) rfl value
    · exact answers_setF ((mig full).trans (by rw [migTailWrite_full, if_neg (ne_true_of_eq_false bad)])) rfl (show 1 < 2 ^ 1 by decide)
    · exact answers_setF ((pft full).trans (by rw [pftTailWrite_full, if_pos ok])) rfl value
    · exact answers_setF ((pft full).trans (by rw [pftTailWrite_full, if_neg (ne_true_of_eq_false bad)])) rfl (show 1 < 2 ^ 1 by decide)
  case mig =>
    intro a full
    have run : exec (.ringBaseWrite port p false cq .full v) s = .next (migBaseWrite p cq s v.toNat allBits) :=
      congrArg _ (State.hostWrite_full full)
    exact ⟨fun e => run.trans (congrArg _ (if_neg (not_not_intro e))),
      fun e => answers_setF (run.trans (congrArg _ (if_pos e))) rfl (show 1 < 2 ^ 1 by decide)⟩
  case pft =>
    intro a full
    have run : exec (.ringBaseWrite port p true cq .full v) s = .next (pftBaseWrite p cq s v.toNat allBits) :=
      congrArg _ (State.hostWrite_full full)
    exact ⟨fun e => run.trans (congrArg _ (if_neg (not_not_intro e))),
      fun e => answers_setF (run.trans (congrArg _ (if_pos e))) rfl (show 1 < 2 ^ 1 by decide)⟩

end Sys2Proof.Machine

/-! SUPPORT. The reading of a context's commands (R248 to R251). -/

namespace Sys2Proof.Machine

variable {s : State} {x p : Nat} {b : List Byte}

/-- A context with an entry to read, capacity and a core reads its next command. -/
theorem execCommandRead_next {x : Fin 65536} (hp : s.ctxPart x = some p)
    (hi : s.getF (Csr.ctxSqHead_HEAD x) ≠ s.getF (Csr.ctxSqTail_TAIL x)) (hf : s.fatal = false) (hs : s.served x = true)
    (hc : s.capacity x = true) (hn : (s.ctx x).started.any (fun c => c.fresh) = false) :
    exec (.commandRead x) s = .next (s.readNext x p) := by
  change execCommandRead x s = _
  unfold execCommandRead
  rw [hp]
  dsimp only
  rw [hf, hs, hc, hn]
  exact if_neg (by simp [hi])

/-- A state in which the entry at HEAD is taken from the ring. -/
def State.headTaken (s : State) (x p : Nat) : State :=
  (s.touch p [s.cmdSlot x]).setF (Csr.ctxSqHead_HEAD x) (s.getF (Csr.ctxSqHead_HEAD x) + 1)

theorem State.headTaken_head : (s.headTaken x p).getF (Csr.ctxSqHead_HEAD x) = (s.getF (Csr.ctxSqHead_HEAD x) + 1) % 65536 :=
  State.getF_setF_same rfl

theorem State.headTaken_ctx : (s.headTaken x p).ctx x = s.ctx x := by
  rw [State.headTaken, State.setF_ctx, State.touch_ctx]

theorem State.headTaken_mem : (s.headTaken x p).mem = s.mem := by
  rw [State.headTaken, State.setF_mem, State.touch_mem]

theorem State.headTaken_getF {g : Fld} (h : (Csr.ctxSqHead_HEAD x).apart g = true) : (s.headTaken x p).getF g = s.getF g := by
  rw [State.headTaken, State.getF_setF_apart rfl h, State.touch_getF]

theorem ctxSqHead_apart_state {lo len : Nat} : (Csr.ctxSqHead_HEAD x).apart ⟨Csr.ctxState x, lo, len⟩ = true :=
  Fld.apart_of_addr (by simp only [Csr.ctxSqHead_HEAD, Csr.ctxSqHead, Csr.ctxState]; omega)

theorem State.headTaken_refused {n : Nat} :
    ((s.headTaken x p).addF (Csr.ctxState_REFUSED x) n).getF (Csr.ctxState_REFUSED x) =
      min (s.getF (Csr.ctxState_REFUSED x) + n) (2 ^ (Csr.ctxState_REFUSED x).len - 1) := by
  rw [State.getF_addF_same rfl, Csr.ctxState_REFUSED, State.headTaken_getF ctxSqHead_apart_state]

theorem State.readNext_error {e : AccErr} : s.readCmd x p = .error e → s.readNext x p =
    ((s.countHit e).setF (Csr.ctxSqHead_HEAD x) (s.getF (Csr.ctxSqHead_HEAD x) + 1)).writeCq x 0 (match e with
      | .access _ => 0x0D
      | .poison _ => 0x10) (s.ctxSt x) 0 (s.getF (Csr.ctxSqHead_HEAD x)) 0 0 false := by
  intro h
  unfold State.readNext
  dsimp only
  rw [h] <;> cases e <;> rfl

/-- A command that is read, and that either is not first in order or is not held back by what is started before it. -/
theorem State.readNext_ok (h : s.readCmd x p = .ok b) (hb : bitOf (fieldAt b 1 1) 0 = true → (s.ctx x).started = []) :
    s.readNext x p = match s.firstCheck x p b with
      | some (status, detail) => (if status = 0x0C then (s.headTaken x p).addF (Csr.ctxState_REFUSED x) 1 else s.headTaken x p).writeCq x
          (fieldAt b 4 4) status (s.ctxSt x) (fieldAt b 0 1) (s.getF (Csr.ctxSqHead_HEAD x)) detail 0 (bitOf (fieldAt b 1 1) 1)
      | none => ((s.headTaken x p).setCtx x { s.ctx x with started := (s.ctx x).started ++ [⟨s.getF (Csr.ctxSqHead_HEAD x),
          fieldAt b 0 1, fieldAt b 1 1, fieldAt b 4 4, s.ctxSt x, b, true, 0, 0⟩] }).setF (Csr.ctxState_OUTSTANDING x)
            ((s.ctx x).started.length + 1) := by
  unfold State.readNext
  simp only [h]
  rw [if_neg]
  · rfl
  · intro hand
    obtain ⟨first, held⟩ := (Bool.and_eq_true _ _).mp hand
    rw [hb first] at held
    exact Bool.noConfusion held

theorem length_of_capacity (h : s.capacity x = true) : (s.ctx x).started.length < 16 :=
  of_decide_eq_true ((Bool.and_eq_true _ _).mp h).1

/-- Settles O22: the entry is taken, and the first check decides between a start and a completion. -/
theorem commandsAreRead : Obligations.CommandsAreRead := by
  refine ⟨fun s x p => ?read, fun s x p b detail => ?refused⟩
  case' read =>
    intro i hp hi hf hs hc hn
    refine ⟨fun b hr hb => ⟨fun hk => ?started, fun status detail hk hne => ?failed⟩, fun e hr => ?unread⟩
  case started =>
    have run := execCommandRead_next hp hi hf hs hc hn
    rw [State.readNext_ok hr hb, hk] at run
    have kept (g : Fld) (ha : (Csr.ctxState_OUTSTANDING x).apart g = true) (hh : (Csr.ctxSqHead_HEAD x).apart g = true) :
        (((s.headTaken x p).setCtx x { s.ctx x with started := (s.ctx x).started ++ [⟨s.getF (Csr.ctxSqHead_HEAD x),
          fieldAt b 0 1, fieldAt b 1 1, fieldAt b 4 4, s.ctxSt x, b, true, 0, 0⟩] }).setF (Csr.ctxState_OUTSTANDING x)
            ((s.ctx x).started.length + 1)).getF g = s.getF g := by
      rw [State.getF_setF_apart rfl ha, State.setCtx_getF, State.headTaken_getF hh]
    refine answers_of run ⟨?_, ?_, ?_, kept (Csr.ctxState_STATE x) ?_ ctxSqHead_apart_state, ?_⟩
    · have apart : (Csr.ctxState_OUTSTANDING x).apart (Csr.ctxSqHead_HEAD x) = true :=
        Fld.apart_of_addr (by simp only [Csr.ctxSqHead_HEAD, Csr.ctxSqHead, Csr.ctxState_OUTSTANDING, Csr.ctxState]; omega)
      rw [State.getF_setF_apart rfl apart, State.setCtx_getF, State.headTaken_head]
    · rw [State.setF_ctx, State.ctx_setCtx, if_pos rfl]
    · have short := length_of_capacity hc
      exact (State.getF_setF_same rfl).trans (Nat.mod_eq_of_lt (Nat.lt_trans (Nat.succ_lt_succ short) (show 17 < 2 ^ 5 by decide)))
    · simp [Fld.apart, Csr.ctxState_OUTSTANDING, Csr.ctxState_STATE]
    · rw [State.setF_mem, State.setCtx_mem, State.headTaken_mem]
  case failed =>
    have run := execCommandRead_next hp hi hf hs hc hn
    rw [State.readNext_ok hr hb, hk] at run
    dsimp only at run
    rw [if_neg hne] at run
    exact ⟨run, State.headTaken_head, State.headTaken_ctx, State.headTaken_mem⟩
  case unread =>
    refine (execCommandRead_next hp hi hf hs hc hn).trans (congrArg _ ((State.readNext_error hr).trans ?_))
    cases e <;> rfl
  case refused =>
    intro i hp hi hf hs hc hn hr hb hk
    have run := execCommandRead_next hp hi hf hs hc hn
    rw [State.readNext_ok hr hb, hk] at run
    dsimp only at run
    rw [if_pos rfl] at run
    have apart : (Csr.ctxState_REFUSED x).apart (Csr.ctxState_STATE x) = true := by
      simp [Fld.apart, Csr.ctxState_REFUSED, Csr.ctxState_STATE]
    refine ⟨run, State.headTaken_refused, ?_, (State.setF_ctx _ _ _ _).trans State.headTaken_ctx,
      (State.setF_mem _ _ _).trans State.headTaken_mem⟩
    exact (State.getF_addF_apart rfl apart).trans (State.headTaken_getF ctxSqHead_apart_state)

end Sys2Proof.Machine

/-! SUPPORT. The owner of a context and its completion events (R246, R265). -/

namespace Sys2Proof.Machine

variable {s : State}

/-- Where a row of the table with one dimension has its copies. -/
theorem RegSpec.at?_one {r : RegSpec} {n st a : Nat} (hd : r.dims = [(n, st)]) : r.at? a =
    if r.base ≤ a ∧ (a - r.base) / st < n ∧ (a - r.base) % st = 0 then some [(a - r.base) / st] else none := by
  unfold RegSpec.at?
  rw [hd]
  unfold dimIndex dimIndex
  by_cases hb : r.base ≤ a <;> by_cases h : (a - r.base) / st < n <;> by_cases e : (a - r.base) % st = 0 <;> simp [hb, h, e]

theorem findReg_skip {r : RegSpec} {rs : List RegSpec} {n st a : Nat} (hd : r.dims = [(n, st)])
    (h : ¬ (r.base ≤ a ∧ (a - r.base) / st < n ∧ (a - r.base) % st = 0)) : findReg (r :: rs) a = findReg rs a := by
  rw [findReg, RegSpec.at?_one hd, if_neg h]

theorem findReg_hit {r : RegSpec} {rs : List RegSpec} {n st a : Nat} (hd : r.dims = [(n, st)])
    (h : r.base ≤ a ∧ (a - r.base) / st < n ∧ (a - r.base) % st = 0) :
    findReg (r :: rs) a = some (r, [(a - r.base) / st]) := by
  rw [findReg, RegSpec.at?_one hd, if_pos h]

theorem blockOf_skip {lo hi a : Nat} {rows : List RegSpec} {r : List (Nat × Nat × List RegSpec)} (h : ¬ (lo ≤ a ∧ a < hi)) :
    blockOf ((lo, hi, rows) :: r) a = blockOf r a := if_neg h

/-- CTX.STATE of every context has the fields that it has of the first. -/
theorem fieldsAt_ctxState {x : Nat} (h : x < 65536) : fieldsAt (Csr.ctxState x) = fieldsAt (Csr.ctxState 0) := by
  have block : blockOf blocks (Csr.ctxState x) = some rowsCtx := by
    unfold Csr.ctxState blocks
    iterate 7 rw [blockOf_skip (by omega)]
    exact if_pos (by omega)
  have row : findReg rowsCtx (Csr.ctxState x) = (findReg rowsCtx (Csr.ctxState 0)).map (fun r => (r.1, [x])) := by
    unfold Csr.ctxState rowsCtx
    iterate 6 rw [findReg_skip rfl (by dsimp only; omega)]
    rw [findReg_hit rfl (by dsimp only; omega)]
    simp [findReg, RegSpec.at?, dimIndex]
  unfold fieldsAt regAt
  rw [block]
  dsimp only
  rw [row]
  rfl

/-- A write of CTX.STATE that leaves PORT out keeps PORT. -/
theorem State.storeBut_port {x v : Nat} (h : x < 65536) :
    (s.storeBut (Csr.ctxState x) v allBits [Csr.ctxState_PORT x]).getF (Csr.ctxState_PORT x) = s.getF (Csr.ctxState_PORT x) := by
  refine State.getF_storeBut_keep (.inr ?_)
  have first : keepsField (Csr.ctxState 0) (butMask allBits [Csr.ctxState_PORT 0]) (Csr.ctxState_PORT 0) = true := by
    decide +kernel
  unfold keepsField at first ⊢
  rw [fieldsAt_ctxState h]
  exact first

/-- The write of CTX.STATE by a host that serves the context's partition. -/
theorem ctxStateWrite_serves {k x p v : Nat} (hp : s.ctxPart x = some p) (hs : s.serves k p = true) :
    ctxStateWrite k x s v allBits = if s.portUp (s.getF (Csr.ctxState_PORT x)) = true
      then s.storeBut (Csr.ctxState x) v allBits [Csr.ctxState_PORT x]
      else (s.storeBut (Csr.ctxState x) v allBits [Csr.ctxState_PORT x]).setF (Csr.ctxState_PORT x)
        (s.merged v allBits (Csr.ctxState_PORT x)) := by
  unfold ctxStateWrite
  dsimp only
  rw [hp, wroteF_full rfl (show (2 : Nat) ≠ 0 by decide)]
  simp only [hs, reduceCtorEq, decide_false, Bool.not_true, Bool.or_false, Bool.false_or]

theorem State.sendEvent_up {e : Event} (h : s.getF (Csr.hlStatus_STATE e.port) = 3) :
    s.sendEvent e = { s with events := s.events ++ [e] } := if_pos h

/-- Settles O23: the write of CTX.STATE takes PORT only from a partition's host and a port that is not UP. -/
theorem contextOwnersAndEvents : Obligations.ContextOwnersAndEvents := by
  refine ⟨fun s port x p v => ?adopt, fun s x st hf he ht h3 => ?timer⟩
  case adopt =>
    intro f full hp hs
    have run : exec (.contextAdopt port x .full v) s = .next (ctxStateWrite port x s v.toNat allBits) :=
      congrArg _ (State.hostWrite_full full)
    rw [ctxStateWrite_serves hp hs] at run
    refine ⟨fun down => answers_of (run.trans (congrArg _ (if_neg (ne_true_of_eq_false down)))) ?_,
      fun up => answers_of (run.trans (congrArg _ (if_pos up))) (State.storeBut_port x.isLt)⟩
    rw [State.getF_setF_same rfl, State.merged_full rfl, Nat.mod_mod]
  case timer =>
    have port : ((s.setCtx x { s.ctx x with evtCount := 0, evtFirst := none }).getF
        (Csr.hlStatus_STATE (s.getF (Csr.ctxState_PORT x)))) = 3 := (State.setCtx_getF (s := s) _ _ _).trans h3
    refine answers_of (t := s.cqEvent x st) ?_ ?_
    · change execCqEventTimer x s = _
      unfold execCqEventTimer
      rw [hf]
      exact if_pos (by simp [he, ht])
    · rw [State.cqEvent, State.sendEvent_up port]
      have ctx := State.ctx_setCtx (s := s) x { s.ctx x with evtCount := 0, evtFirst := none } x
      rw [if_pos rfl] at ctx
      exact ⟨rfl, congrArg Ctx.evtCount ctx, congrArg Ctx.evtFirst ctx, rfl, rfl⟩

end Sys2Proof.Machine

/-! SUPPORT. The ZHL ports and the limit on their events (R238, R239, R266). -/

namespace Sys2Proof.Machine

variable {s t : State} {k st w l : Nat}

theorem State.OnlyFields.mono {fs gs : List Fld} (h : s.OnlyFields t fs) (sub : fs ⊆ gs) : s.OnlyFields t gs :=
  ⟨h.rest, fun g hg hd => h.apart g hg (fun f hf => hd f (sub hf))⟩

theorem State.onlyFields_setFs {fs : List (Fld × Nat)} (h : ∀ x ∈ fs, x.1.fits = true) : s.OnlyFields (s.setFs fs) (fs.map Prod.fst) :=
  ⟨State.setFs_rest, fun _ _ hd =>
    State.getF_setFs_apart fun x hx => ⟨h x hx, hd x.1 (List.mem_map_of_mem hx)⟩⟩

/-- The three fields of HL.STATUS that a change of state writes. -/
def hlSets (k st w l : Nat) : List (Fld × Nat) := [(Csr.hlStatus_STATE k, st), (Csr.hlStatus_WIDTH k, w), (Csr.hlStatus_LANE_OK k, l)]

theorem State.setHl_below (h : st ≠ 3) : s.setHl k st w l = s.setFs (hlSets k st w l) := if_neg h

theorem State.setHl_up : s.setHl k 3 w l =
    (s.setFs (hlSets k 3 w l)).setF Csr.clkSerdes_ZHL_LOCK (setBit (s.getF Csr.clkSerdes_ZHL_LOCK) k) := by
  unfold State.setHl
  exact if_pos rfl

theorem hlSets_fit : ∀ x ∈ hlSets k st w l, x.1.fits = true := by
  simp [hlSets, Fld.fits, Csr.hlStatus_STATE, Csr.hlStatus_WIDTH, Csr.hlStatus_LANE_OK]

theorem State.getF_setHl {g : Fld} {v : Nat} (h : (g, v) ∈ hlSets k st w l) : (s.setHl k st w l).getF g = v % 2 ^ g.len := by
  have sets : (s.setFs (hlSets k st w l)).getF g = v % 2 ^ g.len := State.getF_setFs_mem hlSets_fit
    (by simp [hlSets, Fld.apart, Csr.hlStatus_STATE, Csr.hlStatus_WIDTH, Csr.hlStatus_LANE_OK]) h
  by_cases e : st = 3
  · subst e
    have addr : g.addr = Csr.hlStatus k := by
      simp only [hlSets, List.mem_cons, Prod.mk.injEq, List.not_mem_nil, or_false] at h
      obtain ⟨rfl, -⟩ | ⟨rfl, -⟩ | ⟨rfl, -⟩ := h <;> rfl
    rw [State.setHl_up, State.getF_setF_apart rfl (Fld.apart_of_addr ?_), sets]
    simp only [addr, Csr.clkSerdes_ZHL_LOCK, Csr.clkSerdes, Csr.hlStatus]
    omega
  · rw [State.setHl_below e, sets]

theorem State.hlState_setHl (h : st < 4) : (s.setHl k st w l).hlState k = st :=
  (State.getF_setHl (g := Csr.hlStatus_STATE k) (by simp [hlSets])).trans (Nat.mod_eq_of_lt h)

theorem State.width_setHl (h : w < 16) : (s.setHl k st w l).getF (Csr.hlStatus_WIDTH k) = w :=
  (State.getF_setHl (by simp [hlSets])).trans (Nat.mod_eq_of_lt h)

theorem State.lanes_setHl (h : l < 256) : (s.setHl k st w l).getF (Csr.hlStatus_LANE_OK k) = l :=
  (State.getF_setHl (by simp [hlSets])).trans (Nat.mod_eq_of_lt h)

theorem State.setHl_rest : s.setHl k st w l = { s with csr := (s.setHl k st w l).csr } := by
  by_cases e : st = 3
  · subst e
    rw [State.setHl_up, State.setFs_rest]
    rfl
  · rw [State.setHl_below e, State.setFs_rest]

theorem State.setHl_mem : (s.setHl k st w l).mem = s.mem := by rw [State.setHl_rest]

theorem State.setHl_events : (s.setHl k st w l).events = s.events := by rw [State.setHl_rest]

theorem State.linkT_of_rest (h : t = { s with csr := t.csr }) {j : Nat} : t.linkT j = s.linkT j := by rw [h]; rfl

theorem State.linkChange_recent {src : Nat} (h : (s.linkT src).recent = true) : s.linkChange src = s.setLinkT src ⟨true, true⟩ :=
  if_pos h

/-- The detection of a signal on four lanes or more. -/
theorem execZhlSignalDetect_train {k : Fin 4} {lanes : BitVec 8} (hv : s.noVaux = false) (hd : s.hlState k = 1)
    (hl : 4 ≤ (setBits lanes.toNat 8).length) :
    exec (.zhlSignalDetect k lanes) s = .next ((s.setF (Csr.hlStatus_CABLE k) 1).setHl k 2 0 0) := by
  have some : lanes ≠ 0 := by
    rintro rfl
    revert hl
    decide
  change execZhlSignalDetect k lanes s = _
  unfold execZhlSignalDetect
  rw [if_neg (by simp [hv, hd])]
  dsimp only
  rw [if_pos hl, decide_eq_true some]
  rfl

theorem execZhlTrained_full {k : Fin 4} {lanes : BitVec 8} (hv : s.noVaux = false) (hd : s.hlState k = 2) (hl : lanes = 255) :
    exec (.zhlTrained k lanes) s = .next ((s.setHl k 3 8 255).linkChange (zhlSource k)) := by
  subst hl
  change execZhlTrained k 255 s = _
  unfold execZhlTrained
  dsimp only
  rw [if_neg (by simp [hv, hd])]
  exact if_pos rfl

theorem zhlCtrlWrite_full {v : Nat} : zhlCtrlWrite k s v allBits =
    (s.store (Csr.hlCtrl k) v allBits).zhlSetEn k ((s.store (Csr.hlCtrl k) v allBits).flag (Csr.hlCtrl_EN k)) := by
  unfold zhlCtrlWrite
  dsimp only
  rw [wroteF_full rfl (show (1 : Nat) ≠ 0 by decide), if_neg (Option.some_ne_none _)]

theorem State.sendLink_up {src : Nat} (h : s.getF (Csr.hlStatus_STATE s.mgmtPort) = 3) : s.sendLink src =
    { s with events := s.events ++ [⟨s.mgmtPort, 5, (s.portNow src).2, src, 0, (s.portNow src).1⟩] } := if_pos h

/-- Settles O24: each event in the state that its rule names is the change of state that the model gives it. -/
theorem hostLinks : Obligations.HostLinks := by
  refine ⟨fun s k port lanes fec retries v => ⟨fun hv hd hl => ?signal, fun hv hd hl hr => ?trained, fun hv hd hl => ?full,
    fun hv hd hne hl hx => ?narrow, fun hd => ?timeout, fun hd => ?loss, fun owner => ?enable⟩, fun s port => ?timer⟩
  case signal =>
    have only : (s.setF (Csr.hlStatus_CABLE k) 1).OnlyFields ((s.setF (Csr.hlStatus_CABLE k) 1).setHl k 2 0 0) _ :=
      State.setHl_below (show 2 ≠ 3 by decide) ▸ State.onlyFields_setFs hlSets_fit
    refine answers_of (execZhlSignalDetect_train hv hd hl) ⟨State.hlState_setHl (by decide), ?_, State.width_setHl (by decide),
      ((State.onlyFields_setF rfl).trans only).mono (by simp [hlSets])⟩
    rw [only.apart _ rfl (by simp [hlSets, Fld.apart, Csr.hlStatus_STATE, Csr.hlStatus_WIDTH, Csr.hlStatus_LANE_OK, Csr.hlStatus_CABLE])]
    exact State.getF_setF_same rfl
  case trained =>
    have recent : ((s.setHl k 3 8 255).linkT (zhlSource k)).recent = true := by rw [State.linkT_of_rest State.setHl_rest, hr]
    have run := execZhlTrained_full hv hd hl
    rw [State.linkChange_recent recent] at run
    refine answers_of run ⟨?_, ?_, ?_, ?_, ?_, ?_⟩
    · rw [State.hlState, State.setLinkT_getF]
      exact State.hlState_setHl (by decide)
    · rw [State.setLinkT_getF]
      exact State.width_setHl (by decide)
    · rw [State.setLinkT_getF]
      exact State.lanes_setHl (by decide)
    · rw [State.setLinkT_mem, State.setHl_mem]
    · rw [State.linkT_setLinkT, if_pos rfl]
    · rw [State.setLinkT_events, State.setHl_events]
  case full => exact execZhlTrained_full hv hd hl
  case narrow =>
    have some : ¬ lanes.toNat = 255 := fun e => hne (BitVec.eq_of_toNat_eq e)
    change execZhlTrained k lanes s = _
    unfold execZhlTrained
    dsimp only
    rw [if_neg (by simp [hv, hd]), if_neg some, if_pos ⟨hx, hl⟩]
  case timeout =>
    refine answers_of (if_pos hd) ⟨State.hlState_setHl (by decide), ?_⟩
    exact State.setHl_below (show 1 ≠ 3 by decide) ▸ State.onlyFields_setFs hlSets_fit
  case loss => exact if_pos hd
  case enable =>
    intro t
    have run : exec (.zhlEnable port k .full v) s = .next (t.zhlSetEn k (t.flag (Csr.hlCtrl_EN k))) :=
      congrArg _ ((State.hostWrite_owner owner).trans zhlCtrlWrite_full)
    rw [run]
    unfold State.zhlSetEn
    refine ⟨fun he h0 => ?_, fun he h0 => ?_, fun he h3 => ?_, fun he h3 => ?_⟩
    · rw [he, if_pos rfl, if_pos h0]
    · rw [he, if_pos rfl, if_neg h0]
    · rw [he, if_neg Bool.false_ne_true, if_pos h3]
    · rw [he, if_neg Bool.false_ne_true, if_neg h3]
  case timer =>
    intro src
    refine ⟨fun hw h3 => ?_, fun hw => ?_⟩
    · refine answers_of (t := (s.sendLink src).setLinkT src ⟨true, false⟩) (if_pos hw) ?_
      rw [State.sendLink_up h3]
      refine ⟨rfl, ?_, rfl, rfl⟩
      rw [State.linkT_setLinkT, if_pos rfl]
    · refine answers_of (t := s.setLinkT src RingTimer.quiet) (if_neg (ne_true_of_eq_false hw)) ⟨?_, rfl, rfl, rfl⟩
      rw [State.linkT_setLinkT, if_pos rfl]

end Sys2Proof.Machine

/-! SUPPORT. Host accesses to memory and to registers (R8, R10, R236, R237, R239, R242). -/

namespace Sys2Proof.Machine

variable {s t : State} {p k a : Nat} {w : AccWidth}

theorem State.writeAll_same {ws : List (Nat × Byte)} : (s.writeAll p ws).held = s.held ∧ (s.writeAll p ws).replies = s.replies := by
  unfold State.writeAll
  induction ws generalizing s with
  | nil => exact ⟨rfl, rfl⟩
  | cons w r ih =>
    obtain ⟨-, held, replies⟩ := State.writeByte_same (s := s) (p := p) (a := w.1) (b := w.2)
    exact ⟨ih.1.trans held, ih.2.trans replies⟩

/-- A host's write whose bytes may all be written and land at once. -/
theorem State.memWrite_lands {port : Fin 4} {p : Fin 8} {data : List Byte} (hw : s.portWaits port = false)
    (hb : s.booted = true) (hf : s.memForbidden port p a = false) (hwr : s.writableAll p (bytesAt a data) = .ok ())
    (hfree : ∀ w ∈ bytesAt a data, s.writeWaits p w.1 = false) :
    ∃ u : State, s.StallsCounted u p ∧ s.memWrite port p a data = (u.writeAll p (bytesAt a data)).reply port .ok [] := by
  obtain ⟨u, hu, counted⟩ := State.writeFrom_lands (s := s) (p := p) (src := .port port) (ws := bytesAt a data)
    (by simpa using hfree) p.isLt
  refine ⟨u, counted, ?_⟩
  have idle : (u.writeAll p (bytesAt a data)).portWaits port = false := by
    unfold State.portWaits at hw ⊢
    rw [State.writeAll_same.1, counted.rest]
    exact hw
  unfold State.memWrite
  dsimp only
  rw [hb, hf, hwr]
  simp only [hu, idle, Bool.not_true, Bool.false_eq_true, if_false]

theorem State.memRead_bytes {n : Nat} {bs : List Byte} (hb : s.booted = true) (hf : s.memForbidden k p a = false)
    (hr : s.readBytes p a n = .ok bs) : s.memRead k p a n = (s.touch p [a]).reply k .ok bs := by
  unfold State.memRead
  rw [hb, hf, hr]
  rfl

/-- Settles O25: the access is carried out as it arrives, and a write lands in tiles that are as they were. -/
theorem hostAccessesReachMemory : Obligations.HostAccessesReachMemory := by
  refine ⟨fun s port p dva n bs hz hu hw hb hf hr => ?read, fun s port p dva data => ?write⟩
  case read =>
    refine answers_of ((exec_memRd_now hz hu hw).trans (congrArg _ (State.memRead_bytes hb hf hr))) ?_
    rw [State.touch_rest]
    exact ⟨rfl, rfl, rfl⟩
  case write =>
    intro ws hz hu hw hb hf hwr hfree
    obtain ⟨u, counted, write⟩ := State.memWrite_lands hw hb hf hwr hfree
    refine answers_of ((exec_memWr_now hz hu hw).trans (congrArg _ write)) ⟨?_, (counted.tables.writeAll ws).mem⟩
    change (u.writeAll p ws).replies ++ _ = _
    rw [State.writeAll_same.2, counted.rest]

/-! ## Registers -/

theorem State.hostWrite_down {v : Word} {act : State → Nat → Nat → State} (h : s.portUp k = false) :
    s.hostWrite k a w v act = s := by
  unfold State.hostWrite State.portServes
  rw [h]
  rfl

theorem hlAccDeny_apart : (Csr.hlAccDeny_LAST k).apart (Csr.hlAccDeny_COUNT k) = true := by
  simp [Fld.apart, Csr.hlAccDeny_LAST, Csr.hlAccDeny_COUNT]

theorem State.deny_onlyFields : s.OnlyFields (s.deny k a w) [Csr.hlAccDeny_COUNT k, Csr.hlAccDeny_LAST k] :=
  (State.onlyFields_addF rfl).trans (State.onlyFields_setF rfl)

theorem State.deny_count : (s.deny k a w).getF (Csr.hlAccDeny_COUNT k) =
    min (s.getF (Csr.hlAccDeny_COUNT k) + 1) (2 ^ (Csr.hlAccDeny_COUNT k).len - 1) := by
  rw [State.deny, State.getF_setF_apart rfl hlAccDeny_apart, State.getF_addF_same rfl]

/-- A read of a register that is no counter reads its fields and clears those that a read clears. -/
theorem State.readReg_plain {m : Nat} (h : ctrAt a = none) : s.readReg a m = s.fetch a m := by
  unfold State.readReg
  rw [h]

/-- Settles O29: a denied access is `deny`, and a plain register is its generic store and read. -/
theorem registerAccesses : Obligations.RegisterAccesses := by
  refine ⟨fun s port r w v => ⟨fun hu hd => ?denied, fun hu => ?down⟩, fun s port r v owner plain => ⟨?write, fun hc => ?read⟩⟩
  case denied =>
    exact answers_of (exec_cfgWr.trans (congrArg _ (State.hostWrite_denied hu hd)))
      ⟨State.deny_count, State.getF_setF_same rfl, State.deny_onlyFields⟩
  case down => exact exec_cfgWr.trans (congrArg _ (State.hostWrite_down hu))
  case write =>
    refine answers_of (exec_cfgWr.trans (congrArg _ ((State.hostWrite_owner owner).trans (plain _ _))))
      ⟨fun a ha => State.rd_store_ne ha, ?_, rfl⟩
    rw [State.store, State.rd_wr, if_pos rfl, BitVec.ofNat_toNat, BitVec.setWidth_eq]
  case read =>
    have run := exec_rcRead.trans (congrArg Host.Outcome.next (State.hostRead_owner owner (act := fun t m => t.readReg (regAddr r) m)))
    rw [State.readReg_plain hc] at run
    refine answers_of run ⟨fun a ha => ?_, ?_, rfl, rfl⟩
    · exact (State.rd_wr ..).trans (if_neg ha)
    · exact (State.rd_wr ..).trans (if_pos rfl)

end Sys2Proof.Machine

/-! SUPPORT. Writes of SYS.PART, MIG.PART.CFG and PFT.CTR (R209, R241, R338). -/

namespace Sys2Proof.Machine

variable {s : State} {p : Nat}

/-- SYS.PART[p].CFG as a write leaves it before EN is judged. -/
def State.partStored (s : State) (p v : Nat) : State :=
  if s.partOn p then s.storeBut (Csr.sysPartCfg p) v allBits
    [Csr.sysPartCfg_EN p, Csr.sysPartCfg_HOSTMASK p, Csr.sysPartCfg_EVT_PORT p]
  else s.storeBut (Csr.sysPartCfg p) v allBits [Csr.sysPartCfg_EN p]

theorem partCfgWrite_on {v : Nat} (h : wroteF v allBits (Csr.sysPartCfg_EN p) = some 1) : partCfgWrite p s v allBits =
    if (s.partStored p v).partOn p then s.partStored p v
    else if (s.partStored p v).mayEnable p then ((s.partStored p v).setF (Csr.sysPartCfg_EN p) 1).showPartition p
    else (s.partStored p v).setF (Csr.sysPartCfg_EN_ERR p) 1 := by
  unfold partCfgWrite
  simp only [h]
  rfl

theorem partCfgWrite_off {v : Nat} (h : wroteF v allBits (Csr.sysPartCfg_EN p) = some 0) : partCfgWrite p s v allBits =
    if !(s.partStored p v).partOn p then s.partStored p v
    else if (s.partStored p v).mayDisable p then
      (((s.partStored p v).planUnload p).setF (Csr.sysPartCfg_EN p) 0).showPartition p
    else (s.partStored p v).setF (Csr.sysPartCfg_EN_ERR p) 1 := by
  unfold partCfgWrite
  simp only [h]
  rfl

/-- A write of another mode. -/
theorem migCfgWrite_other {v : Nat} (h : s.merged v allBits (Csr.migPartCfg_MODE p) ≠ s.getF (Csr.migPartCfg_MODE p)) :
    migCfgWrite p s v allBits = if (s.objsOf p).isEmpty
      then (s.storeBut (Csr.migPartCfg p) v allBits [Csr.migPartCfg_MODE p]).setF (Csr.migPartCfg_MODE p)
        (s.merged v allBits (Csr.migPartCfg_MODE p))
      else (s.storeBut (Csr.migPartCfg p) v allBits [Csr.migPartCfg_MODE p]).setF (Csr.migPartCfg_MODE_IGN p) 1 := by
  unfold migCfgWrite
  dsimp only
  rw [wroteF_full rfl (show (1 : Nat) ≠ 0 by decide), if_neg (by simp [h])]
  rfl

/-- Settles O31: the write is stored but for the fields that are judged, and the judgement decides the rest. -/
theorem partitionsAndModes : Obligations.PartitionsAndModes := by
  refine ⟨fun s port p v => ?part, fun s port p v owner => ⟨?mode, fun n => congrArg _ (State.hostWrite_owner owner)⟩⟩
  case part =>
    intro s1 en owner
    have run : exec (.partitionEnable port p .full v) s = .next (partCfgWrite p s v.toNat allBits) :=
      congrArg _ (State.hostWrite_owner owner)
    rw [run]
    have stored : s.partStored p v.toNat = s1 := rfl
    refine ⟨fun he h0 hm => ?_, fun he h0 hm => ?_, fun he h1 hm => ?_, fun he h1 hm => ?_, fun he => ?_⟩
    · rw [partCfgWrite_on he, stored, h0, hm]
      rfl
    · rw [partCfgWrite_on he, stored, h0, hm]
      rfl
    · rw [partCfgWrite_off he, stored, h1, hm]
      rfl
    · rw [partCfgWrite_off he, stored, h1, hm]
      rfl
    · cases on : s1.partOn p <;> rw [on] at he
      · rw [partCfgWrite_off he, stored, on]
        rfl
      · rw [partCfgWrite_on he, stored, on]
        rfl
  case mode =>
    intro s1 hne
    have run : exec (.migModeWrite port p .full v) s = .next (migCfgWrite p s v.toNat allBits) :=
      congrArg _ (State.hostWrite_owner owner)
    rw [run, migCfgWrite_other hne]
    exact ⟨fun he => congrArg _ (if_pos (List.isEmpty_iff.mpr he)), fun he => congrArg _ (if_neg (by simp [he]))⟩

end Sys2Proof.Machine

/-! SUPPORT. Performance counters and samples (R402 to R406, R411 to R414). -/

namespace Sys2Proof.Machine

variable {s : State} {b u k n : Nat}

theorem bitOf_eq_testBit {v i : Nat} : bitOf v i = v.testBit i := by
  rw [bitOf, Nat.testBit_eq_decide_div_mod_eq]

theorem bitOf_setBit {v i : Nat} : bitOf (setBit v i) i = true := by
  unfold setBit
  split
  next h => exact h
  next h =>
    rw [bitOf_eq_testBit] at h ⊢
    rw [Nat.add_comm, Nat.testBit_two_pow_add_eq]
    simpa using h

theorem setBit_lt {v i m : Nat} (hv : v < 2 ^ m) (hi : i < m) : setBit v i < 2 ^ m := by
  unfold setBit
  split
  · exact hv
  next h =>
    have even : ¬ v / 2 ^ i % 2 = 1 := by simpa [bitOf] using h
    have split : 2 ^ m = 2 ^ i * (2 * 2 ^ (m - i - 1)) := by
      rw [← Nat.pow_succ', ← Nat.pow_add]
      congr 1
      omega
    have high : v / 2 ^ i < 2 * 2 ^ (m - i - 1) := Nat.div_lt_of_lt_mul (split ▸ hv)
    have next : (v + 2 ^ i) / 2 ^ i < 2 * 2 ^ (m - i - 1) := by
      rw [Nat.add_div_right _ (by positivity)]
      omega
    rw [split, Nat.mul_comm]
    exact (Nat.div_lt_iff_lt_mul (by positivity)).mp next

/-- The fields of a counter: its value and its bit of OVF. -/
structure CtrFields (b u k : Nat) : Prop where
  value : (ctrValue b u k).fits = true
  len : (ctrValue b u k).len = 48
  ovf : (ctrOvf b u).fits = true
  bit : k < (ctrOvf b u).len
  ovfValue : (ctrOvf b u).addr ≠ (ctrValue b u k).addr
  freezeOvf : Csr.pmuCtrl ≠ (ctrOvf b u).addr
  freezeValue : Csr.pmuCtrl ≠ (ctrValue b u k).addr

theorem ctrFields_of_exists (h : ctrExists b u k = true) : CtrFields b u k := by
  simp only [ctrExists, Bool.and_eq_true, decide_eq_true_eq] at h
  obtain ⟨⟨hb, hu⟩, hk⟩ := h
  match b, hb with
  | 0, _ =>
    have k16 : k < 16 := hk
    refine ⟨rfl, rfl, rfl, hk, ?_, ?_, ?_⟩ <;>
      simp only [ctrOvf, ctrValue, Csr.clsPmcOvf_OVF, Csr.clsPmc_VALUE, Csr.clsPmcOvf, Csr.clsPmc, Csr.pmuCtrl] <;> omega
  | 1, _ =>
    have k8 : k < 8 := hk
    refine ⟨rfl, rfl, rfl, k8.trans_le (show 8 ≤ 16 by decide), ?_, ?_, ?_⟩ <;>
      simp only [ctrOvf, ctrValue, Csr.niPmcOvf_OVF, Csr.niPmc_VALUE, Csr.niPmcOvf, Csr.niPmc, Csr.pmuCtrl] <;> omega
  | 2, _ =>
    have k8 : k < 8 := hk
    refine ⟨rfl, rfl, rfl, k8.trans_le (show 8 ≤ 16 by decide), ?_, ?_, ?_⟩ <;>
      simp only [ctrOvf, ctrValue, Csr.memPmcOvf_OVF, Csr.memPmc_VALUE, Csr.memPmcOvf, Csr.memPmc, Csr.pmuCtrl] <;> omega
  | 3, _ =>
    have k8 : k < 8 := hk
    refine ⟨rfl, rfl, rfl, hk, ?_, ?_, ?_⟩ <;>
      simp only [ctrOvf, ctrValue, Csr.pmuPartAggOvf_OVF, Csr.pmuPartAgg_VALUE, Csr.pmuPartAggOvf, Csr.pmuPartAgg, Csr.pmuCtrl] <;> omega

theorem State.setOvf_value (h : CtrFields b u k) : (s.setOvf b u k).getF (ctrValue b u k) = s.getF (ctrValue b u k) :=
  State.getF_setF_apart h.ovf (Fld.apart_of_addr h.ovfValue)

theorem State.setOvf_bit (h : CtrFields b u k) : bitOf ((s.setOvf b u k).getF (ctrOvf b u)) k = true := by
  rw [State.setOvf, State.getF_setF_same h.ovf, Nat.mod_eq_of_lt (setBit_lt State.getF_lt h.bit), bitOf_setBit]

/-- The freeze that an overflow may set leaves the counters. -/
theorem State.freeze_getF {g : Fld} (h : Csr.pmuCtrl ≠ g.addr) :
    (if s.flag Csr.pmuCtrl_FRZ_ON_OVF then s.setF Csr.pmuCtrl_FREEZE 1 else s).getF g = s.getF g := by
  split
  · exact State.getF_setF_apart rfl (Fld.apart_of_addr h)
  · rfl

theorem State.counted_value (h : CtrFields b u k) {v : Nat} : (s.setF (ctrValue b u k) v).getF (ctrValue b u k) = v % 2 ^ 48 := by
  rw [State.getF_setF_same h.value, h.len]

theorem State.counted_ovf (h : CtrFields b u k) {v : Nat} : (s.setF (ctrValue b u k) v).getF (ctrOvf b u) = s.getF (ctrOvf b u) :=
  State.getF_setF_apart h.value (Fld.apart_of_addr h.ovfValue.symm)

/-- Settles O32: the sum is stored, and a wrap sets the counter's bit of OVF. -/
theorem countersWrapOrSaturate : Obligations.CountersWrapOrSaturate := by
  intro s b u k n hx c t
  have h := ctrFields_of_exists hx
  refine ⟨fun normal => ?_, fun test => ?_⟩
  · have wraps : t = if s.getF c + n < 2 ^ 48 then s.setF c (s.getF c + n)
        else if ((s.setF c (s.getF c + n)).setOvf b u k).flag Csr.pmuCtrl_FRZ_ON_OVF
          then ((s.setF c (s.getF c + n)).setOvf b u k).setF Csr.pmuCtrl_FREEZE 1
          else (s.setF c (s.getF c + n)).setOvf b u k := by
      simp only [t, State.countPlain, normal, if_true]
      rfl
    rw [wraps]
    by_cases low : s.getF c + n < 2 ^ 48
    · rw [if_pos low, State.counted_value h, State.counted_ovf h, decide_eq_false (Nat.not_le.mpr low), Bool.or_false]
      exact ⟨rfl, rfl⟩
    · rw [if_neg low, State.freeze_getF h.freezeValue, State.freeze_getF h.freezeOvf, State.setOvf_value h, State.setOvf_bit h,
        State.counted_value h, decide_eq_true (Nat.not_lt.mp low), Bool.or_true]
      exact ⟨rfl, rfl⟩
  · have stops : t = if 0 < n ∧ 2 ^ 48 - 1 ≤ s.getF c + n then (s.setF c (min (s.getF c + n) (2 ^ 48 - 1))).setOvf b u k
        else s.setF c (min (s.getF c + n) (2 ^ 48 - 1)) := by
      simp only [t, State.countPlain, test, Bool.false_eq_true, if_false]
      rfl
    have top : min (s.getF c + n) (2 ^ 48 - 1) % 2 ^ 48 = min (s.getF c + n) (2 ^ 48 - 1) := Nat.mod_eq_of_lt (by omega)
    rw [stops]
    split
    · rw [State.setOvf_value h, State.counted_value h, top]
    · rw [State.counted_value h, top]

/-! ## Counting cycles and samples -/

theorem exec_pmcCycle {m : Fin 3} {u : Fin 64} {adv empty : BitVec 4} {l : List (Nat × Nat × Nat)} (h : u.val < ctrUnits m) :
    exec (.pmcCycle m u adv empty l) s = match m.val with
      | 0 => .next ((s.countAll 0 u (fun k => s.clsAmount u (s.getF (ctrEvent m u k)) (s.getF (ctrQual m u k)) adv.toNat
          empty.toNat l)).arrayCounters u l)
      | 1 => .next (s.countAll 1 u (fun k => s.niAmount u (s.getF (ctrEvent m u k)) (s.getF (ctrQual m u k)) l))
      | _ => .next (s.countAll 2 u (fun k => s.memAmount u (s.getF (ctrEvent m u k))
          (if s.flag (Csr.memPmcSel_PFILT u k) then some (s.getF (ctrQual m u k)) else none) l)) :=
  if_neg (Nat.not_le.mpr h)

/-- The oldest sample of a die, as its ring, its slot and its slot's tile allow. -/
theorem execSampleWrite_some {die : Fin 2} {x : Sample} (h : s.samples.find? (fun y => decide (y.cls / 32 = die.val)) = some x) :
    let wr := s.getF (Csr.pmuPartSbufWr_INDEX x.part)
    let n := 2 ^ s.getF (Csr.pmuPartSbufBase_LOG2 x.part)
    let t : State := { s with samples := s.samples.erase x }
    let dva := s.getF (Csr.pmuPartSbufBase_DVA x.part) + 32 * (wr % n)
    exec (.sampleWrite die) s =
      if n ≤ (wr + 2 ^ 32 - s.getF (Csr.pmuPartSbufRd_INDEX x.part)) % 2 ^ 32 then .next (t.dropSample x)
      else if !s.sampleFits x.part dva then
        .next ((t.addF (Csr.pmuPartSbufStat_LOST x.part) 1).setF (Csr.pmuPartSbufStat_ERR x.part) 1)
      else if s.writeWaits x.part dva then .next s
      else .next (((t.writeAll x.part (bytesAt dva x.bytes)).setF (Csr.pmuPartSbufWr_INDEX x.part) (wr + 1)).addF
        (Csr.clsPsampStat_WRITTEN x.cls) 1) := by
  intro wr n t dva
  change execSampleWrite die s = _
  unfold execSampleWrite
  rw [h]

/-- Settles O33: a cycle counts what its events give, and a sample goes where its ring and its slot allow. -/
theorem countersAndSamples : Obligations.CountersAndSamples := by
  refine ⟨fun s u p adv empty l incs => ?counters, fun s die x => ?samples⟩
  case counters =>
    intro ev q
    exact ⟨exec_pmcCycle (m := 0) u.isLt, fun hu => exec_pmcCycle (m := 1) hu, fun hu => exec_pmcCycle (m := 2) hu,
      fun ni => rfl, fun freeze b v f => if_pos freeze⟩
  case samples =>
    intro p wr n dva room t hx
    have run := execSampleWrite_some hx
    refine ⟨fun full => ?_, fun free bad => ?_, fun free good waits => ?_, fun free good ready => ?_⟩
    · exact run.trans (if_pos (Nat.not_lt.mp (of_decide_eq_false full)))
    all_goals
      have space := Nat.not_le.mpr (of_decide_eq_true free)
    · exact run.trans ((if_neg space).trans (if_pos (congrArg not bad)))
    all_goals
      have fits : ¬ (!s.sampleFits p dva) = true := by rw [good]; decide
    · exact run.trans ((if_neg space).trans ((if_neg fits).trans (if_pos waits)))
    · exact run.trans ((if_neg space).trans ((if_neg fits).trans (if_neg (ne_true_of_eq_false ready))))

end Sys2Proof.Machine

/-! SUPPORT. Host accesses to the counters (R402, R403, R406). -/

namespace Sys2Proof.Machine

variable {s : State} {b u k : Nat}

/-- The value of a counter fits in a register's word. -/
theorem State.counter_word (h : CtrFields b u k) : (BitVec.ofNat 64 (s.getF (ctrValue b u k))).toNat = s.getF (ctrValue b u k) := by
  have small := State.getF_lt (s := s) (f := ctrValue b u k)
  rw [h.len] at small
  exact Nat.mod_eq_of_lt (small.trans (by decide))

theorem exec_counterWrite {port b : Fin 4} {u : Fin 64} {k : Fin 16} {v : Word} (owner : s.OwnerPort port) (h : ctrExists b u k = true) :
    exec (.counterWrite port b u k .full v) s = .next (s.store (ctrValue b u k).addr v.toNat allBits) :=
  (if_pos h).trans (congrArg _ (State.hostWrite_owner owner))

/-- A read of a counter is answered with what `readCtr` gives. -/
theorem exec_chainedCounterRead {port b : Fin 4} {u : Fin 64} {k : Fin 16} (owner : s.OwnerPort port) (h : ctrExists b u k = true) :
    exec (.chainedCounterRead port b u k .full) s = .next { (s.readCtr b u k).1 with
      replies := (s.readCtr b u k).1.replies ++ [⟨port, .ok, leBytes 8 (s.readCtr b u k).2.toNat⟩] } :=
  (if_pos h).trans (congrArg _ (State.hostRead_owner owner))

theorem State.readCtr_even (hc : s.chained b u k = true) (hk : k % 2 = 0) : s.readCtr b u k =
    ({ s with latches := s.latches.put (fun _ => 0) (ctrValue b u (k + 1)).addr (s.getF (ctrValue b u (k + 1))) },
      BitVec.ofNat 64 (s.getF (ctrValue b u k))) := by
  unfold State.readCtr
  dsimp only
  rw [if_pos hc, if_pos hk]

theorem State.readCtr_odd (hc : s.chained b u k = true) (hk : k % 2 = 1) : s.readCtr b u k =
    (s, BitVec.ofNat 64 (s.latches.get (fun _ => 0) (ctrValue b u k).addr)) := by
  unfold State.readCtr
  dsimp only
  rw [if_pos hc, if_neg (by omega)]

theorem State.readCtr_plain (hc : s.chained b u k = false) : s.readCtr b u k = (s, BitVec.ofNat 64 (s.getF (ctrValue b u k))) :=
  if_neg (ne_true_of_eq_false hc)

theorem State.clearCounters_rd {a : Nat} (h : a ≠ Csr.pmuStatus) :
    s.clearCounters.rd a = if (ctrAt a).isSome || isOvf a then Csr.reset a else s.rd a := by
  unfold State.clearCounters State.showOvf
  rw [State.rd_setF_ne h]
  refine (SMap.get_filter (fun x => (ctrAt x).isNone && !isOvf x) a).trans ?_
  cases ctrAt a <;> cases isOvf a <;> rfl

/-- Settles O34: counters are stored and read by their own access rules, and CLR_ALL takes them out of the registers. -/
theorem counterAccesses : Obligations.CounterAccesses := by
  refine ⟨fun s port b u k v owner hx => ?counter, fun s port v owner => ?control⟩
  case counter =>
    intro c
    have word : (BitVec.ofNat 64 (s.getF c)).toNat = s.getF c := State.counter_word (ctrFields_of_exists hx)
    have run := exec_chainedCounterRead owner hx
    refine ⟨exec_counterWrite owner hx, fun hc hk => ?_, fun hc hk => ?_, fun hc => ?_⟩
    · rw [State.readCtr_even hc hk] at run
      refine answers_of run ⟨SMap.get_put.trans (if_pos rfl), ?_, rfl, rfl⟩
      exact congrArg (fun n => s.replies ++ [⟨port, .ok, leBytes 8 n⟩]) word
    · rw [State.readCtr_odd hc hk] at run
      exact answers_of run ⟨rfl, rfl, rfl⟩
    · rw [State.readCtr_plain hc] at run
      refine answers_of run ⟨?_, rfl, rfl⟩
      exact congrArg (fun n => s.replies ++ [⟨port, .ok, leBytes 8 n⟩]) word
  case control =>
    intro s1
    have freeze : exec (.pmuFreeze port .full v) s = .next (pmuCtrlWrite s v.toNat allBits) :=
      congrArg _ (State.hostWrite_owner owner)
    have clear : exec (.clrAll port .full v) s = .next (pmuCtrlWrite s v.toNat allBits) :=
      congrArg _ (State.hostWrite_owner owner)
    exact ⟨fun h => freeze.trans (congrArg _ (if_neg (ne_true_of_eq_false h))), fun h => clear.trans (congrArg _ (if_pos h)),
      fun a ha => State.clearCounters_rd ha⟩

end Sys2Proof.Machine

/-! SUPPORT. What an error record changes (R384 to R390): the registers of the ERR block below a bound, a port's count of dropped
events, and the bookkeeping of the rings. -/

namespace Sys2Proof.Machine

variable {s t u : State} {lim p k a : Nat}

/-- `t` is `s` after records whose registers lie below `lim`. -/
structure State.Noted (s t : State) (lim : Nat) : Prop where
  rest : t = { s with csr := t.csr, ringTimer := t.ringTimer, events := t.events, withheld := t.withheld }
  regs : ∀ a, (a < 0x400000 ∨ lim ≤ a) → (∀ h, h < 4 → a ≠ Csr.hlEvtDrop h) → t.rd a = s.rd a

theorem State.noted_self : s.Noted s lim := ⟨rfl, fun _ _ _ => rfl⟩

theorem State.Noted.trans (h : s.Noted t lim) (g : t.Noted u lim) : s.Noted u lim := by
  refine ⟨?_, fun a ha he => (g.regs a ha he).trans (h.regs a ha he)⟩
  have rest := g.rest
  rw [h.rest] at rest
  exact rest

theorem State.Noted.mono {lim' : Nat} (h : s.Noted t lim) (hl : lim ≤ lim') : s.Noted t lim' :=
  ⟨h.rest, fun a ha he => h.regs a (ha.imp id hl.trans) he⟩

theorem State.Noted.low (h : s.Noted t lim) (ha : a < 0x400000) : t.rd a = s.rd a :=
  h.regs a (.inl ha) fun k hk => by
    simp only [Csr.hlEvtDrop]
    omega

theorem State.Noted.getF (h : s.Noted t lim) {g : Fld} (ha : g.addr < 0x400000 ∨ lim ≤ g.addr)
    (he : ∀ k, k < 4 → g.addr ≠ Csr.hlEvtDrop k) : t.getF g = s.getF g := by
  unfold State.getF
  rw [h.regs g.addr ha he]

theorem State.noted_wr_of {w : Word} (h : ∀ b, (b < 0x400000 ∨ lim ≤ b) → (∀ k, k < 4 → b ≠ Csr.hlEvtDrop k) → b ≠ a) :
    s.Noted (s.wr a w) lim :=
  ⟨rfl, fun b hb he => State.rd_wr.trans (if_neg (h b hb he))⟩

theorem State.noted_wr {w : Word} (h0 : 0x400000 ≤ a) (h1 : a < lim) : s.Noted (s.wr a w) lim :=
  State.noted_wr_of fun b hb _ => by omega

theorem State.noted_setF {f : Fld} {v : Nat} (h0 : 0x400000 ≤ f.addr) (h1 : f.addr < lim) : s.Noted (s.setF f v) lim :=
  State.noted_wr h0 h1

theorem State.noted_addF {f : Fld} {n : Nat} (h0 : 0x400000 ≤ f.addr) (h1 : f.addr < lim) : s.Noted (s.addF f n) lim :=
  State.noted_wr h0 h1

theorem State.noted_foldl {α : Type} {l : List α} {f : State → α → State} (h : ∀ t x, x ∈ l → State.Noted t (f t x) lim) :
    s.Noted (l.foldl f s) lim := by
  induction l generalizing s with
  | nil => exact State.noted_self
  | cons x r ih => exact (h s x List.mem_cons_self).trans (ih fun t y hy => h t y (List.mem_cons_of_mem _ hy))

theorem State.noted_ite {b : Prop} [Decidable b] (h : s.Noted t lim) (g : s.Noted u lim) : s.Noted (if b then t else u) lim := by
  split
  · exact h
  · exact g

theorem State.noted_sendEvent {e : Event} (h : e.port < 4) : s.Noted (s.sendEvent e) lim := by
  unfold State.sendEvent
  split
  · exact ⟨rfl, fun _ _ _ => rfl⟩
  · exact State.noted_wr_of fun b _ he => he e.port h

theorem State.noted_setRing {r : RingTimer} : s.Noted (s.setRing k r) lim := ⟨rfl, fun _ _ _ => rfl⟩

theorem State.noted_ringEvent : s.Noted (s.ringEvent k) lim := by
  cases k
  · exact State.noted_sendEvent (State.getF_lt (f := Csr.sysPartCap_MGMT_PORT))
  · exact State.noted_sendEvent (State.getF_lt (f := Csr.sysPartCfg_EVT_PORT _))

theorem State.noted_notifyRing {sev : Nat} : s.Noted (s.notifyRing k sev) lim := by
  unfold State.notifyRing
  exact State.noted_ite (State.noted_ringEvent.trans State.noted_setRing)
    (State.noted_ite State.noted_setRing (State.noted_ringEvent.trans State.noted_setRing))

theorem State.noted_writeRecWords {f : Nat → Nat} {bs : List Byte} (h : ∀ w, w < 8 → 0x400000 ≤ f w ∧ f w < lim) :
    s.Noted (s.writeRecWords f bs) lim :=
  State.noted_foldl fun _ w hw => State.noted_wr (h w (List.mem_range.mp hw)).1 (h w (List.mem_range.mp hw)).2

theorem State.noted_devRecord {r : Rec} {flags count : Nat} : s.Noted (s.devRecord r flags count) 0x480000 := by
  have slot := Nat.mod_lt (s.getF Csr.errDevWr_WR) (show 0 < 4096 by decide)
  have words : s.Noted (s.writeRecWords (Csr.errDrecW (s.getF Csr.errDevWr_WR % 4096))
      (recBytes r flags (s.getF Csr.errDevWr_WR) (s.rd Csr.clkTime).toNat count)) 0x480000 :=
    State.noted_writeRecWords fun w hw => by simp only [Csr.errDrecW]; omega
  unfold State.devRecord
  dsimp only
  have wr := words.trans (State.noted_setF (f := Csr.errDevWr_WR) (v := s.getF Csr.errDevWr_WR + 1) (by decide) (by decide))
  exact (wr.trans (State.noted_ite (State.noted_setF (f := Csr.errStatus_ALERT) (by decide) (by decide))
    State.noted_self)).trans State.noted_notifyRing

theorem State.noted_partRecord {r : Rec} {flags count : Nat} : s.Noted (s.partRecord p r flags count) (0x490000 + 0x10000 * p) := by
  have slot := Nat.mod_lt (s.getF (Csr.errPartWr_WR p)) (show 0 < 1024 by decide)
  have words : s.Noted (s.writeRecWords (Csr.errPrecW p (s.getF (Csr.errPartWr_WR p) % 1024))
      (recBytes r flags (s.getF (Csr.errPartWr_WR p)) (s.rd Csr.clkTime).toNat count)) (0x490000 + 0x10000 * p) :=
    State.noted_writeRecWords fun w hw => by simp only [Csr.errPrecW]; omega
  exact (words.trans (State.noted_setF (by simp only [Csr.errPartWr_WR, Csr.errPartWr]; omega)
    (by simp only [Csr.errPartWr_WR, Csr.errPartWr]; omega))).trans State.noted_notifyRing

/-- A record of no partition, or of one whose registers lie below `lim`. -/
theorem State.noted_record {dev : Bool} {part : Option Nat} {r : Rec} (h0 : 0x480000 ≤ lim)
    (h : ∀ p, part = some p → 0x490000 + 0x10000 * p ≤ lim) : s.Noted (s.record dev part r) lim := by
  unfold State.record
  dsimp only
  have cleared : s.Noted { s with withheld := s.withheld.put (fun _ => 0) (withheldKey r) 0 } lim := ⟨rfl, fun _ _ _ => rfl⟩
  have count := cleared.trans (State.noted_addF (f := Csr.errSevCount_COUNT r.sev) (n := 1) (show 0x400000 ≤ 0x400018 by decide)
    (Nat.lt_of_lt_of_le (show 0x400018 < 0x480000 by decide) h0))
  have device {b : Prop} [Decidable b] {x : State} (hx : s.Noted x lim) {flags n : Nat} :
      s.Noted (if b then x.devRecord r flags n else x) lim :=
    State.noted_ite (hx.trans (State.noted_devRecord.mono h0)) hx
  split
  next q hq =>
    exact (device count).trans (State.noted_partRecord.mono (h q (Option.filter_eq_some_iff.mp hq).1))
  next => exact device count

theorem State.noted_recordD {type sev kind unit : Nat} {d : List (Nat × Nat)} :
    s.Noted (s.recordD type sev kind unit d) 0x480000 :=
  State.noted_record (Nat.le_refl _) fun _ h => nomatch h

theorem State.noted_recordP {q : Option Nat} {type sev kind unit ctx addr : Nat} {d : List (Nat × Nat)} (h0 : 0x480000 ≤ lim)
    (h : ∀ p, q = some p → 0x490000 + 0x10000 * p ≤ lim) : s.Noted (s.recordP q type sev kind unit ctx addr d) lim :=
  State.noted_record h0 h

end Sys2Proof.Machine

/-! SUPPORT. What the resets keep (R437, R441 to R443). -/

namespace Sys2Proof.Machine

variable {s t u : State} {a k : Nat}

/-! ## What a reset interrupts -/

/-- `t` is `s` with the work of the security part ended. -/
structure State.Interrupted (s t : State) : Prop where
  rest : t = { s with mem := t.mem, security := t.security, drawn := t.drawn }
  vendor : t.security.vendor = s.security.vendor
  mem : ∀ a, a < flashBase → t.peek a = s.peek a

theorem State.interrupted_self : s.Interrupted s := ⟨rfl, rfl, fun _ _ => rfl⟩

theorem State.Interrupted.trans (h : s.Interrupted t) (g : t.Interrupted u) : s.Interrupted u := by
  refine ⟨?_, g.vendor.trans h.vendor, fun a ha => (g.mem a ha).trans (h.mem a ha)⟩
  have rest := g.rest
  rw [h.rest] at rest
  exact rest

theorem State.interrupted_draw {n : Nat} : s.Interrupted (s.draw n).2 := ⟨rfl, rfl, fun _ _ => rfl⟩

theorem State.interrupted_withSec {f : Security → Security} (h : (f s.security).vendor = s.security.vendor) :
    s.Interrupted (s.withSec f) := ⟨rfl, h, fun _ _ => rfl⟩

theorem State.interrupted_loseFlash {o n : Nat} : s.Interrupted (s.loseFlash o n) := by
  have poked {x : State} {l : List Byte} : x.Interrupted (x.pokeN (flashBase + o) l) := by
    obtain ⟨m, poke⟩ := x.pokeN_eq (flashBase + o) l
    refine ⟨by rw [poke], by rw [poke], fun a ha => ?_⟩
    rw [State.peek_pokeN, if_neg (by omega)]
  exact State.Interrupted.trans (t := (s.freeBytes n).2) ⟨rfl, rfl, fun _ _ => rfl⟩ poked

theorem State.dropWork_interrupted : s.Interrupted s.dropWork := by
  unfold State.dropWork
  extract_lets d s1 e s2
  have fuses : s.Interrupted s1 := by
    simp only [s1]
    split
    · exact State.interrupted_draw
    · exact State.interrupted_draw.trans (State.interrupted_withSec rfl)
  have raise : s1.Interrupted s2 := by
    simp only [s2]
    split
    · exact State.interrupted_draw.trans (State.interrupted_withSec rfl)
    · exact State.interrupted_draw
  refine (fuses.trans raise).trans ?_
  split
  · exact State.interrupted_self
  · split
    · exact State.interrupted_withSec rfl
    · exact (State.interrupted_withSec rfl).trans State.interrupted_loseFlash

/-! ## PORn and VAUX -/

theorem State.powerOn_peek {captured vaux : Bool} (h : a < flashBase) : (s.powerOn captured vaux).peek a = memDefault a := by
  refine (SMap.get_filter (fun x => decide (flashBase ≤ x)) a).trans (if_neg ?_)
  rw [decide_eq_true_eq]
  omega

theorem State.powerOn_rd {vaux : Bool} :
    (s.powerOn true vaux).rd a = if a = Csr.errFatal then s.rd Csr.errFatal else Csr.reset a := by
  have csr : s.dropWork.csr = s.csr := by rw [State.dropWork_interrupted.rest]
  refine (SMap.get_filter (fun x => decide (x = Csr.errFatal)) a).trans ?_
  rw [csr]
  by_cases h : a = Csr.errFatal
  · subst h
    rfl
  · rw [if_neg h, decide_eq_false h]
    rfl

theorem State.powerOn_rest {captured vaux : Bool} : s.powerOn captured vaux = { State.reset with
    csr := (s.powerOn captured vaux).csr, mem := (s.powerOn captured vaux).mem, retired := s.retired,
    security := (s.powerOn captured vaux).security, optics := (s.powerOn captured vaux).optics, jtag := s.jtag, noVaux := !vaux,
    events := s.events, replies := s.replies, wire := s.wire, peer := s.peer, drawn := (s.powerOn captured vaux).drawn,
    pending := s.pending } := by
  unfold State.powerOn
  dsimp only
  rw [State.dropWork_interrupted.rest]

theorem State.powerOn_saved {captured vaux : Bool} : (s.powerOn captured vaux).optics.saved = s.optics.saved := by
  unfold State.powerOn
  dsimp only
  rw [State.dropWork_interrupted.rest]
  rfl

theorem State.powerOn_vendor {captured vaux : Bool} : (s.powerOn captured vaux).security.vendor = s.security.vendor :=
  State.dropWork_interrupted.vendor

/-! ## WRSTn -/

/-- `t` is `s` after changes that reach memory, tiles, records and the registers from the ERR block on. -/
structure State.Warmed (s t : State) : Prop where
  rest : t = { s with
    csr := t.csr, mem := t.mem, tiles := t.tiles, ringTimer := t.ringTimer, events := t.events, withheld := t.withheld }
  low : ∀ a, a < 0x400000 → t.rd a = s.rd a

theorem State.warmed_self : s.Warmed s := ⟨rfl, fun _ _ => rfl⟩

theorem State.Warmed.trans (h : s.Warmed t) (g : t.Warmed u) : s.Warmed u := by
  refine ⟨?_, fun a ha => (g.low a ha).trans (h.low a ha)⟩
  have rest := g.rest
  rw [h.rest] at rest
  exact rest

theorem State.Noted.warmed {lim : Nat} (h : s.Noted t lim) : s.Warmed t := by
  refine ⟨?_, fun a ha => h.low ha⟩
  have rest := h.rest
  rw [rest]

theorem State.warmed_foldl {α : Type} {l : List α} {f : State → α → State} (h : ∀ t x, State.Warmed t (f t x)) :
    s.Warmed (l.foldl f s) := by
  induction l generalizing s with
  | nil => exact State.warmed_self
  | cons x r ih => exact (h s x).trans ih

theorem State.warmed_setF {f : Fld} {v : Nat} (h : 0x400000 ≤ f.addr) : s.Warmed (s.setF f v) :=
  (State.noted_setF h (Nat.lt_succ_self f.addr)).warmed

theorem State.warmed_addF {f : Fld} {n : Nat} (h : 0x400000 ≤ f.addr) : s.Warmed (s.addF f n) :=
  (State.noted_addF h (Nat.lt_succ_self f.addr)).warmed

theorem State.warmed_subSram {p n : Nat} : s.Warmed (s.subSram p n) := by
  have usage : s.Warmed (s.subF (Csr.migPartUsage_SRAM p) n) :=
    State.warmed_setF (by simp only [Csr.migPartUsage_SRAM, Csr.migPartUsage]; omega)
  unfold State.subSram
  dsimp only
  split
  · exact usage.trans (State.warmed_setF (by decide))
  · exact usage

theorem State.warmed_recordP {q : Option Nat} {type sev kind unit ctx addr : Nat} {d : List (Nat × Nat)} :
    s.Warmed (s.recordP q type sev kind unit ctx addr d) :=
  (State.noted_recordP (lim := 0x490000 + 0x10000 * q.getD 0) (by omega)
    (fun p hp => by rw [hp, Option.getD_some])).warmed

theorem State.warmed_poisonTile {w : Nat} : s.Warmed (s.poisonTile k w) := by
  have tile (e : TileEntry) : s.Warmed (s.setTile k e) := ⟨rfl, fun _ _ => rfl⟩
  unfold State.poisonTile
  dsimp only
  exact ((tile _).trans (State.warmed_addF (by decide))).trans State.warmed_recordP

theorem State.warmed_poke {b : Byte} : s.Warmed (s.poke a b) := ⟨rfl, fun _ _ => rfl⟩

theorem State.warmed_toSlow : s.Warmed (s.toSlow k) := by
  have copy (src dst : Nat) : s.Warmed (s.copyFrame src dst) :=
    State.Warmed.trans (t := s.zeroFrame dst) ⟨rfl, fun _ _ => rfl⟩ (State.warmed_foldl fun _ _ => State.warmed_poke)
  have drop {x : State} : x.Warmed (x.dropSram k) :=
    State.Warmed.trans (t := x.zeroFrame (sramAddr (x.tile k).slice (x.tile k).sframe 0)) ⟨rfl, fun _ _ => rfl⟩ State.warmed_subSram
  have tile {x : State} {e : TileEntry} : x.Warmed (x.setTile k e) := ⟨rfl, fun _ _ => rfl⟩
  unfold State.toSlow
  dsimp only
  split
  · exact drop.trans tile
  · exact ((copy _ _).trans drop).trans tile

theorem State.warmed_warmTiles : s.Warmed s.warmTiles := by
  refine State.warmed_foldl fun t e => ?_
  split
  · exact State.warmed_toSlow
  · exact State.warmed_poisonTile

theorem State.warmed_showPartition {p : Nat} : s.Warmed (s.showPartition p) := by
  unfold State.showPartition
  dsimp only
  refine (State.warmed_foldl fun t k => State.warmed_setF ?_).trans (State.warmed_foldl fun t i => State.warmed_setF ?_)
  · simp only [Csr.hlParts_MASK, Csr.hlParts]
    omega
  · simp only [Csr.ctxState_PART, Csr.ctxState]
    omega

end Sys2Proof.Machine

/-! SUPPORT. WRSTn: what it keeps of the registers and of the SLOW tier (R442, R443). -/

namespace Sys2Proof.Machine

variable {s t u : State} {a k : Nat}

/-! ## The tables -/

theorem SMap.get_eq_or_mem {V : Type} {d : Nat → V} {m : SMap V} : m.get d k = d k ∨ (k, m.get d k) ∈ m := by
  induction m with
  | nil => exact .inl rfl
  | cons e r ih =>
    obtain ⟨j, v⟩ := e
    by_cases h : j = k
    · subst h
      exact .inr (by simp [SMap.get])
    · simp only [SMap.get, if_neg h]
      exact ih.imp id (List.mem_cons_of_mem _)

theorem SMap.get_of_mem {V : Type} [DecidableEq V] {d : Nat → V} {m : SMap V} {e : Nat × V} :
    ∀ {b : Nat}, SMap.wfFrom d b m = true → e ∈ m → m.get d e.1 = e.2 := by
  induction m with
  | nil => intro b _ he; exact absurd he (by simp)
  | cons x r ih =>
    obtain ⟨j, v⟩ := x
    intro b h he
    by_cases hj : j = e.1
    · have same := SMap.eq_of_mem h List.mem_cons_self he hj
      rw [← same, SMap.get, if_pos rfl]
    · rw [SMap.get, if_neg hj]
      simp only [SMap.wfFrom, Bool.and_eq_true, decide_eq_true_eq] at h
      refine ih h.2 ((List.mem_cons.mp he).resolve_left fun e0 => hj ?_)
      rw [e0]

/-- Every frame of the SRAM tier lies below the SLOW tier. -/
def State.SramLow (s : State) : Prop := ∀ k, sramAddr (s.tile k).slice (s.tile k).sframe 65535 < slowBase

/-- The SLOW tier of `t` is that of `s`, and no clean tile has become dirty. -/
structure State.Cooled (s t : State) : Prop where
  frames : s.SramLow → t.SramLow
  slow : s.SramLow → ∀ a, slowBase ≤ a → a < obBase → t.peek a = s.peek a
  dirty : ∀ k, (s.tile k).dirty = false → (t.tile k).dirty = false

theorem State.cooled_self : s.Cooled s := ⟨id, fun _ _ _ _ => rfl, fun _ => id⟩

theorem State.Cooled.trans (h : s.Cooled t) (g : t.Cooled u) : s.Cooled u :=
  ⟨fun l => g.frames (h.frames l), fun l a h0 h1 => (g.slow (h.frames l) a h0 h1).trans (h.slow l a h0 h1),
    fun k hk => g.dirty k (h.dirty k hk)⟩

theorem State.cooled_of_eq (hm : t.mem = s.mem) (ht : t.tiles = s.tiles) : s.Cooled t := by
  have tile (k : Nat) : t.tile k = s.tile k := by rw [State.tile, ht]; rfl
  refine ⟨fun l k => ?_, fun _ a _ _ => ?_, fun k hk => ?_⟩
  · rw [tile]
    exact l k
  · rw [State.peek, hm]
    rfl
  · rw [tile, hk]

theorem State.Noted.cooled {lim : Nat} (h : s.Noted t lim) : s.Cooled t :=
  State.cooled_of_eq (by rw [h.rest]) (by rw [h.rest])

theorem State.cooled_setTile {e : TileEntry} (hf : s.SramLow → sramAddr e.slice e.sframe 65535 < slowBase)
    (hd : e.dirty = (s.tile k).dirty ∨ e.dirty = false) : s.Cooled (s.setTile k e) := by
  refine ⟨fun l j => ?_, fun _ a _ _ => rfl, fun j hj => ?_⟩
  · rw [State.tile_setTile]
    split
    · exact hf l
    · exact l j
  · rw [State.tile_setTile]
    split
    next h => exact hd.elim (fun e0 => e0.trans (h ▸ hj)) id
    · exact hj

theorem State.cooled_setF {f : Fld} {v : Nat} : s.Cooled (s.setF f v) := State.cooled_of_eq rfl rfl

theorem State.cooled_addF {f : Fld} {n : Nat} : s.Cooled (s.addF f n) := State.cooled_setF

theorem State.cooled_subF {f : Fld} {n : Nat} : s.Cooled (s.subF f n) := State.cooled_setF

theorem State.cooled_recordP {q : Option Nat} {type sev kind unit ctx addr : Nat} {d : List (Nat × Nat)} :
    s.Cooled (s.recordP q type sev kind unit ctx addr d) :=
  (State.noted_recordP (lim := 0x490000 + 0x10000 * q.getD 0) (by omega) (fun p hp => by rw [hp, Option.getD_some])).cooled

theorem State.cooled_poisonTile {w : Nat} : s.Cooled (s.poisonTile k w) := by
  unfold State.poisonTile
  dsimp only
  have tile : s.Cooled (s.setTile k { s.tile k with poison := true }) := State.cooled_setTile (fun l => l k) (.inl rfl)
  exact (tile.trans State.cooled_addF).trans State.cooled_recordP

theorem State.cooled_subSram {p n : Nat} : s.Cooled (s.subSram p n) := by
  unfold State.subSram
  dsimp only
  split
  · exact State.cooled_subF.trans State.cooled_subF
  · exact State.cooled_subF

/-- A clean tile leaves the SRAM tier without a copy. -/
theorem State.cooled_toSlow (h : (s.tile k).dirty = false) : s.Cooled (s.toSlow k) := by
  have drop : s.Cooled (s.zeroFrame (sramAddr (s.tile k).slice (s.tile k).sframe 0)) := by
    refine ⟨id, fun l a h0 h1 => ?_, fun _ => id⟩
    have low := l k
    rw [State.peek_zeroFrame, if_neg]
    simp only [sramAddr] at low ⊢
    omega
  have tile : State.Cooled ((s.zeroFrame (sramAddr (s.tile k).slice (s.tile k).sframe 0)).subSram (partOfTile k) 1) (s.toSlow k) := by
    unfold State.toSlow
    dsimp only
    rw [if_pos (by rw [h]; simp)]
    exact State.cooled_setTile (fun _ => show sramAddr 0 0 65535 < slowBase by decide) (.inr rfl)
  exact (drop.trans State.cooled_subSram).trans tile

theorem State.cooled_foldl {α : Type} {l : List α} {f : State → α → State}
    (h : ∀ x ∈ l, ∀ t : State, s.Cooled t → t.Cooled (f t x)) : s.Cooled (l.foldl f s) := by
  suffices ∀ t, s.Cooled t → s.Cooled (l.foldl f t) from this s State.cooled_self
  induction l with
  | nil => exact fun _ => id
  | cons x r ih =>
    exact fun t ht => ih (fun y hy => h y (List.mem_cons_of_mem _ hy)) (f t x) (ht.trans (h x List.mem_cons_self t ht))

/-- With its tables in their form, the treatment of the SRAM tier leaves the SLOW tier. -/
theorem State.cooled_warmTiles (h : SMap.wf (fun _ => TileEntry.absent) s.tiles = true) : s.Cooled s.warmTiles := by
  refine State.cooled_foldl fun e he t ht => ?_
  have own : s.tile e.1 = e.2 := SMap.get_of_mem h (List.mem_of_mem_filter he)
  split
  next clean =>
    rw [Bool.and_eq_true, Bool.not_eq_true', Bool.not_eq_true'] at clean
    exact State.cooled_toSlow (ht.dirty e.1 (own ▸ clean.1))
  · exact State.cooled_poisonTile

theorem State.cooled_showPartition {p : Nat} : s.Cooled (s.showPartition p) := by
  unfold State.showPartition
  dsimp only
  exact State.Cooled.trans (State.cooled_foldl fun _ _ _ _ => State.cooled_setF) (State.cooled_foldl fun _ _ _ _ => State.cooled_setF)

/-! ## The device before the treatment of the SRAM tier -/

theorem State.warmBase_rd (h : warmKept a = true) : s.warmBase.rd a = s.rd a := by
  have csr : s.dropWork.csr = s.csr := by rw [State.dropWork_interrupted.rest]
  refine (SMap.get_filter warmKept a).trans ((if_pos h).trans ?_)
  rw [csr]
  rfl

theorem State.warmBase_peek (h0 : slowBase ≤ a) (h1 : a < obBase) : s.warmBase.peek a = s.peek a := by
  refine (SMap.get_filter (fun x => (decide (slowBase ≤ x) && decide (x < obBase)) || decide (flashBase ≤ x)) a).trans
    ((if_pos (by simp [h0, h1])).trans ?_)
  exact State.dropWork_interrupted.mem a (Nat.lt_trans h1 (by decide))

theorem State.warmBase_tiles : s.warmBase.tiles =
    (s.tiles.map (fun e => (e.1, warmTile e.2))).filter (fun e => decide (e.2 ≠ TileEntry.absent)) := by
  have tiles : s.dropWork.tiles = s.tiles := by rw [State.dropWork_interrupted.rest]
  rw [← tiles]
  rfl

theorem State.warmBase_sramLow (h : ∀ e ∈ s.tiles, sramAddr e.2.slice e.2.sframe 65535 < slowBase) : s.warmBase.SramLow := by
  intro k
  unfold State.tile
  rw [State.warmBase_tiles]
  obtain e | e := SMap.get_eq_or_mem (k := k) (d := fun _ => TileEntry.absent)
    (m := (s.tiles.map (fun e => (e.1, warmTile e.2))).filter (fun e => decide (e.2 ≠ TileEntry.absent)))
  · rw [e]
    decide
  · obtain ⟨x, hx, eq⟩ := List.mem_map.mp (List.mem_of_mem_filter e)
    have own := congrArg Prod.snd eq
    dsimp only at own
    rw [← own]
    exact h x hx

/-! ## The whole reset -/

/-- `t` has the queues, engines and service state of `s`. -/
def State.SameWork (s t : State) : Prop := t = { s with
  csr := t.csr, mem := t.mem, tiles := t.tiles, ringTimer := t.ringTimer, events := t.events, withheld := t.withheld }

theorem State.SameWork.trans (h : s.SameWork t) (g : t.SameWork u) : s.SameWork u := by
  unfold State.SameWork at h g ⊢
  rw [h] at g
  exact g

/-- The registers that WRSTn keeps by field, set again. -/
def State.warmRegs (s : State) : State := warmFields.foldl (fun t f => t.setF f (s.getF f)) s.warmBase

theorem State.setFold {l : List Fld} {v : Fld → Nat} : s.SameWork (l.foldl (fun t f => t.setF f (v f)) s) ∧
    s.Cooled (l.foldl (fun t f => t.setF f (v f)) s) ∧
    ∀ a, (∀ f ∈ l, a ≠ f.addr) → (l.foldl (fun t f => t.setF f (v f)) s).rd a = s.rd a := by
  induction l generalizing s with
  | nil => exact ⟨rfl, State.cooled_self, fun _ _ => rfl⟩
  | cons f r ih =>
    obtain ⟨work, cooled, regs⟩ := ih (s := s.setF f (v f))
    refine ⟨State.SameWork.trans (t := s.setF f (v f)) rfl work, State.cooled_setF.trans cooled, fun a ha => ?_⟩
    obtain ⟨hf, hr⟩ := List.forall_mem_cons.mp ha
    exact (regs a hr).trans (State.rd_setF_ne hf)

/-- The device between its registers and the cause of its boot: the interlocks' records, the MIG's rings and the moves. -/
def State.warmRings (s : State) : State :=
  s.moves.foldl (fun t m => t.dropMove m) ((List.range 8).foldl (fun t p => t.setF (Csr.migPartQHead_HEAD p)
    (t.getF (Csr.migPartQTail_TAIL p))) ((List.range 2).foldl
      (fun t m => if s.flag (Csr.elsStatus_LIGHT m) then t.recordD 0x0402 1 6 m [(1, 1)] else t) s.warmRegs))

/-- The device after WRSTn. -/
def State.warmed (s : State) : State :=
  (List.range 8).foldl (fun t p => t.showPartition p) (s.warmRings.setF Csr.sysBoot_CAUSE 1).warmTiles

theorem exec_wrstn (h : s.noVaux = false) : exec .wrstn s = .next s.warmed := by
  change execWrstn s = _
  unfold execWrstn
  rw [h]
  rfl

theorem State.foldl_tiles {α : Type} {l : List α} {f : State → α → State} (h : ∀ t x, (f t x).tiles = t.tiles) :
    (l.foldl f s).tiles = s.tiles := by
  induction l generalizing s with
  | nil => rfl
  | cons x r ih => exact (ih).trans (h s x)

theorem State.subSram_tiles {p n : Nat} : (s.subSram p n).tiles = s.tiles := by
  unfold State.subSram
  dsimp only
  split
  · rw [State.subF_tiles, State.subF_tiles]
  · rw [State.subF_tiles]

theorem State.warmRings_tiles : s.warmRings.tiles = s.warmBase.tiles := by
  unfold State.warmRings State.warmRegs
  rw [State.foldl_tiles, State.foldl_tiles, State.foldl_tiles, State.foldl_tiles]
  · exact fun t f => State.setF_tiles _ _ _
  · intro t m
    split
    · rw [State.noted_recordD.rest]
    · rfl
  · exact fun t p => State.setF_tiles _ _ _
  · intro t m
    unfold State.dropMove
    split
    · exact State.subSram_tiles
    · rfl

theorem State.warmRings_spec : s.warmRegs.Warmed s.warmRings ∧ s.warmRegs.Cooled s.warmRings := by
  constructor
  · refine ((State.warmed_foldl fun t m => ?_).trans (State.warmed_foldl fun t p => State.warmed_setF ?_)).trans
      (State.warmed_foldl fun t m => ?_)
    · split
      · exact State.noted_recordD.warmed
      · exact State.warmed_self
    · simp only [Csr.migPartQHead_HEAD, Csr.migPartQHead]
      omega
    · unfold State.dropMove
      split
      · exact State.warmed_subSram
      · exact State.warmed_self
  · refine ((State.cooled_foldl fun m _ t _ => ?_).trans (State.cooled_foldl fun p _ t _ => State.cooled_setF)).trans
      (State.cooled_foldl fun m _ t _ => ?_)
    · split
      · exact State.noted_recordD.cooled
      · exact State.cooled_self
    · unfold State.dropMove
      split
      · exact State.cooled_subSram
      · exact State.cooled_self

theorem State.warmed_end : (s.warmRings.setF Csr.sysBoot_CAUSE 1).Warmed s.warmed :=
  State.warmed_warmTiles.trans (State.warmed_foldl fun _ _ => State.warmed_showPartition)

theorem State.warmed_work : s.warmBase.SameWork s.warmed :=
  ((State.setFold.1.trans State.warmRings_spec.1.rest).trans (show s.warmRings.SameWork (s.warmRings.setF Csr.sysBoot_CAUSE 1) from rfl)).trans
    State.warmed_end.rest

/-- A register below the ERR block that WRSTn keeps whole. -/
theorem State.warmed_rd (hl : a < 0x400000) (hk : warmKept a = true) (hb : a ≠ Csr.sysBoot) (hf : ∀ f ∈ warmFields, a ≠ f.addr) :
    s.warmed.rd a = s.rd a :=
  calc s.warmed.rd a
    _ = (s.warmRings.setF Csr.sysBoot_CAUSE 1).rd a := State.warmed_end.low a hl
    _ = s.warmRings.rd a := State.rd_setF_ne hb
    _ = s.warmRegs.rd a := State.warmRings_spec.1.low a hl
    _ = s.warmBase.rd a := State.setFold.2.2 a hf
    _ = s.rd a := State.warmBase_rd hk

theorem State.warmed_cause : s.warmed.getF Csr.sysBoot_CAUSE = 1 := by
  unfold State.getF
  rw [State.warmed_end.low _ (by decide)]
  exact State.getF_setF_same (s := s.warmRings) (f := Csr.sysBoot_CAUSE) rfl

theorem State.warmed_peek (hc : s.canonical = true) (hf : ∀ e ∈ s.tiles, sramAddr e.2.slice e.2.sframe 65535 < slowBase)
    (h0 : slowBase ≤ a) (h1 : a < obBase) : s.warmed.peek a = s.peek a := by
  have before : s.warmBase.Cooled (s.warmRings.setF Csr.sysBoot_CAUSE 1) :=
    (State.setFold.2.1.trans State.warmRings_spec.2).trans State.cooled_setF
  have tiles : (s.warmRings.setF Csr.sysBoot_CAUSE 1).tiles = s.warmBase.tiles := (State.setF_tiles _ _ _).trans State.warmRings_tiles
  have wf : SMap.wf (fun _ => TileEntry.absent) (s.warmRings.setF Csr.sysBoot_CAUSE 1).tiles = true := by
    rw [tiles, State.warmBase_tiles]
    exact SMap.wf_map_filter warmTile _ (State.canonical_tiles hc)
  have after : State.Cooled _ s.warmed := (State.cooled_warmTiles wf).trans (State.cooled_foldl fun _ _ _ _ => State.cooled_showPartition)
  exact ((before.trans after).slow (State.warmBase_sramLow hf) a h0 h1).trans (State.warmBase_peek h0 h1)

/-- Settles O35: what each reset keeps and what it sets again. -/
theorem resetsClear : Obligations.ResetsClear := by
  refine ⟨fun s => ?cold, fun s => ⟨fun hv => answers_of (exec_wrstn hv) ?warm, fun hv => if_pos hv⟩⟩
  case cold =>
    intro like
    refine ⟨answers_of (t := s.powerOn true true) rfl ⟨State.powerOn_rest, fun a ha => State.powerOn_rd.trans (if_neg ha),
      State.powerOn_rd.trans (if_pos rfl), fun a ha => State.powerOn_peek ha, State.powerOn_vendor, State.powerOn_saved⟩,
      answers_of (t := s.powerOn false false) rfl ⟨State.powerOn_rest, fun a => rfl, fun a ha => State.powerOn_peek ha,
        State.powerOn_vendor, State.powerOn_saved⟩⟩
  case warm =>
    have work := State.warmed_work (s := s)
    unfold State.SameWork at work
    refine ⟨State.warmed_cause, ?_, ?_, ?_, ?_, ?_, ?_, ?_, ?_, ?_, State.warmed_rd (by decide) (by decide) (by decide) (by decide),
      State.warmed_rd (by decide) (by decide) (by decide) (by decide), fun a h0 h1 => ?_, fun hc hf a h0 h1 => State.warmed_peek hc hf h0 h1⟩
    case refine_10 =>
      have out : ∀ f ∈ warmFields, f.addr < Csr.sysPartCfg 0 ∨ Csr.sysPartCfg 8 ≤ f.addr := by decide
      have low : Csr.sysPartCfg 8 < 0x400000 := by decide
      have boot : Csr.sysBoot < Csr.sysPartCfg 0 := by decide
      refine State.warmed_rd (h1.trans low) ?_ (by omega) fun f hf => ?_
      · simp [warmKept, inWindow, h0, h1]
      · have := out f hf
        omega
    all_goals
      rw [work]
      rfl

end Sys2Proof.Machine

/-! SUPPORT. The boot (R290, R379, R428, R448, R449). -/

namespace Sys2Proof.Machine

variable {s : State} {b : Nat}

theorem slotErr_addr : (slotErr b).addr = Csr.sysBoot := by
  unfold slotErr
  split <;> rfl

theorem slotErr_fits : (slotErr b).fits = true := by
  unfold slotErr
  split <;> rfl

theorem slotErr_apart_state : (slotErr b).apart Csr.sysBoot_STATE = true ∧ Csr.sysBoot_STATE.apart (slotErr b) = true := by
  unfold slotErr
  split <;> exact ⟨rfl, rfl⟩

theorem slotErr_len : (slotErr b).len = 4 := by
  unfold slotErr
  split <;> rfl

theorem State.verifySlot_lt : s.verifySlot b < 16 := by
  unfold State.verifySlot
  dsimp only
  repeat' split
  all_goals decide

/-- The attestation key lies in the security block. -/
theorem State.deriveAk_getF {g : Fld} (h : g.addr < 0x300000) : (s.deriveAk b).getF g = s.getF g := by
  unfold State.deriveAk
  split
  · rfl
  · have cert (i : Nat) : Csr.secAkcert i ≠ g.addr := by
      simp only [Csr.secAkcert]
      omega
    rw [State.getF_setF_apart rfl (Fld.apart_of_addr (by simp only [Csr.secStatus_AK_VALID, Csr.secStatus]; omega))]
    unfold State.getF
    rw [State.rd_putWords_ne fun i _ => cert i]
    rfl

/-- The code that an attempt leaves. -/
def State.slotCode (s : State) (b : Nat) (readErr : Bool) : Nat := if readErr then 9 else s.verifySlot b

theorem State.slotCode_lt {readErr : Bool} : s.slotCode b readErr < 2 ^ (slotErr b).len := by
  rw [slotErr_len, State.slotCode]
  split
  · decide
  · exact State.verifySlot_lt

/-- The fields of a slot that has verified. -/
def bootedSets (b : Nat) : List (Fld × Nat) := [(Csr.rgsFw_BOOTED, b), (slotValid b, 1), (Csr.sysBoot_STATE, 3)]

theorem slotValid_cases : slotValid b = Csr.rgsFwA_VALID ∨ slotValid b = Csr.rgsFwB_VALID := by
  unfold slotValid
  split
  · exact .inl rfl
  · exact .inr rfl

theorem bootedSets_apart : (bootedSets b).Pairwise (fun x y => y.1.apart x.1 = true) ∧ ∀ x ∈ bootedSets b, x.1.fits = true := by
  unfold bootedSets
  obtain h | h := slotValid_cases (b := b) <;> rw [h] <;> exact
    ⟨by simp [Fld.apart, Csr.rgsFw_BOOTED, Csr.rgsFw, Csr.rgsFwA_VALID, Csr.rgsFwA, Csr.rgsFwB_VALID, Csr.rgsFwB,
        Csr.sysBoot_STATE, Csr.sysBoot],
      by simp [Fld.fits, Csr.rgsFw_BOOTED, Csr.rgsFwA_VALID, Csr.rgsFwB_VALID, Csr.sysBoot_STATE]⟩

theorem State.bootedSets_getF {g : Fld} {v : Nat} (h : (g, v) ∈ bootedSets b) : (s.setFs (bootedSets b)).getF g = v % 2 ^ g.len :=
  State.getF_setFs_mem bootedSets_apart.2 bootedSets_apart.1 h

theorem State.trySlot_good {readErr second : Bool} (h : s.slotCode b readErr = 0) : s.trySlot b readErr second =
    ((s.setF (slotErr b) (s.slotCode b readErr)).deriveAk b).setFs (bootedSets b) := by
  unfold State.trySlot
  exact if_pos h

theorem State.trySlot_bad {readErr second : Bool} (h : s.slotCode b readErr ≠ 0) : s.trySlot b readErr second =
    if second then ((s.setF (slotErr b) (s.slotCode b readErr)).setF Csr.sysBoot_STATE 5).setMode 3
    else s.setF (slotErr b) (s.slotCode b readErr) := by
  unfold State.trySlot
  exact if_neg h

theorem State.setMode_getF {g : Fld} {v : Nat} (h : g.addr < 0x300000) : (s.setMode v).getF g = s.getF g :=
  State.getF_setFs_apart fun x hx => by
    simp only [List.mem_cons, List.not_mem_nil, or_false] at hx
    obtain rfl | rfl := hx
    · exact ⟨rfl, Fld.apart_of_addr (by simp only [Csr.secStatus_MODE, Csr.secStatus]; omega)⟩
    · exact ⟨rfl, Fld.apart_of_addr (by simp only [Csr.pmuStatus_MODE, Csr.pmuStatus]; omega)⟩

theorem State.setMode_mode {v : Nat} (h : v < 4) : (s.setMode v).getF Csr.secStatus_MODE = v :=
  (State.getF_setFs_head rfl (by simp [Fld.fits, Fld.apart, Csr.pmuStatus_MODE, Csr.secStatus_MODE, Csr.pmuStatus, Csr.secStatus])).trans
    (Nat.mod_eq_of_lt h)

/-- The slot's code stays in the boot register. -/
theorem State.trySlot_err {readErr second : Bool} : (s.trySlot b readErr second).getF (slotErr b) = s.slotCode b readErr := by
  have code : (s.setF (slotErr b) (s.slotCode b readErr)).getF (slotErr b) = s.slotCode b readErr :=
    (State.getF_setF_same slotErr_fits).trans (Nat.mod_eq_of_lt State.slotCode_lt)
  have low : (slotErr b).addr < 0x300000 := by rw [slotErr_addr]; decide
  by_cases h : s.slotCode b readErr = 0
  · rw [State.trySlot_good h, State.getF_setFs_apart, State.deriveAk_getF low, code]
    intro x hx
    refine ⟨bootedSets_apart.2 x hx, ?_⟩
    simp only [bootedSets, List.mem_cons, List.not_mem_nil, or_false] at hx
    obtain rfl | rfl | rfl := hx
    · exact Fld.apart_of_addr (slotErr_addr ▸ show Csr.rgsFw ≠ Csr.sysBoot by decide)
    · exact Fld.apart_of_addr (by obtain e | e := slotValid_cases (b := b) <;> rw [slotErr_addr, e] <;> decide)
    · exact slotErr_apart_state.2
  · rw [State.trySlot_bad h]
    split
    · rw [State.setMode_getF low, State.getF_setF_apart rfl slotErr_apart_state.2, code]
    · exact code

theorem State.saveSlots_getF {g : Fld} : s.saveSlots.getF g = s.getF g := by
  unfold State.saveSlots
  dsimp only
  split <;> rfl

/-- Settles O37: the slot of an attempt is chosen once, and its code decides what the attempt leaves. -/
theorem bootTriesItsSlots : Obligations.BootTriesItsSlots := by
  refine fun s => ⟨fun hv hs readErr => ?attempt, ⟨rfl, ?_, rfl⟩, fun b readErr second hb => ?slot, fun ms proto h3 => ?ready⟩
  case attempt =>
    intro s0
    have on : ¬ (s.noVaux = true ∨ 2 < s.getF Csr.sysBoot_STATE) := by
      rw [hv]
      simp
      omega
    refine ⟨fun hf => ?_, fun b hf => ?_⟩
    all_goals
      change execBootSlotAttempt readErr s = _
      unfold execBootSlotAttempt
      rw [if_neg on]
      change (match s0.security.first with
        | some b => Host.Outcome.next (s0.trySlot (1 - b) readErr true)
        | none => Host.Outcome.next (s0.chooseSlot.2.trySlot s0.chooseSlot.1 readErr false)) = _
      rw [hf]
  · exact State.saveSlots_getF.trans (State.getF_setF_same rfl)
  case slot =>
    refine ⟨State.trySlot_err, fun hc => ?_, fun hc h2 => ?_, fun hc h2 => ?_⟩
    · rw [State.trySlot_good hc]
      refine ⟨State.bootedSets_getF (g := Csr.sysBoot_STATE) (v := 3) (by simp [bootedSets]),
        (State.bootedSets_getF (g := Csr.rgsFw_BOOTED) (v := b) (by simp [bootedSets])).trans (Nat.mod_eq_of_lt hb), ?_⟩
      refine (State.bootedSets_getF (g := slotValid b) (v := 1) (by simp [bootedSets])).trans ?_
      obtain e | e := slotValid_cases (b := b) <;> rw [e] <;> rfl
    · rw [State.trySlot_bad hc, h2]
      exact ⟨State.getF_setF_apart slotErr_fits slotErr_apart_state.1, rfl⟩
    · rw [State.trySlot_bad hc, h2]
      exact ⟨(State.setMode_getF (by decide)).trans (State.getF_setF_same rfl), State.setMode_mode (by decide)⟩
  case ready => exact if_neg (not_not_intro h3)

end Sys2Proof.Machine

/-! SUPPORT. Fatal faults, the firmware's slots, the anti-rollback counter and the owner fuses (R200, R245, R379 to R383, R392,
R456, R457, R491). -/

namespace Sys2Proof.Machine

variable {s : State}

theorem State.faultCtx_fatal {x st : Nat} : (s.faultCtx x st).fatal = s.fatal ∧ (s.faultCtx x st).partFatal = s.partFatal := by
  unfold State.faultCtx State.sendEvent
  split
  · exact ⟨rfl, rfl⟩
  · rw [State.addF_fatal, State.addF_partFatal]
    exact ⟨rfl, rfl⟩

theorem State.faultCtxs_fatal {l : List Nat} {st : Nat} : (l.foldl (fun t x => t.faultCtx x st) s).fatal = s.fatal ∧
    (l.foldl (fun t x => t.faultCtx x st) s).partFatal = s.partFatal := by
  induction l generalizing s with
  | nil => exact ⟨rfl, rfl⟩
  | cons x r ih => exact ⟨ih.1.trans State.faultCtx_fatal.1, ih.2.trans State.faultCtx_fatal.2⟩

theorem State.mem_partitionFatal {q : Nat} {r : Rec} : q ∈ (s.partitionFatal q r).partFatal := by
  unfold State.partitionFatal
  dsimp only
  rw [State.faultCtxs_fatal.2]
  split
  next h => exact h
  next => exact List.mem_append_right _ (List.mem_singleton.mpr rfl)

theorem State.deviceFatal_fatal {r : Rec} : (s.deviceFatal r).fatal = true := by
  unfold State.deviceFatal
  dsimp only
  rw [State.faultCtxs_fatal.1]

/-- Settles O38: each fault is the step that its rule gives it, and the sets of fatal parts hold what they name. -/
theorem fatalFaults : Obligations.FatalFaults := by
  refine fun s ch frame k => ⟨fun hf => ⟨fun p => if_neg (Nat.not_lt.mpr hf), if_neg (Nat.not_lt.mpr hf)⟩, fun hf p => if_pos hf,
    fun q r => State.mem_partitionFatal, fun r => State.deviceFatal_fatal, fun hw => ⟨if_pos hw, if_pos hw⟩,
    fun hw => ⟨if_neg (ne_true_of_eq_false hw), if_neg (ne_true_of_eq_false hw)⟩⟩

theorem State.saveSlots_slots : s.saveSlots.security.slots.active = s.getF Csr.rgsFw_ACTIVE ∧
    s.saveSlots.security.slots.next = s.getF Csr.rgsFw_NEXT ∧ s.saveSlots.csr = s.csr ∧ s.saveSlots.mem = s.mem := by
  unfold State.saveSlots
  dsimp only
  split
  next h => exact ⟨h.1, h.2.1, rfl, rfl⟩
  next => exact ⟨rfl, rfl, rfl, rfl⟩

/-- A RAISE that asks for something. -/
theorem arbWrite_some {v r : Nat} (h : wroteF v allBits Csr.rgsArb_RAISE = some r) (hr : r ≠ 0) :
    arbWrite s v allBits = if (s.storeBut Csr.rgsArb v allBits [Csr.rgsArb_RAISE]).raiseOk r
      then (s.storeBut Csr.rgsArb v allBits [Csr.rgsArb_RAISE]).setFs
        [(Csr.rgsArb_RAISE, if (s.storeBut Csr.rgsArb v allBits [Csr.rgsArb_RAISE]).flag Csr.rgsArb_BUSY
          then max r ((s.storeBut Csr.rgsArb v allBits [Csr.rgsArb_RAISE]).getF Csr.rgsArb_RAISE) else r), (Csr.rgsArb_BUSY, 1)]
      else (s.storeBut Csr.rgsArb v allBits [Csr.rgsArb_RAISE]).setF Csr.rgsArb_ARB_IGN 1 := by
  obtain ⟨n, rfl⟩ := Nat.exists_eq_succ_of_ne_zero hr
  unfold arbWrite
  simp only [h]

theorem arbWrite_zero {v : Nat} (h : wroteF v allBits Csr.rgsArb_RAISE = some 0) :
    arbWrite s v allBits = s.storeBut Csr.rgsArb v allBits [Csr.rgsArb_RAISE] := by
  unfold arbWrite
  simp only [h]

/-- Settles O39: what each write asks for decides between its effect and its IGN bit. -/
theorem firmwareAndFuses : Obligations.FirmwareAndFuses := by
  refine ⟨fun s port v owner => ⟨?confirm, ?raise, fun hb => if_pos hb⟩, fun s port v => ?fuses⟩
  case confirm =>
    intro s1
    have run : exec (.confirm port .full v) s = .next (fwWrite s v.toNat allBits) := congrArg _ (State.hostWrite_owner owner)
    refine ⟨fun hc => run.trans ?_, fun hc => run.trans ?_, fun t => State.saveSlots_slots⟩
    · unfold fwWrite
      rw [hc]
      rfl
    · unfold fwWrite
      rw [hc]
      rfl
  case raise =>
    intro s1 r hr
    have run : exec (.arbRaise port .full v) s = .next (arbWrite s v.toNat allBits) := congrArg _ (State.hostWrite_owner owner)
    refine ⟨fun h0 => ?_, fun h0 hok => ?_, fun h0 hok => ?_⟩
    · exact run.trans (congrArg _ (arbWrite_zero (h0 ▸ hr)))
    · exact run.trans (congrArg _ ((arbWrite_some hr h0).trans (if_pos hok)))
    · exact run.trans (congrArg _ ((arbWrite_some hr h0).trans (if_neg (ne_true_of_eq_false hok))))
  case fuses =>
    intro s1 f staged bits owner
    have run : exec (.fuseProg port .full v) s = .next (fuseProgWrite s v.toNat allBits) :=
      congrArg _ (State.hostWrite_owner owner)
    refine ⟨fun hg hb => ⟨fun hi => run.trans (congrArg _ ?_), fun hi => run.trans (congrArg _ ?_)⟩, fun h => run.trans (congrArg _ (if_neg ?_)),
      fun x hx => ?_⟩
    · exact (if_pos (by rw [hg, hb]; rfl)).trans (if_pos hi)
    · exact (if_pos (by rw [hg, hb]; rfl)).trans (if_neg (ne_true_of_eq_false hi))
    · obtain h | h := h <;> rw [h] <;> simp
    · change execFuseProgrammingDone s = _
      unfold execFuseProgrammingDone
      rw [hx]

end Sys2Proof.Machine

/-! SUPPORT. The boot flash, attestation and the debug unlock (R454, R462, R466, R467). -/

namespace Sys2Proof.Machine

variable {s : State}

/-! ## The boot flash -/

theorem State.peek_eraseFlash {o n a : Nat} : (s.eraseFlash o n).peek a =
    if flashBase + o ≤ a ∧ a < flashBase + o + n then memDefault a else s.peek a := by
  refine (SMap.get_filter (fun k => !(decide (flashBase + o ≤ k) && decide (k < flashBase + o + n))) a).trans ?_
  by_cases h : flashBase + o ≤ a ∧ a < flashBase + o + n
  · simp [h]
  · rw [if_neg h, if_pos (by simp; omega)]
    rfl

/-- The flash with its operation ended. -/
def State.flashIdle (s : State) : State := (s.withSec (fun x => { x with flash := none })).setF Csr.secFlashCmd_GO 0

theorem exec_flashDone {k n : Nat} (h : s.security.flash = some (k, n)) :
    exec (.flashOperationDone false) s = .next (s.flashIdle.flashEffect k n) := by
  change execFlashOperationDone false s = _
  unfold execFlashOperationDone
  rw [h]
  rfl

theorem exec_flashFail {k n : Nat} (h : s.security.flash = some (k, n)) : exec (.flashOperationDone true) s =
    .next ((if k = 3 then s.flashIdle.flashToBuf n true else s.flashIdle.loseFlash n (flashSpan k)).setF Csr.secFlashCmd_FAIL 1) := by
  change execFlashOperationDone true s = _
  unfold execFlashOperationDone
  rw [h]
  rfl

theorem flashCmdWrite_go {v : Nat} (hg : wrote1 v allBits Csr.secFlashCmd_GO = true)
    (ho : (s.storeBut Csr.secFlashCmd v allBits [Csr.secFlashCmd_GO]).getF Csr.secFlashCmd_OP ≠ 0) :
    let s1 := s.storeBut Csr.secFlashCmd v allBits [Csr.secFlashCmd_GO]
    let op := s1.getF Csr.secFlashCmd_OP
    let o := flashAddr op (s1.getF Csr.secFlashCmd_ADDR)
    flashCmdWrite s v allBits = if s1.flashIgnored op o then s1.setF Csr.secFlashCmd_FLASH_IGN 1
      else (s1.withSec (fun x => { x with flash := some (op, o) })).setF Csr.secFlashCmd_GO 1 :=
  if_pos (by rw [hg, decide_eq_true ho]; rfl)

theorem flashCmdWrite_idle {v : Nat} (h : wrote1 v allBits Csr.secFlashCmd_GO = false ∨
    (s.storeBut Csr.secFlashCmd v allBits [Csr.secFlashCmd_GO]).getF Csr.secFlashCmd_OP = 0) :
    flashCmdWrite s v allBits = s.storeBut Csr.secFlashCmd v allBits [Csr.secFlashCmd_GO] :=
  if_neg (by obtain h | h := h <;> rw [h] <;> simp)

theorem exec_flashCmd {i : Instr} {port : Fin 4} {v : Word} (owner : s.OwnerPort port)
    (h : i = .erase64k port .full v ∨ i = .program4k port .full v ∨ i = .read4k port .full v) :
    exec i s = .next (flashCmdWrite s v.toNat allBits) := by
  have write : s.hostWrite port Csr.secFlashCmd .full v flashCmdWrite = flashCmdWrite s v.toNat allBits := State.hostWrite_owner owner
  obtain rfl | rfl | rfl := h <;> exact congrArg _ write

theorem State.flashIdle_words : s.flashIdle.getWords Csr.secFlashBuf 512 = s.getWords Csr.secFlashBuf 512 := by
  unfold State.getWords
  refine congrArg List.flatten (List.map_congr_left fun i _ => ?_)
  have other : Csr.secFlashBuf i ≠ Csr.secFlashCmd_GO.addr := by
    simp only [Csr.secFlashBuf, Csr.secFlashCmd_GO, Csr.secFlashCmd]
    omega
  rw [State.flashIdle, State.rd_setF_ne other]
  rfl

theorem State.flashToBuf_free {o : Nat} {fail : Bool} (h : (fail || flashOwn o) = true) :
    s.flashToBuf o fail = (s.freeBytes 4096).2.putWords Csr.secFlashBuf 512 (s.freeBytes 4096).1 := if_pos h

theorem State.flashToBuf_read {o : Nat} (h : flashOwn o = false) :
    s.flashToBuf o false = s.putWords Csr.secFlashBuf 512 (s.peekN (flashBase + o) 4096) := if_neg (by rw [h]; decide)

/-- Settles O40: the command register starts an operation, and the operation's number gives its end. -/
theorem flashOperations : Obligations.FlashOperations := by
  intro s port v s1 op o owner
  refine ⟨fun i hi => ⟨fun hg ho => ⟨fun hn => ?_, fun hn => ?_⟩, fun h => ?_⟩, fun k n hf => ?_⟩
  · exact (exec_flashCmd owner hi).trans (congrArg _ ((flashCmdWrite_go hg ho).trans (if_neg (ne_true_of_eq_false hn))))
  · exact (exec_flashCmd owner hi).trans (congrArg _ ((flashCmdWrite_go hg ho).trans (if_pos hn)))
  · exact (exec_flashCmd owner hi).trans (congrArg _ (flashCmdWrite_idle h))
  · intro t
    refine ⟨fun h1 => ?_, fun h2 => ?_, fun h3 own => ?_, fun h3 own => ?_, fun h3 => ?_, fun h3 => ?_⟩
    · subst h1
      exact answers_of (exec_flashDone hf) ⟨rfl, rfl, fun a => State.peek_eraseFlash⟩
    · subst h2
      refine (exec_flashDone hf).trans (congrArg _ ?_)
      change s.flashIdle.pokeN (flashBase + n) (s.flashIdle.getWords Csr.secFlashBuf 512) = _
      rw [State.flashIdle_words]
      rfl
    · subst h3
      exact (exec_flashDone hf).trans (congrArg _ (State.flashToBuf_read own))
    · subst h3
      exact (exec_flashDone hf).trans (congrArg _ (State.flashToBuf_free (by rw [own]; rfl)))
    · subst h3
      rw [exec_flashFail hf, if_pos rfl, State.flashToBuf_free rfl]
      rfl
    · rw [exec_flashFail hf, if_neg h3]
      rfl

end Sys2Proof.Machine

/-! SUPPORT. Attestation and the debug unlock (R462, R466, R467). -/

namespace Sys2Proof.Machine

variable {s : State}

/-- SEC.ATT_CTRL as a write with GO leaves it before GO is judged. -/
def State.attStored (s : State) (v : Nat) : State := s.storeBut Csr.secAttCtrl v allBits [Csr.secAttCtrl_GO]

theorem State.attStored_go {v : Nat} : (s.attStored v).getF Csr.secAttCtrl_GO = s.getF Csr.secAttCtrl_GO :=
  State.getF_storeBut_keep (.inr (by decide +kernel))

theorem State.attStored_rd {v a : Nat} (h : a ≠ Csr.secAttCtrl) : (s.attStored v).rd a = s.rd a := State.rd_storeBut_ne h

theorem attCtrlWrite_go {v : Nat} (h : wrote1 v allBits Csr.secAttCtrl_GO = true) : attCtrlWrite s v allBits =
    if s.flag Csr.secAttCtrl_GO then (s.attStored v).setF Csr.secAttCtrl_ATT_IGN 1
    else if s.flag Csr.secStatus_AK_VALID then (s.attStored v).setF Csr.secAttCtrl_GO 1
    else (s.attStored v).setF Csr.secAttCtrl_NOKEY 1 := by
  have valid : (s.attStored v).flag Csr.secStatus_AK_VALID = s.flag Csr.secStatus_AK_VALID := by
    unfold State.flag State.getF
    rw [State.attStored_rd (by decide)]
  unfold attCtrlWrite
  dsimp only
  rw [h, ← valid]
  rfl

/-- A field of ATT_CTRL set after the store: the other registers and the rest of the state are as they were. -/
theorem State.attStored_setF {v n : Nat} {f : Fld} (hf : f.addr = Csr.secAttCtrl) :
    (∀ a, a ≠ Csr.secAttCtrl → ((s.attStored v).setF f n).rd a = s.rd a) ∧
      (s.attStored v).setF f n = { s with csr := ((s.attStored v).setF f n).csr } :=
  ⟨fun _ ha => (State.rd_setF_ne (hf ▸ ha)).trans (State.attStored_rd ha), rfl⟩

theorem State.getF_of_flag {f : Fld} (h : s.flag f = true) : s.getF f = 1 := of_decide_eq_true h

theorem State.getF_zero_of_flag {f : Fld} (hl : f.len = 1) (h : s.flag f = false) : s.getF f = 0 := by
  have small := State.getF_lt (s := s) (f := f)
  have one := of_decide_eq_false h
  rw [hl] at small
  omega

/-- The report, its body followed by the signature, as the report's registers show it. -/
theorem State.report_spec {bs : List Byte} :
    let t := (s.setF Csr.secAttCtrl_GO 0).putWords Csr.secAttReport 32 bs
    t.getF Csr.secAttCtrl_GO = 0 ∧ t = { s with csr := t.csr } ∧
      ∀ i, i < 32 → t.rd (Csr.secAttReport i) = BitVec.ofNat 64 (fieldAt bs (8 * i) 8) := by
  intro t
  refine ⟨?_, ?_, fun i hi => State.rd_putWords_at (fun i j _ _ h => ?_) hi⟩
  · unfold State.getF
    rw [State.rd_putWords_ne (fun i _ => by simp only [Csr.secAttReport, Csr.secAttCtrl_GO, Csr.secAttCtrl]; omega)]
    exact State.getF_setF_same (s := s) (f := Csr.secAttCtrl_GO) rfl
  · simp only [t]
    rw [State.putWords_rest]
    rfl
  · simp only [Csr.secAttReport] at h
    omega

/-! ## Debug unlock -/

/-- The fields that an unlock sets. -/
def unlockSets : List (Fld × Nat) := [(Csr.secStatus_DEBUG, 1), (Csr.secStatus_AK_VALID, 0)]

/-- The fields that end NORMAL mode. -/
def debugSets : List (Fld × Nat) := [(Csr.secStatus_MODE, 2), (Csr.pmuStatus_MODE, 2)]

theorem State.unlock_eq : s.unlock = if s.getF Csr.secStatus_MODE = 0
    then ((s.withSec (fun x => { x with ak := none })).setFs unlockSets).setFs debugSets
    else (s.withSec (fun x => { x with ak := none })).setFs unlockSets := rfl

theorem State.unlocked_getF {g : Fld} {v : Nat} (h : (g, v) ∈ unlockSets) : s.unlock.getF g = v % 2 ^ g.len := by
  have sets {t : State} : (t.setFs unlockSets).getF g = v % 2 ^ g.len := State.getF_setFs_mem (by decide) (by decide) h
  have apart : ∀ x ∈ debugSets, x.1.fits = true ∧ x.1.apart g = true := by
    simp only [unlockSets, List.mem_cons, Prod.mk.injEq, List.not_mem_nil, or_false] at h
    obtain ⟨rfl, -⟩ | ⟨rfl, -⟩ := h <;> decide
  rw [State.unlock_eq]
  split
  · rw [State.getF_setFs_apart apart, sets]
  · exact sets

theorem State.unlocked_mode (h : s.getF Csr.secStatus_MODE = 0) : s.unlock.getF Csr.secStatus_MODE = 2 ∧
    s.unlock.getF Csr.pmuStatus_MODE = 2 := by
  rw [State.unlock_eq, if_pos h]
  have mode {t : State} : (t.setFs debugSets).getF Csr.secStatus_MODE = 2 :=
    State.getF_setFs_mem (by decide) (by decide) (show (Csr.secStatus_MODE, 2) ∈ debugSets by decide)
  have pmu {t : State} : (t.setFs debugSets).getF Csr.pmuStatus_MODE = 2 :=
    State.getF_setFs_mem (by decide) (by decide) (show (Csr.pmuStatus_MODE, 2) ∈ debugSets by decide)
  exact ⟨mode, pmu⟩

theorem State.unlocked_other (h : s.getF Csr.secStatus_MODE ≠ 0) :
    s.unlock.getF Csr.secStatus_MODE = s.getF Csr.secStatus_MODE := by
  rw [State.unlock_eq, if_neg h, State.getF_setFs_apart (by decide)]
  rfl

theorem State.unlock_rest : s.unlock.security = { s.security with ak := none } ∧ s.unlock.mem = s.mem := by
  rw [State.unlock_eq]
  split <;> simp only [State.setFs_security, State.setFs_mem] <;> exact ⟨rfl, rfl⟩

/-- Settles O41: GO is judged by the report under way and the key, and a response by what the challenge's key verifies. -/
theorem attestationAndUnlock : Obligations.AttestationAndUnlock := by
  refine ⟨fun s port v owner => ⟨fun hg => ?go, fun ak hb hk => ?report, fun hb hk => ?erased⟩, fun s resp => ?debug⟩
  case go =>
    have run : exec (.attGo port .full v) s = .next (attCtrlWrite s v.toNat allBits) := congrArg _ (State.hostWrite_owner owner)
    rw [attCtrlWrite_go hg] at run
    refine ⟨fun hb => ?_, fun hb hk => ?_, fun hb hk => ?_⟩
    · rw [hb] at run
      refine answers_of run ⟨State.getF_setF_same rfl, ?_, State.attStored_setF rfl⟩
      rw [if_pos rfl, State.getF_setF_apart rfl rfl, State.attStored_go, State.getF_of_flag hb]
    · rw [hb, hk] at run
      exact answers_of run ⟨State.getF_setF_same rfl, State.attStored_setF rfl⟩
    · rw [hb, hk] at run
      refine answers_of run ⟨State.getF_setF_same rfl, ?_, State.attStored_setF rfl⟩
      rw [if_neg Bool.false_ne_true, if_neg Bool.false_ne_true, State.getF_setF_apart rfl rfl, State.attStored_go,
        State.getF_zero_of_flag rfl hb]
  case report =>
    refine answers_of (t := (s.setF Csr.secAttCtrl_GO 0).putWords Csr.secAttReport 32 ((s.setF Csr.secAttCtrl_GO 0).reportBody ++
      signature ak (s.setF Csr.secAttCtrl_GO 0).reportBody)) ?_ State.report_spec
    change execAttReportDone s = _
    unfold execAttReportDone
    rw [if_pos hb]
    dsimp only
    rw [hk]
  case erased =>
    change execAttReportDone s = _
    unfold execAttReportDone
    rw [if_pos hb]
    dsimp only
    rw [hk]
  case debug =>
    intro ok
    have free : (s.freeBytes 32).1.length = 32 := (List.length_map _).trans List.length_range
    refine ⟨answers_of (show execDbgChal s = _ from rfl) ⟨rfl, rfl, rfl, ?_, List.drop_left' free, rfl⟩, fun h => ?_, fun h => ?_⟩
    · refine List.length_append.trans ?_
      rw [free, length_leBytes]
    · rw [Bool.and_eq_true, decide_eq_true_eq] at h
      refine answers_of (show execDbgResp resp s = _ from if_pos h) ⟨State.unlock_rest.1, State.unlocked_getF (v := 1) (by decide),
        State.unlocked_getF (v := 0) (by decide), fun h0 => State.unlocked_mode h0, fun h0 => State.unlocked_other h0,
        State.unlock_rest.2⟩
    · refine answers_of (show execDbgResp resp s = _ from if_neg fun g => ?_) ⟨rfl, rfl, rfl⟩
      have good : ok = true := (Bool.and_eq_true _ _).mpr ⟨decide_eq_true g.1, g.2⟩
      rw [h] at good
      exact Bool.noConfusion good

end Sys2Proof.Machine

/-! SUPPORT. The scan instructions (R464). -/

namespace Sys2Proof.Machine

/-- The number whose bits a list gives, lowest first. -/
def bitsNat (l : List Bool) : Nat := l.foldr (fun b a => 2 * a + b.toNat) 0

theorem bitsNat_lt {l : List Bool} : bitsNat l < 2 ^ l.length := by
  induction l with
  | nil => decide
  | cons b r ih =>
    have : b.toNat ≤ 1 := Bool.toNat_le b
    have cons : bitsNat (b :: r) = 2 * bitsNat r + b.toNat := rfl
    rw [cons, List.length_cons, Nat.pow_succ]
    omega

theorem bitOf_bitsNat {l : List Bool} {i : Nat} : bitOf (bitsNat l) i = l.getD i false := by
  induction l generalizing i with
  | nil => simp [bitsNat, bitOf]
  | cons b r ih =>
    have cons : bitsNat (b :: r) = 2 * bitsNat r + b.toNat := rfl
    have low : b.toNat ≤ 1 := Bool.toNat_le b
    rw [cons]
    cases i with
    | zero => cases b <;> simp [bitOf]
    | succ j =>
      rw [List.getD_cons_succ, ← ih, bitOf, bitOf, Nat.pow_succ', ← Nat.div_div_eq_div_mul,
        show (2 * bitsNat r + b.toNat) / 2 = bitsNat r by omega]

/-- Packed bits hold every bit of the list. -/
theorem leNat_packBits {l : List Bool} : leNat (packBits (ceilDiv l.length 8) l) = bitsNat l := by
  have room : 2 ^ l.length ≤ 256 ^ ceilDiv l.length 8 := by
    rw [show (256 : Nat) = 2 ^ 8 from rfl, ← Nat.pow_mul]
    refine Nat.pow_le_pow_right (by decide) ?_
    unfold ceilDiv
    omega
  exact leNat_leBytes.trans (Nat.mod_eq_of_lt (bitsNat_lt.trans_le room))

/-- Settles O42: each instruction is the port's, and what it shifts out is the packed capture or the code. -/
theorem scanInstructions : Obligations.ScanInstructions := by
  intro s captured shifted only
  refine ⟨answers_of exec_bypass ⟨rfl, rfl, rfl, rfl⟩,
    answers_of (show exec .idcode s = .next (s.jtagInsn .idcode .function (leBytes 4 0x1240014B)) from rfl)
      ⟨rfl, rfl, rfl, leNat_leBytes⟩,
    answers_of (show exec (.samplePreload captured shifted) s = .next (s.boundaryScan .samplePreload .function captured shifted) from rfl)
      ⟨rfl, rfl, rfl, rfl, fun i _ => ?_⟩⟩
  change bitOf (leNat (packBits (ceilDiv captured.length 8) captured)) i = _
  rw [leNat_packBits, bitOf_bitsNat]

end Sys2Proof.Machine

/-! SUPPORT. The MIG's entries on objects and tiles (R194 to R197, R206, R212). -/

namespace Sys2Proof.Machine

variable {s : State} {p : Fin 8} {e : MigEntry}

/-! ## PIN and UNPIN -/

/-- Tiles of a list of keys marked as pinned or not. -/
def State.pinKeys (s : State) (ks : List Nat) (v : Bool) : State :=
  ks.foldl (fun t k => t.setTile k { t.tile k with pin := v }) s

theorem State.pinKeys_pin {ks : List Nat} {v : Bool} {k : Nat} (h : k ∈ ks ∨ (s.tile k).pin = v) :
    ((s.pinKeys ks v).tile k).pin = v := by
  induction ks generalizing s with
  | nil => exact h.resolve_left (by simp)
  | cons j r ih =>
    refine ih (s := s.setTile j { s.tile j with pin := v }) ?_
    rw [State.tile_setTile]
    obtain h | h := h
    · obtain rfl | h := List.mem_cons.mp h
      · exact .inr (by rw [if_pos rfl])
      · exact .inl h
    · refine .inr ?_
      split
      · rfl
      · exact h

theorem State.mapTiles_pin {v : Bool} :
    s.mapTiles p e (fun x => { x with pin := v }) = s.pinKeys ((rangeOf e).map (tileKey (objKey p e.obj))) v := by
  unfold State.mapTiles State.pinKeys
  rw [List.foldl_map]

/-! ## QUERY and RESTORE_TILE -/

theorem State.writableAll_ok {ws : List (Nat × Byte)} (h : ∀ w ∈ ws, s.writable p w.1 = .ok ()) : s.writableAll p ws = .ok () := by
  induction ws with
  | nil => rfl
  | cons w r ih =>
    obtain ⟨hw, hr⟩ := List.forall_mem_cons.mp h
    rw [State.writableAll, hw]
    exact ih hr

/-- A record of QUERY whose bytes may be written and land at once is written. -/
theorem State.queryFrom_last {i : Nat} (hw : ∀ w ∈ s.queryBytes p e i, s.writable p w.1 = .ok ())
    (hf : ∀ w ∈ s.queryBytes p e i, w.1 < obWindow ∧ s.writeWaits p w.1 = false) :
    s.queryFrom p e i 1 = (s.writeAll p (s.queryBytes p e i), i + 1, some 0) := by
  have low : (s.queryBytes p e i).any (fun w => decide (obWindow ≤ w.1)) = false :=
    List.any_eq_false.mpr fun w h => by simpa using (hf w h).1
  have free : (s.queryBytes p e i).any (fun w => s.writeWaits p w.1) = false :=
    List.any_eq_false.mpr fun w h => by rw [(hf w h).2]; decide
  unfold State.queryFrom
  simp only [State.writableAll_ok hw, low, free, Bool.false_eq_true, if_false]
  rfl

theorem execQuery_eq (h : s.freshEntry p 8 = some e) (hi : s.earlierActs p e e.obj e.first e.count = false) (h1 : 1 ≤ e.count)
    (h2 : e.count ≤ 4096) (h3 : e.dva % 16 = 0) : exec (.query p) s =
      match (s.queryFrom p e e.done (e.count - e.done)).2.2 with
      | some st => .next ((s.queryFrom p e e.done (e.count - e.done)).1.endEntry p
          { e with done := (s.queryFrom p e e.done (e.count - e.done)).2.1 } st)
      | none => .next ((s.queryFrom p e e.done (e.count - e.done)).1.setEntry p
          { e with done := (s.queryFrom p e e.done (e.count - e.done)).2.1 }) := by
  change execQuery p s = _
  unfold execQuery
  rw [h]
  dsimp only
  rw [hi, if_neg Bool.false_ne_true, if_neg (by omega)] <;> rfl

/-- Settles O44: an entry that passes its checks is carried out and ended, and each record of QUERY is written as it comes. -/
theorem objectsAndTiles : Obligations.ObjectsAndTiles := by
  refine ⟨fun s p e => ⟨fun h => ⟨fun hc => ?create, fun st hc => ?bad⟩, fun h => ⟨fun o ho hw => ?destroy, fun o ho hw => ?kept⟩,
    fun h => ?fence⟩, fun s p e => ?tiles⟩
  case create =>
    change execObjCreate p s = _
    unfold execObjCreate
    rw [h]
    dsimp only
    rw [hc]
  case bad =>
    change execObjCreate p s = _
    unfold execObjCreate
    rw [h]
    dsimp only
    rw [hc]
  case destroy =>
    change execObjDestroy p s = _
    unfold execObjDestroy
    rw [h]
    dsimp only
    rw [ho]
    exact if_neg (ne_true_of_eq_false hw)
  case kept =>
    change execObjDestroy p s = _
    unfold execObjDestroy
    rw [h]
    dsimp only
    rw [ho]
    exact if_pos hw
  case fence =>
    refine answers_of (t := s.endEntry p e 0) ?_ ⟨rfl, rfl, rfl, rfl⟩
    change execFence p s = _
    unfold execFence
    rw [h]
  case tiles =>
    intro idle
    refine ⟨fun h hi => ?_, fun h hi => ?_, fun v i hi => ?_, fun h hi h1 h2 h3 => ?_, fun o bs r h ho hi h1 h2 h3 hp hb => ?_⟩
    · change execPin p s = _
      unfold execPin
      rw [h]
      exact if_neg (ne_true_of_eq_false hi)
    · change execUnpin p s = _
      unfold execUnpin
      rw [h]
      exact if_neg (ne_true_of_eq_false hi)
    · rw [State.mapTiles_pin]
      exact State.pinKeys_pin (.inl (List.mem_map_of_mem hi))
    · intro r
      have run := execQuery_eq h hi h1 h2 h3
      refine ⟨fun st hr => run.trans ?_, fun hr => run.trans ?_, fun hw hd hf => ?_⟩
      · rw [hr]
      · rw [hr]
      · have last : e.count - e.done = 1 := by omega
        simp only [r, last]
        rw [State.queryFrom_last (hw e.done (Nat.le_refl _) (by omega)) hf, hd]
    · intro tk dry hr
      change execRestoreTile p s = _
      unfold execRestoreTile
      rw [h, Option.bind_some, ho]
      dsimp only
      rw [hi, if_neg Bool.false_ne_true, if_neg (by rw [h3]; simp [h1, h2]), if_neg (by rw [hp]; decide)]
      obtain ⟨d, hd⟩ := Option.ne_none_iff_exists'.mp dry
      rw [hd, hb]
      dsimp only
      rw [hr]
      rfl

end Sys2Proof.Machine

/-! SUPPORT. The tiles that the MIG moves, ages and prefetches (R202, R203, R206 to R209, R232). -/

namespace Sys2Proof.Machine

variable {s : State} {p : Fin 8} {e : MigEntry} {t : Nat}

/-! ## PROMOTE and DEMOTE -/

/-- An entry with tiles to act on stays with them. -/
theorem State.settleEntry_todo {x : MigEntry} (h : x.todo ≠ []) : s.settleEntry p x = s.setEntry p x :=
  if_neg (by simp [h])

theorem rangeOf_ne_nil (h : 1 ≤ e.count) : rangeOf e ≠ [] := by
  simp only [rangeOf, ne_eq, List.map_eq_nil_iff, List.range_eq_nil]
  omega

theorem State.setEntry_started {x : MigEntry} :
    ((s.setEntry p x).mig p).started = (s.mig p).started.map (fun y => if y.idx = x.idx then x else y) := by
  rw [State.setEntry, State.mig_setMig, if_pos rfl]

theorem execTileMoveStart_serves {idx : Nat}
    (h : (s.mig p).started.find? (fun e => decide (e.idx = idx) && decide (t ∈ e.todo)) = some e) (hf : s.fatal = false)
    (ha : s.earlierActs p e e.obj t 1 = false) (hw : (s.tile (tileKey (objKey p e.obj) t)).wp = false)
    (hm : (s.tile (tileKey (objKey p e.obj) t)).moving = false) (hn : s.moves.length < 64) :
    exec (.tileMoveStart p idx t) s = .next ((if e.op = 3 then s.startPromote p e t else s.startDemote p e t).settleDestroys p) := by
  change execTileMoveStart p idx t s = _
  unfold execTileMoveStart
  rw [h]
  dsimp only
  rw [hf, ha, hw, hm, decide_eq_false (Nat.not_le.mpr hn)]
  rfl

section Start

variable (s p e t)

/-- The key of tile `t` of an entry's object. -/
abbrev entryTile : Nat := tileKey (objKey p e.obj) t

/-- A tile of an entry starts to move. -/
def State.startTileMove (m : Move) : State :=
  (s.setEntry p { e with todo := e.todo.erase t, moving := e.moving + 1 }).beginMove m

theorem State.startPromote_skip (h : (s.tile (entryTile p e t)).sram = true ∨ (s.tile (entryTile p e t)).poison = true ∨
    bitOf (s.getF (Csr.migPartSlices_MASK p)) (promoteSlice e t) = false) : s.startPromote p e t = s.skipTile p e t :=
  if_pos (by obtain h | h | h := h <;> rw [h] <;> simp)

theorem State.startPromote_frame (h0 : (s.tile (entryTile p e t)).sram = false) (h1 : (s.tile (entryTile p e t)).poison = false)
    (h2 : bitOf (s.getF (Csr.migPartSlices_MASK p)) (promoteSlice e t) = true) :
    s.startPromote p e t = match (s.promoteFrame p (promoteSlice e t) 0).1 with
      | none => (s.promoteFrame p (promoteSlice e t) 0).2.skipTile p e t
      | some f => if (s.tile (entryTile p e t)).zero
        then (((s.promoteFrame p (promoteSlice e t) 0).2.addSram p 1).toSram (entryTile p e t) (promoteSlice e t) f).tileDone p e t
        else ((s.promoteFrame p (promoteSlice e t) 0).2.addSram p 1).startTileMove p e t
          ⟨entryTile p e t, some (p, e.idx), none, true, promoteSlice e t, f⟩ := by
  unfold State.startPromote
  dsimp only
  rw [if_neg (by rw [h0, h1, h2]; decide)] <;> rfl

theorem State.startDemote_skip (h : (s.tile (entryTile p e t)).sram = false ∨ (s.tile (entryTile p e t)).pin = true ∨
    (s.tile (entryTile p e t)).noHome = true ∨ (s.tile (entryTile p e t)).poison = true) : s.startDemote p e t = s.skipTile p e t :=
  if_pos (by obtain h | h | h | h := h <;> rw [h] <;> simp)

theorem State.startDemote_move (h0 : (s.tile (entryTile p e t)).sram = true) (h1 : (s.tile (entryTile p e t)).pin = false)
    (h2 : (s.tile (entryTile p e t)).noHome = false) (h3 : (s.tile (entryTile p e t)).poison = false) :
    s.startDemote p e t = if (s.tile (entryTile p e t)).zero || !(s.tile (entryTile p e t)).dirty
      then (s.toSlow (entryTile p e t)).tileDone p e t
      else s.startTileMove p e t ⟨entryTile p e t, some (p, e.idx), none, false, 0, 0⟩ := by
  unfold State.startDemote
  dsimp only
  rw [if_neg (by rw [h0, h1, h2, h3]; decide)]
  rfl

end Start

/-! ## Aging -/

theorem State.agedTiles {u : State} {l : List (Nat × TileEntry)} (h : ∀ e ∈ l, e.2 = s.tile e.1) :
    let v := l.foldl (fun t e => t.setTile e.1 (aged e.2)) u
    v = { u with tiles := v.tiles } ∧ ∀ k, v.tile k = if k ∈ l.map Prod.fst then aged (s.tile k) else u.tile k := by
  induction l generalizing u with
  | nil => exact ⟨rfl, fun _ => rfl⟩
  | cons e r ih =>
    obtain ⟨he, hr⟩ := List.forall_mem_cons.mp h
    obtain ⟨rest, tiles⟩ := ih (u := u.setTile e.1 (aged e.2)) hr
    refine ⟨rest, fun k => (tiles k).trans ?_⟩
    rw [State.tile_setTile, List.map_cons]
    by_cases hk : k = e.1
    · rw [if_pos hk, he, hk, if_pos List.mem_cons_self, ite_self]
    · rw [if_neg hk]
      simp only [List.mem_cons, hk, false_or]

/-- The SRAM tiles of partitions in POOL mode are the keys that a tick ages. -/
theorem State.aging_keys (wf : SMap.wf (fun _ => TileEntry.absent) s.tiles = true) {k : Nat} :
    k ∈ (s.tiles.filter (fun e => e.2.sram && s.pool (partOfTile e.1))).map Prod.fst ↔
      ((s.tile k).sram && s.pool (partOfTile k)) = true := by
  constructor
  · intro h
    obtain ⟨e, he, rfl⟩ := List.mem_map.mp h
    obtain ⟨mem, keep⟩ := List.mem_filter.mp he
    have own : s.tile e.1 = e.2 := SMap.get_of_mem wf mem
    rwa [own]
  · intro h
    obtain absent | mem := SMap.get_eq_or_mem (m := s.tiles) (d := fun _ => TileEntry.absent) (k := k)
    · have none : s.tile k = TileEntry.absent := absent
      rw [none] at h
      exact absurd h (by simp [TileEntry.absent])
    · exact List.mem_map.mpr ⟨_, List.mem_filter.mpr ⟨mem, h⟩, rfl⟩

/-! ## Prefetch -/

theorem execMprefPromotion_serves {die : Fin 2} {r : PrefReq} (h : s.prefq.find? (fun r => decide (r.cls / 32 = die.val)) = some r)
    (hf : s.fatal = false) (hw : s.migWaits = false) (hn : s.moves.length < 64) (hp : (s.tile r.tile).wp = false) :
    exec (.mprefPromotion die) s = .next ({ s with prefq := s.prefq.erase r }.prefServe r) := by
  change execMprefPromotion die s = _
  unfold execMprefPromotion
  rw [h]
  dsimp only
  rw [hf, hw, hp, decide_eq_false (Nat.not_le.mpr hn)]
  rfl

theorem State.prefServe_dropped {r : PrefReq} (h : (s.tile r.tile).valid = false ∨ (s.tile r.tile).poison = true) :
    s.prefServe r = s.addF (Csr.clsMprefDrop_DROPPED r.cls) 1 :=
  if_pos (by obtain h | h := h <;> rw [h] <;> simp)

/-- A prefetch of a good tile of an object that stays. -/
theorem State.prefServe_good {r : PrefReq} {o : Obj} (ho : s.obj (r.tile / 16777216) = some o) (hd : o.dying = false)
    (hv : (s.tile r.tile).valid = true) (hp : (s.tile r.tile).poison = false) :
    s.prefServe r = if (s.tile r.tile).sram || (s.tile r.tile).moving then s.addF (Csr.clsMprefDrop_RESIDENT r.cls) 1
      else if !bitOf (s.getF (Csr.migPartSlices_MASK (partOfTile r.tile))) r.cls then s.addF (Csr.clsMprefDrop_DROPPED r.cls) 1
      else match (s.promoteFrame (partOfTile r.tile) r.cls (s.getF Csr.migCtrl_PREF_AGE)).1 with
        | none => (s.promoteFrame (partOfTile r.tile) r.cls (s.getF Csr.migCtrl_PREF_AGE)).2.addF (Csr.clsMprefDrop_DROPPED r.cls) 1
        | some f => if (s.tile r.tile).zero
          then ((((s.promoteFrame (partOfTile r.tile) r.cls (s.getF Csr.migCtrl_PREF_AGE)).2.addSram (partOfTile r.tile) 1).toSram
            r.tile r.cls f)).addF (Csr.clsMprefStat_PROMOTED r.cls) 1
          else ((s.promoteFrame (partOfTile r.tile) r.cls (s.getF Csr.migCtrl_PREF_AGE)).2.addSram (partOfTile r.tile) 1).beginMove
            ⟨r.tile, none, some r.cls, true, r.cls, f⟩ := by
  unfold State.prefServe
  dsimp only
  rw [ho]
  dsimp only
  rw [if_neg (by rw [hv, hp, hd]; decide)] <;> rfl

/-- Settles O45: what stands in the way of a tile is asked in the order of the rules, and the rest is the move. -/
theorem tilesMove : Obligations.TilesMove := by
  refine ⟨fun s p e => ?moves, fun s hf => ⟨fun ht wf => ?aging, fun die r h hw hn hp => ?prefetch⟩⟩
  case moves =>
    intro waiting
    have waits (hc : 1 ≤ e.count) : s.settleEntry p waiting = s.setEntry p waiting := State.settleEntry_todo (rangeOf_ne_nil hc)
    refine ⟨fun h hs hc => ?promote, fun h hs => ?noSlice, fun h hc => ?demote, fun idx t h hf ha hw hm hn => ?start,
      fun n k m h hf => ?switch⟩
    case promote =>
      refine answers_of (t := s.setEntry p waiting) ?_ ⟨rfl, State.setEntry_started⟩
      change execPromote p s = _
      unfold execPromote
      rw [h]
      dsimp only
      rw [if_neg hs]
      exact congrArg _ (waits hc)
    case noSlice =>
      change execPromote p s = _
      unfold execPromote
      rw [h]
      exact if_pos hs
    case demote =>
      refine answers_of (t := s.setEntry p waiting) ?_ ⟨rfl, State.setEntry_started⟩
      change execDemote p s = _
      unfold execDemote
      rw [h]
      exact congrArg _ (waits hc)
    case start =>
      intro tk x i skip done start
      have run : exec i s = _ := execTileMoveStart_serves h hf ha hw hm hn
      refine ⟨fun h3 => ?_, fun h3 => ?_⟩
      · intro sl g
        rw [run, if_pos h3]
        refine ⟨fun hx => ?_, fun h0 h1 h2 => ⟨fun hg => ?_, fun f hg hz => ?_, fun f hg hz => ?_⟩⟩
        · rw [State.startPromote_skip s p e t hx]
          rfl
        all_goals rw [State.startPromote_frame s p e t h0 h1 h2, hg]
        · rfl
        · exact congrArg (fun u => Host.Outcome.next (State.settleDestroys u p)) (if_pos hz)
        · exact congrArg (fun u => Host.Outcome.next (State.settleDestroys u p)) (if_neg (ne_true_of_eq_false hz))
      · rw [run, if_neg h3]
        refine ⟨fun hx => ?_, fun h0 h1 h2 h4 => ⟨fun hz => ?_, fun hz hd => ?_⟩⟩
        · rw [State.startDemote_skip s p e t hx]
          rfl
        all_goals rw [State.startDemote_move s p e t h0 h1 h2 h4]
        · exact congrArg (fun u => Host.Outcome.next (State.settleDestroys u p)) (if_pos (by simpa using hz))
        · exact congrArg (fun u => Host.Outcome.next (State.settleDestroys u p)) (if_neg (by rw [hz, hd]; decide))
    case switch =>
      intro s1
      have run : exec (.tileEntrySwitch n k) s = .next (if m.toSram then (s1.toSram m.key m.slice m.frame).endMove m true
          else (s1.toSlow m.key).endMove m true) := by
        change execTileEntrySwitch n k s = _
        unfold execTileEntrySwitch
        rw [h]
        dsimp only
        rw [hf, if_neg Bool.false_ne_true, ← apply_ite Host.Outcome.next]
        rfl
      exact ⟨fun hm => run.trans (congrArg _ (if_pos hm)), fun hm => run.trans (congrArg _ (if_neg (ne_true_of_eq_false hm)))⟩
  case aging =>
    obtain ⟨rest, tiles⟩ := State.agedTiles (s := s) (u := s) (l := s.tiles.filter (fun e => e.2.sram && s.pool (partOfTile e.1)))
      (fun e he => (SMap.get_of_mem wf (List.mem_of_mem_filter he)).symm)
    refine answers_of (if_neg (by rw [hf]; simp [ht])) ⟨rest, fun k => (tiles k).trans ?_⟩
    simp only [State.aging_keys wf]
    rfl
  case prefetch =>
    intro e p s1 i
    have run : exec i s = .next (s1.prefServe r) := execMprefPromotion_serves h hf hw hn hp
    rw [run]
    refine ⟨fun hx => congrArg _ (State.prefServe_dropped hx), fun o ho hd hv hpo => ?_⟩
    rw [State.prefServe_good (s := s1) ho hd hv hpo]
    refine ⟨fun hx => congrArg _ (if_pos ((Bool.or_eq_true _ _).mpr hx)), fun h0 h1 hm => ?_⟩
    intro g
    have there : ¬ ((s1.tile r.tile).sram || (s1.tile r.tile).moving) = true := by
      change ¬ (e.sram || e.moving) = true
      rw [h0, h1]
      decide
    have slice : ¬ (!bitOf (s1.getF (Csr.migPartSlices_MASK (partOfTile r.tile))) r.cls) = true := by
      change ¬ (!bitOf (s.getF (Csr.migPartSlices_MASK p)) r.cls) = true
      rw [hm]
      decide
    rw [if_neg there, if_neg slice]
    have frame : s1.promoteFrame (partOfTile r.tile) r.cls (s1.getF Csr.migCtrl_PREF_AGE) = g := rfl
    rw [frame]
    refine ⟨fun hg => ?_, fun f hg hz => ?_, fun f hg hz => ?_⟩
    all_goals rw [hg]
    · exact congrArg _ (if_pos hz)
    · exact congrArg _ (if_neg (ne_true_of_eq_false hz))

end Sys2Proof.Machine

/-! SUPPORT. The rings of the MIG (R205, R207, R266). -/

namespace Sys2Proof.Machine

variable {s : State} {p : Fin 8} {i : Nat}

theorem execMigEntryRead_reads (hf : s.fatal = false) (hn : s.migNext p ≠ s.getF (Csr.migPartQTail_TAIL p))
    (hs : (s.mig p).started.any (fun e => e.fresh) = false) : exec (.migEntryRead p) s = .next (s.migRead p) :=
  if_neg (by rw [hf, hs]; simp [hn])

/-- The slot of the MIG's next entry. -/
def State.migSlot (s : State) (p : Nat) : Nat :=
  s.getF (Csr.migPartQBase_DVA p) + 64 * (s.migNext p % 2 ^ s.getF (Csr.migPartQBase_LOG2 p))

theorem State.countHit_mem {x : AccErr} : (s.countHit x).mem = s.mem := by
  cases x with
  | access d => rfl
  | poison d => exact State.addF_mem _ _ _

theorem State.migRead_access {d : Nat} (h : s.readObjs p (s.migSlot p) 64 = .error (.access d)) : s.migRead p =
    (s.countHit (.access d)).setMig p { s.mig p with started := (s.mig p).started ++ [unreadMig (s.migNext p) 0x0D] } := by
  unfold State.migRead
  unfold State.migSlot at h
  simp only [h]

theorem State.migRead_poison {d : Nat} (h : s.readObjs p (s.migSlot p) 64 = .error (.poison d)) : s.migRead p =
    (s.countHit (.poison d)).setMig p { s.mig p with started := (s.mig p).started ++ [unreadMig (s.migNext p) 0x10] } := by
  unfold State.migRead
  unfold State.migSlot at h
  simp only [h]

theorem State.migRead_ok {b : List Byte} (h : s.readObjs p (s.migSlot p) 64 = .ok b)
    (hb : bitOf (fieldAt b 1 1) 0 = true → (s.mig p).started = []) (hd : s.entryDying p (parseMig (s.migNext p) b) = false) :
    s.migRead p = (s.touch p [s.migSlot p]).setMig p { s.mig p with started := (s.mig p).started ++
      [if s.entryOk p b (parseMig (s.migNext p) b) then parseMig (s.migNext p) b
        else { parseMig (s.migNext p) b with fresh := false, status := some 0x0E }] } := by
  have first : (bitOf (fieldAt b 1 1) 0 && !(s.mig p).started.isEmpty) = false := by
    cases hx : bitOf (fieldAt b 1 1) 0
    · rfl
    · rw [hb hx]
      rfl
  unfold State.migRead
  unfold State.migSlot at h
  simp only [h]
  rw [first, hd, if_neg (by decide)]
  rfl

theorem State.started_setMig {q : MigQueue} : ((s.setMig p q).mig p).started = q.started := by
  rw [State.mig_setMig, if_pos rfl]

/-- A completion that waits for its tile changes neither memory, nor the entries, nor the ring's HEAD. -/
theorem State.stall_migs {src : HoldSrc} {as : List Nat} : (s.stall src p as).migs = s.migs ∧
    (s.stall src p as).getF (Csr.migPartQHead_HEAD p) = s.getF (Csr.migPartQHead_HEAD p) := by
  have count : (Csr.rgsPartStall_COUNT p).apart (Csr.migPartQHead_HEAD p) = true := Fld.apart_of_addr (by
    simp only [Csr.rgsPartStall_COUNT, Csr.rgsPartStall, Csr.migPartQHead_HEAD, Csr.migPartQHead]
    omega)
  have stat : Csr.migStat_WSTALL.apart (Csr.migPartQHead_HEAD p) = true := Fld.apart_of_addr (by
    simp only [Csr.migStat_WSTALL, Csr.migStat, Csr.migPartQHead_HEAD, Csr.migPartQHead]
    omega)
  unfold State.stall
  dsimp only
  split
  · exact ⟨rfl, rfl⟩
  · refine ⟨?_, ?_⟩
    · split <;> split <;> simp only [State.addF_migs]
    · change State.getF (if _ then _ else _ : State) _ = _
      split
      · rw [State.getF_addF_apart rfl count]
        split
        · exact State.getF_addF_apart rfl stat
        · rfl
      · split
        · exact State.getF_addF_apart rfl stat
        · rfl

/-- Settles O46: an entry is read into the queue, and the oldest leaves it by its record. -/
theorem migEntriesComplete : Obligations.MigEntriesComplete := by
  refine fun s p hf => ⟨fun hn hs => ?read, fun e r st hq hst => ?complete, fun st hu => ?timer⟩
  case read =>
    intro i slot
    have run := execMigEntryRead_reads hf hn hs
    refine ⟨fun x hx => ?_, fun b hb h1 hd => ?_⟩
    · cases x with
      | access d =>
        rw [State.migRead_access hx] at run
        exact answers_of run ⟨State.started_setMig, (State.setMig_mem _ _ _).trans State.countHit_mem⟩
      | poison d =>
        rw [State.migRead_poison hx] at run
        exact answers_of run ⟨State.started_setMig, (State.setMig_mem _ _ _).trans State.countHit_mem⟩
    · rw [State.migRead_ok hb h1 hd] at run
      exact answers_of run ⟨State.started_setMig, (State.setMig_mem _ _ _).trans State.touch_mem⟩
  case complete =>
    intro slot s1 s2
    have run : exec (.migCompletion p) s = if s.ringWaits p slot 16 then .next (s.stall (.record 0 p) p (spread slot 16))
        else .next (if st = 0 then s2 else s2.sendMigCq p st) := by
      change execMigCompletion p s = _
      unfold execMigCompletion
      rw [hq]
      dsimp only
      rw [hst]
      dsimp only
      rw [hf, if_neg Bool.false_ne_true]
    refine ⟨fun hw => run.trans (if_neg (ne_true_of_eq_false hw)), fun hw => answers_of (run.trans (if_pos hw))
      ⟨State.stall_same.1, ?_, State.stall_migs.2⟩⟩
    unfold State.mig at hq ⊢
    rw [State.stall_migs.1, hq]
  case timer =>
    have run : exec (.migCqEventTimer p) s = .next (s.sendMigCq p st) := by
      change execMigCqEventTimer p s = _
      unfold execMigCqEventTimer
      rw [hu]
    have gone : ((s.setMig p { s.mig p with unannounced := none }).mig p).unannounced = none := by
      rw [State.mig_setMig, if_pos rfl]
    refine answers_of run ⟨?_, ?_, fun h3 => ?_⟩
    · unfold State.sendMigCq State.sendEvent
      split
      · exact gone
      · rw [State.addF_mig]
        exact gone
    · unfold State.sendMigCq State.sendEvent
      split
      · rfl
      · rw [State.addF_mem, State.setMig_mem]
    · rw [State.sendMigCq, State.sendEvent_up h3]
      exact ⟨rfl, rfl⟩

end Sys2Proof.Machine

/-! SUPPORT. Why the count of poisoned tiles does not rise by one for every tile number (R202, R210): a tile number past the 2^24 of
an object names, by its key, a partition past the eighth, and the ring of such a partition lies over the MIG's registers. -/

namespace Sys2Proof.Machine

/-- The partition past the eighth whose first record lies over MIG.POISON. -/
def strayPart : Nat := 0x838

/-- After reset, but for the word where that partition would have its EN. -/
def strayState : State := State.reset.wr (Csr.sysPartCfg strayPart) 1

/-- The tile number, counted from the first object of partition 0, whose key names that partition. -/
def strayTile : Nat := strayPart * 2 ^ 44

theorem stray_tiles_before : strayState.getF Csr.migPoison_TILES = 0 := by decide +kernel

/-- The record of the poisoned tile is written over the count. -/
theorem stray_tiles_after : (strayState.poisonTile (tileKey (objKey 0 0) strayTile) 0).getF Csr.migPoison_TILES = 0 := by
  decide +kernel

/-- Refutes O47: the clause on MIG.POISON holds for every tile number, and fails for one whose key names a partition past the
eighth: the record of the poisoned tile then overwrites the count, which stays 0. -/
theorem not_errorsAndFailures : ¬ Obligations.ErrorsAndFailures := by
  intro h
  obtain ⟨⟨-, -, poisons⟩, -⟩ := h.1 strayState 0 0 strayTile 0 0
  obtain ⟨-, tiles⟩ := poisons 0
  have count : (strayState.poisonTile (tileKey (objKey 0 0) strayTile) 0).getF Csr.migPoison_TILES =
    min (strayState.getF Csr.migPoison_TILES + 1) (2 ^ Csr.migPoison_TILES.len - 1) := tiles
  rw [stray_tiles_before, stray_tiles_after] at count
  exact absurd count (by decide)

end Sys2Proof.Machine

/-! SUPPORT. The sorters of the channels (R203, R217 to R227). -/

namespace Sys2Proof.Machine

variable {s : State} {ch : Fin 48} {r : SortReq}

/-! ## Admission -/

theorem State.showTags_room {w : Requester} {c : Nat} : (s.showTags w).room c = s.room c := by
  unfold State.showTags
  dsimp only
  split
  · rw [State.setFs_room]
  · rw [State.setF_room]
  · rfl

theorem State.setSorter_room {k : Nat} {q : Sorter} {l : List Requester} {c : Nat} : (s.setSorter k q l).room c = s.room c := by
  unfold State.setSorter
  dsimp only
  generalize hu : State.setFs _ _ = u
  have base : u.room c = s.room c := by rw [← hu, State.setFs_room]; rfl
  rw [← base]
  clear hu base
  induction l generalizing u with
  | nil => rfl
  | cons w r ih => exact (ih (u.showTags w)).trans State.showTags_room

/-- Where a channel takes a request, or parks it. -/
theorem State.admitChannel_some (h1 : s.getF (Csr.memStatus_STATE ch) = 1) (h2 : s.tagFree r.who = true) (h3 : s.parkedBy r.who < 8) :
    s.admitChannel ch r = some (if (s.sorter ch).buffered r || (s.bankRoom ch r && (s.sorter ch).noneParked r)
      then s.setSorter ch ((s.sorter ch).accept r) [r.who]
      else (s.addF (Csr.memHot_COUNT ch) 1).setSorter ch { s.sorter ch with parked := (s.sorter ch).parked ++ [r] } [r.who]) := by
  unfold State.admitChannel
  dsimp only
  rw [if_neg (by rw [h1, h2]; simp; omega), apply_ite some]

theorem State.admitChannel_none (h : s.getF (Csr.memStatus_STATE ch) ≠ 1 ∨ s.tagFree r.who = false ∨ 8 ≤ s.parkedBy r.who) :
    s.admitChannel ch r = none :=
  if_pos (by simpa using h)

theorem State.admitChannel_room {t : State} {c : Nat} (h : s.admitChannel ch r = some t) : t.room c = s.room c := by
  unfold State.admitChannel at h
  dsimp only at h
  split at h
  · exact absurd h (by simp)
  · split at h
    · rw [← Option.some.inj h, State.setSorter_room]
    · rw [← Option.some.inj h, State.setSorter_room, State.addF_room]

/-- The requester is not the prefetcher of an M engine, nor an M engine's read while its prefetcher runs. -/
def State.plain (s : State) (r : SortReq) : Prop :=
  ∀ c, r.who ≠ .mPrefetch c ∧ (r.who = .mDemand c → r.write = true ∨ (s.room c).prefetch = none)

/-- A plain request for a channel is admitted there, or its requester stalls. -/
theorem State.request_channel (h : s.plain r) : s.request (.channel ch) r = (s.admitChannel ch r).getD s := by
  unfold State.request
  cases hw : r.who with
  | mPrefetch c => exact absurd hw (h c).1
  | mDemand c =>
    dsimp only
    rw [if_neg Bool.false_ne_true]
    obtain wr | none := (h c).2 hw
    · rw [if_pos wr]
      rfl
    · split
      · rfl
      · have miss : s.prefetchHit c (.channel ch) r = .none := by
          unfold State.prefetchHit
          rw [none]
        rw [miss]
        change ((s.admitChannel ch r).map (fun t => t.moveDemand c (.channel ch) r)).getD s = _
        cases ha : s.admitChannel ch r with
        | none => rfl
        | some t =>
          have still : (t.room c).prefetch = .none := by rw [State.admitChannel_room ha, none]
          change t.moveDemand c (.channel ch) r = t
          unfold State.moveDemand
          rw [still]
  | _ => rfl

theorem exec_request_channel {who : Requester} {p : Fin 8} {frame : Fin 262144} {block first : Fin 256} {len : Nat} {write : Bool}
    {ecc : Ecc} (h : (⟨who, p, frame, block, first, len, write, false, []⟩ : SortReq).ok = true) :
    exec (.requestAdmission (.channel ch) who p frame block first len write ecc) s =
      .next (s.request (.channel ch) ⟨who, p, frame, block, first, len, write, false, []⟩) := by
  change execRequestAdmission (.channel ch) who p frame block first len write ecc s = _
  unfold execRequestAdmission
  dsimp only
  rw [h]
  cases ecc <;> rfl

/-! ## What the buffers do with a request -/

theorem Sorter.accept_write {q : Sorter} (h : r.write = true) (hl : q.wbuf.length < 64) :
    q.accept r = { q with wbuf := q.wbuf ++ [r] } :=
  if_pos (by rw [h, decide_eq_true hl]; rfl)

theorem Sorter.accept_buffered {q : Sorter} (h : q.buffered r = true) : q.accept r = q := by
  have read : r.write = false := by
    unfold Sorter.buffered at h
    rw [Bool.and_eq_true, Bool.not_eq_true'] at h
    exact h.1
  unfold Sorter.accept
  rw [read, if_neg (by simp), if_pos h]

theorem Sorter.accept_waiting {q : Sorter} (h : r.write = false) (hb : q.buffered r = false)
    (hn : q.waiting.any (fun x => sameRead x r) = false) : q.accept r = { q with waiting := q.waiting ++ [r] } := by
  unfold Sorter.accept
  rw [h, hb, hn]
  rfl

/-! ## Transfers -/

/-- `addF` of 0 or 1, as a condition says. -/
theorem State.getF_addF_toNat {f : Fld} {b : Bool} (hf : f.fits = true) :
    (if b then s.addF f 1 else s).getF f = min (s.getF f + b.toNat) (2 ^ f.len - 1) := by
  cases b
  · have := State.getF_lt (s := s) (f := f)
    simp only [Bool.false_eq_true, if_false, Bool.toNat_false]
    omega
  · exact State.getF_addF_same hf

theorem State.onlyFields_addF_if {f : Fld} {b : Prop} [Decidable b] (hf : f.fits = true) :
    s.OnlyFields (if b then s.addF f 1 else s) [f] := by
  split
  · exact State.onlyFields_addF hf
  · exact ⟨rfl, fun _ _ _ => rfl⟩

theorem State.countTransfer_eq {k : Nat} {ecc : Ecc} {link : LinkEcc} :
    ∃ s1 s2 : State, s1 = s.addF (Csr.memUe_RETRIES k) (linkRetries link) ∧
      s2 = (if linkMended link then s1.addF (Csr.memCe_LINK k) 1 else s1) ∧
      s.countTransfer k ecc link = if decide (ecc = .corrected) = true then s2.addF (Csr.memCe_ONDIE k) 1 else s2 := by
  refine ⟨_, _, rfl, rfl, ?_⟩
  cases ecc <;> rfl

/-- A transfer's counts. -/
theorem State.countTransfer_spec {ecc : Ecc} {link : LinkEcc} :
    s.OnlyFields (s.countTransfer ch ecc link) [Csr.memUe_RETRIES ch, Csr.memCe_LINK ch, Csr.memCe_ONDIE ch] ∧
    (s.countTransfer ch ecc link).getF (Csr.memUe_RETRIES ch) =
      min (s.getF (Csr.memUe_RETRIES ch) + linkRetries link) (2 ^ (Csr.memUe_RETRIES ch).len - 1) ∧
    (s.countTransfer ch ecc link).getF (Csr.memCe_LINK ch) =
      min (s.getF (Csr.memCe_LINK ch) + (linkMended link).toNat) (2 ^ (Csr.memCe_LINK ch).len - 1) ∧
    (s.countTransfer ch ecc link).getF (Csr.memCe_ONDIE ch) =
      min (s.getF (Csr.memCe_ONDIE ch) + (decide (ecc = .corrected)).toNat) (2 ^ (Csr.memCe_ONDIE ch).len - 1) := by
  obtain ⟨s1, s2, h1, h2, e⟩ := State.countTransfer_eq (s := s) (k := ch) (ecc := ecc) (link := link)
  have only1 : s.OnlyFields s1 [Csr.memUe_RETRIES ch] := h1 ▸ State.onlyFields_addF rfl
  have only2 : s1.OnlyFields s2 [Csr.memCe_LINK ch] := h2 ▸ State.onlyFields_addF_if rfl
  have only3 : s2.OnlyFields (s.countTransfer ch ecc link) [Csr.memCe_ONDIE ch] := e ▸ State.onlyFields_addF_if rfl
  have ue {g : Fld} (h : g.addr = Csr.memCe ch) : (Csr.memUe_RETRIES ch).apart g = true ∧ g.apart (Csr.memUe_RETRIES ch) = true := by
    constructor <;> refine Fld.apart_of_addr ?_ <;> simp only [h, Csr.memUe_RETRIES, Csr.memUe, Csr.memCe] <;> omega
  have ce : (Csr.memCe_LINK ch).apart (Csr.memCe_ONDIE ch) = true ∧ (Csr.memCe_ONDIE ch).apart (Csr.memCe_LINK ch) = true := by
    simp [Fld.apart, Csr.memCe_LINK, Csr.memCe_ONDIE]
  refine ⟨(only1.trans only2).trans only3, ?_, ?_, ?_⟩
  · rw [only3.apart _ rfl (by simpa using (ue rfl).2), only2.apart _ rfl (by simpa using (ue rfl).2), h1, State.getF_addF_same rfl]
  · rw [only3.apart _ rfl (by simpa using ce.2), h2, State.getF_addF_toNat rfl, only1.apart _ rfl (by simpa using (ue rfl).1)]
  · rw [e, State.getF_addF_toNat rfl, only2.apart _ rfl (by simpa using ce.1), only1.apart _ rfl (by simpa using (ue rfl).1)]

theorem State.transfer_good {ecc : Ecc} {link : LinkEcc} (h : ecc ≠ .uncorrectable) (hl : link ≠ .failed) :
    s.transfer ch r ecc link = s.countTransfer ch ecc link :=
  if_neg (by simp [h, hl])

/-- A transfer that is lost poisons the tile that its frame holds. -/
theorem State.transfer_lost {ecc : Ecc} {link : LinkEcc} {tk : Nat} (ht : s.tileIn (.channel ch) r.frame = some tk)
    (h : ecc = .uncorrectable ∨ link = .failed) (hp : (s.tile tk).poison = false) (hz : (s.tile tk).zero = false) :
    s.transfer ch r ecc link = (s.countTransfer ch ecc link).failTile tk := by
  have rest := (State.countTransfer_spec (s := s) (ch := ch) (ecc := ecc) (link := link)).1.rest
  have tile : (s.countTransfer ch ecc link).tileIn (.channel ch) r.frame = some tk := by
    rw [rest]
    exact ht
  have entry : (s.countTransfer ch ecc link).tile tk = s.tile tk := by rw [rest]; rfl
  unfold State.transfer
  dsimp only
  rw [if_pos (by simpa using h)]
  unfold State.failFrameAt
  rw [tile]
  dsimp only
  rw [entry, hp, hz]
  rfl

/-! ## Service -/

theorem State.drainBank_some {b : Nat} {w : SortReq} {ecc : Ecc} {link : LinkEcc}
    (h : (s.sorter ch).wbuf.find? (fun r => decide (r.bank = b)) = some w) (hd : (s.sorter ch).mayDrain b = true) :
    s.drainBank ch b ecc link = (s.drainWrite ch b).transfer ch w ecc link := by
  have drain : s.drainable ch b = some w := by
    unfold State.drainable
    dsimp only
    rw [if_pos hd, h]
  unfold State.drainBank
  rw [drain]

theorem State.drainBank_none {b : Nat} {ecc : Ecc} {link : LinkEcc} (hd : (s.sorter ch).mayDrain b = false) :
    s.drainBank ch b ecc link = s := by
  have drain : s.drainable ch b = none := if_neg (ne_true_of_eq_false hd)
  unfold State.drainBank
  rw [drain]

/-- Settles O48: admission by what the requester, its channel and the buffers allow, and service by what the bank chooses. -/
theorem sortersAdmitAndServe : Obligations.SortersAdmitAndServe := by
  refine ⟨fun s ch who p frame block first len write ecc => ?accept, fun s ch b => ?serve⟩
  case accept =>
    intro r q go i ok
    refine ⟨fun c hw hn => ?idle, fun hw => ⟨fun h1 h2 h3 => ?room, fun h => ?stall⟩, Sorter.accept_write (r := r),
      Sorter.accept_buffered, Sorter.accept_waiting (r := r), fun sl k hk ht hd => ?slice, fun x hx ht => ?parked⟩
    case idle =>
      refine (exec_request_channel ok).trans (congrArg _ ?_)
      unfold State.request State.prefetchRequest
      dsimp only
      rw [hw]
      dsimp only
      rw [hn]
      exact ite_self s
    case room =>
      have run : exec i s = _ := exec_request_channel ok
      rw [State.request_channel (r := r) hw, State.admitChannel_some h1 h2 h3, Option.getD_some] at run
      exact ⟨fun hg => run.trans (congrArg _ (if_pos hg)), fun hg => run.trans (congrArg _ (if_neg (ne_true_of_eq_false hg)))⟩
    case stall =>
      refine (exec_request_channel ok).trans (congrArg _ ?_)
      rw [State.request_channel (r := r) hw, State.admitChannel_none h, Option.getD_none]
    case slice =>
      have taken : s.admitSlice sl r = some (({ s with sliceReqs := s.sliceReqs ++ [(sl.val, r)] } : State).showTags r.who) :=
        if_neg (by simp [r, ht, hd])
      have request : s.request (.slice sl) r = ({ s with sliceReqs := s.sliceReqs ++ [(sl.val, r)] } : State).showTags who := by
        unfold State.request
        have ni : r.who = .ni k := hk
        rw [ni]
        change (s.admitSlice sl r).getD s = _
        rw [taken]
        rfl
      change execRequestAdmission (.slice sl) who p frame block first len write .clean s = _
      unfold execRequestAdmission
      dsimp only
      rw [ok, ← request]
      exact ite_self _
    case parked =>
      change execParkedAdmission ch s = _
      unfold execParkedAdmission
      dsimp only
      rw [hx]
      exact if_pos ht
  case serve =>
    intro q
    refine ⟨fun r ecc link hc => ?chosen, fun ecc link hc => ?none, fun link => rfl, fun w ecc link hf hd => State.drainBank_some hf hd,
      fun ecc link hd => State.drainBank_none hd, fun n r hr hu => ?urgent, fun n r hr hu => ?already, fun due hl ht => ?hot⟩
    case chosen =>
      intro s1 q1 hit streak
      refine ⟨?_, fun he hl => ?_, fun tk ht h hp hz => State.transfer_lost ht h hp hz⟩
      · change execBankCommand ch b ecc link s = _
        unfold execBankCommand
        rw [hc]
        rfl
      · have good : s1 = s.countTransfer ch ecc link := State.transfer_good he hl
        obtain ⟨only, retries, mended, corrected⟩ := State.countTransfer_spec (s := s) (ch := ch) (ecc := ecc) (link := link)
        have rest := only.rest
        simp only [q1]
        rw [good]
        have sorter : (s.countTransfer ch ecc link).sorter ch = q := by rw [rest]; rfl
        have mem : (s.countTransfer ch ecc link).mem = s.mem := by rw [rest]
        have tiles : (s.countTransfer ch ecc link).tiles = s.tiles := by rw [rest]
        exact ⟨sorter, mem, tiles, retries, mended, corrected⟩
    case none =>
      change execBankCommand ch b ecc link s = _
      unfold execBankCommand
      rw [hc]
    case urgent =>
      change execRequestUrgent ch n s = _
      unfold execRequestUrgent
      dsimp only
      rw [hr]
      exact if_neg (ne_true_of_eq_false hu)
    case already =>
      change execRequestUrgent ch n s = _
      unfold execRequestUrgent
      dsimp only
      rw [hr]
      exact if_pos hu
    case hot =>
      intro p d
      have full : (decide (s.bankLimit ch false ≤ q.onBank b false) || decide (s.bankLimit ch true ≤ q.onBank b true)) = true := by
        simpa using hl
      change execBankHotspot ch b due s = _
      unfold execBankHotspot
      dsimp only
      rw [full, if_neg (by simp [ht])]
      exact (apply_ite Host.Outcome.next _ _ _).symm

end Sys2Proof.Machine

/-! SUPPORT. The opening, sealing and ending of snapshots (R362 to R364, R371 to R375). -/

namespace Sys2Proof.Machine

variable {s : State}

/-- A SNAP_COMMIT of the context whose snapshot is open, in the order of its checks. -/
theorem execSnapCommit_own {x : Fin 65536} {c : Cmd} {p : Fin 8} (h : s.freshCmd x 0x19 = some c) (hp : s.ctxPart x = some p.val)
    (hx : (s.snap p).ctx = x.val) (h0 : s.snapSt p ≠ 0) : exec (.snapCommit x) s =
      if c.aborts then .next ((s.unfresh x c).setF (Csr.rgsPartState_STATE p) 5)
      else if s.snapSt p = 5 then .next (s.unfresh x c)
      else if s.snapSt p ≠ 2 then .next s
      else if !s.inObject p (fieldAt c.bytes 8 8) (fieldAt c.bytes 0x10 4) true then .next (s.complete x c 0x0D 0 0)
      else if fieldAt c.bytes 0x10 4 < s.manifestSize p then .next (s.complete x c 0x0E 0 (s.manifestSize p))
      else .next (((s.unfresh x c).setSnap p { s.snap p with area := some (fieldAt c.bytes 8 8, fieldAt c.bytes 0x10 4) }).setF
        (Csr.rgsPartState_STATE p) 3) := by
  change execSnapCommit x s = _
  unfold execSnapCommit
  rw [h, hp]
  dsimp only
  rw [if_neg h0, if_neg (not_not_intro hx)]

/-- Settles O49: each of the snapshot's commands and events is carried out where its state and its checks allow it. -/
theorem snapshotsOpenAndClose : Obligations.SnapshotsOpenAndClose := by
  refine ⟨fun s => ⟨fun x c p head tab hc hp hh hk ht hs => ?begin, fun p h1 hw => if_pos ⟨h1, hw⟩⟩,
    fun s p => ⟨fun x c hc hp hx => ⟨fun h0 ha => ?abort, fun h2 ha hi hm => ?commit⟩, ?sealed, fun h4 hf => ?verify, fun h5 => if_pos h5⟩⟩
  case begin =>
    intro s1
    change execSnapBegin x s = _
    unfold execSnapBegin
    rw [hc, hp]
    dsimp only
    rw [hh]
    dsimp only
    rw [hk, if_neg (by decide), ht]
    dsimp only
    rw [hs]
  case abort => exact (execSnapCommit_own hc hp hx h0).trans (if_pos ha)
  case commit =>
    rw [execSnapCommit_own hc hp hx (by rw [h2]; decide), ha, h2, hi, if_neg Bool.false_ne_true, if_neg (by decide), if_neg (by decide),
      if_neg (by decide), if_neg (Nat.not_lt.mpr hm)]
  case sealed =>
    intro x s1 a u h3 hd ha hm hw hv
    change execSnapshotSealed p s = _
    unfold execSnapshotSealed
    dsimp only
    have area : (s.snap p).area.getD (0, 0) = a := by
      rw [show (s.snap p).area = some a from ha]
      rfl
    rw [if_neg (by rw [h3, hd]; decide), area, if_neg (Nat.not_lt.mpr hm), hw]
    dsimp only
    rw [hv]
    rfl
  case verify =>
    intro s1 he
    change execSnapshotVerify p s = _
    unfold execSnapshotVerify
    rw [h4, hf, if_neg (by decide)]
    exact if_pos he

end Sys2Proof.Machine

/-! SUPPORT. The copies of a snapshot and their restoring (R325, R367 to R370, R376, R377). -/

namespace Sys2Proof.Machine

variable {s : State}

theorem State.writeByte_peer {p a : Nat} {b : Byte} : (s.writeByte p a b).peer = s.peer := by
  cases h : s.place p a with
  | nowhere => rw [State.writeByte_nowhere h]
  | ob c off =>
    rw [State.writeByte_ob h, State.poke_peer]
    unfold State.clearTag
    dsimp only
    split <;> rfl
  | tile tk off ro =>
    rw [State.writeByte_tile h, State.poke_peer, State.setTile_peer]
    split
    · rw [State.zeroFrame_peer]
    · rfl

theorem State.writeAll_peer {p : Nat} {ws : List (Nat × Byte)} : (s.writeAll p ws).peer = s.peer := by
  unfold State.writeAll
  induction ws generalizing s with
  | nil => rfl
  | cons w r ih => exact (ih (s := s.writeByte p w.1 w.2)).trans State.writeByte_peer

theorem State.niPart_lt {k p : Nat} (h : s.niPart k = some p) : p < 8 := State.ownerBy_lt h

/-- A copy whose tiles take it at once is a write, and sends nothing. -/
theorem State.demandWrite_peer {p : Nat} {ws : List (Nat × Byte)} (h : ws.any (fun w => s.writeWaits p w.1) = false) (hp : p < 8) :
    (s.demandWrite p ws).peer = s.peer := by
  obtain ⟨t, land, counted⟩ := State.writeFrom_lands (src := .engine) h hp
  rw [State.demandWrite, land, State.writeAll_peer, counted.rest]

/-- A peer's copy for this node with the port's job is a write into the port's partition. -/
theorem execPeerCopyReceive_own {k : Fin 32} {p : Nat} {dest job : BitVec 16} {dva : BitVec 48} {data : List Byte} {last due : Bool}
    (hp : s.niPart k = some p) (hd : s.dataOn k = true) (hn : dest.toNat = s.getF Csr.sysNode_NODE)
    (hj : job.toNat = s.getF (Csr.niPmap_JOB k)) (h0 : job.toNat ≠ 0) :
    exec (.peerCopyReceive k dest job dva data last due) s = match s.writableAll p (bytesAt dva.toNat data) with
      | .error e => .next { (s.countHit e) with peer := s.peer ++ [.answer k dva.toNat false] }
      | .ok _ => if ((bytesAt dva.toNat data).map (fun w => w.1)).any (fun a => s.writeWaits p a)
        then .next (s.stall (.record 4 k) p ((bytesAt dva.toNat data).map (fun w => w.1)))
        else if last then .next { s.demandWrite p (bytesAt dva.toNat data) with
          peer := (s.demandWrite p (bytesAt dva.toNat data)).peer ++ [.answer k dva.toNat true] }
        else .next (s.demandWrite p (bytesAt dva.toNat data)) := by
  change execPeerCopyReceive k dest job dva data last due s = _
  unfold execPeerCopyReceive
  dsimp only
  rw [hp]
  dsimp only
  rw [hd, if_neg (by decide), if_neg (not_not_intro hn), if_neg (by simp [hj, hj ▸ h0])] <;> rfl

/-- A tile that is read, by what its entry and its read give. -/
theorem execTileCopied_reading {p : Fin 8} {n stall : Nat} {ecc : Ecc} {t : SnapTile} (ht : (s.snap p).tiles[n]? = some t)
    (hr : t.stage = .reading) : exec (.tileCopied p n ecc stall) s =
      if (s.tile t.key).poison then .next (((s.addF (Csr.rgsPartStall_TIME p) stall).snapPoison p n t).unprotect t.key)
      else if (s.tile t.key).zero then
        .next (((s.addF (Csr.rgsPartStall_TIME p) stall).setSnapTile p n
          { t with stage := .held, zero := true, digest := sha256 (List.replicate 65536 0) }).unprotect t.key)
      else if ecc = .uncorrectable then
        .next ((((s.addF (Csr.rgsPartStall_TIME p) stall).failTile t.key).snapPoison p n t).unprotect t.key)
      else .next (((if ecc = .corrected then (s.addF (Csr.rgsPartStall_TIME p) stall).countCorrected (s.tile t.key) 1
        else s.addF (Csr.rgsPartStall_TIME p) stall).setSnapTile p n
        { t with stage := .held, copy := s.tileBytes t.key, digest := sha256 (s.tileBytes t.key) }).unprotect t.key) := by
  change execTileCopied p n ecc stall s = _
  unfold execTileCopied
  rw [ht]
  dsimp only
  rw [if_neg (not_not_intro hr)]

/-- A held or sent tile, by its target. -/
theorem execCopyEntryDrain_eq {p : Fin 8} {n : Nat} {t : SnapTile} {h : Shard} (ht : (s.snap p).tiles[n]? = some t)
    (hh : (s.snap p).shards[t.shard]? = some h) : exec (.copyEntryDrain p n) s =
      if t.stage = .sent ∧ s.snapSt p < 5 then .next (s.setSnapTile p n { t with stage := .drained, copy := [] })
      else if t.stage ≠ .held ∨ 5 ≤ s.snapSt p then .next s
      else if h.peer then
        if (s.portsOf p).any (fun k => s.dataOn k) then .next (State.setSnapTile { s with peer := s.peer ++
          [.tile h.tnode (s.snap p).job (targetDva h t) (if t.zero then List.replicate 65536 0 else t.copy)] } p n { t with stage := .sent })
        else .next (s.snapFail p t.shard)
      else match s.writable p (targetDva h t) with
        | .error e => .next ((s.countHit e).snapFail p t.shard)
        | .ok _ => if s.writeWaits p (targetDva h t) then .next s
          else .next ((s.writeTarget p (targetDva h t) t).setSnapTile p n { t with stage := .drained, copy := [] }) := by
  change execCopyEntryDrain p n s = _
  unfold execCopyEntryDrain
  rw [ht]
  dsimp only
  rw [hh] <;> rfl

theorem State.snapFail_spec {p i : Nat} : (s.snapFail p i).snapSt p = 5 ∧ ((s.snapFail p i).snap p).failed = some i := by
  constructor
  · exact State.getF_setF_same (s := s.setSnap p { s.snap p with failed := some i }) (f := Csr.rgsPartState_STATE p) rfl
  · rw [State.snapFail, State.setF_snap, State.snap_setSnap, if_pos rfl]

/-- Settles O50: each tile goes through its stages by what its entry, its read and its target give. -/
theorem snapshotsCopyAndRestore : Obligations.SnapshotsCopyAndRestore := by
  refine ⟨fun s p => ?copies, fun s k p dest job dva data => ?peers, fun s x far c p hc hp => ⟨fun r hr hm => ?restored, fun e he => ?failed⟩⟩
  case copies =>
    intro x ts
    refine ⟨fun n t hf h1 h3 hb => ?first, fun die n t hf h2 hb hu => ?background, fun n t stall ht hr => ?read, fun n t h ht hh hs h5 => ?held,
      fun n t h ht hh hs h5 => ?sent, fun n h1 h4 ha => answers_of (if_pos ⟨h1, h4, ha⟩) ⟨rfl, State.snapFail_spec⟩⟩
    case first =>
      change execFirstTouchCopy p s = _
      unfold execFirstTouchCopy
      dsimp only
      rw [hf]
      exact if_neg (by omega)
    case background =>
      change execBackgroundCopy p die s = _
      unfold execBackgroundCopy
      dsimp only
      rw [hf]
      exact if_neg (by omega)
    case read =>
      intro s0
      refine ⟨fun hz hp => ⟨?_, ?_, ?_⟩, fun ecc hz hp => ?_, fun ecc hp => ?_⟩
      all_goals rw [execTileCopied_reading ht hr]
      · rw [hp, hz, if_neg Bool.false_ne_true, if_neg Bool.false_ne_true, if_neg (by decide), if_neg (by decide)]
      · rw [hp, hz, if_neg Bool.false_ne_true, if_neg Bool.false_ne_true, if_neg (by decide), if_pos rfl]
      · rw [hp, hz, if_neg Bool.false_ne_true, if_neg Bool.false_ne_true, if_pos rfl]
      · rw [hp, hz, if_neg Bool.false_ne_true, if_pos rfl]
      · rw [hp, if_pos rfl]
    case held =>
      have own : ¬ (t.stage = .sent ∧ s.snapSt p < 5) := fun e => by
        rw [hs] at e
        exact absurd e.1 (by decide)
      have open' : ¬ (t.stage ≠ .held ∨ 5 ≤ s.snapSt p) := by
        rw [hs]
        simp
        omega
      refine ⟨fun u hl hw hf => ?_, fun e hl hw => ?_, fun hl hd => ?_, fun hl hd => ?_⟩
      all_goals rw [execCopyEntryDrain_eq ht hh, if_neg own, if_neg open', hl]
      · rw [if_neg Bool.false_ne_true, hw]
        exact if_neg (ne_true_of_eq_false hf)
      · rw [if_neg Bool.false_ne_true, hw]
      · rw [if_pos rfl, if_pos hd]
      · rw [if_pos rfl, if_neg (ne_true_of_eq_false hd)]
    case sent => exact (execCopyEntryDrain_eq ht hh).trans (if_pos ⟨hs, h5⟩)
  case peers =>
    intro ws i hp hd
    refine ⟨fun hn hj h0 => ⟨fun u last due hw hf => ?_, fun e last due hw => ?_⟩, fun o last due hn hr => ?_, fun last due hn hj => ?_⟩
    · have free : ws.any (fun w => s.writeWaits p w.1) = false := by rwa [List.any_map] at hf
      have quiet := State.demandWrite_peer free (State.niPart_lt hp)
      have run : exec (i last due) s = _ := execPeerCopyReceive_own hp hd hn hj h0
      rw [hw] at run
      dsimp only at run
      rw [if_neg (ne_true_of_eq_false hf)] at run
      cases last
      · refine answers_of (run.trans (if_neg Bool.false_ne_true)) ⟨rfl, quiet.trans ?_⟩
        rw [if_neg Bool.false_ne_true, List.append_nil]
      · refine answers_of (run.trans (if_pos rfl)) ⟨rfl, ?_⟩
        dsimp only
        rw [quiet, if_pos rfl]
    · have run : exec (i last due) s = _ := execPeerCopyReceive_own hp hd hn hj h0
      rw [hw] at run
      exact answers_of run ⟨State.countHit_mem, rfl⟩
    · change execPeerCopyReceive k dest job dva data last due s = _
      unfold execPeerCopyReceive
      dsimp only
      rw [hp]
      dsimp only
      rw [hd, if_neg (by decide), if_pos hn, hr]
    · change execPeerCopyReceive k dest job dva data last due s = _
      unfold execPeerCopyReceive
      dsimp only
      rw [hp]
      dsimp only
      rw [hd, if_neg (by decide), if_neg (not_not_intro hn), if_pos hj]
  case restored =>
    intro a
    change execRestore x far s = _
    unfold execRestore
    rw [hc, hp]
    dsimp only
    rw [hr]
    exact if_neg (ne_true_of_eq_false hm)
  case failed =>
    change execRestore x far s = _
    unfold execRestore
    rw [hc, hp]
    dsimp only
    rw [he]

end Sys2Proof.Machine

/-! SUPPORT. Policies and the groups of the Prefect (R323, R333, R335, R336, R390, R396, R398). -/

namespace Sys2Proof.Machine

variable {s : State}

/-- POLICY_SET of a context's own partition. -/
theorem execPolicySet_own {x : Fin 65536} {c : Cmd} {own : Nat} (hc : s.freshCmd x 0x20 = some c) (hp : s.ctxPart x = some own)
    (hf : fieldAt c.bytes 0x0A 1 = 0xFF) (h : ¬ (fieldAt c.bytes 8 1 = 0 ∨ 7 < fieldAt c.bytes 8 1 ∨ 1 < fieldAt c.bytes 9 1))
    (h7 : fieldAt c.bytes 8 1 ≠ 7) (h0 : fieldAt c.bytes 0x0C 4 = 0) : exec (.policySet x) s =
      .next (((s.putPolicy (fieldAt c.bytes 8 1) own (decide (fieldAt c.bytes 9 1 = 1)) 0).policyChanged (fieldAt c.bytes 8 1) own
        (decide (fieldAt c.bytes 9 1 = 1)) 0).complete x c 0 (s.policyArmed (fieldAt c.bytes 8 1) own).toNat
          (s.policyParam (fieldAt c.bytes 8 1) own)) := by
  change execPolicySet x s = _
  unfold execPolicySet
  rw [hc, hp]
  dsimp only
  rw [hf, h0, if_neg (by simp only [h7, if_false]; omega), if_pos rfl, if_neg h7]

theorem State.quarantine_eq {k m : Nat} : s.quarantine k m = (((s.setF (Csr.niRcState_MISMATCH k) m).addF (Csr.niRcStat_QUAR k) 1).recordP
    (s.niPart k) 0x0601 (s.flag (Csr.niExpId_VALID k)).toNat 4 k 0xFFFF 0 ((1, m) :: ((s.ni k).farRec.take 24).map (fun b => (1, b.toNat)))).setRc
      k 4 := by
  unfold State.quarantine
  dsimp only
  cases s.flag (Csr.niExpId_VALID k) <;> rfl

/-- Settles O51: each policy command and each second of a port is judged by what its rule names. -/
theorem policiesAct : Obligations.PoliciesAct := by
  refine fun s => ⟨fun x c own => ?set, fun k p => ?second, fun ring => ⟨fun hw => if_pos hw, fun hw => if_neg (ne_true_of_eq_false hw)⟩⟩
  case set =>
    intro id arm hc hp hf
    refine ⟨fun h1 h6 ha h0 => execPolicySet_own hc hp hf (show ¬ (id = 0 ∨ 7 < id ∨ 1 < arm) by omega) (show id ≠ 7 by omega) h0,
      fun bad => ?_⟩
    change execPolicySet x s = _
    unfold execPolicySet
    rw [hc, hp]
    exact if_pos (bad.imp (fun h => h) (fun h => h.imp (fun h => h) (fun h => .inl h)))
  case second =>
    intro s1 hp hd
    refine ⟨fun hl => ?_, fun hl ha => ?_, fun u m => State.quarantine_eq⟩
    all_goals
      change execPortQuarantine k s = _
      unfold execPortQuarantine
      rw [hp]
      dsimp only
    · exact if_pos (.inr hl)
    · rw [if_neg (by rw [hd]; simp; omega), ha, if_pos rfl]
      rfl

/-- Settles O52: a join is read, checked and carried out, and a leave waits for what its group holds back. -/
theorem groupsAreJoinedAndLeft : Obligations.GroupsAreJoinedAndLeft := by
  refine fun s x c p hp => ⟨fun hc => ⟨fun b hb => ⟨fun table ht => ?_, fun st ht => ?_⟩, fun e he => ?_⟩,
    fun hc => ⟨fun g hg => ?_, fun hg => ?_⟩⟩
  · change execGroupJoin x s = _
    unfold execGroupJoin
    rw [hc, hp]
    dsimp only
    rw [hb]
    dsimp only
    rw [ht]
  · change execGroupJoin x s = _
    unfold execGroupJoin
    rw [hc, hp]
    dsimp only
    rw [hb]
    dsimp only
    rw [ht]
  · change execGroupJoin x s = _
    unfold execGroupJoin
    rw [hc, hp]
    dsimp only
    rw [he]
  · change execGroupLeave x s = _
    unfold execGroupLeave
    rw [hc, hp]
    dsimp only
    rw [hg]
  · change execGroupLeave x s = _
    unfold execGroupLeave
    rw [hc, hp]
    dsimp only
    rw [hg]

end Sys2Proof.Machine

/-! SUPPORT. The operations of the Prefect (O53): one executor per event of an operation. -/

namespace Sys2Proof.Machine

/-- What an operation to start does is `f` of it, stored, after which it goes on (R341). -/
theorem State.startOp_of {s : State} {op : Nat} {o : PftOp} {g : Group} (f : State → PftOp → Group → State × PftOp)
    (h : s.toStart op = some (o, g)) : s.startOp op f = ((f s o g).1.setOp (f s o g).2).goOn (f s o g).2 := by
  unfold State.startOp
  rw [h]

/-- An operation that starts takes the step of its kind. -/
theorem next_startOp {s : State} {op : Nat} {o : PftOp} {g : Group} {f : State → PftOp → Group → State × PftOp}
    {t : State × PftOp} (h : s.toStart op = some (o, g)) (is : f s o g = t) :
    (.next (s.startOp op f) : Host.Outcome State Fault Refusal) = .next ((t.1.setOp t.2).goOn t.2) := by
  rw [State.startOp_of f h, is]

/-- Settles O53: each event of a Prefect operation does what its executor names, and each kind starts by its rule. -/
theorem operationsRun : Obligations.OperationsRun := by
  refine ⟨fun s p up => ⟨?post, fun o first => ⟨fun hf => ?fire, fun g hf hg => ?stream⟩, fun o first => ?complete,
    fun n o g ho hg hr hw hh => ?watchdog⟩, fun s o g => ?starts⟩
  case post =>
    intro i step s0 ne
    have live : ¬ (s.fatal = true ∨ s.getF (Csr.pftPartQHead_HEAD p) = s.getF (Csr.pftPartQTail_TAIL p)) := by
      rw [up]
      exact fun h => h.elim (by decide) ne
    refine ⟨fun b g hb hc => ?_, fun b st hb hc => ?_, fun e he => ?_⟩
    all_goals
      change execOperationPost p s = _
      unfold execOperationPost
      dsimp only
      rw [if_neg live]
    · rw [hb]
      dsimp only
      rw [hc]
      exact (apply_ite Host.Outcome.next _ _ _).symm
    · rw [hb]
      dsimp only
      rw [hc]
    · rw [he]
  case fire =>
    change execOperationFire s = _
    unfold execOperationFire
    rw [if_neg (ne_true_of_eq_false up), first]
    dsimp only
    rw [if_pos (by rw [hf]; rfl)]
  case stream =>
    change execOperationFire s = _
    unfold execOperationFire
    rw [if_neg (ne_true_of_eq_false up), first]
    dsimp only
    rw [if_neg (by rw [hf]; decide), hg]
  case complete =>
    intro t
    change execOperationComplete s = _
    unfold execOperationComplete
    rw [if_neg (ne_true_of_eq_false up)]
    split
    next none => exact absurd (none.symm.trans first) (Option.some_ne_none o).symm
    next x found =>
      obtain rfl : x = o := Option.some.inj (found.symm.trans first)
      by_cases hw : s.pftCqWaits x.part 1 = true
      · rw [if_pos hw, if_pos hw]
      · rw [if_neg hw, if_neg hw]
        cases x.writesPos <;> rfl
  case watchdog =>
    intro left
    have runs : ¬ (s.fatal || !o.running || decide (s.getF Csr.pftCtrl_WD_TMO = 0) || s.opHeld o) = true := by
      rw [up, hr, hh, decide_eq_false hw]
      decide
    refine ⟨fun wait => ?_, fun go alone => ?_, fun c go other => ?_⟩
    all_goals
      change execPrefectWatchdog n s = _
      unfold execPrefectWatchdog
      rw [ho]
      dsimp only
      rw [hg]
      dsimp only
      rw [if_neg runs]
    · exact if_pos wait
    · rw [if_neg (ne_true_of_eq_false go), alone]
    · rw [if_neg (ne_true_of_eq_false go), other]
  case starts =>
    intro starts on chunks met normed
    refine ⟨fun h => next_startOp h rfl, fun h => next_startOp h rfl, fun h => next_startOp h rfl, fun h => next_startOp h rfl,
      fun h => next_startOp h rfl, fun h => next_startOp h rfl, fun ne h => next_startOp h (if_pos ne),
      fun own h => next_startOp h (if_neg (not_not_intro own)), fun h => next_startOp h rfl, fun h => next_startOp h rfl,
      fun h => next_startOp h rfl, fun k up => ⟨fun t three => ?_, fun t three two => ?_⟩⟩
    all_goals
      change execChunkArrival k s = _
      unfold execChunkArrival
      rw [if_neg (ne_true_of_eq_false up), three]
    dsimp only
    rw [two]

end Sys2Proof.Machine

/-! SUPPORT. The link layer of the network ports: their states (O54) and their frames (O55). -/

namespace Sys2Proof.Machine

variable {s : State} {k : Nat}

/-- A port that does not renegotiate is as it was (R299). -/
theorem State.renegCheck_other (h : s.niSt k ≠ 4) : s.renegCheck k = s :=
  if_neg (by rw [decide_eq_false h, Bool.false_and, Bool.false_and]; exact Bool.false_ne_true)

/-- NI.CTRL with a whole value stored: BELL_BURST takes only a value of its range (R299). -/
def State.niCtrlStored (s : State) (k v : Nat) : State :=
  let b := Csr.niCtrl_BELL_BURST k
  let nb := s.merged v allBits b
  let s1 := s.storeBut (Csr.niCtrl k) v allBits [b]
  if 1 ≤ nb ∧ nb ≤ 16 then (s1.setNi k ((s1.ni k).capBell nb)).setF b nb else s1

/-- What a full write of NI.CTRL does once it is stored: EN starts or stops the port, and RENEG is judged (R299). -/
theorem niCtrlWrite_full (v : Nat) : niCtrlWrite k s v allBits =
    (if (s.niCtrlStored k v).flag (Csr.niCtrl_EN k) then
      (if (s.niCtrlStored k v).niSt k = 0 then (s.niCtrlStored k v).setF (Csr.niStatus_STATE k) 1 else s.niCtrlStored k v)
     else (s.niCtrlStored k v).portOff k).renegCheck k := by
  have wrote : wroteF v allBits (Csr.niCtrl_BELL_BURST k) ≠ none := by
    rw [wroteF_full rfl (show (5 : Nat) ≠ 0 by decide)]
    exact Option.some_ne_none _
  unfold niCtrlWrite
  simp only [wrote, not_false_eq_true, ne_eq, true_and]
  rfl

/-- Settles O54: each event of a port's state machine takes it from its state to the next. -/
theorem portStates : Obligations.PortStates := by
  refine fun s k lane => ⟨fun port v own => ?ctrl, fun h1 up h2 ok => if_pos ⟨h1, by rw [up]; rfl, h2, ok⟩,
    fun farMin farMax farEpoch => ?negotiate, fun farMin farMax h3 none => ⟨fun said => ?_, fun said => ?_⟩,
    fun h4 => ?retrain, fun st tx rx => if_pos ⟨st, tx, rx⟩, fun st runs offered => if_pos ⟨st, runs, offered⟩⟩
  case ctrl =>
    intro b nb s1 s2
    have run : ∀ i, (i = Instr.niEnable port k .full v ∨ i = Instr.reneg port k .full v) →
        exec i s = .next (niCtrlWrite k s v.toNat allBits) := by
      rintro i (rfl | rfl) <;> exact congrArg _ (State.hostWrite_owner own)
    have stored : s.niCtrlStored k v.toNat = s2 := rfl
    refine ⟨fun en off => ?_, fun en on => ?_, fun dis => ?_, fun en st reneg empty => ?_⟩
    · rw [run _ (.inl rfl), niCtrlWrite_full, stored, if_pos en, if_pos off, State.renegCheck_other]
      unfold State.niSt
      rw [State.getF_setF_same rfl]
      exact (show 1 % 2 ^ 3 ≠ 4 by decide)
    · rw [run _ (.inl rfl), niCtrlWrite_full, stored, if_pos en, if_neg on]
    · rw [run _ (.inl rfl), niCtrlWrite_full, stored, if_neg (ne_true_of_eq_false dis)]
    · rw [run _ (.inr rfl), niCtrlWrite_full, stored, if_pos en, if_neg (by rw [st]; decide)]
      exact congrArg _ (if_pos (by rw [st, reneg, empty]; rfl))
  case negotiate =>
    intro s0 pair up st live
    have on : ¬ (s.niSt k ≠ 3 ∨ s.fatal = true) := by
      rw [st, live]
      decide
    refine ⟨fun v common => ⟨fun held => ?_, fun other => ?_⟩, fun none => ?_⟩
    all_goals
      change execNegotiate k farMin farMax farEpoch s = _
      unfold execNegotiate
      rw [if_neg on]
      dsimp only
    · rw [common]
      dsimp only
      rw [decide_eq_true held, if_pos rfl, if_pos rfl]
    · rw [common]
      dsimp only
      rw [decide_eq_false other, if_neg (by decide), if_neg (by decide)]
    · rw [none]
  case retrain =>
    intro worn retrain
    refine ⟨fun dark f is => ?_, fun none => ?_⟩
    all_goals
      change execLinkRetrain k _ s = _
      unfold execLinkRetrain
      dsimp only
    · rw [show (s.ni k).retry.find? _ = some f from is]
      exact if_pos ⟨h4, .inr rfl⟩
    · rw [show (s.ni k).retry.find? _ = Option.none from none]
      exact if_pos ⟨h4, .inl rfl⟩
  · exact if_pos (by rw [h3, none, said]; rfl)
  · exact if_neg (by rw [said, Bool.not_true, Bool.and_false]; decide)

/-- Settles O55: a frame is sent, taken, counted, resent or judged as the port's and the lane's state has it. -/
theorem framesCross : Obligations.FramesCross := by
  refine fun s k lane => ⟨fun dly live => ⟨fun st adm => ?send, fun st locked => ?train⟩, fun wire rtt live => ?receive,
    fun fseq st => if_pos st, fun id st live => if_pos ⟨st, by rw [live]; rfl⟩, fun count due => ?errors⟩
  case send =>
    intro t
    have run : exec (.frameSend k lane dly) s = execFrameSend k lane dly s := rfl
    refine ⟨fun s1 f next => ?_, fun none => ?_⟩
    · intro s2
      refine ⟨fun stays => ?_, fun closing => ?_⟩
      all_goals
        rw [run]
        unfold execFrameSend
        dsimp only
        rw [if_neg (ne_true_of_eq_false live), if_pos ⟨st, adm⟩, next]
        dsimp only
      · rw [stays]
        rfl
      · rw [closing]
        rfl
    · rw [run]
      unfold execFrameSend
      dsimp only
      rw [if_neg (ne_true_of_eq_false live), if_pos ⟨st, adm⟩, none]
  case train =>
    change execFrameSend k lane dly s = _
    unfold execFrameSend
    dsimp only
    rw [if_neg (ne_true_of_eq_false live), if_neg (by rw [st]; exact fun h => absurd h.1 (by decide))]
    exact if_pos ⟨.inl locked, .inl st⟩
  case receive =>
    intro d v c s0 readable good s1 s2
    have run : exec (.frameReceive k lane wire rtt) s = execFrameReceive k lane wire rtt s := rfl
    refine ⟨fun st adm => ?_, fun st off => ?_⟩
    · have on : ¬ (s.niSt k < 2 ∨ s.fatal = true) := by
        rw [st, live]
        decide
      have taken : ¬ (s.niSt k ≠ 4 ∨ (!bitOf (s.getF (Csr.niStatus_RX_ADMIT k)) lane) = true) := by
        rw [st, adm]
        decide
      refine ⟨fun is => ?_, fun is => ?_⟩
      all_goals
        rw [run]
        unfold execFrameReceive
        dsimp only
        rw [if_neg on, if_neg taken]
      · exact if_neg (by rw [show (_ && _) = true from is]; decide)
      · exact if_pos (by rw [show (_ && _) = false from is]; rfl)
    · rw [run]
      unfold execFrameReceive
      dsimp only
      rw [if_neg (by rw [live]; simp only [Bool.false_eq_true, or_false]; omega)]
      exact if_pos (off.imp (fun h => h) (fun h => by rw [h]; rfl))
  case errors =>
    intro r
    refine ⟨fun many => ?_, fun few => if_pos few⟩
    change execLaneErrors k lane count due s = _
    unfold execLaneErrors
    dsimp only
    rw [if_neg (by omega)]
    exact (apply_ite Host.Outcome.next _ _ _).symm

end Sys2Proof.Machine

/-! SUPPORT. Roll call and the messages of the network ports (O56). -/

namespace Sys2Proof.Machine

variable {s : State}

/-- A full write of SYS.NODE to another number, while no port carries data (R321). -/
theorem sysNodeWrite_changes {v : Nat} (idle : (List.range 32).any (fun k => s.dataOn k) = false)
    (ne : v / 2 ^ Csr.sysNode_NODE.lo % 2 ^ Csr.sysNode_NODE.len ≠ s.getF Csr.sysNode_NODE) :
    sysNodeWrite s v allBits = (List.range 32).foldl (fun t k => (t.sendRecord k).matchStep k)
      ((s.storeBut Csr.sysNode v allBits [Csr.sysNode_NODE]).setF Csr.sysNode_NODE
        (v / 2 ^ Csr.sysNode_NODE.lo % 2 ^ Csr.sysNode_NODE.len)) := by
  unfold sysNodeWrite
  dsimp only
  rw [wroteF_full rfl (show (16 : Nat) ≠ 0 by decide), if_neg (Option.some_ne_none _), if_neg (ne_true_of_eq_false idle),
    State.merged_full rfl]
  refine if_neg ?_
  rw [State.getF_setF_same rfl, Nat.mod_mod]
  exact ne

theorem sysNodeWrite_refused {v : Nat} (busy : (List.range 32).any (fun k => s.dataOn k) = true) :
    sysNodeWrite s v allBits = (s.storeBut Csr.sysNode v allBits [Csr.sysNode_NODE]).setF Csr.sysNode_NODE_IGN 1 := by
  unfold sysNodeWrite
  dsimp only
  rw [wroteF_full rfl (show (16 : Nat) ≠ 0 by decide), if_neg (Option.some_ne_none _), if_pos busy]

/-- Settles O56: roll call hears, resends and ends its exchanges, and each message goes where its dispatch has it. -/
theorem exchangesAndMessages : Obligations.ExchangesAndMessages := by
  refine ⟨fun s k => ⟨fun m r next is => ?hear, fun up st => if_pos ⟨up, st⟩, fun plan valid st => ?expiry,
    fun port v own => ⟨fun p => ?plan, fun w st valid => ?recheck, fun busy => ?busy, fun ne idle => ?node⟩⟩,
    fun s k cls due m r => ?messages⟩
  case hear =>
    change execRollCallRecord k s = _
    unfold execRollCallRecord
    dsimp only
    rw [next]
    exact if_pos is
  case expiry =>
    exact if_pos (by rw [plan, valid]; rcases st with h | h <;> rw [h] <;> rfl)
  case plan =>
    intro s1
    have written : s.hostWrite port (Csr.sysPlanCtrl p) .full v (planCtrlWrite p) = planCtrlWrite p s v.toNat allBits :=
      State.hostWrite_owner own
    refine ⟨fun go un => ?_, fun go un => ?_⟩
    · change Host.Outcome.next _ = _
      rw [written]
      unfold planCtrlWrite
      rw [go, un]
      rfl
    · change Host.Outcome.next _ = _
      rw [written]
      unfold planCtrlWrite
      rw [go, un]
      rfl
  case recheck =>
    refine congrArg _ ((State.hostWrite_owner own).trans (if_pos ?_))
    rw [w, st, valid]
    rfl
  case busy => exact congrArg _ ((State.hostWrite_owner own).trans (sysNodeWrite_refused busy))
  case node => exact congrArg _ ((State.hostWrite_owner own).trans (sysNodeWrite_changes idle ne))
  case messages =>
    intro n gone here ours
    refine ⟨fun next => ?dispatch, fun o next out => ?forward⟩
    case dispatch =>
      have run : exec (.messageDispatch k cls due) s = execMessageDispatch k cls due s := rfl
      unfold execMessageDispatch at run
      dsimp only at run
      rw [next] at run
      dsimp only at run
      rw [run]
      refine ⟨fun rec => if_pos rec, fun rec zero mon => ?_, fun rec other => ?_⟩
      · rw [if_neg (ne_true_of_eq_false rec)]
        exact if_pos ⟨zero, mon⟩
      · rw [if_neg (ne_true_of_eq_false rec), if_neg other]
        refine ⟨fun en => if_pos (by rw [en]; rfl), fun en at' job => ?_, fun en at' job => ?_, fun en away none => ?_,
          fun o en away route => ?_⟩
        all_goals rw [if_neg (by rw [en]; decide)]
        · rw [if_pos (of_decide_eq_true at')]
          obtain ⟨job, nz⟩ := Bool.and_eq_true_iff.mp job
          rw [if_pos ⟨of_decide_eq_true job, of_decide_eq_true nz⟩]
          exact (apply_ite Host.Outcome.next _ _ _).symm
        · rw [if_pos (of_decide_eq_true at')]
          refine if_neg (fun h => ?_)
          exact absurd (job.symm.trans (by rw [show ours = (decide _ && decide _) from rfl, decide_eq_true h.1, decide_eq_true h.2]))
            (by decide)
        · rw [if_neg (of_decide_eq_false away), none]
        · rw [if_neg (of_decide_eq_false away), route]
    case forward =>
      have run : exec (.transitForward k cls due) s = execTransitForward k cls due s := rfl
      unfold execTransitForward at run
      dsimp only at run
      rw [next] at run
      dsimp only at run
      rw [out, Option.getD_some] at run
      rw [run]
      refine ⟨fun on => ?_, fun off => if_pos (by rw [off]; rfl)⟩
      rw [if_neg (by rw [on]; decide)]
      exact (apply_ite Host.Outcome.next _ _ _).symm

end Sys2Proof.Machine

/-! SUPPORT. The optical lanes: their states by measurement, their withdrawal and their admission (O57). -/

namespace Sys2Proof.Machine

variable {s : State} {g l : Nat} {tx : Bool}

/-- A lane marked as held back for its time alone is offered as any lane (R283). -/
theorem State.offer_timed : (s.setHeldBack g tx l 2).offer g tx l =
    if s.softRetired g tx l || s.switching g tx l then s.setHeldBack g tx l 2 else (s.setHeldBack g tx l 2).admitLane g tx l := by
  have held : (s.setHeldBack g tx l 2).heldBack g tx l = 2 := by
    unfold State.heldBack State.setHeldBack State.withOptics cnt setCnt
    rw [SMap.get_put, if_pos rfl]
  have soft : (s.setHeldBack g tx l 2).softRetired g tx l = s.softRetired g tx l := rfl
  have away : (s.setHeldBack g tx l 2).switching g tx l = s.switching g tx l := rfl
  unfold State.offer
  rw [held, soft, away, decide_eq_false (show (2 : Nat) ≠ 1 by decide), Bool.or_false]

/-- Settles O57: each measurement takes its lane to the state that it names, and lanes are withdrawn and admitted by their rules. -/
theorem lanesComeAndGo : Obligations.LanesComeAndGo := by
  refine ⟨fun s g tx l x => ?measured, fun s g => ⟨fun port v own => congrArg _ (State.hostWrite_owner own), fun tx l st held => ?held,
    fun k ends => if_neg (ne_true_of_eq_false ends), fun k holds => if_pos holds⟩⟩
  case measured =>
    intro st tol p d
    refine ⟨fun dark lit reads light => if_pos ⟨dark, lit, reads, light⟩, fun other => if_neg fun h => ?_, fun tone state on => ?sweep,
      fun locked off due => ?drift, fun drifts flat low => if_pos ⟨drifts, by rw [flat]; rfl, low⟩,
      fun holds high => if_pos ⟨holds, high⟩, fun dark => if_pos dark⟩
    case sweep =>
      intro ok s1 n s2
      have run : ∀ found, exec (.sweepDone g tx l found x tone) s = execSweepDone g tx l found x tone s := fun _ => rfl
      have sweeps : ¬ ((st ≠ 1 ∧ st ≠ 4) ∨ (!s.flag (Csr.glvCtrl_TONE_EN g)) = true) := by
        rw [on]
        simp only [Bool.not_true, Bool.false_eq_true, or_false]
        omega
      refine ⟨fun own => ?_, fun other => ?_, fun one => ?_⟩
      all_goals
        rw [run]
        unfold execSweepDone
        dsimp only
        rw [if_neg sweeps]
      · rw [if_neg (by decide), if_neg (by rw [show (tx || _) = true from own]; decide)]
      · rw [if_neg (by decide)]
        exact if_pos (by rw [show (tx || _) = false from other]; rfl)
      · rw [if_pos (by decide)]
        exact if_neg (not_not_intro one)
    case drift =>
      intro s1 r
      exact if_pos ⟨locked, off⟩
    · exact other.elim (fun ne => ne h.1) fun unlit => absurd (unlit.symm.trans h.2.1) (by decide)
  case held =>
    intro t
    have run : exec (.laneReadmitted g tx l) s = .next ((s.setHeldBack g tx l 2).offer g tx l) := by
      change execLaneReadmitted g tx l s = _
      unfold execLaneReadmitted
      rw [if_pos ⟨st, held⟩]
    rw [run, State.offer_timed]
    refine ⟨fun soft away => ?_, fun back => ?_⟩
    · rw [soft, away, Bool.or_false, if_neg Bool.false_ne_true]
    · rw [if_pos (Bool.or_eq_true_iff.mpr back)]

end Sys2Proof.Machine

/-! SUPPORT. Gloves, interlocks and laser faults (O58). -/

namespace Sys2Proof.Machine

variable {s : State}

/-- GLV.CTRL with a whole value stored: DRIFT_RATE takes only a value of its range (R281). -/
def State.glvCtrlStored (s : State) (g v : Nat) : State :=
  let rate := Csr.glvCtrl_DRIFT_RATE g
  let s1 := s.storeBut (Csr.glvCtrl g) v allBits [rate, Csr.glvCtrl_CAL_REQ g]
  if s.merged v allBits rate ≤ 0x80 then s1.setF rate (s.merged v allBits rate) else s1

/-- What a full write of GLV.CTRL does once it is stored: EN = 0 turns the glove off, and CAL_REQ is judged (R276, R285). -/
theorem glvCtrlWrite_full {g v : Nat} {t : State}
    (ht : t = if (s.glvCtrlStored g v).flag (Csr.glvCtrl_EN g) then s.glvCtrlStored g v else (s.glvCtrlStored g v).gloveOff g 0) :
    glvCtrlWrite g s v allBits =
      if wrote1 v allBits (Csr.glvCtrl_CAL_REQ g) && t.flag (Csr.glvCtrl_EN g) && !t.flag (Csr.glvCtrl_CAL_REQ g) then t.calStart g else t := by
  have wrote : wroteF v allBits (Csr.glvCtrl_DRIFT_RATE g) ≠ none := by
    rw [wroteF_full rfl (show (8 : Nat) ≠ 0 by decide)]
    exact Option.some_ne_none _
  have stored : (if wroteF v allBits (Csr.glvCtrl_DRIFT_RATE g) ≠ none ∧ s.merged v allBits (Csr.glvCtrl_DRIFT_RATE g) ≤ 0x80
      then (s.storeBut (Csr.glvCtrl g) v allBits [Csr.glvCtrl_DRIFT_RATE g, Csr.glvCtrl_CAL_REQ g]).setF (Csr.glvCtrl_DRIFT_RATE g)
        (s.merged v allBits (Csr.glvCtrl_DRIFT_RATE g))
      else s.storeBut (Csr.glvCtrl g) v allBits [Csr.glvCtrl_DRIFT_RATE g, Csr.glvCtrl_CAL_REQ g]) = s.glvCtrlStored g v :=
    if_congr (and_iff_right wrote) rfl rfl
  unfold glvCtrlWrite
  dsimp only
  rw [stored, ht]
  cases (s.glvCtrlStored g v).flag (Csr.glvCtrl_EN g) <;> rfl

/-- A full write of ELS.CTRL: LIGHT_EN opens or raises both lights, then COMMISSION and SAVE_TAB are carried out (R274, R290). -/
theorem elsCtrlWrite_full {v : Nat} {t : State}
    (ht : t = ((s.storeBut Csr.elsCtrl v allBits [Csr.elsCtrl_COMMISSION, Csr.elsCtrl_SAVE_TAB]).lightStep 0).lightStep 1) :
    elsCtrlWrite s v allBits =
      let c := v / 2 ^ Csr.elsCtrl_COMMISSION.lo % 2 ^ Csr.elsCtrl_COMMISSION.len
      let s3 := if bitOf c 0 then t.commission 0 else t
      let s4 := if bitOf c 1 then s3.commission 1 else s3
      if wrote1 v allBits Csr.elsCtrl_SAVE_TAB then s4.saveTables else s4 := by
  unfold elsCtrlWrite
  dsimp only
  rw [wroteF_full (f := Csr.elsCtrl_LIGHT_EN) rfl (show (2 : Nat) ≠ 0 by decide), if_neg (Option.some_ne_none _),
    wroteF_full (f := Csr.elsCtrl_COMMISSION) rfl (show (2 : Nat) ≠ 0 by decide), ← ht]
  rfl

/-- Settles O58: each event of a glove, of its interlocks and of its module does what its executor names. -/
theorem glovesAndInterlocks : Obligations.GlovesAndInterlocks := by
  refine ⟨fun s g => ⟨fun r => ?ring, fun a b => ?temp, fun port v own => ?ctrl, ?bringup, fun k txTap rxTap fresh => ?exchange⟩,
    fun s m => ⟨fun c cause => ?opens, fun none => ?closed, fun r => ?receptacle, fun status => ⟨fun first => ?fault, fun again => if_pos again⟩,
      ?cleared, fun port v own => ?light⟩⟩
  case ring =>
    intro tx lane heater b ff step k h aim ok
    refine ⟨fun corr => ?_, fun locked => ?_⟩
    · change execHeaterUpdate g r corr s = _
      unfold execHeaterUpdate
      dsimp only
      rw [if_pos ok]
    · change execRingRefine g r s = _
      unfold execRingRefine
      dsimp only
      rw [if_pos (by rw [show s.getF (laneState g (decide (r.val < 16)) (r.val % 16)) = 2 from locked,
        show ringOk (s.ringRec g r) = true from ok]; rfl)]
  case temp =>
    intro t hist
    change execGloveTempSample g a b s = _
    unfold execGloveTempSample
    rfl
  case ctrl =>
    intro rate s1 s2
    have stored : s.glvCtrlStored g v.toNat = s2 := rfl
    have run : s.hostWrite port (Csr.glvCtrl g) .full v (glvCtrlWrite g) = glvCtrlWrite g s v.toNat allBits :=
      State.hostWrite_owner own
    refine ⟨fun none => ?_, fun en req => ?_⟩
    · change Host.Outcome.next _ = _
      rw [run, glvCtrlWrite_full rfl, stored, none, Bool.false_and, Bool.false_and, if_neg Bool.false_ne_true]
    · change Host.Outcome.next _ = _
      rw [run, glvCtrlWrite_full rfl, stored, if_pos en, req, en, Bool.true_and, Bool.true_and]
      cases s2.flag (Csr.glvCtrl_CAL_REQ g) <;> rfl
  case bringup =>
    intro st m en service low
    have run : ∀ ok, exec (.gloveBringup g ok) s = execGloveBringup g ok s := fun _ => rfl
    have on : ¬ ((!s.flag (Csr.glvCtrl_EN g)) = true ∨ (!s.service) = true ∨ 3 ≤ st) := by
      rw [en, service]
      simp only [Bool.not_true, Bool.false_eq_true, false_or]
      omega
    refine ⟨?_, fun zero => ?_, fun one => ?_, ?_⟩
    · rw [run]
      unfold execGloveBringup
      dsimp only
      rw [if_neg on]
      exact if_pos rfl
    · rw [run]
      unfold execGloveBringup
      dsimp only
      rw [if_neg on, if_neg (by decide), if_neg (by omega)]
      exact if_pos zero
    · rw [run]
      unfold execGloveBringup
      dsimp only
      rw [if_neg on, if_neg (by decide), if_neg (by omega), if_neg (by omega)]
      exact (apply_ite Host.Outcome.next _ _ _).symm
    · intro s1 now two
      rw [run]
      unfold execGloveBringup
      dsimp only
      rw [if_neg on, if_neg (by decide)]
      exact if_pos two
  case exchange =>
    intro s0 own s1
    exact (apply_ite Host.Outcome.next _ _ _).symm
  case opens =>
    change execInterlockOpen m s = _
    unfold execInterlockOpen
    rw [cause]
  case closed =>
    change execInterlockOpen m s = _
    unfold execInterlockOpen
    rw [none]
  case receptacle =>
    intro n
    exact ⟨rfl, rfl⟩
  case fault =>
    exact if_neg (ne_true_of_eq_false first)
  case cleared => rfl
  case light =>
    intro s1 s2 c save s3 s4 end_
    have run : s.hostWrite port Csr.elsCtrl .full v elsCtrlWrite = end_ := (State.hostWrite_owner own).trans (elsCtrlWrite_full rfl)
    exact ⟨congrArg _ run, congrArg _ run, congrArg _ run⟩

end Sys2Proof.Machine

/-! SUPPORT. Laser modules and the switches of their sources (O59). -/

namespace Sys2Proof.Machine

/-- Settles O59: a module's polls, its fades, its command and each state of a switch do what their executors name. -/
theorem lasersAndSources : Obligations.LasersAndSources := by
  refine ⟨fun s m => ⟨fun status ident temp rs service => ?polls, fun here => if_pos here, fun gone => if_neg (ne_true_of_eq_false gone),
    fun port v own => ?command⟩, fun s m => ?switch⟩
  case polls =>
    have run : ∀ ok, exec (.laserPoll m ok status ident temp rs) s = execLaserPoll m ok status ident temp rs s := fun _ => rfl
    have on : ¬ (!s.service) = true := by
      rw [service]
      decide
    refine ⟨?_, ?_⟩
    · rw [run]
      unfold execLaserPoll
      rw [if_neg on]
      exact if_pos rfl
    · intro n s1
      rw [run]
      unfold execLaserPoll
      rw [if_neg on]
      exact if_neg Bool.false_ne_true
  case command =>
    intro s1 w src
    have run : exec (.srcCmd port m .full v) s = .next (srcCmdWrite m s v.toNat allBits) := congrArg _ (State.hostWrite_owner own)
    unfold srcCmdWrite at run
    dsimp only at run
    rw [run]
    refine ⟨fun no => ?_, fun go => ⟨fun bad => ?_, fun other good => ?_⟩⟩
    · rw [if_neg (ne_true_of_eq_false no)]
    · rw [if_pos go]
      exact congrArg _ (if_pos bad)
    · rw [if_pos go]
      exact congrArg _ (if_neg (not_or.mpr ⟨other, ne_true_of_eq_false good⟩))
  case switch =>
    intro w waits s0
    refine ⟨fun x idle next => ?start, fun idle none => ?none, fun st left => if_pos ⟨st, left⟩, fun st => ⟨if_pos st, if_pos st⟩,
      fun st => ?crossed, fun st timeout => ?relock, fun st => ?done⟩
    case start =>
      change execSpareSwitchStart m s = _
      unfold execSpareSwitchStart
      dsimp only
      rw [if_neg (not_not_intro idle), show List.find? _ (setBits (s.getF (Csr.elsModSw_PENDING m)) 8) = some x from next]
    case none =>
      change execSpareSwitchStart m s = _
      unfold execSpareSwitchStart
      dsimp only
      rw [if_neg (not_not_intro idle), show List.find? _ (setBits (s.getF (Csr.elsModSw_PENDING m)) 8) = Option.none from none]
    case crossed =>
      intro src s1
      exact if_pos st
    case relock =>
      intro away
      refine ⟨fun ends => ?_, fun early stays => ?_⟩
      · exact if_pos ⟨st, ends.imp (fun h => h) fun h => by rw [show List.filter _ (waveLanes m w) = [] from h]; rfl⟩
      · refine if_neg fun h => h.2.elim (fun late => absurd (early.symm.trans late) (by decide)) fun empty => stays ?_
        exact List.isEmpty_iff.mp empty
    case done =>
      intro s1 left
      exact if_pos st

end Sys2Proof.Machine

/-! SUPPORT. Clocks, supplies and heat (O60). -/

namespace Sys2Proof.Machine

variable {s : State}

/-- A full write of PWR.VSET stores MV where it lies in its range, and else only notes that it did not (R429). -/
theorem vsetWrite_full {v mv : Nat} (hv : mv = v / 2 ^ Csr.pwrVset_MV.lo % 2 ^ Csr.pwrVset_MV.len) :
    vsetWrite s v allBits =
      if s.getF Csr.pwrVset_FUSE_MV ≤ mv ∧ mv ≤ min (s.getF Csr.pwrVset_FUSE_MV + 50) 800
      then (s.storeBut Csr.pwrVset v allBits [Csr.pwrVset_MV]).setF Csr.pwrVset_MV mv
      else (s.storeBut Csr.pwrVset v allBits [Csr.pwrVset_MV]).setF Csr.pwrVset_VSET_IGN 1 := by
  unfold vsetWrite
  dsimp only
  rw [wroteF_full rfl (show (10 : Nat) ≠ 0 by decide), if_neg (Option.some_ne_none _), State.merged_full rfl, ← hv]

theorem State.storeBut_mem {a v m : Nat} {fs : List Fld} : (s.storeBut a v m fs).mem = s.mem := by
  unfold State.storeBut State.store State.wr
  rfl

/-- A field set on top of the stored PWR.VSET changes that register alone. -/
theorem State.vsetStored_frame {v n : Nat} {f : Fld} (hf : f.addr = Csr.pwrVset) :
    (∀ a, a ≠ Csr.pwrVset → ((s.storeBut Csr.pwrVset v allBits [Csr.pwrVset_MV]).setF f n).rd a = s.rd a) ∧
      ((s.storeBut Csr.pwrVset v allBits [Csr.pwrVset_MV]).setF f n).mem = s.mem :=
  ⟨fun _ h => (State.rd_setF_ne (hf ▸ h)).trans (State.rd_storeBut_ne h), (State.setF_mem _ _ _).trans State.storeBut_mem⟩

/-- The end of recovery touches TSTATE alone (R436). -/
def State.throttleEnd (s : State) : State :=
  if s.getF Csr.clkTclk_TSTATE = 2 ∧ s.getF Csr.clkTclk_KEEP = 64 then s.setF Csr.clkTclk_TSTATE 0 else s

theorem State.throttleEnd_getF {g : Fld} (h : Csr.clkTclk_TSTATE.apart g = true) : s.throttleEnd.getF g = s.getF g := by
  unfold State.throttleEnd
  split
  · exact State.getF_setF_apart rfl h
  · rfl

theorem State.throttleEnd_mem : s.throttleEnd.mem = s.mem := by
  unfold State.throttleEnd
  split
  · exact State.setF_mem _ _ _
  · rfl

/-- One step of KEEP towards TARGET (R436). -/
theorem execKeepSlewStep_moves (ne : s.getF Csr.clkTclk_KEEP ≠ s.getF Csr.clkTclk_TARGET)
    (go : s.rampHold.length ≤ 14 ∨ s.flag Csr.clkTclk_SLEWING = true) :
    ∃ b, exec .keepSlewStep s = .next (s.setFs
      [(Csr.clkTclk_KEEP, if s.getF Csr.clkTclk_KEEP < s.getF Csr.clkTclk_TARGET then s.getF Csr.clkTclk_KEEP + 1 else s.getF Csr.clkTclk_KEEP - 1),
       (Csr.clkTclk_SLEWING, b)]).throttleEnd := by
  refine ⟨(decide ((if s.getF Csr.clkTclk_KEEP < s.getF Csr.clkTclk_TARGET then s.getF Csr.clkTclk_KEEP + 1
    else s.getF Csr.clkTclk_KEEP - 1) ≠ s.getF Csr.clkTclk_TARGET)).toNat, ?_⟩
  change execKeepSlewStep s = _
  unfold execKeepSlewStep
  dsimp only
  rw [if_neg ne, if_neg]
  · rfl
  · rintro ⟨still, many⟩
    rcases go with few | slewing
    · omega
    · rw [slewing] at still
      exact absurd still (by decide)

theorem setFs_slew {k b : Nat} :
    (s.setFs [(Csr.clkTclk_KEEP, k), (Csr.clkTclk_SLEWING, b)]).getF Csr.clkTclk_KEEP = k % 2 ^ Csr.clkTclk_KEEP.len :=
  State.getF_setFs_head rfl fun _ hx => List.mem_singleton.mp hx ▸ ⟨rfl, rfl⟩

theorem setFs_slew_target {k b : Nat} :
    (s.setFs [(Csr.clkTclk_KEEP, k), (Csr.clkTclk_SLEWING, b)]).getF Csr.clkTclk_TARGET = s.getF Csr.clkTclk_TARGET := by
  refine State.getF_setFs_apart fun x hx => ?_
  rcases List.mem_cons.mp hx with rfl | hx
  · exact ⟨rfl, rfl⟩
  · exact List.mem_singleton.mp hx ▸ ⟨rfl, rfl⟩

/-- What a source other than the three clocks does (R361). -/
theorem execClockOrSupply_rail {r : BitVec 8} (h : 0x10 ≤ r.toNat) (h' : r.toNat ≤ 0x19) :
    exec (.clockOrSupply r) s =
      let t := (s.setF Csr.pwrRails_GOOD (clearBit (s.getF Csr.pwrRails_GOOD) (r.toNat - 0x10))).deviceFatal
        ⟨0x0904, 5, 255, 11, 0, 0xFFFF, 0, [(1, r.toNat)]⟩
      .next (if r.toNat ≤ 0x11 then t.goDark else t) := by
  have dark : (r.toNat = 1 ∨ r.toNat = 0x10 ∨ r.toNat = 0x11) ↔ r.toNat ≤ 0x11 := by omega
  change execClockOrSupply r s = _
  unfold execClockOrSupply
  dsimp only
  split
  · omega
  · omega
  · omega
  · rw [if_pos ⟨h, h'⟩, if_congr dark rfl rfl]

/-- Settles O60: each event of a clock, a supply or a sensor does what its executor names. -/
theorem clocksAndHeat : Obligations.ClocksAndHeat := by
  refine ⟨fun s => ⟨?clocks, fun n => ?unlock, fun g off => ?retry, fun port v own => ?vset, fun e slow warn mv amps temp status => ?poll,
    fun ne go => ?slew, fun ne many still => ?held⟩,
    fun s => ⟨fun rs due => ?sample, ?hot, fun st cool => if_pos (by rw [st, cool]; rfl), fun st low => if_pos ?raise,
      fun trip crit => if_pos (by rw [trip, crit]; rfl), fun trip => if_neg (by rw [trip]; exact Bool.false_ne_true),
      fun port c v own => ?hold⟩⟩
  case clocks =>
    intro lost rail
    refine ⟨rfl, rfl, ?_, fun r h h' => execClockOrSupply_rail h h'⟩
    exact (apply_ite Host.Outcome.next _ _ _).symm
  case unlock =>
    intro s1 k s2
    refine ⟨fun low => if_pos low, fun high => (if_neg (by omega)).trans ?_⟩
    exact (apply_ite Host.Outcome.next _ _ _).symm
  case retry =>
    intro s1
    refine ⟨if_pos (by rw [Bool.not_false, Bool.or_true]), (if_neg ?_).trans ?_⟩
    · rw [off]
      decide
    · exact (apply_ite Host.Outcome.next _ _ _).symm
  case vset =>
    intro mv fuse
    have run : exec (.vsetWrite port .full v) s = .next (vsetWrite s v.toNat allBits) := congrArg _ (State.hostWrite_owner own)
    rw [vsetWrite_full (mv := mv) rfl] at run
    refine ⟨fun fits => ?_, fun other => ?_⟩
    · rw [if_pos fits] at run
      exact answers_of run ⟨(State.getF_setF_same rfl).trans (Nat.mod_mod _ _), State.vsetStored_frame rfl⟩
    · rw [if_neg other] at run
      exact answers_of run ⟨(State.getF_setF_apart rfl rfl).trans (State.getF_storeBut_keep (.inr (by decide +kernel))),
        State.getF_setF_same rfl, State.vsetStored_frame rfl⟩
  case poll =>
    intro s1 s2 n s3
    have run : ∀ ok, exec (.avsbusPoll e ok slow warn mv amps temp status) s = execAvsbusPoll e ok slow warn mv amps temp status s :=
      fun _ => rfl
    refine ⟨?_, ?_⟩
    · rw [run]
      unfold execAvsbusPoll
      cases slow <;> cases warn <;> rfl
    · rw [run]
      exact (apply_ite Host.Outcome.next _ _ _).symm
  case slew =>
    obtain ⟨b, run⟩ := execKeepSlewStep_moves ne go
    refine answers_of run ⟨fun up => ?_, fun down => ?_, ?_, ?_⟩
    · rw [State.throttleEnd_getF rfl, setFs_slew, if_pos up]
    · rw [State.throttleEnd_getF rfl, setFs_slew, if_neg (by omega), Nat.mod_eq_of_lt]
      have := State.getF_lt (s := s) (f := Csr.clkTclk_KEEP)
      omega
    · rw [State.throttleEnd_getF rfl, setFs_slew_target]
    · rw [State.throttleEnd_mem, State.setFs_rest]
  case held =>
    change execKeepSlewStep s = _
    unfold execKeepSlewStep
    dsimp only
    rw [if_neg ne]
    exact if_pos ⟨by rw [still]; rfl, many⟩
  case sample =>
    intro s1 est limit crit s2
    change execSensorSample rs due s = _
    unfold execSensorSample
    rfl
  case hot =>
    intro t st armed hot keep
    change execThrottleStillHot s = _
    unfold execThrottleStillHot
    dsimp only
    rw [if_pos (by rw [st, armed, hot, keep]; simp [t])]
  case raise =>
    rw [st]
    obtain cold | disarmed := low
    · rw [cold]
      rfl
    · rw [disarmed, Bool.not_false, Bool.or_true]
      rfl
  case hold =>
    intro t
    have run : exec (.hold port c .full v) s = .next (arrCtrlWrite c s v.toNat allBits) := congrArg _ (State.hostWrite_owner own)
    refine ⟨fun off => ?_, fun was on => ?_⟩
    · rw [run]
      exact congrArg _ (if_neg (by rw [show State.flag _ _ = false from off]; exact Bool.false_ne_true))
    · rw [run]
      exact congrArg _ (if_pos (by rw [show State.flag _ _ = true from on, was]; rfl))

end Sys2Proof.Machine
